-- ==== Sys2Proof/Word.lean ====
section
/-!
DEFINITION. The word types of the module: every field of a register, descriptor or message is one of these
widths (R2, R11), and nothing more.
-/
namespace Sys2Proof

/-- One byte. -/
abbrev Byte := BitVec 8
/-- A 16-bit field. -/
abbrev W16 := BitVec 16
/-- A 32-bit field; also the bits of an FP32 value. -/
abbrev W32 := BitVec 32
/-- A 64-bit field; also a fabric time count (R476). -/
abbrev W64 := BitVec 64

end Sys2Proof
end

