-- ==== Sys2Proof/Syntax.lean ====
section
/-!
DEFINITION. The commands the module takes: one constructor for each row of spec/opcode_table.json, in the table's
order, with the row's operands. What comes from outside (a written value, a packet, a measured figure, the outcome of
a physical act) is an operand; everything else is state.
-/
namespace Sys2Proof

/-- What the physical parts report while a cold start runs (R513). -/
structure StartReport where
  /-- the random-source health tests passed -/
  rngOk : Bool
  /-- the creel image could be read -/
  imageReadable : Bool
  /-- the remainder of the body agreed with BODY_DIGEST -/
  remainderOk : Bool
  /-- for each of the eight stacks, whether it trained -/
  stackUnits : List Bool
  /-- for each of the four ports, the wavelength map it trained with; 0: not UP by 1 s -/
  ports : List (BitVec 9)
  /-- for each of the eight spindles, whether its self-test passed -/
  spindles : List Bool
  /-- CXL width and rate code reached -/
  cxlWidth : Nat
  cxlRate : Nat
  flit256 : Bool
  /-- pages of the generation record that could not be read: kind of object, first and last index (R515) -/
  gensLost : List (Nat × Nat × Nat)
  /-- reels that lost flush pages: skein index and the first token identifier lost (R261, R467) -/
  reelsLost : List (Nat × Nat)
deriving DecidableEq, Repr

/-- What the creel patrol found in one page that it could correct: the bits that the decoder corrected (R259). -/
structure PageBits where
  blk : Nat
  page : Nat
  bits : Nat
deriving DecidableEq, Repr

/-- How an SPDM handshake with a peer ended (R431–R434). -/
structure Handshake where
  authentic : Bool
  hybrid : Bool
  /-- the session index that the peer chose for its receive side -/
  peerIndex : Nat
  /-- the first 16 bytes of the SHA-384 of the peer's leaf certificate -/
  leafHead : List Byte
deriving DecidableEq, Repr

/-- What a flyer handshake packet does to sessions (R433, R434). -/
inductive HandshakeStep where
  /-- a message in the middle of a handshake -/
  | goes
  /-- the message that ends a handshake -/
  | ends (h : Handshake)
  /-- END_SESSION of a session, by the module's index -/
  | closes (sess : Nat)
deriving DecidableEq, Repr

/-- A corrupted entry that the prefix shadow comparison meets (R215). -/
inductive PrefixFault where
  /-- the entry at this position differs from the shadow -/
  | mismatch (pos : Nat)
  /-- a shadow line is uncorrectable: the positions that it covers -/
  | shadowLost (covered : List Nat)
deriving DecidableEq, Repr

/-- An uncorrectable or corrected line met by a scan of DRAM (R443, R444): the module physical address and the number
of erroneous symbols. -/
structure LineError where
  addr : Nat
  symbols : Nat
deriving DecidableEq, Repr

/-- What a wavelength's receiver measured since the last health computation (R454): wavelength (port × 9 + physical), FEC symbols
corrected, whole decades of the pre-FEC symbol error ratio above 10^−6, uncorrectable codewords, and the whole percent by
which laser bias exceeds its value at training. -/
structure WaveHealth where
  wave : Nat
  symbols : Nat
  decades : Nat
  codewords : Nat
  bias : Nat
deriving DecidableEq, Repr

/-- The TSP requests of R371. -/
inductive TspRequest where
  | lockConfiguration
  | unlockConfiguration
  | getTargetTeState (entry : Nat)
  | setTargetTeState (entry : Nat) (te : Bool)
deriving DecidableEq, Repr

/-- The MLD commands of R340. -/
inductive FmRequest where
  | getLdInfo
  | getLdAllocations
  | setLdAllocations (ld : Nat) (bound : Bool) (allocation : Nat)
  | getQosControl
  | setQosControl (value : Nat)
deriving DecidableEq, Repr

/-- The SPDM messages over DOE of R431, with what they carry that bears on the module's state. -/
inductive DoeMessage where
  /-- any message that only asks for an answer: GET_VERSION, GET_CAPABILITIES, … -/
  | other (bytes : List Byte)
  /-- GET_MEASUREMENTS for one block 1–4 -/
  | getMeasurements (block : Nat)
  /-- FINISH of a session -/
  | finish (h : Handshake)
  /-- IDE_KM sets the keys of the CXL.cachemem stream (`mem`), which then runs in skid or containment mode, or of the LD's
  CXL.io stream -/
  | ideKeySet (mem skid : Bool)
  /-- a table access: one entry of the CDAT -/
  | readCdat (entry : Nat)
deriving DecidableEq, Repr

/-- The commands, in the order of spec/opcode_table.json. -/
inductive Instr where
  -- Host accesses
  /-- SQ_TAIL_WRITE (R379): LD, mailbox, value written. -/
  | sqTailWrite (ld m : Nat) (v : W32)
  /-- CQ_HEAD_WRITE (R378). -/
  | cqHeadWrite (ld m : Nat) (v : W32)
  /-- EVENT_HEAD_WRITE (R393). -/
  | eventHeadWrite (ld m : Nat) (v : W32)
  /-- JOB_QUEUE_DOORBELL (R345): LD, mailbox page, the 60 bits below KIND. -/
  | jobQueueDoorbell (ld m : Nat) (v : BitVec 60)
  /-- SEND_QUEUE_DOORBELL (R345). -/
  | sendQueueDoorbell (ld m : Nat) (v : BitVec 60)
  /-- TRIGGER_RING_DOORBELL (R552). -/
  | triggerRingDoorbell (ld m : Nat) (v : BitVec 60)
  /-- SRQ_DOORBELL (R302). -/
  | srqDoorbell (ld m : Nat) (v : BitVec 60)
  /-- CQ_HEAD_UPDATE (R345). -/
  | cqHeadUpdate (ld m : Nat) (v : BitVec 60)
  /-- W1C_FLAG_WRITE (R6): LD, flag row, value, the flags that hardware sets in the same cycle. -/
  | w1cFlagWrite (ld row : Nat) (v hwSet : W32)
  /-- RC_COUNTER_READ (R7): LD, flag row, first counter byte, bytes read, the flags whose counters hardware
  increments in the same cycle. -/
  | rcCounterRead (ld row first width : Nat) (hwInc : W32)
  /-- TIME_NOW_LOW_READ (R478). -/
  | timeNowLowRead (ld : Nat)
  /-- TIME_NOW_HIGH_READ (R478). -/
  | timeNowHighRead (ld : Nat)
  /-- RECOVERY_GO (R526): LD and the LENGTH written with GO. -/
  | recoveryGo (ld : Nat) (length : W32)
  /-- REGISTER_WRITE (R342): LD, BAR0 offset, bytes written. -/
  | registerWrite (ld off : Nat) (data : List Byte)
  /-- PROBE_READ (R356): LD and skein index. -/
  | probeRead (ld idx : Nat)
  /-- PROBE_WRITE (R360). -/
  | probeWrite (ld idx : Nat)
  /-- LENT_READ (R362): LD and lent-window offset of the line. -/
  | lentRead (ld off : Nat)
  /-- LENT_WRITE (R362): the bytes of one line. -/
  | lentWrite (ld off : Nat) (line : List Byte)
  /-- QUEUE_WINDOW_ACCESS (R354): a read of `len` bytes, or a write where data is given. -/
  | queueWindowAccess (ld off len : Nat) (data : Option (List Byte))
  /-- HDM_DECODER_COMMIT (R352): LD, decoder, DPA base and size. -/
  | hdmDecoderCommit (ld dec base size : Nat)
  -- Mailbox commands: mailbox and submission slot of the fetched command
  /-- GET_INTERFACE_VERSION (R385). -/
  | getInterfaceVersion (m slot : Nat)
  /-- SET_INTERFACE_VERSION (R385). -/
  | setInterfaceVersion (m slot : Nat)
  /-- MODULE_INFO (R401). -/
  | moduleInfo (m slot : Nat)
  /-- MODULE_CONFIGURE (R402). -/
  | moduleConfigure (m slot : Nat)
  /-- LD_CONFIGURE (R340). -/
  | ldConfigure (m slot : Nat)
  /-- MAILBOX_BIND (R374). -/
  | mailboxBind (m slot : Nat)
  /-- MAILBOX_UNBIND (R376). -/
  | mailboxUnbind (m slot : Nat)
  /-- TENANT_CREATE (R403). -/
  | tenantCreate (m slot : Nat)
  /-- TENANT_DESTROY (R441). -/
  | tenantDestroy (m slot : Nat)
  /-- QUOTA_SET (R225). -/
  | quotaSet (m slot : Nat)
  /-- TENANT_INFO (R403). -/
  | tenantInfo (m slot : Nat)
  /-- SKEIN_CREATE (R405). -/
  | skeinCreate (m slot : Nat)
  /-- SKEIN_DESTROY (R51). -/
  | skeinDestroy (m slot : Nat)
  /-- SKEIN_INFO (R404). -/
  | skeinInfo (m slot : Nat)
  /-- SKEIN_SET_HINT (R404). -/
  | skeinSetHint (m slot : Nat)
  /-- LEASE_SWAP (R149). -/
  | leaseSwap (m slot : Nat)
  /-- PROGRAM_LOAD (R196). -/
  | programLoad (m slot : Nat)
  /-- PROGRAM_UNLOAD (R197). -/
  | programUnload (m slot : Nat)
  /-- TABLE_LOAD (R406). -/
  | tableLoad (m slot : Nat)
  /-- TABLE_UNLOAD (R406). -/
  | tableUnload (m slot : Nat)
  /-- CQ_CREATE (R303). -/
  | cqCreate (m slot : Nat)
  /-- CQ_DESTROY (R407). -/
  | cqDestroy (m slot : Nat)
  /-- JOB_QUEUE_CREATE (R119). -/
  | jobQueueCreate (m slot : Nat)
  /-- JOB_QUEUE_DESTROY (R407). -/
  | jobQueueDestroy (m slot : Nat)
  /-- JOB_CANCEL (R407). -/
  | jobCancel (m slot : Nat)
  /-- COMBINE_RELEASE (R407). -/
  | combineRelease (m slot : Nat)
  /-- QUEUE_STATUS (R318). -/
  | queueStatus (m slot : Nat)
  /-- TRIGGER_LIST_CREATE (R305). -/
  | triggerListCreate (m slot : Nat)
  /-- TRIGGER_LIST_DESTROY (R317). -/
  | triggerListDestroy (m slot : Nat)
  /-- TRIGGER_POST (R309). -/
  | triggerPost (m slot : Nat)
  /-- TRIGGER_CANCEL (R317). -/
  | triggerCancel (m slot : Nat)
  /-- TRIGGER_RESUME (R316). -/
  | triggerResume (m slot : Nat)
  /-- CONN_CREATE (R281). -/
  | connCreate (m slot : Nat)
  /-- CONN_MODIFY (R408). -/
  | connModify (m slot : Nat)
  /-- CONN_DRAIN (R282). -/
  | connDrain (m slot : Nat)
  /-- CONN_DESTROY (R408). -/
  | connDestroy (m slot : Nat)
  /-- SRQ_CREATE (R302). -/
  | srqCreate (m slot : Nat)
  /-- SRQ_DESTROY (R408). -/
  | srqDestroy (m slot : Nat)
  /-- REGION_REGISTER (R284). -/
  | regionRegister (m slot : Nat)
  /-- REGION_DEREGISTER (R286). -/
  | regionDeregister (m slot : Nat)
  /-- LINK_SPARE (R265). -/
  | linkSpare (m slot : Nat)
  /-- PORT_CONFIGURE (R408). -/
  | portConfigure (m slot : Nat)
  /-- SHAPER_SET (R327). -/
  | shaperSet (m slot : Nat)
  /-- GATE_SET (R332). -/
  | gateSet (m slot : Nat)
  /-- RUN_CREATE (R199). -/
  | runCreate (m slot : Nat)
  /-- RUN_ATTACH (R202). -/
  | runAttach (m slot : Nat)
  /-- RUN_RELEASE (R203). -/
  | runRelease (m slot : Nat)
  /-- PREFIX_INSERT (R209). -/
  | prefixInsert (m slot : Nat)
  /-- PREFIX_REMOVE (R212). -/
  | prefixRemove (m slot : Nat)
  /-- PREFIX_PROBE (R213). -/
  | prefixProbe (m slot : Nat)
  /-- SKEIN_DOFF (R233). -/
  | skeinDoff (m slot : Nat)
  /-- SKEIN_RELOAD (R234). -/
  | skeinReload (m slot : Nat)
  /-- TIER_PIN (R230). -/
  | tierPin (m slot : Nat)
  /-- TIER_UNPIN (R230). -/
  | tierUnpin (m slot : Nat)
  /-- LENT_GRANT (R361). -/
  | lentGrant (m slot : Nat)
  /-- LENT_REVOKE (R364). -/
  | lentRevoke (m slot : Nat)
  /-- HOST_FENCE (R369). -/
  | hostFence (m slot : Nat)
  /-- PUBLICATION_CREATE (R367). -/
  | publicationCreate (m slot : Nat)
  /-- PUBLICATION_DELETE (R412). -/
  | publicationDelete (m slot : Nat)
  /-- LENT_PUBLISH (R367). -/
  | lentPublish (m slot : Nat)
  /-- PUBLICATION_GET (R412). -/
  | publicationGet (m slot : Nat)
  /-- UNIT_SERVICE (R413). -/
  | unitService (m slot : Nat)
  /-- MARGIN_SWEEP (R462): errors and operations the unit showed at each point. -/
  | marginSweep (m slot : Nat) (points : List (Nat × Nat))
  /-- AUDIT_SET (R413). -/
  | auditSet (m slot : Nat)
  /-- BUDGET_SET (R445). -/
  | budgetSet (m slot : Nat)
  /-- HEALTH_READ (R454). -/
  | healthRead (m slot : Nat)
  /-- SAMPLE_SET (R334). -/
  | sampleSet (m slot : Nat)
  /-- TELEMETRY_READ (R414). -/
  | telemetryRead (m slot : Nat)
  /-- STATS_READ (R414). -/
  | statsRead (m slot : Nat)
  /-- TIME_CONFIGURE (R479). -/
  | timeConfigure (m slot : Nat)
  /-- TIME_INFO (R482). -/
  | timeInfo (m slot : Nat)
  /-- POWER_STATE_SET (R495). -/
  | powerStateSet (m slot : Nat)
  /-- POWER_CAP_SET (R506). -/
  | powerCapSet (m slot : Nat)
  /-- DOZE_CONFIGURE (R501). -/
  | dozeConfigure (m slot : Nat)
  /-- POWER_INFO (R416). -/
  | powerInfo (m slot : Nat)
  /-- FIRMWARE_STAGE (R422). -/
  | firmwareStage (m slot : Nat)
  /-- FIRMWARE_ACTIVATE (R522): whether the read-back of the creel image agreed. -/
  | firmwareActivate (m slot : Nat) (readBackOk : Bool)
  /-- FIRMWARE_INFO (R417). -/
  | firmwareInfo (m slot : Nat)
  /-- SVN_COMMIT (R423). -/
  | svnCommit (m slot : Nat)
  /-- ATTEST_REPORT (R428). -/
  | attestReport (m slot : Nat)
  /-- SESSION_OPEN (R431): how the handshake with the peer ended. -/
  | sessionOpen (m slot : Nat) (h : Handshake)
  /-- SESSION_CLOSE (R433). -/
  | sessionClose (m slot : Nat)
  -- Jobs and combines
  /-- JOB_ADMISSION (R124): the head entry of a job queue. -/
  | jobAdmission (q : Nat)
  /-- JOB_ADMISSION_RESUME (R126). -/
  | jobAdmissionResume (j : Nat)
  /-- ADMIT_WAIT_EXPIRY (R126). -/
  | admitWaitExpiry (j : Nat)
  /-- SKETCH_WAIT_DONE (R489). -/
  | sketchWaitDone (j : Nat)
  /-- LAUNCH_COUNT_REACHED (R127). -/
  | launchCountReached (j : Nat)
  /-- LEA_ARRIVAL (R101): job, work item, lea 0–3, and the spindle and sub-array it reaches. -/
  | leaArrival (j item lea spindle sub : Nat)
  /-- SPINDLE_ITEM_COMPLETE (R106). -/
  | spindleItemComplete (j item : Nat)
  /-- SPINDLE_BARRIER_ARRIVE (R118). -/
  | spindleBarrierArrive (j spindle : Nat)
  /-- JOB_STREAM_COMPLETE (R105): for a whorl job without DETERMINISTIC, the order in which its bobbins completed. -/
  | jobStreamComplete (j : Nat) (order : List Nat)
  /-- SPINDLE_LEAVES_SERVICE (R109). -/
  | spindleLeavesService (spindle : Nat)
  /-- COMBINE_DESCRIPTOR_POST (R135): the head entry of a job queue. -/
  | combineDescriptorPost (q : Nat)
  /-- COPY (R168). -/
  | copy (q : Nat)
  /-- COMPACT (R169). -/
  | compact (q : Nat)
  /-- VERIFY (R170). -/
  | verify (q : Nat)
  /-- WAIT_DESCRIPTOR (R320): kind 0 job queue, 1 send queue; the queue. -/
  | waitDescriptor (kind q : Nat)
  /-- WAIT_COUNTER_CHANGE (R320). -/
  | waitCounterChange (kind q : Nat)
  /-- WAIT_TIMEOUT_EXPIRY (R320). -/
  | waitTimeoutExpiry (kind q : Nat)
  -- Transport
  /-- WORK_REQUEST_POST (R283): the head entry of a connection's send queue. -/
  | workRequestPost (c : Nat)
  /-- LINK_FRAME_RECEIVE (R273): port, the frame's bytes, whether it met an uncorrectable codeword (R272). -/
  | linkFrameReceive (port : Nat) (frame : List Byte) (uncorrectable : Bool)
  /-- WRITE_EXECUTE (R285): connection index and MSG_SEQ of the received message. -/
  | writeExecute (c seq : Nat)
  /-- IMPORT_WRITE (R287). -/
  | importWrite (c seq : Nat)
  /-- READ_EXECUTE (R287). -/
  | readExecute (c seq : Nat)
  /-- READ_RESPONSE_RECEIVE (R277). -/
  | readResponseReceive (c seq : Nat)
  /-- SEND_EXECUTE (R302). -/
  | sendExecute (c seq : Nat)
  /-- FETCH_ADD_EXECUTE (R277). -/
  | fetchAddExecute (c seq : Nat)
  /-- COMPARE_SWAP_EXECUTE (R288). -/
  | compareSwapExecute (c seq : Nat)
  /-- ATOMIC_RESPONSE_RECEIVE (R277). -/
  | atomicResponseReceive (c seq : Nat)
  /-- QUERY_EXECUTE (R310). -/
  | queryExecute (c seq : Nat)
  /-- PLY_EXECUTE (R290). -/
  | plyExecute (c seq : Nat)
  /-- APPEND_EXECUTE (R141). -/
  | appendExecute (c seq : Nat)
  /-- APPEND_COMPLETE (R144). -/
  | appendComplete (c seq : Nat)
  /-- SKETCH_UPDATE (R160): the stack whose queue's oldest entry is applied. -/
  | sketchUpdate (stack : Nat)
  /-- BLOCK_HASH_COMPUTE (R173): skein index and block. -/
  | blockHashCompute (idx block : Nat)
  /-- ACK_RECEIVE (R298): the oldest received ACK of a connection. -/
  | ackReceive (c : Nat)
  /-- NAK_RECEIVE (R301). -/
  | nakReceive (c : Nat)
  /-- ACK_COALESCE_EXPIRY (R298). -/
  | ackCoalesceExpiry (c : Nat)
  /-- ACK_TIMEOUT_EXPIRY (R300). -/
  | ackTimeoutExpiry (c seq : Nat)
  /-- REASSEMBLY_TIMEOUT_EXPIRY (R294). -/
  | reassemblyTimeoutExpiry (c seq : Nat)
  /-- TIMED_HOLD_DELIVERY (R315): the action's place in the timed hold. -/
  | timedHoldDelivery (k : Nat)
  /-- HELD_ACTION_SLOT_FREE (R315). -/
  | heldActionSlotFree (k : Nat)
  -- Ports and scheduling
  /-- FRAME_TRANSMIT_END (R330). -/
  | frameTransmitEnd (port : Nat)
  /-- GATE_ENTRY_CHANGE (R332). -/
  | gateEntryChange (port : Nat)
  /-- GATE_LIST_SWITCH (R332). -/
  | gateListSwitch (port : Nat)
  /-- SAMPLE_PERIOD_BOUNDARY (R334). -/
  | samplePeriodBoundary
  /-- LINK_ACK_RECEIVE (R273). -/
  | linkAckReceive (port : Nat) (lseq : Byte)
  /-- REPLAY_REQ_RECEIVE (R273). -/
  | replayReqReceive (port : Nat) (lseq : Byte)
  /-- LINK_ACK_TIMER (R273). -/
  | linkAckTimer (port : Nat)
  /-- LINK_REPLAY_TIMEOUT (R273). -/
  | linkReplayTimeout (port : Nat)
  /-- RETRAIN_LIMIT_EXPIRY (R267). -/
  | retrainLimitExpiry (port : Nat)
  /-- SWITCH_RECEIVE (R264): new wavelength map and number of stripe units. -/
  | switchReceive (port : Nat) (map : BitVec 9) (units : Byte)
  /-- WAVELENGTH_FAILURE (R265). -/
  | wavelengthFailure (port wl : Nat)
  /-- LASER_BANK_FAILURE (R266). -/
  | laserBankFailure (port : Nat)
  /-- LOSS_OF_LIGHT (R266). -/
  | lossOfLight (port : Nat)
  /-- LOSS_OF_LIGHT_EXPIRY (R273). -/
  | lossOfLightExpiry (port : Nat)
  /-- WAKE_REQUEST_RECEIVE (R503). -/
  | wakeRequestReceive (port : Nat) (node : BitVec 10)
  /-- RESUMED_RECEIVE (R503). -/
  | resumedReceive (port : Nat) (node : BitVec 10)
  /-- ENTERING_LOW_RATE_RECEIVE (R503). -/
  | enteringLowRateReceive (port : Nat) (node : BitVec 10)
  -- Time
  /-- SYNC_RECEIVE (R481): HOPS and TIME of the block. -/
  | syncReceive (port : Nat) (hops : BitVec 6) (t : BitVec 48)
  /-- DELAY_REQ_RECEIVE (R481). -/
  | delayReqReceive (port : Nat) (hops : BitVec 6)
  /-- DELAY_RESP_RECEIVE (R482). -/
  | delayRespReceive (port : Nat) (hops : BitVec 6) (t : BitVec 48)
  /-- DELAY_RESP_LIMIT_EXPIRY (R481). -/
  | delayRespLimitExpiry (port : Nat)
  /-- SYNC_INTERVAL (R481). -/
  | syncInterval (port : Nat)
  /-- SYNC_LOSS_EXPIRY (R482). -/
  | syncLossExpiry
  /-- TIME_REF_EDGE (R484). -/
  | timeRefEdge
  /-- REFERENCE_EDGE_LOSS (R484). -/
  | referenceEdgeLoss
  /-- HANDSHAKE_PACKET_RECEIVE (R433): port, sending node, message, and what it does to the handshake. -/
  | handshakePacketReceive (port node : Nat) (msg : List Byte) (step : HandshakeStep)
  /-- SESSION_REKEY (R279). -/
  | sessionRekey (sess : Nat)
  /-- KEY_PHASE_OVERLAP_EXPIRY (R279). -/
  | keyPhaseOverlapExpiry (sess : Nat)
  -- Leases, tiers, prefix table, lent memory
  /-- LEASE_EXPIRY (R150): skein index. -/
  | leaseExpiry (idx : Nat)
  /-- ORPHAN_HOLD_END (R150). -/
  | orphanHoldEnd (idx : Nat)
  /-- COMBINE_TIMEOUT_EXPIRY (R139): COMBINE_ID. -/
  | combineTimeoutExpiry (id : Nat)
  /-- SWEEP_START (R231). -/
  | sweepStart
  /-- BOBBIN_MOVE_COMMIT (R50): the move's number. -/
  | bobbinMoveCommit (mv : Nat)
  /-- BOBBIN_MOVE_ABANDON (R50): whether a check value failed (true) or the destination failed (false). -/
  | bobbinMoveAbandon (mv : Nat) (checkFailed : Bool)
  /-- DOFF_END (R233): skein index. -/
  | doffEnd (idx : Nat)
  /-- RELOAD_END (R234). -/
  | reloadEnd (idx : Nat)
  /-- DAMAGED_DEMOTION (R42): skein index and bobbin of a row. -/
  | damagedDemotion (idx layer hg bob : Nat)
  /-- SLOT_FREE (R48): tier and PBN. -/
  | slotFree (tier pbn : Nat)
  /-- SKEIN_RETIREMENT_END (R51). -/
  | skeinRetirementEnd (idx : Nat)
  /-- PREFIX_SHIFT_COMPLETE (R210). -/
  | prefixShiftComplete
  /-- PREFIX_SHADOW_COMPARE (R215): the faults it meets. -/
  | prefixShadowCompare (faults : List PrefixFault)
  /-- LENT_BAND_CHANGE_COMPLETE (R238). -/
  | lentBandChangeComplete
  /-- HOST_FENCE_DRAIN (R369). -/
  | hostFenceDrain (ld : Nat)
  /-- LENT_REVOKE_DRAIN (R364): host-table entry. -/
  | lentRevokeDrain (entry : Nat)
  -- Reliability and the creel
  /-- PATROL_BUDGET_PERIOD (R447): bytes the pass advances in this period, and the line errors it meets. -/
  | patrolBudgetPeriod (bytes : Nat) (errors : List LineError)
  /-- CALIBRATION_STEP (R448): physical channel of the module, the margin measured in mUI, and whether the stack's
  temperature has changed by 5 °C since the last full calibration. -/
  | calibrationStep (chan margin : Nat) (restart : Bool)
  /-- CHANNEL_SPARE_COPY_COMPLETE (R451): stack and logical channel. -/
  | channelSpareCopyComplete (stack chan : Nat)
  /-- CHANNEL_FAILURE (R452). -/
  | channelFailure (stack chan : Nat)
  /-- COLUMN_SELF_TEST_COMPLETE (R453): the physical columns that failed. -/
  | columnSelfTestComplete (spindle : Nat) (failed : List Nat)
  /-- HEALTH_RECOMPUTE (R454): what was measured of the wavelengths. -/
  | healthRecompute (measured : List WaveHealth)
  /-- SHADOW_AUDIT (R458): job, item, lea, auditor; the rows whose exit states differed, each with its physical
  column. -/
  | shadowAudit (j item lea auditor : Nat) (differing : List (Nat × Nat))
  /-- AUDIT_ARBITER_COMPLETE (R459): log index, arbiter, whether it agrees with the original and with the auditor. -/
  | auditArbiterComplete (log : Nat) (arbiter : Option Nat) (agreesOriginal agreesAuditor : Bool)
  /-- MERGE_START (R243): logical block. -/
  | mergeStart (lb : Nat)
  /-- MERGE_COMPLETE (R243). -/
  | mergeComplete (lb : Nat)
  /-- MERGE_DEST_FAIL (R255). -/
  | mergeDestFail (lb : Nat)
  /-- CREEL_PROGRAM_FAIL (R253): physical block. -/
  | creelProgramFail (blk : Nat)
  /-- CREEL_ERASE_FAIL (R254). -/
  | creelEraseFail (blk : Nat)
  /-- CREEL_ERASE_COMPLETE (R241). -/
  | creelEraseComplete (blk : Nat)
  /-- CREEL_SCAN_COMPLETE (R251): the pages, as block and page, that are uncorrectable or whose RECORD_CHECK fails. -/
  | creelScanComplete (bad : List (Nat × Nat))
  /-- CREEL_PATROL_PERIOD (R259): pages read, the corrected bits found, and the uncorrectable pages as block and page. -/
  | creelPatrolPeriod (pages : Nat) (corrected : List PageBits) (bad : List (Nat × Nat))
  -- Power, pins, CXL link
  /-- INPUT_MEASUREMENT (R492): millivolts. -/
  | inputMeasurement (mv : Nat)
  /-- INPUT_QUALIFIED (R492). -/
  | inputQualified
  /-- SENSE_BREAK (R530). -/
  | senseBreak
  /-- POWER_CAP_GOVERNOR_STEP (R506): draw over the last 1 ms in watts. -/
  | powerCapGovernorStep (watts : Nat)
  /-- SENSOR_THRESHOLD_CROSSING (R507): sensor ID of R547 and its reading in °C. -/
  | sensorThresholdCrossing (sensor reading : Nat)
  /-- HARD_TRIP (R508). -/
  | hardTrip (sensor reading : Nat)
  /-- HARD_TRIP_RAILS_OFF (R508). -/
  | hardTripRailsOff
  /-- COOLANT_CHECK (R546): inlet, outlet and dew point in tenths of a degree. -/
  | coolantCheck (inlet outlet dew : Nat)
  /-- HOLD_ENTRY_COMPLETE (R496). -/
  | holdEntryComplete
  /-- DOZE_ENTRY_READY (R497). -/
  | dozeEntryReady
  /-- DOZE_SAMPLE (R501): hottest sensor reading. -/
  | dozeSample (hottest : Nat)
  /-- CXL_WAKE_REQUEST (R502): LD, lent window (true) or queue window, offset, data of a write, length of a read. -/
  | cxlWakeRequest (ld : Nat) (lent : Bool) (off len : Nat) (data : Option (List Byte))
  /-- DOZE_EXIT_COMPLETE (R504). -/
  | dozeExitComplete
  /-- MODULE_RESET_N_ASSERT (R534): how long it is held, in ns. -/
  | moduleResetNAssert (held : Nat)
  /-- MODULE_RESET_N_RELEASE (R534). -/
  | moduleResetNRelease
  /-- PERST_N_ASSERT (R535). -/
  | perstNAssert
  /-- CXL_LINK_RESET (R521). -/
  | cxlLinkReset
  /-- LD_RESET (R521). -/
  | ldReset (ld : Nat)
  /-- CXL_LANE_FAILURE (R339): the widest passing width and highest passing rate code. -/
  | cxlLaneFailure (width rate : Nat)
  /-- IDE_INTEGRITY_FAILURE (R370): none for the CXL.cachemem stream, an LD for its CXL.io stream. -/
  | ideIntegrityFailure (ld : Option Nat)
  /-- SPDM_DOE_MESSAGE (R431). -/
  | spdmDoeMessage (ld : Nat) (msg : DoeMessage)
  /-- TSP_REQUEST (R371). -/
  | tspRequest (ld : Nat) (req : TspRequest)
  /-- FM_API_COMMAND (R340). -/
  | fmApiCommand (req : FmRequest)
  /-- COMMAND_BOUND_EXPIRY (R390). -/
  | commandBoundExpiry (m slot : Nat)
  /-- CONTROL_CORE_WATCHDOG (R391). -/
  | controlCoreWatchdog (core : Nat)
  /-- CONTROL_CORE_RESTART (R520). -/
  | controlCoreRestart (core : Nat)
  /-- LIVE_ACTIVATION_HANDOFF (R522). -/
  | liveActivationHandoff
  /-- LIVE_ACTIVATION_BUDGET_EXPIRY (R523). -/
  | liveActivationBudgetExpiry
  /-- COLD_START (R513). -/
  | coldStart (rep : StartReport)
  /-- SKEIN_RESTORATION (R517). -/
  | skeinRestoration
  /-- TEARDOWN_ZEROING_COMPLETE (R441): tenant ID. -/
  | teardownZeroingComplete (tid : Nat)
  /-- BATCH_WINDOW_CLOSE (R426). -/
  | batchWindowClose
  /-- BOTTOM_TREE_BUILT (R424). -/
  | bottomTreeBuilt
  /-- RNG_HEALTH_FAILURE (R419): the failed test. -/
  | rngHealthFailure (test : Nat)
  /-- STATUS_READ (R539). -/
  | statusRead
  /-- PLDM_REQUEST (R538): type, a sensor ID or a FRU field, and the sensor's reading. -/
  | pldmRequest (ptype item reading : Nat)
  /-- MCTP_CONTROL_REQUEST (R538): an endpoint ID to assign, or another control message. -/
  | mctpControlRequest (assign : Option Byte) (msg : List Byte)
  /-- I3C_ADDRESS_ASSIGN (R538): SETDASA of the static address, or ENTDAA. -/
  | i3cAddressAssign (addr : BitVec 7)
  -- Breus
  /-- NOP (R184). -/
  | nop
  /-- END (R184). -/
  | endProg
  /-- TRAP (R188). -/
  | trap (imm : BitVec 14)
  /-- BRZ (R185). -/
  | brz (a : Fin 16) (offset : BitVec 14)
  /-- BRNZ (R185). -/
  | brnz (a : Fin 16) (offset : BitVec 14)
  /-- BRANY (R185). -/
  | brany (a : Fin 4) (offset : BitVec 14)
  /-- BRNONE (R185). -/
  | brnone (a : Fin 4) (offset : BitVec 14)
  /-- REP (R186): body length and count. -/
  | rep (length : BitVec 8) (count : BitVec 14)
  /-- REPS (R186). -/
  | reps (a : Fin 16) (length : BitVec 8)
  /-- LDK (R184). -/
  | ldk (d : Fin 16) (k : BitVec 14)
  /-- LDKX (R184). -/
  | ldkx (d a : Fin 16)
  /-- SLI (R184). -/
  | sli (d : Fin 16) (imm : BitVec 14)
  /-- SADD (R182). -/
  | sadd (d a b : Fin 16)
  /-- SADDI (R182). -/
  | saddi (d a : Fin 16) (imm : BitVec 14)
  /-- SSUB (R182). -/
  | ssub (d a b : Fin 16)
  /-- SMUL (R182). -/
  | smul (d a b : Fin 16)
  /-- SAND (R184). -/
  | sand (d a b : Fin 16)
  /-- SOR (R184). -/
  | sor (d a b : Fin 16)
  /-- SXOR (R184). -/
  | sxor (d a b : Fin 16)
  /-- SSH (R182): kind 0 left, 1 right logical, 2 right arithmetic. -/
  | ssh (d a b : Fin 16) (kind : Fin 4)
  /-- SSHI (R182). -/
  | sshi (d a : Fin 16) (kind : Fin 4) (amount : BitVec 5)
  /-- SMIN (R182). -/
  | smin (d a b : Fin 16)
  /-- SMAX (R182). -/
  | smax (d a b : Fin 16)
  /-- SMINU (R182). -/
  | sminu (d a b : Fin 16)
  /-- SMAXU (R182). -/
  | smaxu (d a b : Fin 16)
  /-- SSLT (R182). -/
  | sslt (d a b : Fin 16)
  /-- SSLTU (R182). -/
  | ssltu (d a b : Fin 16)
  /-- VADD (R183). -/
  | vadd (d a b : Fin 8)
  /-- VSUB (R183). -/
  | vsub (d a b : Fin 8)
  /-- VMUL (R183). -/
  | vmul (d a b : Fin 8)
  /-- VDIV (R183). -/
  | vdiv (d a b : Fin 8)
  /-- VMAX (R183). -/
  | vmax (d a b : Fin 8)
  /-- VMIN (R183). -/
  | vmin (d a b : Fin 8)
  /-- VABS (R184). -/
  | vabs (d a : Fin 8)
  /-- VNEG (R183). -/
  | vneg (d a : Fin 8)
  /-- VEXP (R183). -/
  | vexp (d a : Fin 8)
  /-- VTANH (R183). -/
  | vtanh (d a : Fin 8)
  /-- VSEL (R184). -/
  | vsel (d a b : Fin 8) (p : Fin 4)
  /-- VLDK (R184). -/
  | vldk (d : Fin 8) (k : BitVec 14)
  /-- VBCST (R183). -/
  | vbcst (d : Fin 8) (a : Fin 16)
  /-- VBCSTI (R183). -/
  | vbcsti (d : Fin 8) (a : Fin 16)
  /-- VLANE (R184). -/
  | vlane (d : Fin 8)
  /-- VEXT (R184). -/
  | vext (d : Fin 16) (a : Fin 8) (lane : Fin 64)
  /-- VREDADD (R183). -/
  | vredadd (d : Fin 16) (a : Fin 8) (p : Fin 4)
  /-- VREDMAX (R183). -/
  | vredmax (d : Fin 16) (a : Fin 8) (p : Fin 4)
  /-- PCMP (R183): cond 0 <, 1 ≤, 2 =. -/
  | pcmp (d : Fin 4) (a b : Fin 8) (cond : Fin 4)
  /-- PLOG (R184): op 0 AND, 1 OR, 2 XOR, 3 AND NOT. -/
  | plog (d a b : Fin 4) (op : Fin 4)
  /-- PNOT (R184). -/
  | pnot (d a : Fin 4)
  /-- PRANGE (R184). -/
  | prange (d : Fin 4) (a b : Fin 16)
  /-- PCNT (R184). -/
  | pcnt (d : Fin 16) (a : Fin 4)
  -- The table's last rows
  /-- PERST_N_RELEASE (R535): width, rate code and flit mode the link trains to. -/
  | perstNRelease (width rate : Nat) (flit256 : Bool)
  /-- PORT_RETRAIN_COMPLETE (R273). -/
  | portRetrainComplete (port : Nat)
  /-- LIGHT_RETURN (R266). -/
  | lightReturn (port : Nat)
  /-- LASER_FAILOVER_COMPLETE (R266). -/
  | laserFailoverComplete (port : Nat)
  /-- SHAPER_TOKEN_ACCRUAL (R328): tenant ID, class and the idle port. -/
  | shaperTokenAccrual (tid cls port : Nat)
  /-- MSIX_ENABLE (R521). -/
  | msixEnable (ld : Nat)
  /-- HARD_TRIP_RESTART (R508): readings of the sensors 0x01–0x0F. -/
  | hardTripRestart (readings : List Nat)
  /-- PPS_OUT_PULSE (R537). -/
  | ppsOutPulse
  /-- BATCH_WINDOW_OPEN (R426). -/
  | batchWindowOpen
deriving DecidableEq, Repr

end Sys2Proof
end

