-- ==== Sys2Proof/Decode.lean ====
section
/-!
DEFINITION. Decoding of table words. No row of the opcode table gives bits: every row's list of fields is empty, so no
word spells a command, and the decoder refuses every word (DEDUCED, log 13).
-/
namespace Sys2Proof

/-- The command that a word of the table's bits spells: none, for the table gives no row any bits. -/
def decodeTableWord (_nbits _w : Nat) : Option Instr := none

end Sys2Proof
end

