-- ==== Sys2Proof/Machine/Bytes.lean ====
section
/-!
DEFINITION. Bytes and bit fields (R2), the two CRCs (R71, R272) and the two hashes (R195, R205) that the module computes.
-/
namespace Sys2Proof.Machine

/-- Bits [hi:lo] of a number (R2). -/
def bits (hi lo n : Nat) : Nat := n / 2 ^ lo % 2 ^ (hi + 1 - lo)

/-- Bit `i` of a number. -/
def bit (i n : Nat) : Bool := n.testBit i

/-- The number that little-endian bytes spell (R2). -/
def ofLe : List Byte → Nat
  | [] => 0
  | b :: bs => b.toNat + 256 * ofLe bs

/-- `k` little-endian bytes of a number (R2). -/
def toLe : Nat → Nat → List Byte
  | 0, _ => []
  | k + 1, n => BitVec.ofNat 8 n :: toLe k (n / 256)

/-- Bytes [off, off + len) of a record as a number; bytes beyond the record count as zero. -/
def field (bs : List Byte) (off len : Nat) : Nat := ofLe ((bs.drop off).take len)

/-- Whether every byte of [off, off + len) is zero. -/
def zeroIn (bs : List Byte) (off len : Nat) : Bool := ((bs.drop off).take len).all (· == 0)

/-- `n` zero bytes. -/
def zeros (n : Nat) : List Byte := List.replicate n 0

/-- The first `n` bytes, filled with zeros. -/
def padTo (n : Nat) (bs : List Byte) : List Byte := bs.take n ++ zeros (n - bs.length)

/-- A list in pieces of `k`, `fuel` of them at most. -/
def chunks {α : Type} (k : Nat) : Nat → List α → List (List α)
  | 0, _ => []
  | _ + 1, [] => []
  | f + 1, x :: xs => (x :: xs).take k :: chunks k f ((x :: xs).drop k)

/-- One byte of a reflected CRC over 32 bits. -/
def crcByte (poly : BitVec 32) (c : BitVec 32) (b : Byte) : BitVec 32 :=
  Nat.rec (c ^^^ b.setWidth 32) (fun _ c => if c.getLsbD 0 then (c >>> 1) ^^^ poly else c >>> 1) 8

/-- A reflected CRC with initial value and final XOR of all ones. -/
def crcOf (poly : BitVec 32) (bs : List Byte) : W32 := ~~~ (bs.foldl (crcByte poly) 0xFFFFFFFF)

/-- CRC-32C (R71). -/
def crc32c (bs : List Byte) : W32 := crcOf 0x82F63B78 bs
/-- The frame check sequence of Ethernet (R272). -/
def crc32 (bs : List Byte) : W32 := crcOf 0xEDB88320 bs

/-- Big-endian bytes of a word. -/
def toBe (k n : Nat) : List Byte := (toLe k n).reverse

/-! ## Secure hashes (R195, R205, R422) -/

/-- The largest number whose `deg`-th power is at most `n`, found bit by bit from bit `bits − 1` down. -/
def rootFloor (deg n : Nat) : Nat → Nat → Nat
  | 0, x => x
  | b + 1, x => rootFloor deg n b (if (x + 2 ^ b) ^ deg ≤ n then x + 2 ^ b else x)

/-- The first `w` bits of the fraction of a prime's `deg`-th root: where the hash standard takes its constants from. -/
def rootBits (deg w p : Nat) : Nat := rootFloor deg (p * 2 ^ (deg * w)) (w + 5) 0 % 2 ^ w

/-- The first eighty primes. -/
def primes : List Nat := (List.range 410).filter fun n => decide (2 ≤ n) && (List.range 21).all fun d => decide (d < 2 ∨ n ≤ d) || n % d != 0

/-- What tells one hash of the family from another: word width, rounds, and the bit distances of its mixing sums: three rotations each
of an a-word and of an e-word, and two rotations and a shift of each of two schedule words. -/
structure HashKind where
  width : Nat
  rounds : Nat
  aTurns : List Nat
  eTurns : List Nat
  oldTurns : List Nat × Nat
  newTurns : List Nat × Nat

/-- XOR of a word turned right by each of some distances. -/
def turns (w : Nat) (rs : List Nat) (x : Nat) : Nat := rs.foldl (fun y r => y ^^^ (x / 2 ^ r + x % 2 ^ r * 2 ^ (w - r))) 0

/-- A hash under way: the next sixteen schedule words, and the last four words of each of its two sequences, newest first. -/
structure Hashing where
  window : List Nat
  as : List Nat
  es : List Nat

/-- The schedule word that follows the sixteen of a window. -/
def HashKind.nextWord (k : HashKind) (ws : List Nat) : Nat :=
  let at' := fun (i : Nat) => ws.getD i 0
  let mix := fun (t : List Nat × Nat) (x : Nat) => turns k.width t.1 x ^^^ x / 2 ^ t.2
  (at' 0 + mix k.oldTurns (at' 1) + at' 9 + mix k.newTurns (at' 14)) % 2 ^ k.width

/-- One round with its constant: each sequence gains a word. -/
def HashKind.round (k : HashKind) (x : Hashing) (constant : Nat) : Hashing :=
  let top := 2 ^ k.width
  let e := fun (i : Nat) => x.es.getD i 0
  let chosen := (List.range 2).foldl (fun y i => y ^^^ ((if i = 0 then e 0 else top - 1 - e 0) &&& e (i + 1))) 0
  let pairs := [(0, 1), (0, 2), (1, 2)].map fun p => x.as.getD p.1 0 &&& x.as.getD p.2 0
  let fresh := x.window.headD 0 + constant + e 3 + turns k.width k.eTurns (e 0) + chosen
  { window := x.window.tail ++ [k.nextWord x.window]
    as := (fresh + turns k.width k.aTurns (x.as.headD 0) + pairs.foldl (· ^^^ ·) 0) % top :: x.as.take 3
    es := (x.as.getD 3 0 + fresh) % top :: x.es.take 3 }

/-- The chaining words, a-words before e-words, after a block of sixteen words. -/
def HashKind.absorb (k : HashKind) (constants : List Nat) (chain : List Nat) (block : List Nat) : List Nat :=
  let x := constants.foldl k.round { window := block, as := chain.take 4, es := chain.drop 4 }
  (chain.zip (x.as ++ x.es)).map fun p => (p.1 + p.2) % 2 ^ k.width

/-- The bytes of a hash: the message padded with 0x80, zeros and its length in bits to whole blocks, absorbed from the start words. -/
def HashKind.digest (k : HashKind) (start : List Nat) (bs : List Byte) : List Byte :=
  let size := k.width / 8
  let short := (bs.length + 1 + 2 * size) % (16 * size)
  let padded := bs ++ (0x80 :: zeros (if short = 0 then 0 else 16 * size - short)) ++ toBe (2 * size) (8 * bs.length)
  let blocks := (chunks (16 * size) padded.length padded).map fun b => (chunks size b.length b).map fun w => ofLe w.reverse
  (blocks.foldl (k.absorb ((primes.take k.rounds).map (rootBits 3 k.width))) start).flatMap (toBe size)

/-- SHA-384 (R195, R422), 48 bytes. -/
def sha384 (bs : List Byte) : List Byte :=
  let k : HashKind := { width := 64, rounds := 80, aTurns := [28, 34, 39], eTurns := [14, 18, 41], oldTurns := ([1, 8], 7), newTurns := ([19, 61], 6) }
  (k.digest (((primes.drop 8).take 8).map (rootBits 2 64)) bs).take 48

/-- SHA-256 (R205), 32 bytes. -/
def sha256 (bs : List Byte) : List Byte :=
  let k : HashKind := { width := 32, rounds := 64, aTurns := [2, 13, 22], eTurns := [6, 11, 25], oldTurns := ([7, 18], 3), newTurns := ([17, 19], 10) }
  k.digest ((primes.take 8).map (rootBits 2 32)) bs

end Sys2Proof.Machine
end

