-- ==== Sys2Proof/Machine/Float.lean ====
section
/-!
DEFINITION. The module's arithmetic on numbers: exact dyadic values, rounding to nearest with ties away from zero and
saturation (R59, R100), the element formats of R55, and the exponential of R99.
-/
namespace Sys2Proof.Machine

/-- The exact value `m × 2^e`. -/
structure Dy where
  m : Int
  e : Int
deriving DecidableEq, Repr

/-- A binary format: significand bits, exponent of the smallest unit, and the code of the largest finite value. -/
structure FFmt where
  p : Nat
  qmin : Int
  top : Nat

/-- FP32, BF16 and the three element encodings of R55 that are floating-point. -/
def fp32 : FFmt := { p := 24, qmin := -149, top := 0x7F7FFFFF }
def bf16 : FFmt := { p := 8, qmin := -133, top := 0x7F7F }
def e4m3 : FFmt := { p := 4, qmin := -9, top := 0x7E }
def e2m3 : FFmt := { p := 4, qmin := -3, top := 0x1F }
def e2m1 : FFmt := { p := 2, qmin := -1, top := 0x7 }

/-- The value of a magnitude code of a format. -/
def FFmt.value (f : FFmt) (code : Nat) : Dy :=
  let h := 2 ^ (f.p - 1)
  if code < h then { m := code, e := f.qmin }
  else { m := (code % h + h : Nat), e := f.qmin + (code / h : Nat) - 1 }

/-- The magnitude code nearest to `m × 2^e`, ties away from zero, saturating (R59). -/
def FFmt.round (f : FFmt) (m : Nat) (e : Int) : Nat :=
  if m = 0 then 0 else
  let q := max (e + (Nat.log2 m + 1 : Nat) - f.p) f.qmin
  let d := q - e
  let n := if d ≤ 0 then m * 2 ^ (-d).toNat else (m / 2 ^ (d.toNat - 1) + 1) / 2
  let h := 2 ^ (f.p - 1)
  let code := if n < h then n else (q - f.qmin + 1).toNat * h + (n - h)
  min code f.top

/-- A value rounded into FP32; a result that rounds to zero is +0 (R59, R100). -/
def toF32 (d : Dy) : W32 :=
  let c := fp32.round d.m.natAbs d.e
  BitVec.ofNat 32 (if d.m < 0 ∧ c ≠ 0 then c + 0x80000000 else c)

/-- The exact value of FP32 bits. -/
def ofF32 (w : W32) : Dy :=
  let v := fp32.value (w.toNat % 0x80000000)
  if w.getLsbD 31 then { v with m := -v.m } else v

/-- Whether FP32 bits encode an infinity or a NaN. -/
def nonfinite32 (w : W32) : Bool := bits 30 23 w.toNat == 255
/-- Whether BF16 bits encode an infinity or a NaN. -/
def nonfinite16 (w : W16) : Bool := bits 14 7 w.toNat == 255

/-- The exact value of BF16 bits. -/
def ofBf16 (w : W16) : Dy := ofF32 (BitVec.ofNat 32 (w.toNat * 65536))
/-- A value rounded into BF16 (R59). -/
def toBf16 (d : Dy) : W16 :=
  let c := bf16.round d.m.natAbs d.e
  BitVec.ofNat 16 (if d.m < 0 ∧ c ≠ 0 then c + 0x8000 else c)

namespace Dy
/-- Exact sum. -/
def add (a b : Dy) : Dy :=
  if a.m = 0 then b else if b.m = 0 then a else
  let e := min a.e b.e
  { m := a.m * 2 ^ (a.e - e).toNat + b.m * 2 ^ (b.e - e).toNat, e }
/-- Exact negation. -/
def neg (a : Dy) : Dy := { a with m := -a.m }
/-- Exact product. -/
def mul (a b : Dy) : Dy := { m := a.m * b.m, e := a.e + b.e }
/-- Exact scaling by a power of two. -/
def scale (a : Dy) (k : Int) : Dy := { a with e := a.e + k }
/-- Exact magnitude. -/
def abs (a : Dy) : Dy := { a with m := a.m.natAbs }
/-- Exact order: `a ≤ b`. -/
def le (a b : Dy) : Bool := decide ((a.add b.neg).m ≤ 0)
/-- Exact order: `a < b`. -/
def lt (a b : Dy) : Bool := decide ((a.add b.neg).m < 0)
end Dy

/-- A key that orders FP32 values by value: zeros equal, negative infinity lowest. -/
def f32key (w : W32) : Int :=
  let n := w.toNat % 0x80000000
  if w.getLsbD 31 then -(n : Int) else n

/-- Negative infinity, the m of an EMPTY row (R84, R100). -/
def negInf : W32 := 0xFF800000
/-- One in FP32. -/
def f32One : W32 := 0x3F800000

def fadd (a b : W32) : W32 := toF32 ((ofF32 a).add (ofF32 b))
def fsub (a b : W32) : W32 := toF32 ((ofF32 a).add (ofF32 b).neg)
def fmul (a b : W32) : W32 := toF32 ((ofF32 a).mul (ofF32 b))
/-- The larger by value; the first where they are equal (R183). -/
def fmax (a b : W32) : W32 := if f32key b > f32key a then b else a
/-- The smaller by value; the first where they are equal (R183). -/
def fmin (a b : W32) : W32 := if f32key b < f32key a then b else a
/-- Whether the bits are a zero of either sign. -/
def fzero (a : W32) : Bool := a.toNat % 0x80000000 == 0
def fneg (a : W32) : W32 := a ^^^ 0x80000000
def fabs (a : W32) : W32 := a &&& 0x7FFFFFFF

/-- Division rounded under R59, with the corners of VDIV (R183). -/
def fdiv (a b : W32) : W32 :=
  if fzero a then 0 else
  let neg := a.getLsbD 31 != b.getLsbD 31
  let mag := if fzero b then 0x7F7FFFFF else
    let x := ofF32 (fabs a)
    let y := ofF32 (fabs b)
    fp32.round (x.m.toNat * 2 ^ 80 / y.m.toNat) (x.e - y.e - 80)
  BitVec.ofNat 32 (if neg ∧ mag ≠ 0 then mag + 0x80000000 else mag)

/-- A signed integer rounded into FP32. -/
def fOfInt (i : Int) : W32 := toF32 { m := i, e := 0 }

/-- Terms of the exponential series in fixed point with 160 fraction bits, `n` more of them. -/
def expSeries (x : Nat) : Nat → Nat → Nat → Nat → Nat
  | 0, _, _, acc => acc
  | n + 1, k, term, acc =>
    let t := term * x / 2 ^ 160 / k
    expSeries x n (k + 1) t (acc + t)

/-- ln 2 × 2^160. -/
def ln2Fixed : Nat := 1013035739299659071135698605846798551586536899366

/-- 2^y of R99 for a finite FP32 value, rounded into FP32. The series is good to 2^-150, so the rounding is that of the
exact value unless it lies nearer than that to a midpoint (DEDUCED, log 10). -/
def exp2 (y : W32) : W32 :=
  let d := ofF32 y
  if d.m = 0 then f32One
  else if f32key y ≥ 0x43000000 then 0x7F7FFFFF
  else if f32key y ≤ -0x43480000 then 0
  else
    let fixed : Int := if d.e ≥ -160 then d.m * 2 ^ (d.e + 160).toNat else d.m / 2 ^ (-160 - d.e).toNat
    let n := fixed / (2 ^ 160 : Int)
    let f := (fixed % (2 ^ 160 : Int)).toNat
    let v := if f = 0 then 2 ^ 160 else expSeries (f * ln2Fixed / 2 ^ 160) 45 1 (2 ^ 160) (2 ^ 160)
    BitVec.ofNat 32 (fp32.round v (n - 160))

/-- The exponential of R99, extended to positive values as VEXP is (R183); exp of negative infinity is 0. -/
def fexp (x : W32) : W32 := if x = negInf then 0 else exp2 (fmul x 0x3FB8AA3B)

/-- VTANH of R183. -/
def ftanh (x : W32) : W32 :=
  let e := fexp (fmul 0xC0000000 (fabs x))
  let q := fdiv (fsub f32One e) (fadd f32One e)
  if fzero q then 0 else if x.getLsbD 31 then fneg q else q

/-! ## Storage formats -/

/-- The storage formats: encoding kind, element bits and group size, by the FORMAT code of R25. -/
inductive Enc where
  | e4m3 | int8 | e2m3 | e2m1
deriving DecidableEq, Repr

/-- Element bits of an encoding (R55). -/
def Enc.b : Enc → Nat
  | .e4m3 => 8 | .int8 => 8 | .e2m3 => 6 | .e2m1 => 4

/-- EMAX of an encoding (R55). -/
def Enc.emax : Enc → Dy
  | .e4m3 => { m := 7, e := 6 } | .int8 => { m := 127, e := 0 } | .e2m3 => { m := 15, e := -1 } | .e2m1 => { m := 3, e := 1 }

/-- The value of an element code (R55, R58). -/
def Enc.value : Enc → Nat → Dy
  | .e4m3, c => let v := Machine.e4m3.value (c % 128); if bit 7 c then v.neg else v
  | .int8, c => { m := if c < 128 then (c : Int) else (c : Int) - 256, e := 0 }
  | .e2m3, c => let v := Machine.e2m3.value (c % 32); if bit 5 c then v.neg else v
  | .e2m1, c => let v := Machine.e2m1.value (c % 8); if bit 3 c then v.neg else v

/-- The element code nearest to a value, ties away, saturating; zero is positive zero (R59). -/
def Enc.code (k : Enc) (d : Dy) : Nat :=
  let sgn (f : FFmt) (s : Nat) := let c := f.round d.m.natAbs d.e; if d.m < 0 ∧ c ≠ 0 then c + s else c
  match k with
  | .e4m3 => sgn Machine.e4m3 128
  | .e2m3 => sgn Machine.e2m3 32
  | .e2m1 => sgn Machine.e2m1 8
  | .int8 =>
    let n := if d.e ≥ 0 then d.m.natAbs * 2 ^ d.e.toNat else (d.m.natAbs * 2 / 2 ^ (-d.e).toNat + 1) / 2
    let n := min n 127
    if d.m < 0 ∧ n ≠ 0 then 256 - n else n

/-- Whether a stored element code is a NaN (R57). -/
def Enc.isNaN (k : Enc) (c : Nat) : Bool := k == .e4m3 && (c == 0x7F || c == 0xFF)

/-- The smallest e with `amax ÷ 2^e ≤ EMAX`, clamped, for a non-zero amax (R60). -/
def groupExp (k : Enc) (amax : Dy) : Int :=
  let em := k.emax
  let e0 := amax.e + (Nat.log2 amax.m.natAbs : Nat) - (em.e + (Nat.log2 em.m.natAbs : Nat))
  let e := if amax.le (em.scale e0) then e0 else e0 + 1
  min (max e (-127)) 127

/-- encode_group of R60: the scale byte and the codes; a slub channel is given as `none`. -/
def encodeGroup (k : Enc) (x : List (Option Dy)) : Nat × List Nat :=
  let mags := x.filterMap (fun o => o.map Dy.abs)
  let amax := mags.foldl (fun a b => if a.lt b then b else a) { m := 0, e := 0 }
  if amax.m = 0 then (0, x.map fun _ => 0)
  else
    let e := groupExp k amax
    ((e + 127).toNat, x.map fun o => match o with
      | none => 0
      | some d => k.code (d.scale (-e)))

/-- The FP32 value of an element: code × 2^(SCALE − 127), saturating (R57, R58). -/
def elementValue (k : Enc) (scale code : Nat) : W32 := toF32 ((k.value code).scale ((scale : Int) - 127))

/-- Packed little-endian bit string of equal-width codes (R56), as bytes. -/
def packCodes (b : Nat) (codes : List Nat) : List Byte :=
  toLe (codes.length * b / 8) (codes.foldr (fun c n => c % 2 ^ b + 2 ^ b * n) 0)

/-- The codes of a packed field. -/
def unpackCodes (b : Nat) : Nat → Nat → List Nat
  | 0, _ => []
  | n + 1, v => v % 2 ^ b :: unpackCodes b n (v / 2 ^ b)

end Sys2Proof.Machine
end

