-- ==== Sys2Proof/Config.lean ====
section
/-!
DEFINITION. What one unit of the MVT-8096 fixes and the spec does not give, and the free values. Nothing here has a
body: no proof can see a value, and a claim holds whatever the value is.
-/
namespace Sys2Proof.Config

/-- The n-th free value: a value or a choice that the spec leaves open. Steps take them in the order of
`State.freeCount` (DESIGN CHOICE, log 3). -/
opaque freeValue : Nat → Nat

/-- The head of an expanded job that a query row stands for: Q, HEADS, row (DEDUCED, log 21). -/
opaque rowHead : Nat → Nat → Nat → Nat

/-- What a line of the fixed metadata region holds (R219, R444): the spec gives its contents and no places. Kind 0 a
skein-table entry, 1 a ply-cache entry, 2 sixteen prefix-shadow entries, 3 a creel map, 4 a control core's working area,
any other kind nothing; and the indices within the kind (PRESUMED, log 6). -/
opaque fixedLine : Nat → Nat × List Nat

/-- How an event's DETAIL lies in its 48 bytes, by code (R392): the spec gives what it names and no layout (log 12). -/
opaque detailBytes : Nat → List Nat → List Byte

/-- How an LD's locked mailbox assignments and host-table entries are written for their SHA-384 (R429): the spec gives no layout
(DESIGN CHOICE, log 3). -/
opaque lockedRecord : List Nat → List (List Byte) → List Byte

/-- The CDAT entry of a range at an index (R341): latency and bandwidth, computed at start-up, have no stated values (log 3). -/
opaque cdatEntry : Nat → List (Nat × Nat) → List Byte

/-- OTP SERIAL (R420), given to this unit at manufacture (PRESUMED, log 6). -/
opaque serial : W64
/-- OTP STEPPING (R420), this unit's silicon stepping (PRESUMED, log 6). -/
opaque stepping : Byte
/-- BOOT_ROM_VERSION of R428; the spec gives no number (PRESUMED, log 6). -/
opaque bootRomVersion : W32
/-- VENDOR_KEY_DIGEST_0–3 of R420, 48 bytes each (PRESUMED, log 6). -/
opaque vendorKeyDigest : Nat → List Byte
/-- The two certificate chains of R427, stored at manufacture (PRESUMED, log 6). -/
opaque certificateChains : List Byte
/-- The spare blocks of this unit at manufacture before the limits of R239 are applied (PRESUMED, log 6). -/
opaque sparePoolRaw : Nat
/-- the distaff image that the unit's creel holds when it is shipped (R512) -/
opaque shippedImage : List Byte
/-- Bits of a page that the creel's LDPC decoder can correct at most (R259; PRESUMED, log 6). -/
opaque ldpcBits : Nat
/-- The fate of a page of a hold-up flush (R261): by a free value and the page's number, 0 programmed, 1 its program failed and
went on elsewhere, any other also lost to that failure (DESIGN CHOICE, log 82). -/
opaque flushFate : Nat → Nat → Nat
/-- Wear figure of the most-worn data block of a new unit before the limit of R262 is applied (PRESUMED, log 6). -/
opaque newWearRaw : Nat

/-- ECDSA P-384 verification of R422: key block, message, signature (DESIGN CHOICE, log 9). -/
opaque ecdsaVerify : List Byte → List Byte → List Byte → Bool
/-- HSS verification of R422: key block, message, signature (DESIGN CHOICE, log 9). -/
opaque hssVerify : List Byte → List Byte → List Byte → Bool
/-- The device's ECDSA signature of R430 over a digest, 96 bytes; the DEVICE_SEED is secret (DESIGN CHOICE, log 9). -/
opaque ecdsaSign : List Byte → List Byte
/-- The device's HSS signature of R430 over a message with an index, 3,284 bytes (DESIGN CHOICE, log 9). -/
opaque hssSign : Nat → List Byte → List Byte
/-- AES-256-GCM of R278: session and direction key number, nonce, header, plaintext; gives ciphertext and tag. -/
opaque gcmSeal : Nat → List Byte → List Byte → List Byte → List Byte × List Byte
/-- Opening under R278 and R279: key number, nonce, header, ciphertext, tag; none when the tag fails (DESIGN CHOICE, log 9). -/
opaque gcmOpen : Nat → List Byte → List Byte → List Byte → List Byte → Option (List Byte)
/-- The SPDM responder of R431: channel, message; the reply's bytes (DESIGN CHOICE, log 9). -/
opaque spdmReply : Nat → List Byte → List Byte
/-- Answers of the FM API and of TSP whose layouts CXL 3.1 gives and this spec does not (DESIGN CHOICE, log 15). -/
opaque cxlReply : Nat → List Byte → List Byte
/-- Answers of PLDM and MCTP control whose layouts DMTF gives and this spec does not (DESIGN CHOICE, log 15). -/
opaque dmtfReply : Nat → List Byte → List Byte

end Sys2Proof.Config
end

