-- ==== Sys2Proof/Machine/State.lean ====
section
/-!
DEFINITION. The state of the module as plain data: every register, ring, buffer, counter, mode and pin that the spec
names, and the queue of waiting commands. Default field values are the values right after reset; where the spec gives
none the assumption log names the value (DESIGN CHOICE, log 4).
-/
namespace Sys2Proof.Machine

/-- A sparse table by index, in ascending order of the index. -/
abbrev Table (α : Type) := List (Nat × α)
/-- Module memory: cells by module physical address (R216), ascending, none equal to what an unlisted address reads. -/
abbrev Mem := List Host.Cell
/-- A mailbox and a fetch number: a command whose response is still owed. -/
abbrev CmdRef := Nat × Nat
/-- The 64 KiB slots that hold a ring or a buffer, in order. -/
abbrev Area := List Nat

/-- Why the machine stops. -/
inductive Fault where
  /-- Raised by a host access to a device address that the DPA map or BAR0 does not contain (R342, R352), by any row.
  Safe: nothing is claimed about such an access. -/
  | noSuchAddress
  /-- Raised by any row that names a unit the module does not have: a port above 3, a spindle above 7, an LD above 15,
  a mailbox above 1,023. Safe: no such unit exists (R17, R337, R374). -/
  | noSuchUnit
deriving DecidableEq, Repr

/-- Why a command has no meaning. -/
inductive Refusal where
  /-- Raised only by an arm of exec that has no meaning yet. Safe. -/
  | notModelled (mnemonic : String)
  /-- Raised by a Breus row whose opcode the place of the running invocation does not accept, or whose shift kind or
  comparison code is reserved (R184). Safe: a loaded program never holds such a word (R180). -/
  | notInThisPlace
deriving DecidableEq, Repr

/-! ## What leaves the module -/

/-- Something the module put on one of its ports (DESIGN CHOICE, log 8). -/
inductive Out where
  /-- data returned to a host read on an LD -/
  | readData (ld : Nat) (bytes : List Byte)
  /-- an MSI-X vector raised on an LD -/
  | msix (ld vector : Nat)
  /-- a frame sent on a port: its whole bytes, whose 64-byte units go to the wavelengths of the map (R264) -/
  | frame (port : Nat) (map : BitVec 9) (bytes : List Byte)
  /-- a control block sent on a port (R274) -/
  | control (port : Nat) (block : W64)
  /-- an answer on a message channel: 0–15 the DOE mailboxes of the LDs, 16–19 the handshake channels of the ports, 20
  the sideband, 21 the FM-owned LD -/
  | reply (channel : Nat) (bytes : List Byte)
  /-- an I3C in-band interrupt with its mandatory byte (R540) -/
  | inBand (severity : Nat)
  /-- an uncorrectable non-fatal error signalled on CXL.io (R366) -/
  | cxlError (ld : Nat)
deriving DecidableEq, Repr

/-! ## Time, power, start-up -/

/-- A sync exchange in progress on a port (R481). -/
structure Exchange where
  t1 : W64
  t2 : W64
  t3 : Option W64 := none
  deadline : Nat := 0
deriving DecidableEq, Repr

/-- The time unit (R476–R485). -/
structure TimeUnit where
  /-- the fabric time count, TIME_NOW -/
  now : W64 := 0
  /-- elapsed nanoseconds on the module's own oscillator: the local base of R491 -/
  localNow : Nat := 0
  role : Nat := 0
  syncPorts : BitVec 4 := 15
  locked : Bool := false
  goodRun : Nat := 0
  /-- a valid exchange has come since the last start or load -/
  firstDone : Bool := false
  lastOffset : Int := 0
  lastSync : W64 := 0
  lastSyncLocal : Nat := 0
  exchanges : Table Exchange := []
  partnerHops : Table Nat := []
  /-- nanoseconds that the count has still to gain by slewing, and the local time of the last one -/
  slew : Int := 0
  slewAt : Nat := 0
  holdover : Bool := false
  /-- INITIAL waiting for the next reference edge -/
  initial : Option W64 := none
  /-- the count loaded at the first edge: edges fall at this plus a multiple of 10^9 -/
  refBase : Option W64 := none
  lastEdge : W64 := 0
  lastEdgeLocal : Nat := 0
  edgesIgnored : Nat := 0
  /-- TIME_NOW high halves latched per LD (R478) -/
  latch : Table W32 := []
  /-- local time at which a port sent its last SYNC -/
  syncSentAt : Table Nat := []
  /-- PPS_OUT, and the local time at which it falls -/
  pps : Bool := false
  ppsFall : Nat := 0
deriving DecidableEq, Repr

/-- The four power states (R495). -/
inductive PState where
  | run | hold | doze | standby
deriving DecidableEq, Repr

/-- The power stage and the governor (R492–R511). -/
structure Power where
  state : PState := .run
  target : PState := .run
  inTransition : Bool := false
  /-- an exit from Doze is under way (R504) -/
  exiting : Bool := false
  wakeSource : Nat := 0
  wakeDuringEntry : Bool := false
  /-- a wake source met during entry, latched (R505) -/
  wakeLatched : Bool := false
  lastEntry : W64 := 0
  lastWake : W64 := 0
  /-- WATTS of POWER_CAP_SET; 0: no cap -/
  capSet : Nat := 0
  periodMs : Nat := 1
  tempWake : Nat := 40
  activityWake : Nat := 0
  /-- the values in force since the last entry to Doze (R416) -/
  dozeNow : Nat × Nat × Nat := (1, 40, 0)
  inputW : Nat := 0
  inputMv : Nat := 0
  inputLimit : Bool := false
  /-- spindle and whorl clocks in 1/64 of full rate (R506) -/
  clock : Nat := 64
  /-- stack clocks in 1/64 of full rate (R507) -/
  stackClock : List Nat := [64, 64, 64, 64, 64, 64, 64, 64]
  floorSince : Option Nat := none
  /-- draw has stayed above the cap for 10 ms at the floor (R506) -/
  unmet : Bool := false
  throttling : List Nat := []
  derate : Nat := 0
  creelHalved : Bool := false
  lastThrottle : Table Nat := []
  /-- input disconnected, or power lost after a flush (R492) -/
  off : Bool := false
  /-- cause of the last loss: 1 undervoltage, 2 overvoltage; 0 none -/
  lossCause : Nat := 0
  inBandSince : Option Nat := none
  /-- the reset pin was asserted or the input cycled since the last trip (R508) -/
  inputCycled : Bool := false
  trip : Option (Nat × Nat × W64) := none
  tripLocal : Nat := 0
  railsOff : Bool := false
  tripSensor : Nat := 0
  tripRestart : Bool := false
  senseBroken : Bool := false
  resetHeld : Bool := false
  wakeN : Bool := false
  /-- the POWER_STATE_SET command whose entry is under way -/
  waiter : Option CmdRef := none
  portWake : Bool := false
  frameCount : Nat := 0
  lastSample : Nat := 0
  lowFlowSince : Option Nat := none
  lastCoolant : Option Nat := none
  /-- all work stopped by a trip, a reset or a loss of input, until a cold start -/
  stopped : Bool := false
deriving DecidableEq, Repr

/-- STATE of MODULE_STATUS (R527). -/
inductive BootState where
  | booting | ready | activating | recovery | halted
deriving DecidableEq, Repr

/-- Where live activation stands (R522). -/
structure Live where
  waiter : CmdRef
  /-- local time at which the old firmware fetched last -/
  lastFetch : Nat
  oldVersion : W32
  oldSvn : W32
  oldDigest : List Byte
deriving DecidableEq, Repr

/-- Start-up and firmware (R512–R528). -/
structure Boot where
  state : BootState := .booting
  bootError : Nat := 0
  restorePending : Bool := false
  stagedValid : Bool := false
  startKind : Nat := 0
  serviceLevel : Nat := 0
  version : W32 := 0
  svn : W32 := 0
  digest : List Byte := []
  /-- the single distaff image in the creel; a unit is shipped with one (PRESUMED, log 6) -/
  image : List Byte := Config.shippedImage
  /-- the staging buffer, its TOTAL, and the verified image -/
  staging : List Byte := []
  stagingTotal : Nat := 0
  staged : List Byte := []
  /-- recovery buffer cells and RECOVERY_CTRL -/
  recoveryBuf : Mem := []
  recoveryLength : W32 := 0
  recoveryResult : Nat := 0
  recoveryRun : Bool := false
  live : Option Live := none
  fetchHeld : Bool := false
  /-- control cores restarting -/
  coresDown : List Nat := []
  /-- PERST_N, which the module pulls down (R532) -/
  perstAsserted : Bool := true
  restored : Nat := 0
  lost : Nat := 0
  damagedCount : Nat := 0
  /-- the next start leaves Standby -/
  fromStandby : Bool := false
  /-- a clean power-down or Standby entry has written checkpoint and mark (R250, R251) -/
  standbyTarget : PState := .run
deriving DecidableEq, Repr

/-! ## Configuration -/

/-- MODULE_CONFIGURE items and the audit and budget settings (R402, R413, R445). -/
structure Cfg where
  nodeId : Option Nat := none
  macPrefix : BitVec 24 := 0x020000
  adminLd : Nat := 0
  tableSlots : Nat := 448
  evictStop : Nat := 82
  evictStart : Nat := 61
  lowWater : Nat := 20
  reserve : Nat := 5
  lentGib : Nat := 0
  orphanHold : Nat := 2000
  keyRotation : Nat := 86400
  auditK : Nat := 12
  suspectK : Nat := 6
  budgets : List Nat := [105, 10486, 24576, 6291, 1200]
deriving DecidableEq, Repr

/-! ## Host side -/

/-- One LD's own state (R340, R352, R521, R349). -/
structure Ld where
  bound : Bool := false
  /-- committed HDM decoders: DPA base and size -/
  decoders : Table (Nat × Nat) := []
  decoderError : List Nat := []
  msixEnabled : Bool := false
  heldVectors : List Nat := []
  doeSession : Bool := false
  tspLocked : Bool := false
  lockedDigest : List Byte := []
  teState : List Nat := []
  allocation : Nat := 0
  ioIde : Bool := false
  hostGen : W16 := 1
  denied : Nat := 0
  /-- denials since the last event, and the first of them: offset and failed step -/
  deniedSince : Nat := 0
  firstDenied : Option (Nat × Nat) := none
  lastDenied : Option Nat := none
  /-- HOST_FENCE commands that wait for the LD's accesses to drain, with the GENERATION each one set -/
  fenceWaiters : List (CmdRef × Nat) := []
deriving DecidableEq, Repr

/-- A host-table entry (R361). -/
structure HostEntry where
  write : Bool
  read : Bool
  ld : Nat
  hostGen : W16
  keySlot : Nat
  base : Nat
  length : Nat
deriving DecidableEq, Repr

/-- A publication record (R367). -/
structure Publication where
  base : Nat
  length : Nat
  version : W64 := 0
  digest : List Byte := List.replicate 48 0
  ld : Nat := 0
  time : W64 := 0
deriving DecidableEq, Repr

/-- Queue-window slabs (R354), mapped into the LD of the mailbox whose command allocated them. -/
structure Slab where
  mb : Nat
  /-- window offset in 64 KiB units -/
  woff : Nat
  area : Area
  /-- the tenant whose slabs these are; none for the module's own -/
  tenant : Option Nat
deriving DecidableEq, Repr

/-- A CXL.mem request held in Doze (R502). -/
structure HeldReq where
  ld : Nat
  lent : Bool
  off : Nat
  len : Nat
  data : Option (List Byte)
deriving DecidableEq, Repr

/-- The CXL port (R337–R373). -/
structure Cxl where
  /-- STATE of CXL_LINK_STATUS -/
  linkState : Nat := 0
  width : Nat := 0
  rate : Nat := 0
  flit256 : Bool := false
  ideMem : Bool := false
  /-- CXL.cachemem IDE in skid mode, otherwise in containment mode (R370) -/
  ideSkid : Bool := false
  insecure : Bool := false
  trainedWidth : Nat := 0
  trainedRate : Nat := 0
  lds : Table Ld := []
  qos : Nat := 0
  hostTable : Table HostEntry := []
  /-- LENT_REVOKE commands that wait for an entry's accesses to drain -/
  revokeWaiters : Table CmdRef := []
  /-- uncorrectable lines of DRAM, by module physical address (R366, R444) -/
  badLines : List Nat := []
  /-- the lent key (a tenant field) under which a host last wrote a line of lent memory, by module physical address -/
  lineKeys : Table Nat := []
  /-- General Media event records logged: DPA (R366) -/
  mediaLog : List Nat := []
  pubs : Table Publication := []
  slabs : List Slab := []
  doorbellLatch : List (Nat × Nat × W64) := []
  held : List HeldReq := []
deriving DecidableEq, Repr

/-- STATE of a mailbox (R376). -/
inductive MboxState where
  | disabled | active | draining
deriving DecidableEq, Repr

/-- An event record (R392); DETAIL as the list of what the raising rule names (DESIGN CHOICE, log 12). -/
structure EventRec where
  code : Nat
  severity : Nat
  tenant : W16
  count : Nat
  time : W64
  detail : List Nat
  summary : Bool := false
  phase : Bool := false
deriving DecidableEq, Repr

/-- A mailbox (R374–R381, R385). -/
structure Mbox where
  state : MboxState := .disabled
  bound : Bool := false
  tenant : W16 := 0
  depth : Nat := 0
  events : Bool := false
  ld : Option Nat := none
  /-- SQ_TAIL, CQ_HEAD and EVENT_HEAD as last accepted -/
  sqTail : Nat := 0
  cqHead : Nat := 0
  eventHead : Nat := 0
  /-- the next submission slot the module will fetch -/
  sqHead : Nat := 0
  /-- responses written, and responses that CQ_HEAD has passed, since the rings were made -/
  cqWritten : Nat := 0
  cqRead : Nat := 0
  sqArea : Area := []
  cqArea : Area := []
  /-- byte offset of the completion ring within its area -/
  cqBase : Nat := 0
  level : W16 := 0x0100
  /-- event ring slots and records written -/
  ring : Table EventRec := []
  evWritten : Nat := 0
  evRead : Nat := 0
  unbindWaiter : Option CmdRef := none
deriving DecidableEq, Repr

/-- A fetched command (R379–R391). -/
structure Cmd where
  mb : Nat
  slot : Nat
  ld : Nat
  /-- order of fetching in the module -/
  seq : Nat
  bytes : List Byte
  /-- past its commit point -/
  committed : Bool := false
  fetchedAt : Nat := 0
deriving DecidableEq, Repr

/-- The mailbox unit and the event machinery. -/
structure Boxes where
  boxes : Table Mbox := []
  inflight : List Cmd := []
  fetchSeq : Nat := 0
  /-- last mailbox served by the round-robin, and whether the last fetch went to mailbox 0 -/
  rrLast : Nat := 0
  lastZero : Bool := false
  overflow : List (Nat × EventRec) := []
  summaries : List (Nat × EventRec) := []
  /-- events of severity 0, 1, 2 and 3 since the last cold start -/
  sevCounts : List Nat := [0, 0, 0, 0]
  lastInBand : Option Nat := none
deriving DecidableEq, Repr

/-- A tenant (R403, R222, R435). Quotas and uses in code order: SRAM, DRAM, CREEL, SKEIN, RUN, PREFIX, CONNECTION,
REGION. -/
structure Tenant where
  gen : Nat := 0
  live : Bool := false
  /-- a teardown is under way; the command that awaits it -/
  teardown : Bool := false
  waiter : Option CmdRef := none
  quota : List Nat := [0, 0, 0, 0, 0, 0, 0, 0]
  use : List Nat := [0, 0, 0, 0, 0, 0, 0, 0]
  /-- telemetry records read so far -/
  telePos : Nat := 0
  dramKey : Bool := false
  lentKey : Bool := false
  creelKey : Bool := false
  /-- bytes zeroed and creel slots released by a teardown under way -/
  zeroed : Nat := 0
  creelReleased : Nat := 0
  /-- lent ranges whose entries the teardown revoked: DPA and length -/
  lent : List (Nat × Nat) := []
deriving DecidableEq, Repr

/-! ## Skeins -/

/-- CHECK_STATE (R37). -/
inductive Check where
  | good | opened | damaged
deriving DecidableEq, Repr

/-- A leaf entry with VALID = 1 (R37). -/
structure Leaf where
  pin : Bool := false
  lock : Bool := false
  check : Check := .opened
  count : Nat
  format : Nat
  pbn : Nat
  move : Bool := false
  tier : Nat := 1
deriving DecidableEq, Repr

/-- The states of a skein other than FREE (R30). -/
inductive SkState where
  | active | doffed | retiring
deriving DecidableEq, Repr

/-- A skein that is not FREE (R22–R35, R142, R148, R405, R464). -/
structure Skein where
  state : SkState := .active
  /-- the handle it was issued under -/
  handle : W32
  tenant : W16
  layers : Nat
  heads : Nat
  elements : Nat
  format : Nat
  /-- C of R26 -/
  cap : Nat
  slubMax : Nat := 8
  slubShift : Nat := 3
  sketch : Bool := false
  prefixHash : Bool := false
  orphanRelease : Bool := false
  sketchProgram : Option Nat := none
  hint : Nat := 0
  nextHint : Option Nat := none
  modelId : W16 := 0
  leaseMs : Nat := 10
  lease : W64 := 0
  expiry : W64 := 0
  orphanUntil : Option Nat := none
  /-- page tables made, in the order of making: level × 2^32 + key of its first entry; the root is the first -/
  tables : List Nat := [0]
  /-- the slabs that hold them, 32 tables each (R35) -/
  tableSlabs : Area := []
  /-- leaf entries with VALID = 1 by (layer × 256 + head group) × 65,536 + bobbin -/
  leaves : Table Leaf := []
  /-- append history: row × 64 + word: token index and check -/
  history : Table (Nat × W32) := []
  historySlabs : Table Nat := []
  /-- reel: token identifiers held in DRAM or in the creel, block hashes, slabs in DRAM, entries persisted -/
  reel : Table W32 := []
  blockHash : Table Nat := []
  reelSlabs : Table Nat := []
  /-- token indices below this are in creel segments -/
  persisted : Nat := 0
  reelCreelBobbins : Nat := 0
  /-- sketch records: (leaf key × 16 + whorl): HI and LO of each covered channel -/
  sketches : Table (List W16 × List W16) := []
  /-- the run whose bobbins it maps (R202) -/
  run : Option Nat := none
  lastJob : Nat := 0
  appended : List (Nat × Nat) := []
  lateJobs : List Nat := []
  lastStraggler : Option Nat := none
deriving DecidableEq, Repr

/-- Indices of one kind of object: generations, the lowest index that still stands in the ascending order of the last cold
start, those above it that have left that order, and freed indices, oldest first (R23, R280, R284, R306). -/
structure Pool where
  gens : Table Nat := []
  fresh : Nat := 0
  gone : List Nat := []
  freed : List Nat := []
deriving DecidableEq, Repr

/-- What a move is for. -/
inductive MoveFor where
  | doff | reload | pin | unpin | run | compact | heldWrite | band
deriving DecidableEq, Repr

/-- A move of a bobbin in progress (R50). -/
structure Move where
  skein : Nat
  key : Nat
  srcTier : Nat
  srcPbn : Nat
  dstTier : Nat
  dstPbn : Nat
  newFormat : Option Nat := none
  why : MoveFor
deriving DecidableEq, Repr

/-- A doff in progress (R233). -/
structure Doff where
  /-- order of arrival among the tier engine's work (R232) -/
  order : Nat := 0
  waiters : List CmdRef := []
  moved : Nat := 0
  bySweep : Bool := false
  stopping : Bool := false
  status : Nat := 0
deriving DecidableEq, Repr

/-- A reload in progress (R234). -/
structure Reload where
  order : Nat := 0
  waiters : List CmdRef := []
  /-- leaf keys that go first: a waiting job's bobbins, or the one bobbin that a held write asked for -/
  first : List Nat := []
  whole : Bool := true
  forJob : Bool := false
  reloaded : Nat := 0
  damaged : Nat := 0
  status : Nat := 0
deriving DecidableEq, Repr

/-- A pin, unpin or run creation waiting for its moves (R230, R199). -/
structure PinWork where
  order : Nat := 0
  /-- none: bobbins that a lost pin left at tier 0 go back (R218) -/
  waiter : Option CmdRef
  skein : Nat
  keys : List Nat
  tier : Nat
  /-- 0 sets PIN, 1 has cleared PIN, 2 makes a run -/
  kind : Nat
  /-- bobbins pinned or unpinned; B of a run -/
  count : Nat
  /-- slot of the run to be made -/
  run : Nat := 0
  /-- a bobbin was lost on the way -/
  failed : Bool := false
deriving DecidableEq, Repr

/-- A queued sketch update (R160): skein index, leaf key, token's decoded values as FP32. -/
structure SketchUpd where
  skein : Nat
  key : Nat
  values : List W32
  seq : Nat
deriving DecidableEq, Repr

/-- An APPEND that has passed its checks on arrival (R141, R144). -/
structure Append where
  conn : Nat
  seq : Nat
  skein : W32
  layer : Nat
  hg : Nat
  t0 : Nat
  ids : List W32
  epoch : W32
  /-- BF16 values, token by token -/
  values : List W16
  /-- applied: data written, only completion is left -/
  applied : Bool := false
  held : Bool := false
deriving DecidableEq, Repr

/-- Skeins and storage (02, 09). -/
structure Store where
  skeins : Table Skein := []
  skeinPool : Pool := {}
  epoch : Nat := 0
  dramUsed : List Nat := []
  sramUsed : List Nat := []
  creelUsed : List Nat := []
  /-- slots left by a move or release: tier, PBN, epoch, index of the skein that held them -/
  pendingFree : List (Nat × Nat × Nat × Nat) := []
  /-- channel groups withdrawn from allocation (R176) -/
  withdrawn : List Nat := []
  moves : Table Move := []
  nextMove : Nat := 0
  /-- held writes in arrival order: connection index and MSG_SEQ (R49) -/
  writeHold : List (Nat × Nat) := []
  appends : List Append := []
  doffs : Table Doff := []
  reloads : Table Reload := []
  pins : List PinWork := []
  sketchQ : List (Nat × SketchUpd) := []
  sketchSeq : Nat := 0
  sweepPos : Nat := 0
  /-- candidates of the sweep in progress, best first -/
  sweep : List Nat := []
  nextTask : Nat := 0
  evicting : Bool := false
  poolSlots : Nat := 0
  lentWaiter : Option (CmdRef × Nat) := none
  /-- changes of LENT_GIB that wait for the one in progress -/
  lentNext : List (CmdRef × Nat) := []
  /-- DAMAGED bobbins that firmware has still to demote: skein index, leaf key, deadline -/
  damaged : List (Nat × Nat × Nat) := []
deriving DecidableEq, Repr

/-! ## Programs and tables -/

/-- A resident Breus image (R195–R198). -/
structure Prog where
  version : W32
  code : List W32
  consts : List W32
  digest : List Byte
  bound : List W16 := []
  /-- jobs admitted with it -/
  holders : List Nat := []
deriving DecidableEq, Repr

/-- A rescale (kind 1) or up-projection (kind 2) table (R78, R112). -/
structure TableImg where
  kind : Nat
  tenant : W16
  version : W32
  image : List Byte
  digest : List Byte
  leas : Nat
  slots : List Nat
  unloaded : Bool := false
  holders : List Nat := []
deriving DecidableEq, Repr

/-- Programs and tables. -/
structure Images where
  score : Table Prog := []
  whorl : Table Prog := []
  tier : Option Prog := none
  /-- a tier-engine image that becomes active at the next sweep; none inside: unload -/
  tierNext : Option (Option Prog) := none
  tables : Table TableImg := []
deriving DecidableEq, Repr

/-- The places of R178. -/
inductive Place where
  | score | whorl | tier
deriving DecidableEq, Repr

/-- An invocation of a Breus program (R181, R186–R188). -/
structure Inv where
  running : Bool := false
  place : Place := .score
  slot : Nat := 0
  code : List W32 := []
  consts : List W32 := []
  pc : Nat := 0
  s : List W32 := List.replicate 16 0
  v : List (List W32) := List.replicate 8 (List.replicate 64 0)
  p : List W64 := List.replicate 4 0
  executed : Nat := 0
  /-- REP body: first word, word after the last, iterations left after the present one -/
  body : Option (Nat × Nat × Nat) := none
  /-- trap code and IMM or 0, with the word index -/
  trap : Option (Nat × Nat × Nat) := none
  ended : Bool := false
  jobTag : W64 := 0
  /-- the job it serves -/
  job : Option Nat := none
deriving DecidableEq, Repr

/-! ## Queues, jobs, combines, triggers -/

/-- A completion entry before its PHASE is set (R303). -/
structure Cqe where
  tag : W64 := 0
  status : Nat := 0
  kind : Nat := 0
  replayed : Bool := false
  source : W32 := 0
  msgSeq : Nat := 0
  bytes : Nat := 0
  retry : Nat := 0
  aux : Nat := 0
deriving DecidableEq, Repr

/-- A completion ring (R303, R304). -/
structure Cq where
  tenant : W16
  entries : Nat
  area : Area
  written : Nat := 0
  consumed : Nat := 0
  held : List Cqe := []
deriving DecidableEq, Repr

/-- The trigger entry that delivered an action (R322). -/
structure TrigRef where
  entry : W32
  list : Nat
  errConn : Option W32
  halt : Bool
deriving DecidableEq, Repr

/-- The QUERY that enabled a job (R129, R312). -/
structure QueryCtx where
  rows : Nat
  slub : Nat
  bf16 : Bool
  elements : Nat
  data : List Byte
  list : Nat
  /-- bytes of STAGING it holds, and the firing it belongs to -/
  space : Nat
  firing : Nat
deriving DecidableEq, Repr

/-- An entry of a job queue or send queue: a ring slot read when it is taken, or an action delivered by a trigger. -/
structure QEntry where
  slot : Option Nat := none
  bytes : List Byte := []
  query : Option QueryCtx := none
  trig : Option TrigRef := none
  /-- the job (0, its number) or combine (1, its queue) whose PLY send this is; (2, 0): a failure notice -/
  source : Option (Nat × Nat) := none
  /-- payload of a module-originated message -/
  payload : List Byte := []
  /-- the completion entry of the combine whose PLY send this is -/
  onDone : Option Cqe := none
deriving DecidableEq, Repr

/-- A wait at the head of its queue (R319, R320). -/
structure Wait where
  tag : W64
  sourceKind : Nat
  source : W32
  threshold : Nat
  failLimit : Nat
  cancelNext : Nat
  deadline : Option Nat
  trig : Option TrigRef
deriving DecidableEq, Repr

/-- A job queue (R119, R318). -/
structure Jq where
  tenant : W16
  depth : Nat
  cq : Nat
  admitWait : Nat
  area : Area
  tail : Nat := 0
  entries : List QEntry := []
  completed : Nat := 0
  failed : Nat := 0
  wait : Option Wait := none
  /-- entries still to be cancelled by a failed wait -/
  cancelNext : Nat := 0
  destroyed : Bool := false
  /-- the JOB_QUEUE_DESTROY that ends with the last admitted entry -/
  waiter : Option CmdRef := none
deriving DecidableEq, Repr

/-- One skein's part of a job (R123). -/
structure JobEntry where
  skein : W32
  first : Nat
  last : Nat
  rowFirst : Nat
  rowCount : Nat
  /-- the row's length at step 5 of R124, and the skein's C and ELEMENTS -/
  len : Nat
  cap : Nat := 4
  elements : Nat := 32
  /-- the bobbins that step 11 left to be streamed, ascending -/
  plan : List Nat := []
  /-- tokens excluded at translation -/
  missing : Nat := 0
  /-- its query rows as work items take them: passes of rows, in expanded mode those of one head (R93, R111) -/
  groups : List (List Nat) := []
deriving DecidableEq, Repr

/-- The running state of one row (R101). -/
structure RowState where
  m : W32 := 0xFF800000
  l : W32 := 0
  acc : List W32
deriving DecidableEq, Repr

/-- A work item: one bobbin of one row for one query pass, in expanded mode of one head (R52, R93, R111). -/
structure Item where
  entry : Nat
  pass : Nat
  bobbin : Nat
  leaf : Leaf
  /-- leas already handled, and those of them that failed their check (R75) -/
  leas : Nat := 0
  lost : List Nat := []
  done : Bool := false
  /-- the sub-array that took it: spindle × 64 + sub-array -/
  sub : Option Nat := none
  /-- the sub-array that its unit is dealt to in deterministic mode (R107) -/
  dealt : Option Nat := none
  /-- the states of its rows before its first lea: where it is restarted (R109) -/
  saved : Table RowState := []
deriving DecidableEq, Repr

/-- Where an admitted or waiting job stands. -/
inductive JobPhase where
  | waiting | sketchWait | cacheWait | launchWait | barrier | streaming | compacting | sent
deriving DecidableEq, Repr

/-- Whether admission has not ended yet (R124 steps 10 to 12). -/
def JobPhase.unadmitted (p : JobPhase) : Bool := p == .waiting || p == .sketchWait || p == .cacheWait

/-- A job past its checks (R124–R128). -/
structure Job where
  queue : Nat
  tenant : W16
  bytes : List Byte
  phase : JobPhase
  query : List Byte
  querySlub : Nat
  trig : Option TrigRef
  staging : Option (Nat × Nat × Nat)
  entries : List JobEntry
  items : List Item := []
  /-- leaf keys that a COMPACT has still to re-encode -/
  keys : List Nat := []
  /-- partial states by (row × 4,096 + class or sub-array) -/
  states : Table RowState := []
  /-- sub-arrays in the order in which their partials completed, the latest last -/
  order : List Nat := []
  epoch : Nat := 0
  launch : W64 := 0
  waitUntil : Option Nat := none
  barrier : List Nat := []
  key : List Byte := []
  whorls : Bool := false
  startAt : Nat := 0
  sketchSeq : Nat := 0
  /-- the ply rows as sent, and whether they came from the cache -/
  rows : List Byte := []
  replayed : Bool := false
  /-- an audit charged one of its spindles: its ply is not cached (R459) -/
  uncached : Bool := false
deriving DecidableEq, Repr

/-- A cached ply (R146, R147). -/
structure CachedPly where
  skeins : List W32
  layer : Nat
  hg : Nat
  step : W64
  key : List Byte
  rows : List Byte
deriving DecidableEq, Repr

/-- One received row of a combine (R136). -/
structure Input where
  qi : Nat
  rank : Nat
  layer : Nat
  hg : Nat
  flags : Nat
  coverage : Nat
  missing : Nat
  m : W32
  l : W32
  vec : List W32
deriving DecidableEq, Repr

/-- A combine context (R134–R139). -/
structure Combine where
  tenant : W16
  queue : Nat
  bytes : List Byte
  step : W64
  inputs : List Input := []
  second : List Input := []
  startedAt : Option Nat := none
  discarded : Nat := 0
  charge : Nat := 0
  area : Area := []
  trig : Option TrigRef := none
deriving DecidableEq, Repr

/-- A trigger list (R305, R552). -/
structure TrigList where
  tenant : W16
  store : Nat
  storeUse : Nat := 0
  staging : Nat
  stagingUse : Nat := 0
  ringDepth : Nat
  /-- the posting ring's slabs, and the slabs behind ENTRY_STORE and STAGING -/
  area : Area
  storeSlabs : Area := []
  stagingSlabs : Area := []
  /-- posting-ring slots processed since the list was made -/
  ringDone : Nat := 0
  destroyed : Bool := false
deriving DecidableEq, Repr

/-- A trigger entry that is not FREE (R307, R316). -/
structure TrigEntry where
  list : Nat
  handle : W32
  header : List Byte
  actions : List (List Byte)
  halted : Bool := false
  fired : Nat := 0
  /-- places of actions whose target has been destroyed (R312, R317) -/
  gone : List Nat := []
  order : Nat
deriving DecidableEq, Repr

/-- An action in the timed hold (R315). -/
structure HeldAction where
  entry : W32
  list : Nat
  firing : Nat
  bytes : List Byte
  target : W32
  due : W64
  query : Option QueryCtx
  trig : TrigRef
  /-- the completion queue the target was bound to; 65,536 once that is destroyed -/
  cq : Nat
  tenant : W16
  /-- the target has been destroyed -/
  gone : Bool := false
deriving DecidableEq, Repr

/-- Queues, jobs, combines and triggers. -/
structure Work where
  cqs : Table Cq := []
  jqs : Table Jq := []
  jobs : Table Job := []
  nextJob : Nat := 0
  cache : List CachedPly := []
  combines : Table Combine := []
  lists : Table TrigList := []
  entries : Table TrigEntry := []
  trigPool : Pool := {}
  postOrder : Nat := 0
  firing : Nat := 0
  hold : List HeldAction := []
  /-- failure notices that wait for a send-queue slot: connection handle and payload -/
  notices : List (W32 × List Byte) := []
  /-- the job queue whose head entry was served last (R120) -/
  rrQueue : Nat := 0
deriving DecidableEq, Repr

/-! ## Flyer -/

/-- A sent message not yet acknowledged (R283, R300). -/
structure Msg where
  seq : Nat
  opcode : Nat
  ackReq : Bool
  signal : Bool
  tag : W64
  payload : List Byte
  key : W32 := 0
  roff : W64 := 0
  lkey : W32 := 0
  loff : Nat := 0
  len : Nat := 0
  attempts : Nat := 0
  sentAt : Nat := 0
  path : Nat := 0
  source : Option (Nat × Nat) := none
  trig : Option TrigRef := none
  /-- a job's or combine's completion entry, to be posted when the message completes -/
  onDone : Option Cqe := none
deriving DecidableEq, Repr

/-- A received ACK or NAK that waits to be handled. -/
structure Ctl where
  nak : Bool
  ackSeq : Nat
  msgSeq : Nat
  status : Nat
  credit : Nat
  retry : Nat
  bitmap : W64
deriving DecidableEq, Repr

/-- STATE of a connection other than FREE (R282). -/
inductive ConnState where
  | ready | draining | error
deriving DecidableEq, Repr

/-- A connection (R281, R282). -/
structure Conn where
  handle : W32
  tenant : W16
  state : ConnState := .ready
  sess : Nat
  peerNode : Nat
  peerConn : W32
  /-- port and path tag -/
  paths : List (Nat × Nat)
  cls : Nat
  stopOnError : Bool
  retryLimit : Nat
  sqDepth : Nat
  rxBuffer : Nat
  srq : Option Nat
  cq : Nat
  ackTimeout : Nat
  /-- the send queue's slots, and the slabs of RX_BUFFER -/
  area : Area
  rxArea : Area := []
  sqTail : Nat := 0
  sq : List QEntry := []
  wait : Option Wait := none
  cancelNext : Nat := 0
  nextSeq : Nat := 1
  unacked : List Msg := []
  credit : Option Nat := none
  lcs : Nat := 0
  rxUse : Nat := 0
  sinceAck : Nat := 0
  oldestUnacked : Option Nat := none
  atomics : List (Nat × W64) := []
  ctl : List Ctl := []
  nextPath : Nat := 0
  completed : Nat := 0
  failed : Nat := 0
  drainWaiters : List CmdRef := []
  destroyWaiter : Option CmdRef := none
  /-- a message could not execute because the write-hold queue was full (R297) -/
  creditZero : Bool := false
deriving DecidableEq, Repr

/-- A reassembly context (R293). -/
structure Reasm where
  conn : Nat
  seq : Nat
  opcode : Nat
  ackReq : Bool
  /-- payloads by offset -/
  parts : Table (List Byte)
  got : Nat
  total : Option Nat
  start : Nat
  key : W32
  roff : W64
  /-- a WRITE or atomic packet has already failed R285 with this status -/
  failed : Nat := 0
deriving DecidableEq, Repr

/-- A flyer session (R278, R279). -/
structure Session where
  peer : Nat
  /-- the port of its handshake -/
  port : Nat := 0
  peerIndex : Nat
  hybrid : Bool
  /-- number of the key pair in the island -/
  keyNo : Nat
  /-- key generations per direction; their parity is the key phase -/
  txGen : Nat := 0
  rxGen : Nat := 0
  txCount : Nat := 0
  rxTop : Nat := 0
  rxSeen : List Nat := []
  discards : List Nat := []
  oldKeyUntil : Option Nat := none
  rekeyAt : Nat := 0
deriving DecidableEq, Repr

/-- A memory region (R284): kind 1 BUFFER, 2 SKEIN, 3 LEASE. -/
structure Region where
  kind : Nat
  rights : Nat
  tenant : W16
  key : W32
  skein : W32
  length : Nat
  area : Area
deriving DecidableEq, Repr

/-- A shared receive queue (R302). -/
structure Srq where
  tenant : W16
  entries : Nat
  area : Area
  tail : Nat := 0
  /-- slots posted and not consumed, oldest first -/
  fifo : List Nat := []
deriving DecidableEq, Repr

/-- A frame waiting in a transmit queue (R324): its transport header, payload and tag, and where it goes. -/
structure TxFrame where
  tid : Nat
  cls : Nat
  conn : Nat
  sess : Nat
  dst : Nat
  pathTag : Nat
  body : List Byte
  queuedAt : Nat
  /-- an ACK or NAK: gated but not shaped (R325) -/
  unshaped : Bool := false
deriving DecidableEq, Repr

/-- A gate list entry (R331): DURATION in 10 ns and GATE_MASK. -/
abbrev Gate := Nat × Byte

/-- STATE of PORT_STATUS (R268). -/
inductive PortState where
  | down | training | up | lowRate | retraining
deriving DecidableEq, Repr

/-- A port: link layer and scheduler (R263–R274, R324–R333). -/
structure Port where
  state : PortState := .down
  map : BitVec 9 := 0
  spareUsed : Bool := false
  bankB : Bool := false
  standbyOk : Bool := false
  failedWl : List Nat := []
  retrainStart : Nat := 0
  sendSeq : Byte := 0
  expSeq : Byte := 0
  /-- frames sent and not covered by a LINK_ACK, oldest first -/
  replay : List (Byte × List Byte) := []
  oldestAt : Nat := 0
  replays : Nat := 0
  sinceAck : Nat := 0
  ackBy : Option Nat := none
  light : Bool := true
  lightLostAt : Nat := 0
  failover : Bool := false
  /-- since when the replay timer is paused (R266) -/
  pausedAt : Option Nat := none
  /-- both laser banks have failed (R266) -/
  noBank : Bool := false
  /-- the partner's new map and the stripe units that go before it takes effect (R274) -/
  switching : Option (BitVec 9 × Nat) := none
  partnerLowRate : Bool := false
  discarded : Nat := 0
  sending : Option TxFrame := none
  queue : List TxFrame := []
  /-- frames held back for a LOW_RATE or DOWN port stay in queue -/
  overhead : Nat := 20
  quantum : List Nat := [16384, 16384, 16384, 16384, 16384, 16384, 16384]
  /-- deficits by class × 4,096 + tenant ID, and by class -/
  deficit : Table Nat := []
  classDeficit : Table Nat := []
  lastTenant : Table Nat := []
  lastClass : Nat := 6
  /-- the connection served last, by class × 4,096 + tenant ID (R324) -/
  lastConn : Table Nat := []
  gates : List Gate := []
  gateStart : W64 := 0
  gateEntry : Nat := 0
  standby : Option (List Gate × W64) := none
  framesSent : Table Nat := []
  maxDelay : Table Nat := []
  handshakes : List Nat := []
deriving DecidableEq, Repr

/-- A tenant's shaper for one class (R327, R328); tokens in bytes and their fraction in 1/1,000. -/
structure Shaper where
  enable : Bool := false
  rate : Nat := 1600000
  burst : Nat := 1048576
  weight : Nat := 16
  permitted : Bool := true
  milli : Nat := 1048576000
  lastAt : Nat := 0
deriving DecidableEq, Repr

/-- Sampling settings and the telemetry ring (R334–R336). -/
structure Telemetry where
  period : Nat := 0
  portMask : Nat := 0
  classMask : Nat := 0
  tenants : List Nat := []
  records : Nat := 0
  area : Area := []
  written : Nat := 0
  /-- records consumed, oldest first, and records that mailbox 0 has read -/
  readPos : Nat := 0
  allPos : Nat := 0
  dropped : Nat := 0
  next : W64 := 0
deriving DecidableEq, Repr

/-- The flyer. -/
structure Flyer where
  ports : Table Port := [(0, {}), (1, {}), (2, {}), (3, {})]
  sessions : Table Session := []
  nextKey : Nat := 0
  conns : Table Conn := []
  connPool : Pool := {}
  reasm : List Reasm := []
  regions : Table Region := []
  regionPool : Pool := {}
  srqs : Table Srq := []
  /-- packets discarded and counted, by reason -/
  discards : Table Nat := []
  shapers : Table Shaper := []
  tele : Telemetry := {}
deriving DecidableEq, Repr

/-! ## Prefix table -/

/-- A prefix-table entry with VALID = 1 (R206). -/
structure PEntry where
  priority : Nat
  run : W32
  tenant : W16
  modelId : W16
  hash : Nat
deriving DecidableEq, Repr

/-- A run (R199–R204). -/
structure Run where
  handle : W32
  tenant : W16
  layers : Nat
  heads : Nat
  elements : Nat
  format : Nat
  cap : Nat
  modelId : W16
  bobbins : Nat
  length : Nat
  hashes : List Nat
  leaves : Table Leaf
  source : Nat
  /-- identifiers and history of its tokens, for attachment -/
  reel : Table W32 := []
  history : Table (Nat × W32) := []
  creator : Bool := true
  skeins : List Nat := []
  entries : Nat := 0
  damaged : Bool := false
  ready : Bool := true
deriving DecidableEq, Repr

/-- Insertions that wait (R210): the entry, none where a command only awaits those before it, and the command that ends with
the last of its own. -/
structure PInsert where
  entry : Option PEntry
  tenant : W16
  waiter : CmdRef
  inserted : Nat
  last : Bool
deriving DecidableEq, Repr

/-- The prefix table and the run table. -/
structure Prefix where
  entries : Table PEntry := []
  shadow : Table PEntry := []
  inserts : List PInsert := []
  runs : Table Run := []
  runPool : Pool := {}
  softErrors : Nat := 0
  lastCompare : Nat := 0
deriving DecidableEq, Repr

/-! ## Creel, whorls, reliability, security -/

/-- The use of a physical block (R241, R253). -/
inductive BlkUse where
  | data (lb : Nat) | buffer | log | mergeDest (lb : Nat) | erasing (slc : Bool) | retired
deriving DecidableEq, Repr

/-- KIND of a programmed page (R245). -/
inductive PageKind where
  | lea | skein | reel | checkpoint | flush | system
deriving DecidableEq, Repr

/-- The record in the spare area of a programmed page (R245); RECORD_CHECK follows from the rest. -/
structure PageRecord where
  kind : PageKind
  /-- FLAGS: bit 1 MERGE_SEAL, bit 0 MERGE_COPY -/
  flags : BitVec 2 := 0
  pageIndex : BitVec 16
  logicalBlock : BitVec 20 := 0
  sequence : W64
deriving DecidableEq, Repr

/-- A programmed page: its record, and the bits that the patrol's last read of it corrected (R245, R259). -/
structure FlashPage where
  record : PageRecord
  corrected : Nat := 0
deriving DecidableEq, Repr

/-- A physical page: block, and page within it. -/
abbrev PageAt := Nat × Nat

/-- A creel skein record (R247). -/
structure SkRecord where
  skein : Skein
  /-- programmed order -/
  seq : Nat
deriving DecidableEq, Repr

/-- A skein record, or the tombstone that supersedes one, whose pages are not yet erased (R247, R251). -/
structure MetaRec where
  idx : Nat
  /-- none for a tombstone -/
  body : Option SkRecord
  places : List PageAt
  seq : Nat
deriving DecidableEq, Repr

/-- A page of a skein's reel segments: the blocks of 64 identifiers, from `first` and before `last`, that it holds (R465). -/
structure ReelPage where
  idx : Nat
  place : PageAt
  first : Nat
  last : Nat
deriving DecidableEq, Repr

/-- A map checkpoint: the sequence counter when it was taken, and the first unprogrammed page of every block into which writes were
being placed (R251). -/
structure Checkpoint where
  counter : W64
  opens : Table Nat
deriving DecidableEq, Repr

/-- The reel tail of a skein in a flush: its identifiers, and where it begins in the flush's bytes (R260). -/
structure FlushTail where
  idx : Nat
  start : Nat
  ids : List Nat
deriving DecidableEq, Repr

/-- A system area of the creel, in the system blocks (R239; log 81). -/
inductive SysArea where
  | flush | image | map (copy : Nat) | generations (copy : Nat) | keyStore (copy : Nat) | lmsIndex (copy : Nat) | tenants | repair
deriving DecidableEq, Repr

/-- Generations saved by the generation record (R515). -/
structure GenRecord where
  skeins : Table Nat := []
  runs : Table Nat := []
  conns : Table Nat := []
  regions : Table Nat := []
  trigs : Table Nat := []
  /-- indices whose object was live when the record was saved -/
  liveSkeins : List Nat := []
  liveRuns : List Nat := []
  liveConns : List Nat := []
  liveRegions : List Nat := []
  liveTrigs : List Nat := []
deriving DecidableEq, Repr

/-- STATE of CREEL_STATUS (R262). -/
inductive CreelState where
  | offline | rebuilding | online | readOnly
deriving DecidableEq, Repr

/-- The creel (R239–R262). -/
structure Creel where
  state : CreelState := .offline
  spare : Nat := min 55910 (max 44728 Config.sparePoolRaw)
  /-- blocks in use or retired; every other data block is free or a spare -/
  blocks : Table BlkUse := []
  /-- erases in TLC and in SLC mode, counted from the unit's manufacture (R250, R258) -/
  tlcErases : Table Nat := []
  slcErases : Table Nat := []
  /-- free data blocks: neither in use, nor of the pool at manufacture, of which the blocks found bad are a part (R239) -/
  freeBlocks : Nat := 1341850
  retired : Nat := 0
  maxWear : Nat := min 29 Config.newWearRaw
  /-- logical block → data block -/
  map : Table Nat := []
  /-- programmed pages of each block, data and system blocks alike, in page order (R245) -/
  flash : Table (List FlashPage) := []
  /-- where the live copy of a logical page (block × 1,536 + page) lies -/
  pages : Table PageAt := []
  bufferBlocks : List Nat := []
  logBlocks : List Nat := []
  /-- SLC blocks that hold skein records, tombstones and reel segments (log 81) -/
  recordBlocks : List Nat := []
  bufferSize : Nat := 0
  /-- bobbin slots allocated when the size was last computed -/
  sizedAt : Nat := 0
  sequence : W64 := 0
  filling : Option Nat := none
  /-- slots of a logical block written since its last merge (R243) -/
  merges : Table (List Nat) := []
  records : Table SkRecord := []
  recordBobbins : Table Nat := []
  /-- records and tombstones in flash, in programmed order (R251) -/
  metas : List MetaRec := []
  /-- records found at a start and not yet handled, their reels with them (R517, R518) -/
  toRestore : Table SkRecord := []
  /-- the two copies of the map checkpoint, and the one that is written next (R250) -/
  checkpoints : Table Checkpoint := []
  nextCopy : Nat := 0
  /-- the CLEAN mark: the counter value that it records (R251) -/
  cleanMark : Option W64 := none
  /-- the newest generation record, and the copy before it (R515) -/
  genRecord : Option GenRecord := none
  genBefore : Option GenRecord := none
  /-- reels saved in the creel for skeins, by index -/
  reels : Table (Table W32) := []
  /-- pages of reel segments, in programmed order -/
  reelPages : List ReelPage := []
  /-- reels of skeins that were resident at a loss: handles found in segments -/
  orphans : List (W32 × W16) := []
  /-- pages written by the last flush, as its final page counts them (R260) -/
  flushed : Nat := 0
  /-- pages that the final flush page records as lost (R261), and the tails that the flush wrote -/
  flushLost : List Nat := []
  flushTails : List FlushTail := []
  /-- system blocks replaced by spare ones (R256) -/
  sysMoved : Table Nat := []
  patrolPage : Nat := 0
  patrolStart : Nat := 0
  patrolLate : Bool := false
  /-- logical blocks that patrol wants merged, and those that wear levelling wants merged (R243, R258) -/
  asked : List Nat := []
  level : List Nat := []
deriving DecidableEq, Repr

/-- One spindle (R116, R117). -/
structure Spindle where
  /-- STATE code of SPINDLE_STATUS -/
  state : Nat := 4
  foldDepth : Nat := 0
  foldWidth : Nat := 0
  deterministic : Bool := false
  expanded : Bool := false
  failed : List Nat := []
  selfTest : Bool := false
  /-- local times of charged mismatches, and the columns of the last three -/
  mismatches : List Nat := []
  lastColumns : List (Option Nat) := []
deriving DecidableEq, Repr

/-- One stack's whorl status (R177). -/
structure Stack where
  /-- STATE code of WHORL_STATUS -/
  state : Nat := 2
  whorls : Nat := 0
  vacant : List Nat := []
deriving DecidableEq, Repr

/-- A logged audit mismatch (R459). -/
structure AuditRec where
  original : Nat
  auditor : Nat
  arbiter : Option Nat := none
  charged : List Nat := []
  /-- LOG_INDEX -/
  index : Nat
  /-- whether the arbiter has decided, or there was none -/
  settled : Bool := false
  /-- differing rows with their physical columns -/
  rows : List (Nat × Nat)
  fold : Nat
  busy : Nat
  job : Nat
  key : List Byte
  jobTag : W64
  step : W64
  skein : W32
  layer : Nat
deriving DecidableEq, Repr

/-- Reliability (R443–R475). -/
structure Rel where
  spindles : List Spindle := List.replicate 8 {}
  stackUnits : List Stack := List.replicate 8 {}
  /-- logical channel (stack × 128 + channel) → physical channel where it is not the one of R450 -/
  chanMap : Table Nat := []
  /-- physical channels (stack × 136 + physical) in use as spares for a logical one, expelled, or failed -/
  spareUsed : List Nat := []
  expelled : List (Nat × Nat) := []
  suspect : List (Nat × Nat) := []
  /-- copies to a spare in progress: logical channel → (spare physical, waiter) -/
  copies : Table (Nat × Option CmdRef) := []
  /-- expulsions: class, unit group, fabric time -/
  expulsions : List (Nat × Nat × Nat) := []
  /-- corrected and uncorrectable lines: physical channel, local time, uncorrectable -/
  ecc : List (Nat × Nat × Bool) := []
  scores : Table Nat := []
  margins : Table Nat := []
  counters : Table Nat := []
  /-- the last 256 mismatches, and the number of all -/
  audits : List AuditRec := []
  auditCount : Nat := 0
  /-- leas that an auditor has audited in a budget period: spindle → period × 2^32 + leas -/
  auditUse : Table Nat := []
  /-- mismatches attributed to a column: spindle × 516 + column, local time (R460) -/
  columnCharges : List (Nat × Nat) := []
  /-- columns that failed a self-test (R454) -/
  failedTest : List Nat := []
  /-- module logical channels whose physical channel UNIT_SERVICE took out (R462) -/
  takenOut : List Nat := []
  patrolDone : Nat := 0
  patrolStart : Nat := 0
  /-- the budget period of 1 ms last patrolled, and the bytes taken in it; the same for the creel: 1 s and pages (R446) -/
  patrolUse : Nat × Nat := (0, 0)
  creelPatrolUse : Nat × Nat := (0, 0)
  /-- the budget period in which each duty was last counted as deferred (R475) -/
  deferAt : Table Nat := []
  /-- uncorrectable codewords of the last hour: wavelength, local time, number (R454) -/
  codewords : List (Nat × Nat × Nat) := []
  dutyLate : Bool := false
  /-- calibration steps done in the present round, and the narrowest margin met in it, by physical channel -/
  calStep : Table Nat := []
  calMin : Table Nat := []
  /-- local time of each physical channel's last calibration step (R448) -/
  calAt : Table Nat := []
  /-- sketch updates in a budget period of 1 ms by channel group: period and updates (R446) -/
  sketchUse : Table (Nat × Nat) := []
  lastHealth : Nat := 0
deriving DecidableEq, Repr

/-- A report that waits for its batch (R426, R430). -/
structure Report where
  waiter : CmdRef
  body : List Byte
  sig : List Byte
  out : Nat
  cap : Nat
  ld : Nat
deriving DecidableEq, Repr

/-- The security island (R418–R442). -/
structure Sec where
  lifecycle : Byte := 1
  revoked : BitVec 4 := 0
  svnRecords : List W32 := []
  /-- NEXT of the HSS index record -/
  hssNext : Nat := 0
  hssStopped : Bool := false
  lmsLow : Bool := false
  treeReady : Bool := false
  batch : Option (Nat × List Report) := none
  waiting : List Report := []
  lastOpen : Option Nat := none
  rngFailed : Bool := false
  keyStoreSeq : Nat := 0
  /-- tenant IDs in state DESTROYING in the key store -/
  destroying : List Nat := []
  metadataKey : Nat := 0
deriving DecidableEq, Repr

/-- The management sideband (R538). -/
structure Sideband where
  dynAddr : Option (BitVec 7) := none
  eid : Byte := 0
deriving DecidableEq, Repr

/-- The whole module. -/
structure State where
  /-- waiting commands, first in, first out -/
  pending : List Instr := []
  freeCount : Nat := 0
  out : List Out := []
  mem : Mem := []
  time : TimeUnit := {}
  power : Power := {}
  boot : Boot := {}
  cfg : Cfg := {}
  /-- W1C flag registers by flag row, and their counters by row × 32 + bit (R348) -/
  flags : Table W32 := []
  counts : Table Byte := []
  cxl : Cxl := {}
  box : Boxes := {}
  tenants : Table Tenant := []
  store : Store := {}
  images : Images := {}
  inv : Inv := {}
  work : Work := {}
  flyer : Flyer := {}
  pfx : Prefix := {}
  creel : Creel := {}
  rel : Rel := {}
  sec : Sec := {}
  side : Sideband := {}
deriving DecidableEq, Repr

/-- The module right after reset: every register at its Reset column, STATE BOOTING, no object, nothing written. -/
def State.reset : State := {}

end Sys2Proof.Machine
end

