-- ==== Sys2Proof/Machine/BreusOps.lean ====
section
/-!
DEFINITION. One Breus invocation: registers, the effect of every opcode, forward control, budgets and traps
(R178–R188), the load checks on a word (R180, R184–R186), and a whole run of a resident program.
-/
namespace Sys2Proof.Machine

/-- Store size in words (R178). -/
def Place.words : Place → Nat
  | .score => 1024 | .whorl => 512 | .tier => 2048
/-- Budget per invocation (R178). -/
def Place.budget : Place → Nat
  | .score => 256 | .whorl => 1024 | .tier => 8192

/-- Trap codes (R188). -/
def trapBudget : Nat := 1
def trapExplicit : Nat := 2
def trapNonfinite : Nat := 3
def trapIndex : Nat := 4
def trapCount : Nat := 5

/-- What one operation does: the registers after it and the next word, or a trap code and its IMM. -/
abbrev BEff := Except (Nat × Nat) (Inv × Nat)
/-- One operation. -/
abbrev BOp := Inv → BEff

/-- CODE_WORDS; an invocation whose words come as commands may fill the store (DESIGN CHOICE, log 11). -/
def Inv.codeWords (i : Inv) : Nat := if i.code.isEmpty then i.place.words else i.code.length

def Inv.sAt (i : Inv) (k : Nat) : W32 := i.s.getD k 0
def Inv.vAt (i : Inv) (k : Nat) : List W32 := i.v.getD k []
def Inv.pAt (i : Inv) (k : Nat) : W64 := i.p.getD k 0
def Inv.setS (i : Inv) (k : Nat) (x : W32) : Inv := { i with s := i.s.set k x }
def Inv.setV (i : Inv) (k : Nat) (x : List W32) : Inv := { i with v := i.v.set k x }
def Inv.setP (i : Inv) (k : Nat) (x : W64) : Inv := { i with p := i.p.set k x }

/-- The next word in sequence. -/
def Inv.ok (i : Inv) : BEff := .ok (i, i.pc + 1)

/-- A trap: the invocation ends and its outputs are discarded (R188). -/
def Inv.trapped (i : Inv) (code imm : Nat) : Inv :=
  { i with running := false, ended := false, body := none, trap := some (code, imm, i.pc) }

/-- The end of an invocation: the outputs are taken; a whorl's s0 must be finite (R184, R191). -/
def Inv.finish (i : Inv) : Inv :=
  if i.place = .whorl ∧ nonfinite32 (i.sAt 0) then i.trapped trapNonfinite 0
  else { i with running := false, ended := true, body := none }

/-- Where control goes: the end of a REP body starts the next iteration or leaves it; past the last word the
invocation ends (R185, R186), and a non-finite s0 is recorded at CODE_WORDS (R191; DESIGN CHOICE, log 85). -/
def Inv.goTo (i : Inv) (pc : Nat) : Inv :=
  match i.body with
  | some (first, past, left) =>
    if pc ≠ past then { i with pc }
    else if left > 0 then { i with pc := first, body := some (first, past, left - 1) }
    else if pc ≥ i.codeWords then { i with pc, body := none }.finish
    else { i with pc, body := none }
  | none => if pc ≥ i.codeWords then { i with pc }.finish else { i with pc }

/-- One instruction of a running invocation: the budget, the operation, the next word (R185–R188). -/
def Inv.issue (i : Inv) (op : BOp) : Inv :=
  if i.executed + 1 > i.place.budget then i.trapped trapBudget 0
  else
    let i := { i with executed := i.executed + 1 }
    match op i with
    | .error (code, imm) => i.trapped code imm
    | .ok (i, pc) => if i.running then i.goTo pc else i

/-! ## Operations (R182–R186) -/

/-- A signed immediate (R180). -/
def immS (imm : BitVec 14) : W32 := imm.signExtend 32

def bNop : BOp := Inv.ok
def bEnd : BOp := fun i => .ok (i.finish, i.pc)
def bTrap (imm : BitVec 14) : BOp := fun _ => .error (trapExplicit, imm.toNat)

/-- A forward branch (R185). -/
def bBranch (cond : Inv → Bool) (offset : BitVec 14) : BOp := fun i =>
  .ok (i, if cond i then i.pc + 1 + offset.toNat else i.pc + 1)

/-- The start of a body of `length` words for `count` iterations; a count of 0 skips it (R186). -/
def bBody (length count : Nat) : BOp := fun i =>
  if count = 0 then .ok (i, i.pc + 1 + length)
  else .ok ({ i with body := some (i.pc + 1, i.pc + 1 + length, count - 1) }, i.pc + 1)

def bRep (length : BitVec 8) (count : BitVec 14) : BOp := bBody length.toNat count.toNat
def bReps (a : Nat) (length : BitVec 8) : BOp := fun i =>
  let n := (i.sAt a).toNat
  if n > 4096 then .error (trapCount, 0) else bBody length.toNat n i

/-- A scalar result from the registers. -/
def bS (d : Nat) (f : Inv → W32) : BOp := fun i => (i.setS d (f i)).ok
/-- A scalar result from two scalars. -/
def bSS (d a b : Nat) (f : W32 → W32 → W32) : BOp := bS d fun i => f (i.sAt a) (i.sAt b)

def bLdk (d : Nat) (k : BitVec 14) : BOp := bS d fun i => i.consts.getD k.toNat 0
def bLdkx (d a : Nat) : BOp := fun i =>
  let k := (i.sAt a).toNat
  if k ≥ i.consts.length then .error (trapIndex, 0) else (i.setS d (i.consts.getD k 0)).ok

/-- A shift by the low five bits of its amount (R182, R184). -/
def shift (kind : Nat) (x : W32) (amount : Nat) : W32 :=
  let n := amount % 32
  if kind = 0 then x <<< n else if kind = 1 then x >>> n else x.sshiftRight n

def smin (x y : W32) : W32 := if y.slt x then y else x
def smax (x y : W32) : W32 := if x.slt y then y else x
def sminu (x y : W32) : W32 := if y < x then y else x
def smaxu (x y : W32) : W32 := if x < y then y else x
def oneIf (c : Bool) : W32 := if c then 1 else 0

/-- A vector result. -/
def bV (d : Nat) (f : Inv → List W32) : BOp := fun i => (i.setV d (f i)).ok
/-- A lane-wise result from two vectors. -/
def bVV (d a b : Nat) (f : W32 → W32 → W32) : BOp := bV d fun i => (i.vAt a).zipWith f (i.vAt b)
/-- A lane-wise result from one vector. -/
def bV1 (d a : Nat) (f : W32 → W32) : BOp := bV d fun i => (i.vAt a).map f

/-- The 64-bit mask of the lanes that satisfy a predicate. -/
def laneMask (f : Nat → Bool) : W64 :=
  BitVec.ofNat 64 ((List.range 64).foldr (fun i n => (if f i then 1 else 0) + 2 * n) 0)

/-- The lanes of a vector that a mask selects, in lane order. -/
def selected (v : List W32) (p : W64) : List W32 :=
  ((v.zip (List.range 64)).filter fun x => p.getLsbD x.2).map (·.1)

def bVsel (d a b p : Nat) : BOp := bV d fun i =>
  (((i.vAt a).zip (i.vAt b)).zip (List.range 64)).map fun x => if (i.pAt p).getLsbD x.2 then x.1.1 else x.1.2
def bVbcst (d a : Nat) : BOp := fun i =>
  let x := i.sAt a
  if nonfinite32 x then .error (trapNonfinite, 0) else (i.setV d (List.replicate 64 x)).ok
def bVredadd (d a p : Nat) : BOp := bS d fun i => (selected (i.vAt a) (i.pAt p)).foldl fadd 0
def bVredmax (d a p : Nat) : BOp := bS d fun i =>
  match selected (i.vAt a) (i.pAt p) with
  | [] => 0xFF7FFFFF
  | x :: xs => xs.foldl fmax x

/-- A predicate result. -/
def bP (d : Nat) (f : Inv → W64) : BOp := fun i => (i.setP d (f i)).ok
def fcond (cond : Nat) (x y : W32) : Bool :=
  if cond = 0 then f32key x < f32key y else if cond = 1 then f32key x ≤ f32key y else f32key x == f32key y
def bPcmp (d a b cond : Nat) : BOp := bP d fun i =>
  laneMask fun k => fcond cond ((i.vAt a).getD k 0) ((i.vAt b).getD k 0)
def plogic (op : Nat) (x y : W64) : W64 :=
  if op = 0 then x &&& y else if op = 1 then x ||| y else if op = 2 then x ^^^ y else x &&& ~~~y
def bPrange (d a b : Nat) : BOp := bP d fun i =>
  laneMask fun k => (i.sAt a).toInt ≤ (k : Int) ∧ (k : Int) < (i.sAt b).toInt
def popcount (x : W64) : Nat := ((List.range 64).filter x.getLsbD).length

/-! ## Words (R179, R180, R184) -/

/-- The kind of register a field names. -/
inductive RegKind where
  | none | s | v | p
deriving DecidableEq, Repr

/-- A row of the opcode table: code, the kinds of DEST, SRC_A and SRC_B, the bits of IMM that it defines, and whether
the whorls and the tier engine accept it; the score path accepts every row. -/
structure BRow where
  code : Nat
  d : RegKind
  a : RegKind
  b : RegKind
  imm : Nat
  whorl : Bool := true
  tier : Bool := true

/-- Control, constant and scalar opcodes. -/
def breusScalarRows : List BRow :=
  [⟨0x00, .none, .none, .none, 0, true, true⟩, ⟨0x01, .none, .none, .none, 0, true, true⟩,
   ⟨0x02, .none, .none, .none, 0x3FFF, true, true⟩, ⟨0x03, .none, .s, .none, 0x3FFF, true, true⟩,
   ⟨0x04, .none, .s, .none, 0x3FFF, true, true⟩, ⟨0x05, .none, .p, .none, 0x3FFF, true, false⟩,
   ⟨0x06, .none, .p, .none, 0x3FFF, true, false⟩, ⟨0x07, .none, .none, .none, 0x3FFF, true, true⟩,
   ⟨0x08, .none, .s, .none, 0x3FC0, true, true⟩, ⟨0x09, .s, .none, .none, 0x3FFF, true, true⟩,
   ⟨0x0A, .s, .s, .none, 0, true, true⟩, ⟨0x0B, .s, .none, .none, 0x3FFF, true, true⟩,
   ⟨0x0C, .s, .s, .s, 0, true, true⟩, ⟨0x0D, .s, .s, .none, 0x3FFF, true, true⟩,
   ⟨0x0E, .s, .s, .s, 0, true, true⟩, ⟨0x0F, .s, .s, .s, 0, true, true⟩] ++
  [⟨0x10, .s, .s, .s, 0, true, true⟩, ⟨0x11, .s, .s, .s, 0, true, true⟩, ⟨0x12, .s, .s, .s, 0, true, true⟩,
   ⟨0x13, .s, .s, .s, 0x3000, true, true⟩, ⟨0x14, .s, .s, .none, 0x301F, true, true⟩,
   ⟨0x15, .s, .s, .s, 0, true, true⟩, ⟨0x16, .s, .s, .s, 0, true, true⟩, ⟨0x17, .s, .s, .s, 0, true, true⟩,
   ⟨0x18, .s, .s, .s, 0, true, true⟩, ⟨0x19, .s, .s, .s, 0, true, true⟩, ⟨0x1A, .s, .s, .s, 0, true, true⟩]

/-- Vector and predicate opcodes. -/
def breusVectorRows : List BRow :=
  [⟨0x20, .v, .v, .v, 0, true, false⟩, ⟨0x21, .v, .v, .v, 0, true, false⟩, ⟨0x22, .v, .v, .v, 0, true, false⟩,
   ⟨0x23, .v, .v, .v, 0, true, false⟩, ⟨0x24, .v, .v, .v, 0, true, false⟩, ⟨0x25, .v, .v, .v, 0, true, false⟩,
   ⟨0x26, .v, .v, .none, 0, true, false⟩, ⟨0x27, .v, .v, .none, 0, true, false⟩,
   ⟨0x28, .v, .v, .none, 0, true, false⟩, ⟨0x29, .v, .v, .none, 0, false, false⟩,
   ⟨0x2A, .v, .v, .v, 3, true, false⟩, ⟨0x2B, .v, .none, .none, 0x3FFF, true, false⟩,
   ⟨0x2C, .v, .s, .none, 0, true, false⟩, ⟨0x2D, .v, .s, .none, 0, true, false⟩,
   ⟨0x2E, .v, .none, .none, 0, true, false⟩, ⟨0x2F, .s, .v, .none, 0x3F, true, false⟩] ++
  [⟨0x30, .s, .v, .p, 0, true, false⟩, ⟨0x31, .s, .v, .p, 0, true, false⟩, ⟨0x34, .p, .v, .v, 3, true, false⟩,
   ⟨0x35, .p, .p, .p, 3, true, false⟩, ⟨0x36, .p, .p, .none, 0, true, false⟩, ⟨0x37, .p, .s, .s, 0, true, false⟩,
   ⟨0x38, .s, .p, .none, 0, true, false⟩]

/-- The opcode table of R184. -/
def breusRows : List BRow := breusScalarRows ++ breusVectorRows

/-- The row of an opcode. -/
def breusRow? (code : Nat) : Option BRow := breusRows.find? (·.code == code)

/-- Whether a place accepts an opcode (R184). -/
def Place.accepts (p : Place) (code : Nat) : Bool :=
  match breusRow? code with
  | none => false
  | some r => match p with
    | .score => true
    | .whorl => r.whorl
    | .tier => r.tier

/-- Whether a register field is legal: zero where unused, in range where used (R180). -/
def RegKind.ok : RegKind → Nat → Bool
  | .none, n => n == 0
  | .s, _ => true
  | .v, n => n < 8
  | .p, n => n < 4

def opcodeOf (w : W32) : Nat := bits 31 26 w.toNat
def destOf (w : W32) : Nat := bits 25 22 w.toNat
def srcAOf (w : W32) : Nat := bits 21 18 w.toNat
def srcBOf (w : W32) : Nat := bits 17 14 w.toNat
def immOf (w : W32) : BitVec 14 := w.setWidth 14

/-- A well-formed word of a place (R180, R184). -/
def wordOk (p : Place) (w : W32) : Bool :=
  match breusRow? (opcodeOf w) with
  | none => false
  | some r =>
    p.accepts r.code &&
    (r.code == 7 || (r.d.ok (destOf w) && r.a.ok (srcAOf w))) && r.b.ok (srcBOf w) &&
    (immOf w).toNat &&& (0x3FFF - r.imm) == 0 &&
    (if r.code == 0x13 || r.code == 0x14 then bits 13 12 w.toNat != 3
     else if r.code == 0x34 then bits 1 0 w.toNat != 3 else true)

/-- The operation that a word names; an ill-formed word never runs (R180). -/
def opOf (w : W32) : BOp :=
  let d := destOf w
  let a := srcAOf w
  let b := srcBOf w
  let imm := immOf w
  match opcodeOf w with
  | 0x00 => bNop | 0x01 => bEnd | 0x02 => bTrap imm
  | 0x03 => bBranch (fun i => i.sAt a == 0) imm
  | 0x04 => bBranch (fun i => i.sAt a != 0) imm
  | 0x05 => bBranch (fun i => i.pAt a != 0) imm
  | 0x06 => bBranch (fun i => i.pAt a == 0) imm
  | 0x07 => bRep (BitVec.ofNat 8 (bits 25 18 w.toNat)) imm
  | 0x08 => bReps a (BitVec.ofNat 8 (bits 13 6 w.toNat))
  | 0x09 => bLdk d imm | 0x0A => bLdkx d a | 0x0B => bS d fun _ => immS imm
  | 0x0C => bSS d a b (· + ·) | 0x0D => bS d fun i => i.sAt a + immS imm
  | 0x0E => bSS d a b (· - ·) | 0x0F => bSS d a b (· * ·)
  | 0x10 => bSS d a b (· &&& ·) | 0x11 => bSS d a b (· ||| ·) | 0x12 => bSS d a b (· ^^^ ·)
  | 0x13 => bSS d a b fun x y => shift (bits 13 12 w.toNat) x y.toNat
  | 0x14 => bS d fun i => shift (bits 13 12 w.toNat) (i.sAt a) (bits 4 0 w.toNat)
  | 0x15 => bSS d a b smin | 0x16 => bSS d a b smax | 0x17 => bSS d a b sminu | 0x18 => bSS d a b smaxu
  | 0x19 => bSS d a b fun x y => oneIf (x.slt y)
  | 0x1A => bSS d a b fun x y => oneIf (x < y)
  | 0x20 => bVV d a b fadd | 0x21 => bVV d a b fsub | 0x22 => bVV d a b fmul | 0x23 => bVV d a b fdiv
  | 0x24 => bVV d a b fmax | 0x25 => bVV d a b fmin | 0x26 => bV1 d a fabs | 0x27 => bV1 d a fneg
  | 0x28 => bV1 d a fexp | 0x29 => bV1 d a ftanh
  | 0x2A => bVsel d a b (bits 1 0 w.toNat)
  | 0x2B => bV d fun i => List.replicate 64 (i.consts.getD imm.toNat 0)
  | 0x2C => bVbcst d a
  | 0x2D => bV d fun i => List.replicate 64 (fOfInt (i.sAt a).toInt)
  | 0x2E => bV d fun _ => (List.range 64).map fun (k : Nat) => fOfInt k
  | 0x2F => bS d fun i => (i.vAt a).getD (bits 5 0 w.toNat) 0
  | 0x30 => bVredadd d a b | 0x31 => bVredmax d a b
  | 0x34 => bPcmp d a b (bits 1 0 w.toNat)
  | 0x35 => bP d fun i => plogic (bits 1 0 w.toNat) (i.pAt a) (i.pAt b)
  | 0x36 => bP d fun i => ~~~(i.pAt a)
  | 0x37 => bPrange d a b
  | 0x38 => bS d fun i => BitVec.ofNat 32 (popcount (i.pAt a))
  | _ => bNop

/-- A running program for at most `fuel` instructions; every program ends within its budget (R187). -/
def Inv.run : Nat → Inv → Inv
  | 0, i => i
  | fuel + 1, i =>
    if i.running then Inv.run fuel (i.issue (opOf (i.code.getD i.pc 0))) else i

/-- A whole invocation (R181). -/
def Inv.runAll (i : Inv) : Inv := Inv.run (i.place.budget + 1) i

/-- A fresh invocation of an image: registers zero (R181). -/
def Inv.fresh (p : Place) (slot : Nat) (code consts : List W32) (tag : W64) : Inv :=
  { running := true, place := p, slot, code, consts, jobTag := tag }

/-! ## Branch targets and bodies (R185, R186, R196) -/

/-- REP bodies of a program: word after the REP, word after the body. -/
def repBodies (code : List W32) : List (Nat × Nat) :=
  (code.zip (List.range code.length)).filterMap fun x =>
    let op := opcodeOf x.1
    if op = 7 then some (x.2 + 1, x.2 + 1 + bits 25 18 x.1.toNat)
    else if op = 8 then some (x.2 + 1, x.2 + 1 + bits 13 6 x.1.toNat) else none

/-- Whether the control word at index `k` obeys R185 and R186. -/
def controlOk (code : List W32) (k : Nat) (w : W32) : Bool :=
  let n := code.length
  let op := opcodeOf w
  let bodies := repBodies code
  let inBody := bodies.find? fun b => b.1 ≤ k && k < b.2
  if 3 ≤ op ∧ op ≤ 6 then
    let off := (immOf w).toNat
    let t := k + 1 + off
    off ≥ 1 && t ≤ n && (match inBody with
      | some b => t ≤ b.2
      | none => bodies.all fun b => !(b.1 ≤ t && t < b.2))
  else if op = 7 ∨ op = 8 then
    let len := if op = 7 then bits 25 18 w.toNat else bits 13 6 w.toNat
    1 ≤ len && len ≤ 64 && k + 1 + len ≤ n && inBody.isNone &&
      (op == 8 || (1 ≤ (immOf w).toNat && (immOf w).toNat ≤ 4096))
  else true

/-- The most words that can execute from a place: to the end of a stretch of code, and to an END or TRAP within it; none
where no path does (R185, R187). -/
abbrev Longest := Option Nat × Option Nat

def optMax (a b : Option Nat) : Option Nat :=
  match a, b with
  | some x, some y => some (max x y)
  | some x, none => some x
  | none, y => y
def Longest.max (a b : Longest) : Longest := (optMax a.1 b.1, optMax a.2 b.2)
def Longest.plus (n : Nat) (a : Longest) : Longest := (a.1.map (n + ·), a.2.map (n + ·))

/-- The paths of one word, `after` being those of the places behind it, the next one first; `rep` gives those of a REP or
REPS of so many iterations over so many words (R185, R186). -/
def wordPaths (w : W32) (after : List Longest) (rep : Nat → Nat → Longest) : Longest :=
  let op := opcodeOf w
  let at' := fun (i : Nat) => after.getD i (none, none)
  if op = 1 ∨ op = 2 then (none, some 1)
  else if 3 ≤ op ∧ op ≤ 6 then ((at' 0).max (at' (immOf w).toNat)).plus 1
  else if op = 7 then rep (immOf w).toNat (bits 25 18 w.toNat)
  else if op = 8 then rep 4096 (bits 13 6 w.toNat)
  else (at' 0).plus 1

/-- The paths from each place of a body, the first place first; the place behind it comes last. -/
def bodyPaths : List W32 → List Longest
  | [] => [(some 0, none)]
  | w :: ws => let after := bodyPaths ws; wordPaths w after (fun _ _ => (none, none)) :: after

/-- The same of a whole program: a body runs `n` times and the code goes on behind it, or it ends the invocation in its
last iteration. -/
def codePaths : List W32 → List Longest
  | [] => [(some 0, none)]
  | w :: ws =>
    let after := codePaths ws
    let rep := fun (n len : Nat) =>
      let body : Longest := (bodyPaths (ws.take len)).headD (none, none)
      let through : Longest := match body.1 with
        | some p => (after.getD len (none, none)).plus (1 + n * p)
        | none => (none, none)
      let within : Option Nat := match body.2 with
        | some q => some (1 + (match body.1 with | some p => (n - 1) * p | none => 0) + q)
        | none => none
      through.max (none, within)
    wordPaths w after rep :: after

/-- The worst-case executed count, every REPS count taken as 4,096 (R187, R196). -/
def worstCount (code : List W32) : Nat :=
  let l : Longest := (codePaths code).headD (none, none)
  (optMax l.1 l.2).getD 0

end Sys2Proof.Machine
end

