-- ==== Sys2Proof/Machine/Tables.lean ====
section
/-!
DEFINITION. Sparse tables by index, and module memory: one list of cells by module physical address (R216), in one
canonical form (ascending, no listed zero), with reads and writes of bytes, ranges and whole slots.
-/
namespace Sys2Proof.Machine

/-! ## Tables -/

/-- The entry at an index. -/
def tget {α : Type} : Table α → Nat → Option α
  | [], _ => none
  | (k, v) :: t, i => if k = i then some v else tget t i

/-- Sets the entry at an index, in place or at its ascending position. -/
def tset {α : Type} : Table α → Nat → α → Table α
  | [], i, x => [(i, x)]
  | (k, v) :: t, i, x =>
    if i < k then (i, x) :: (k, v) :: t
    else if i = k then (i, x) :: t
    else (k, v) :: tset t i x

/-- Removes the entry at an index. -/
def tdel {α : Type} (t : Table α) (i : Nat) : Table α := t.filter fun e => e.1 != i

/-- Changes the entry at an index where there is one. -/
def tmod {α : Type} (t : Table α) (i : Nat) (f : α → α) : Table α :=
  t.map fun e => if e.1 = i then (e.1, f e.2) else e

/-- Whether an index has an entry. -/
def thas {α : Type} (t : Table α) (i : Nat) : Bool := (tget t i).isSome

/-- The number at an index, zero where there is none. -/
def tnum (t : Table Nat) (i : Nat) : Nat := (tget t i).getD 0

/-- Adds to the number at an index. -/
def tadd (t : Table Nat) (i n : Nat) : Table Nat := tset t i (tnum t i + n)

/-! ## Lists -/

/-- Inserts before the first element that does not come strictly earlier. -/
def insertBy {α : Type} (before : α → α → Bool) (x : α) : List α → List α
  | [] => [x]
  | y :: ys => if before y x then y :: insertBy before x ys else x :: y :: ys

/-- Sorts by a strict order. -/
def sortBy {α : Type} (before : α → α → Bool) (xs : List α) : List α := xs.foldr (insertBy before) []

/-- The elements with their positions. -/
def indexed {α : Type} (xs : List α) : List (α × Nat) := xs.zip (List.range xs.length)

/-! ## Memory -/

/-- The form in which equal memories are equal data: addresses rise strictly above a bound and no cell holds the zero
that an unlisted address reads as (DESIGN CHOICE, log 7). -/
def Mem.wfFrom : Nat → Mem → Bool
  | _, [] => true
  | lo, (a, b) :: m => decide (lo ≤ a) && b != 0 && Mem.wfFrom (a + 1) m

/-- The canonical form. -/
def Mem.wf (m : Mem) : Bool := Mem.wfFrom 0 m

/-- The byte at an address; an unlisted address reads zero (R513; DESIGN CHOICE, log 7). -/
def Mem.read : Mem → Nat → Byte
  | [], _ => 0
  | (k, v) :: m, a => if k = a then v else Mem.read m a

/-- Writes one byte, keeping the canonical form. -/
def Mem.write : Mem → Nat → Byte → Mem
  | [], a, b => if b = 0 then [] else [(a, b)]
  | (k, v) :: m, a, b =>
    if a < k then (if b = 0 then (k, v) :: m else (a, b) :: (k, v) :: m)
    else if a = k then (if b = 0 then m else (a, b) :: m)
    else (k, v) :: Mem.write m a b

/-- `n` bytes from an address. -/
def Mem.readN (m : Mem) (a n : Nat) : List Byte := (List.range n).map fun i => m.read (a + i)

/-- Writes bytes from an address on. -/
def Mem.writeN : Mem → Nat → List Byte → Mem
  | m, _, [] => m
  | m, a, b :: bs => Mem.writeN (m.write a b) (a + 1) bs

/-- Zeros of a range: its cells become unlisted. -/
def Mem.clear (m : Mem) (a n : Nat) : Mem := m.filter fun c => decide (c.1 < a ∨ a + n ≤ c.1)

/-- The listed cells of a range. -/
def Mem.cells (m : Mem) (a n : Nat) : List Host.Cell := m.filter fun c => decide (a ≤ c.1 ∧ c.1 < a + n)

/-- Writes a list of cells. -/
def Mem.put (m : Mem) (cs : List Host.Cell) : Mem := cs.foldl (fun m c => m.write c.1 c.2) m

/-- Copies a range of `n` bytes to another that does not overlap it. -/
def Mem.copy (m : Mem) (src dst n : Nat) : Mem :=
  (m.clear dst n).put ((m.cells src n).map fun c => (c.1 - src + dst, c.2))

/-- A little-endian number of `n` bytes at an address (R2). -/
def Mem.num (m : Mem) (a n : Nat) : Nat := ofLe (m.readN a n)

/-! ## Module physical addresses (R216) -/

/-- 64 KiB. -/
def slotBytes : Nat := 65536
/-- The module physical address of a slot: (TIER × 2^48) + (PBN × 2^16) (R37). -/
def slotAddr (tier pbn : Nat) : Nat := tier * 2 ^ 48 + pbn * slotBytes
/-- The address of a byte of an area of DRAM slots, where the area holds it. -/
def areaAddr? (a : Area) (off : Nat) : Option Nat := (a[off / slotBytes]?).map fun p => slotAddr 1 p + off % slotBytes
/-- The address of a byte of an area; every caller stays within its area. -/
def areaAddr (a : Area) (off : Nat) : Nat := (areaAddr? a off).getD 0

/-- `n` bytes of an area from an offset. -/
def Mem.areaRead (m : Mem) (a : Area) (off n : Nat) : List Byte :=
  (List.range n).map fun i => match areaAddr? a (off + i) with
    | some x => m.read x
    | none => 0

/-- Writes bytes of an area from an offset; bytes beyond the area are not written. -/
def Mem.areaWrite : Mem → Area → Nat → List Byte → Mem
  | m, _, _, [] => m
  | m, a, off, b :: bs =>
    Mem.areaWrite (match areaAddr? a off with
      | some x => m.write x b
      | none => m) a (off + 1) bs

end Sys2Proof.Machine
end

