-- ==== Sys2Proof/Machine/Geometry.lean ====
section
/-!
DEFINITION. Geometry: storage formats (R38, R55), token capacity (R69), the byte map of a bobbin and its check words
(R66–R73), leaf entries as 64-bit words (R37), handles, and token rows as values.
-/
namespace Sys2Proof.Machine

/-! ## Formats (R38) -/

/-- The element encoding of a format code. -/
def fmtEnc (f : Nat) : Enc := if f < 3 then .e4m3 else if f < 6 then .int8 else if f < 9 then .e2m3 else .e2m1
/-- The group size of a format code. -/
def fmtGroup (f : Nat) : Nat := 32 * 2 ^ (f % 3)
/-- Whether a format code is defined. -/
def fmtOk (f : Nat) : Bool := decide (f < 12)
/-- Bytes of one group (R55). -/
def groupBytes (f : Nat) : Nat := 1 + fmtGroup f * (fmtEnc f).b / 8
/-- Data bytes of one token (R67). -/
def tokenBytes (elements f : Nat) : Nat := elements / fmtGroup f * groupBytes f
/-- Token slots of one lea from the formula of R69, before the cap. -/
def leaSlotsRaw (elements f : Nat) : Nat :=
  let t := 16352 / (tokenBytes elements f + 16)
  t - t % 8
/-- C: the token capacity of a bobbin (R69). -/
def capacity (elements f : Nat) : Nat := min (4 * leaSlotsRaw elements f) 1024

/-! ## Keys -/

/-- The row of a layer and head group. -/
def rowKey (layer hg : Nat) : Nat := layer * 256 + hg
/-- The key of a leaf: row × 65,536 + bobbin. -/
def leafKey (layer hg bob : Nat) : Nat := rowKey layer hg * 65536 + bob
def keyLayer (k : Nat) : Nat := k / 16777216
def keyHg (k : Nat) : Nat := k / 65536 % 256
def keyRow (k : Nat) : Nat := k / 65536
def keyBob (k : Nat) : Nat := k % 65536

/-! ## Leaf entries as words (R37) -/

/-- CHECK_STATE codes. -/
def Check.code : Check → Nat
  | .good => 0 | .opened => 1 | .damaged => 2

/-- The 64 bits of a leaf entry. -/
def Leaf.word (l : Leaf) : Nat :=
  (if l.pin then 2 ^ 54 else 0) + (if l.lock then 2 ^ 53 else 0) + l.check.code * 2 ^ 51 + l.count % 2048 * 2 ^ 40 +
  l.format % 16 * 2 ^ 36 + l.pbn % 2 ^ 32 * 16 + (if l.move then 8 else 0) + l.tier % 4 * 2 + 1

/-- The leaf entry that 64 bits spell; none where VALID is 0. -/
def Leaf.ofWord (w : Nat) : Option Leaf :=
  if bit 0 w then
    some { pin := bit 54 w, lock := bit 53 w,
           check := if bits 52 51 w = 0 then .good else if bits 52 51 w = 1 then .opened else .damaged,
           count := bits 50 40 w, format := bits 39 36 w, pbn := bits 35 4 w, move := bit 3 w, tier := bits 2 1 w }
  else none

/-! ## The byte map (R66–R70) -/

/-- The byte offset within a bobbin of payload byte `p` of lea `k` (R66). -/
def payloadAt (k p : Nat) : Nat := 16384 * k + p + 4 * (p / 4092)

/-- The locator of a check block (R71). -/
def locator (layer hg bob block : Nat) : List Byte := toLe 8 (layer * 2 ^ 56 + hg * 2 ^ 48 + bob * 2 ^ 32 + block * 2 ^ 28)

/-- The check word of a block of the bobbin at `addr` (R71). -/
def checkWord (m : Mem) (addr layer hg bob block : Nat) : List Byte :=
  toLe 4 (crc32c (m.readN (addr + 4096 * block) 4092 ++ locator layer hg bob block)).toNat

/-- Whether a block's stored check word is right. -/
def blockOk (m : Mem) (addr layer hg bob block : Nat) : Bool :=
  m.readN (addr + 4096 * block + 4092) 4 == checkWord m addr layer hg bob block

/-- Writes the four check words of a lea (R72). -/
def sealLea (m : Mem) (addr layer hg bob lea : Nat) : Mem :=
  (List.range 4).foldl (fun m b =>
    m.writeN (addr + 4096 * (4 * lea + b) + 4092) (checkWord m addr layer hg bob (4 * lea + b))) m

/-- Whether the four blocks of a lea pass (R71). -/
def leaOk (m : Mem) (addr layer hg bob lea : Nat) : Bool :=
  (List.range 4).all fun b => blockOk m addr layer hg bob (4 * lea + b)

/-- Leas of a bobbin that are sealed: all of a GOOD one, those below the fill of an OPEN one (R72). -/
def sealedLeas (cap : Nat) (l : Leaf) : Nat :=
  match l.check with
  | .opened => l.count / (cap / 4)
  | _ => 4

/-- Whether every sealed lea of a bobbin passes (R74). -/
def bobbinOk (m : Mem) (cap : Nat) (l : Leaf) (addr layer hg bob : Nat) : Bool :=
  (List.range (sealedLeas cap l)).all fun k => leaOk m addr layer hg bob k

/-- Payload bytes [p, p + n) of a lea. -/
def payloadRead (m : Mem) (addr k p n : Nat) : List Byte := (List.range n).map fun i => m.read (addr + payloadAt k (p + i))

/-- Writes payload bytes of a lea. -/
def payloadWrite (m : Mem) (addr k : Nat) : Nat → List Byte → Mem
  | _, [] => m
  | p, b :: bs => payloadWrite (m.write (addr + payloadAt k p) b) addr k (p + 1) bs

/-- The slub channel list of a bobbin, from lea 0's head (R68). -/
def slubList (m : Mem) (addr : Nat) : List Nat :=
  ((chunks 2 8 (payloadRead m addr 0 0 16)).map ofLe).filterMap fun e => if bit 15 e then some (bits 9 0 e) else none

/-- The lea head of a slub channel list (R68). -/
def leaHead (slubs : List Nat) : List Byte := padTo 16 ((slubs.map fun c => toLe 2 (0x8000 + c)).flatten)

/-- Where the slub value of column `j` for slot `i` of a lea lies (R67). -/
def slubAt (elements fmt slots j i : Nat) : Nat := 16 + slots * tokenBytes elements fmt + (j * slots + i) * 2

/-- The FP32 values of one token of a bobbin, channel by channel: element codes, and BF16 in slub channels (R58, R65);
`none` where the token holds a value that no encoder writes (R57). -/
def tokenValues (m : Mem) (addr elements fmt cap : Nat) (slubs : List Nat) (slot : Nat) : Option (List W32) :=
  let t := cap / 4
  let lea := slot / t
  let i := slot % t
  let enc := fmtEnc fmt
  let d := tokenBytes elements fmt
  let groups := chunks (groupBytes fmt) (elements / fmtGroup fmt) (payloadRead m addr lea (16 + i * d) d)
  let one := fun (g : List Byte) =>
    let scale := field g 0 1
    let codes := unpackCodes enc.b (fmtGroup fmt) (ofLe (g.drop 1))
    (scale == 255 || codes.any enc.isNaN, codes.map (elementValue enc scale))
  let rows := groups.map one
  let plain := (rows.map (·.2)).flatten
  let side := (slubs.zip (List.range slubs.length)).map fun x =>
    (x.1, BitVec.ofNat 16 (ofLe (payloadRead m addr lea (slubAt elements fmt t x.2 i) 2)))
  if rows.any (·.1) || side.any (fun x => nonfinite16 x.2) then none
  else some (side.foldl (fun v x => v.set x.1 (toF32 (ofBf16 x.2))) plain)

/-- Writes one token's groups and slub values (R60, R65). -/
def writeToken (m : Mem) (addr elements fmt cap : Nat) (slubs : List Nat) (slot : Nat) (vals : List W16) : Mem :=
  let t := cap / 4
  let lea := slot / t
  let i := slot % t
  let g := fmtGroup fmt
  let enc := fmtEnc fmt
  let x := (vals.zip (List.range vals.length)).map fun v => if slubs.contains v.2 then none else some (ofBf16 v.1)
  let data := ((chunks g (elements / g) x).map fun grp =>
    let (scale, codes) := encodeGroup enc grp
    BitVec.ofNat 8 scale :: packCodes enc.b codes).flatten
  let m := payloadWrite m addr lea (16 + i * tokenBytes elements fmt) data
  (slubs.zip (List.range slubs.length)).foldl (fun m s =>
    payloadWrite m addr lea (slubAt elements fmt t s.2 i) (toLe 2 (vals.getD s.1 0).toNat)) m

/-- Re-encodes a bobbin's tokens from one format to another in place of a copy (R61, R70): every lea is laid out anew
with the new format's D, the slub list and slub values unchanged. -/
def reencode (m : Mem) (src dst elements fmt newFmt cap count : Nat) (slubs : List Nat) : Mem :=
  let t := cap / 4
  let m := (List.range 4).foldl (fun m k => payloadWrite m dst k 0 (payloadRead m src k 0 16)) (m.clear dst slotBytes)
  (List.range count).foldl (fun m slot =>
    let lea := slot / t
    let i := slot % t
    let d := tokenBytes elements fmt
    let groups := chunks (groupBytes fmt) (elements / fmtGroup fmt) (payloadRead m src lea (16 + i * d) d)
    let data := ((groups.zip (List.range groups.length)).map fun gr =>
      let scale := field gr.1 0 1
      let codes := unpackCodes (fmtEnc fmt).b (fmtGroup fmt) (ofLe (gr.1.drop 1))
      let base := gr.2 * fmtGroup fmt
      let x := (codes.zip (List.range codes.length)).map fun c =>
        if slubs.contains (base + c.2) then none else some (ofF32 (elementValue (fmtEnc fmt) scale c.1))
      let (s, cs) := encodeGroup (fmtEnc newFmt) x
      BitVec.ofNat 8 s :: packCodes (fmtEnc newFmt).b cs).flatten
    let m := payloadWrite m dst lea (16 + i * tokenBytes elements newFmt) data
    (List.range slubs.length).foldl (fun m j =>
      payloadWrite m dst lea (slubAt elements newFmt t j i) (payloadRead m src lea (slubAt elements fmt t j i) 2)) m) m

/-- Whether a bobbin may be re-encoded into another format (R28). -/
def reencodable (fmt newFmt : Nat) : Bool :=
  fmtOk newFmt && fmtGroup fmt == fmtGroup newFmt && decide ((fmtEnc newFmt).b ≤ (fmtEnc fmt).b)

/-! ## The carding pass (R64) -/

/-- The two largest peaks of a group: the channel of the larger (the lower one on a tie), and both peaks. -/
def twoPeaks (ps : List (Nat × Dy)) : Option (Nat × Dy × Dy) :=
  match ps with
  | [] => none
  | p :: rest =>
    some (rest.foldl (fun (a : Nat × Dy × Dy) x =>
      if a.2.1.lt x.2 then (x.1, x.2, a.2.1) else if a.2.2.lt x.2 then (a.1, a.2.1, x.2) else a) (p.1, p.2, { m := 0, e := 0 }))

/-- Whether candidate `a` ranks before `b`: the larger ratio p1 ÷ p2, compared exactly; a zero p2 above every finite
ratio, then the larger p1; then the lower channel (R64). -/
def slubBefore (a b : Nat × Dy × Dy) : Bool :=
  let (ca, a1, a2) := a
  let (cb, b1, b2) := b
  if a2.m = 0 then
    if b2.m = 0 then b1.lt a1 || (!a1.lt b1 && decide (ca < cb)) else true
  else if b2.m = 0 then false
  else
    let l := a1.mul b2
    let r := b1.mul a2
    r.lt l || (!l.lt r && decide (ca < cb))

/-- The slub channels of a token set: the first `most` candidates, ascending (R64). -/
def chooseSlubs (group most sh : Nat) (tokens : List (List Dy)) : List Nat :=
  match tokens with
  | [] => []
  | t0 :: _ =>
    let n := t0.length
    let peaks := (List.range n).map fun c =>
      (c, tokens.foldl (fun (a : Dy) t => let x := (t.getD c { m := 0, e := 0 }).abs; if a.lt x then x else a) { m := 0, e := 0 })
    let cands := (chunks group n peaks).filterMap fun g =>
      match twoPeaks g with
      | some (c, p1, p2) => if p1.m ≠ 0 ∧ (p2.scale sh).le p1 then some (c, p1, p2) else none
      | none => none
    sortBy (fun a b => decide (a < b)) (((sortBy slubBefore cands).take most).map (·.1))

/-! ## Handles -/

/-- INDEX and GENERATION of a skein handle (R22). -/
def skIndex (h : W32) : Nat := h.toNat % 4194304
def skGen (h : W32) : Nat := h.toNat / 4194304
/-- A skein handle. -/
def skHandle (gen idx : Nat) : W32 := BitVec.ofNat 32 (gen * 4194304 + idx)
/-- INDEX and GENERATION of a run or connection handle (R200, R280). -/
def rcIndex (h : W32) : Nat := h.toNat % 262144
def rcGen (h : W32) : Nat := h.toNat / 262144
def rcHandle (gen idx : Nat) : W32 := BitVec.ofNat 32 (gen * 262144 + idx)
/-- INDEX and GENERATION of a region key (R284). -/
def keyIndex (k : W32) : Nat := k.toNat / 256
def keyGen (k : W32) : Nat := k.toNat % 256
def regionKey (gen idx : Nat) : W32 := BitVec.ofNat 32 (idx * 256 + gen)
/-- INDEX and GENERATION of a trigger entry handle (R306). -/
def trIndex (h : W32) : Nat := h.toNat % 1048576
def trHandle (gen idx : Nat) : W32 := BitVec.ofNat 32 (gen * 1048576 + idx)

/-- The next generation, wrapping to 1 (R23, R200, R280, R284, R306). -/
def nextGen (maxGen g : Nat) : Nat := if g ≥ maxGen then 1 else g + 1

/-- The generation under which an index stands or is next issued. -/
def Pool.gen (p : Pool) (i : Nat) : Nat := (tget p.gens i).getD 1

/-- The lowest index from one on that an ascending list does not name. -/
def firstNotIn (from' : Nat) (xs : List Nat) : Nat := xs.foldl (fun f i => if i = f then f + 1 else f) from'

/-- An index leaves the ascending order. -/
def Pool.leave (p : Pool) (i : Nat) : Pool :=
  let gone := insertBy (fun a b => decide (a < b)) i p.gone
  let f := firstNotIn p.fresh gone
  { p with fresh := f, gone := gone.filter fun x => decide (f < x) }

/-- Takes a free index that is not to be skipped: ascending through those that stand in the order of the cold start, then
the one freed first (R23, R518). -/
def Pool.takeBut (p : Pool) (size : Nat) (skip : List Nat) : Option (Nat × Pool) :=
  let i := firstNotIn p.fresh (sortBy (fun a b => decide (a < b)) (p.gone ++ skip)).eraseDups
  if i < size then some (i, p.leave i)
  else (p.freed.find? fun i => !skip.contains i).map fun i => (i, { p with freed := p.freed.erase i })

/-- Takes a free index (R23). -/
def Pool.take (p : Pool) (size : Nat) : Option (Nat × Pool) := p.takeBut size []

/-- Gives an index its next generation. -/
def Pool.bump (p : Pool) (maxGen i : Nat) : Pool := { p with gens := tset p.gens i (nextGen maxGen (p.gen i)) }
/-- Puts an index at the end of the free order. -/
def Pool.put (p : Pool) (i : Nat) : Pool := { p with freed := p.freed ++ [i] }

end Sys2Proof.Machine
end

