-- ==== Sys2Proof/Machine/Attend.lean ====
section
/-!
DEFINITION. The attention arithmetic (R85–R107, R111, R162, R165): dot products, blocks, merges, the score program over a
block, expanded tokens, and sketch scores.
-/
namespace Sys2Proof.Machine

/-! ## Fixed trees -/

/-- One level of a pairwise tree: 2i with 2i + 1, an unpaired last operand passing up. -/
def pairLevel {α : Type} (f : α → α → α) : List α → List α
  | a :: b :: r => f a b :: pairLevel f r
  | r => r

/-- A fixed pairwise tree over position, `fuel` levels at most. -/
def pairTree {α : Type} (f : α → α → α) : Nat → List α → Option α
  | 0, xs => xs.head?
  | n + 1, xs => match xs with
    | [] => none
    | [x] => some x
    | xs => pairTree f n (pairLevel f xs)

/-! ## Dot products (R103) -/

/-- The exact sum of the products of one segment, rounded once. -/
def segmentSum (s : List (W32 × W32)) : W32 :=
  toF32 (s.foldl (fun (a : Dy) p => a.add ((ofF32 p.1).mul (ofF32 p.2))) { m := 0, e := 0 })

/-- A dot product: segments of 32 channels, then the pairwise tree. -/
def dot (a b : List W32) : W32 :=
  let z := a.zip b
  (pairTree fadd z.length ((chunks 32 z.length z).map segmentSum)).getD 0

/-! ## Blocks and merges (R100–R104) -/

/-- A weight narrowed to E4M3 or BF16 (R96, R101). -/
def narrowWeight (bf : Bool) (w : W32) : Dy :=
  if bf then ofBf16 (toBf16 (ofF32 w)) else Machine.e4m3.value (Machine.e4m3.round (ofF32 w).m.natAbs (ofF32 w).e)

/-- The EMPTY state (R102). -/
def RowState.empty (dv : Nat) : RowState := { acc := List.replicate dv 0 }

/-- The larger m of two: of two zeros the positive one, if either is, so that a merge is commutative bit for bit (R104; DESIGN
CHOICE, log 74). -/
def rowMax (a b : W32) : W32 := if f32key a = f32key b then a &&& b else fmax a b

/-- One block: the surviving scores in slot order, each with its token's value channels; every multiplication and every
addition is rounded by itself (R100, R101). -/
def RowState.block (st : RowState) (bf : Bool) (surv : List (W32 × List W32)) : RowState :=
  match surv with
  | [] => st
  | x :: xs =>
    let mn := rowMax st.m (xs.foldl (fun a y => rowMax a y.1) x.1)
    let f := if st.m = negInf then 0 else fexp (fsub st.m mn)
    let ws := surv.map fun y => (toF32 (narrowWeight bf (fexp (fsub y.1 mn))), y.2)
    { m := mn
      l := ws.foldl (fun l p => fadd l p.1) (fmul st.l f)
      acc := (indexed st.acc).map fun a => ws.foldl (fun acc p => fadd acc (fmul p.1 (p.2.getD a.2 0))) (fmul a.1 f) }

/-- The merge of two partial states of a row (R104). -/
def RowState.merge (a b : RowState) : RowState :=
  if a.m = negInf then b else if b.m = negInf then a else
  let m := rowMax a.m b.m
  let fa := fexp (fsub a.m m)
  let fb := fexp (fsub b.m m)
  { m, l := fadd (fmul a.l fa) (fmul b.l fb), acc := a.acc.zipWith (fun x y => fadd (fmul x fa) (fmul y fb)) b.acc }

/-- States merged one after the other. -/
def mergeAll (dv : Nat) (xs : List RowState) : RowState := xs.foldl RowState.merge (RowState.empty dv)
/-- States merged in the fixed tree of R107 and R137. -/
def mergeTree (dv : Nat) (xs : List RowState) : RowState := (pairTree RowState.merge xs.length xs).getD (RowState.empty dv)

/-! ## A block's scores (R97, R189, R190) -/

/-- What the score path knows of one query row. -/
structure ScoreCtx where
  /-- the query's key channels -/
  q : List W32
  scale : W32
  /-- the row's token range, the shift and the END of R54 and R189 -/
  first : Nat
  last : Nat
  shift : Nat
  stop : Nat
  prog : Option (Nat × Prog)
  arg0 : W32
  arg1 : W32
  row : Nat
  index : Nat
  layer : Nat
  hg : Nat
  entry : Nat
  tag : W64
  weightBf16 : Bool

/-- A token as a row sees it: its key channels and its value channels. -/
abbrev Token := List W32 × List W32

/-- The trap record of R188: code, IMM, word. -/
abbrev Trap := Nat × Nat × Nat

/-- Whether a slot of a bobbin is in the range and below the TOKEN_COUNT in force (R189). -/
def ScoreCtx.inRange (c : ScoreCtx) (base count slot : Nat) : Bool :=
  decide (slot < count ∧ c.first ≤ base + slot ∧ base + slot < c.last)

/-- The score of a token under stage 1 of R97. -/
def ScoreCtx.score (c : ScoreCtx) (t : Token) : W32 := fmul (dot c.q t.1) c.scale

/-- The invocation of a score program over one vector (R189). -/
def ScoreCtx.invocation (c : ScoreCtx) (slot : Nat) (p : Prog) (bob base : Nat) (lanes : List Nat) (live : Nat → Bool)
    (scores : List W32) : Inv :=
  let w := fun (n : Nat) => BitVec.ofNat 32 n
  let pos := base + lanes.headD 0 + c.shift
  let i := Inv.fresh .score slot p.code p.consts c.tag
  { i with
    s := [c.arg0, c.arg1, w c.row, w c.index, w c.stop, w pos, w bob, w (c.layer + 256 * c.hg), w c.entry, 0, 0, 0, 0, 0, 0, 0]
    v := (i.v.set 0 ((List.range 64).map fun k => scores.getD k 0)).set 1
      ((List.range 64).map fun (k : Nat) => fOfInt ((c.stop : Int) - 1 - ((pos + k : Nat) : Int)))
    p := i.p.set 0 (laneMask fun k => decide (k < lanes.length) && live (lanes.getD k 0)) }

/-- The survivors of one vector of slots, in slot order, or the trap of its program (R97, R190). -/
def ScoreCtx.vector (c : ScoreCtx) (bob base count : Nat) (tok : Nat → Token) (lanes : List Nat) :
    Except Trap (List (W32 × List W32)) :=
  let live := c.inRange base count
  let scored := lanes.map fun k => if live k then c.score (tok k) else 0
  let keep := fun (ok : Nat → Bool) (vals : List W32) =>
    ((lanes.zip (List.range 64)).filter fun x => live x.1 && ok x.2).map fun x => (vals.getD x.2 0, (tok x.1).2)
  match c.prog with
  | none => .ok (keep (fun _ => true) scored)
  | some (slot, p) =>
    if !(lanes.any fun k => decide (k < count)) then .ok [] else
    let i := (c.invocation slot p bob base lanes live scored).runAll
    match i.trap with
    | some t => .error t
    | none => .ok (keep (fun k => (i.pAt 0).getLsbD k) (i.vAt 0))

/-- The survivors of a block of slots, 64 at a time. -/
def ScoreCtx.survivors (c : ScoreCtx) (bob base count : Nat) (tok : Nat → Token) (slots : List Nat) :
    Except Trap (List (W32 × List W32)) :=
  (chunks 64 slots.length slots).foldl (fun acc v => do
    let a ← acc
    let b ← c.vector bob base count tok v
    return a ++ b) (.ok [])

/-- A row's state after a block of slots (R101). -/
def ScoreCtx.block (c : ScoreCtx) (bob base count : Nat) (tok : Nat → Token) (slots : List Nat) (st : RowState) :
    Except Trap RowState := do
  let surv ← c.survivors bob base count tok slots
  return st.block c.weightBf16 surv

/-! ## Expanded mode (R111, R112) -/

/-- The geometry of an up-projection table (R112). -/
def upFirst (t : List Byte) : Nat := field t 0 2
def upLayers (t : List Byte) : Nat := field t 2 2
def upLatent (t : List Byte) : Nat := field t 4 2
def upPositional (t : List Byte) : Nat := field t 6 2
def upHeads (t : List Byte) : Nat := field t 8 2
def upKey (t : List Byte) : Nat := field t 10 2
def upValue (t : List Byte) : Nat := field t 12 2

/-- The weights of output `o` of a head. -/
def upOutput (t : List Byte) (layer head o : Nat) : List W32 :=
  let g := upLatent t / 32
  let at0 := 64 + (((layer - upFirst t) * upHeads t + head) * (upKey t + upValue t) + o) * g * 33
  (List.range g).flatMap fun i =>
    (List.range 32).map fun k => elementValue .e4m3 (field t (at0 + 33 * i) 1) (field t (at0 + 33 * i + 1 + k) 1)

/-- A vector re-encoded as staple-8 E4M3, group 32, without slubs, and decoded again (R60, R111). -/
def restaple (v : List W32) : List W32 :=
  (chunks 32 v.length v).flatMap fun g =>
    let e := encodeGroup .e4m3 (g.map fun x => some (ofF32 x))
    e.2.map (elementValue .e4m3 e.1)

/-- A stored token expanded for one head: its keys with the positional channels, and its values. -/
def expandToken (t : List Byte) (layer head : Nat) (v : List W32) : Token :=
  let lat := v.take (upLatent t)
  let out := fun (o : Nat) => dot lat (upOutput t layer head o)
  (restaple ((List.range (upKey t)).map out ++ (v.drop (upLatent t)).take (upPositional t)),
   restaple ((List.range (upValue t)).map fun o => out (upKey t + o)))

/-! ## Slots of a bobbin -/

/-- The slots of a lea (R67, R101). -/
def leaSlots (cap lea : Nat) : List Nat := (List.range (cap / 4)).map (lea * (cap / 4) + ·)

/-- Leas that hold a token below TOKEN_COUNT (R53). -/
def leasOf (cap count : Nat) : Nat := if count = 0 then 0 else (count - 1) / (cap / 4) + 1

/-- The block of its lea in which a slot's row starts (R67, R165). -/
def startBlock (elements fmt cap slot : Nat) : Nat := (16 + slot % (cap / 4) * tokenBytes elements fmt) / 4092

/-- The slots of a lea that whorl `k` of the four takes (R165). -/
def whorlSlots (elements fmt cap lea k : Nat) : List Nat := (leaSlots cap lea).filter fun i => startBlock elements fmt cap i == k

/-! ## Sketch scores (R162, R191) -/

/-- The built-in part of one whorl: the larger exact product of each channel in the key range. -/
def sketchPart (q : List (Option W32)) (hi lo : List W16) : W32 :=
  (indexed q).foldl (fun part c => match c.1 with
    | none => part
    | some x =>
      let a := (ofF32 x).mul (ofBf16 (hi.getD c.2 0))
      let b := (ofF32 x).mul (ofBf16 (lo.getD c.2 0))
      toF32 ((ofF32 part).add (if a.lt b then b else a))) 0

/-- A whorl invocation for one candidate (R191). -/
def sketchInv (slot : Nat) (p : Prog) (tag : W64) (k bob count tail layer : Nat) (q : List (Option W32)) (hi lo : List W16) : Inv :=
  let w := fun (n : Nat) => BitVec.ofNat 32 n
  let lanes := fun (xs : List W32) => (List.range 64).map fun i => xs.getD i 0
  let up := fun (xs : List W16) => xs.map fun x => toF32 (ofBf16 x)
  let i := Inv.fresh .whorl slot p.code p.consts tag
  { i with
    s := [0, w k, w bob, w count, if bob = tail then 1 else 0, w (tail + 1), w layer, 0, 0, 0, 0, 0, 0, 0, 0, 0]
    v := ((i.v.set 0 (lanes (q.map fun x => x.getD 0))).set 1 (lanes (up hi))).set 2 (lanes (up lo))
    p := i.p.set 0 (laneMask fun n => (q.getD n none).isSome) }

end Sys2Proof.Machine
end

