-- ==== Sys2Proof/Machine/Flags.lean ====
section
/-!
DEFINITION. W1C flags and their counters (R5–R7, R348): the flag rows, a set by hardware, a write by software and a
read of counters.
-/
namespace Sys2Proof.Machine

/-- A flag: its row of R348 and its bit. -/
abbrev Flag := Nat × Nat

namespace Flag
def lowWaterHit : Flag := (0, 0)
def creelRebuilt : Flag := (1, 0)
def creelProgramFail : Flag := (1, 1)
def creelEraseFail : Flag := (1, 2)
def creelFlushLoss : Flag := (1, 3)
def creelPatrolLate : Flag := (1, 4)
def wavelengthSwitch (port : Nat) : Flag := (2 + port, 0)
def laserFailover (port : Nat) : Flag := (2 + port, 1)
def retrain (port : Nat) : Flag := (2 + port, 2)
def portDown (port : Nat) : Flag := (2 + port, 3)
def fecUncorrectable (port : Nat) : Flag := (2 + port, 4)
def gateSwitched (port : Nat) : Flag := (6 + port, 0)
def gateStall (port : Nat) : Flag := (6 + port, 1)
def ringOverflow (port : Nat) : Flag := (6 + port, 2)
def trigNoMatch : Flag := (10, 0)
def trigHalted : Flag := (10, 1)
def trigStagingFull : Flag := (10, 2)
def trigHoldFull : Flag := (10, 3)
def trigActionLost : Flag := (10, 4)
def linkDegraded : Flag := (11, 0)
def lentDenied : Flag := (11, 1)
def queueUnmapped : Flag := (11, 2)
def doorbellReject : Flag := (11, 3)
def probeWrite : Flag := (11, 4)
def lentUe : Flag := (11, 5)
def throttled : Flag := (12, 0)
def capUnmet : Flag := (12, 1)
def inputRange : Flag := (12, 2)
end Flag

/-- Number of flag rows (R348, R510). -/
def flagRows : Nat := 13

/-- The W1C bits of each row (R229, R262, R269, R336, R323, R350, R510). -/
def flagMask (row : Nat) : W32 :=
  if row = 0 then 0x1 else if row = 1 then 0x1F else if row < 6 then 0x1F else if row < 10 then 0x7
  else if row = 10 then 0x1F else if row = 11 then 0x3F else 0x7

/-- The W1C bits in force in a row. -/
def State.flagWord (s : State) (row : Nat) : W32 := (tget s.flags row).getD 0

/-- The counter of a flag. -/
def State.flagCount (s : State) (row bitNo : Nat) : Byte := (tget s.counts (row * 32 + bitNo)).getD 0

/-- One more event on an 8-bit counter, saturating at 255 (R6). -/
def satInc (b : Byte) : Byte := if b = 0xFF then b else b + 1

/-- A set of a flag by hardware: the flag reads 1 and its counter increments (R6). -/
def State.setFlag (s : State) (f : Flag) : State :=
  { s with
    flags := tset s.flags f.1 (s.flagWord f.1 ||| BitVec.ofNat 32 (2 ^ f.2))
    counts := tset s.counts (f.1 * 32 + f.2) (satInc (s.flagCount f.1 f.2)) }

/-- The flags of a 32-bit word that are set, as bit numbers. -/
def bitsSet (w : W32) : List Nat := (List.range 32).filter w.getLsbD

/-- Hardware sets of several flags of one row. -/
def State.setFlags (s : State) (row : Nat) (w : W32) : State :=
  (bitsSet (w &&& flagMask row)).foldl (fun s b => s.setFlag (row, b)) s

/-- A write of a flag register: ones clear their bits (R5). -/
def State.clearFlags (s : State) (row : Nat) (v : W32) : State :=
  { s with flags := tset s.flags row (s.flagWord row &&& ~~~v) }

/-- A read of counter bytes [first, first + n) of a row: the counters read become zero (R7, R348). -/
def State.clearCounts (s : State) (row first n : Nat) : State :=
  { s with counts := s.counts.filter fun e => !(decide (row * 32 + first ≤ e.1) && decide (e.1 < row * 32 + min 32 (first + n))) }

end Sys2Proof.Machine
end

