-- ==== Sys2Proof/Machine/Status.lean ====
section
/-!
DEFINITION. Status codes (R394) and event codes (R392 and the event tables of the other chapters).
-/
namespace Sys2Proof.Machine

namespace St
def ok : Nat := 0x0000
def badType : Nat := 0x0001
def versionUnsupported : Nat := 0x0002
def lengthRange : Nat := 0x0003
def reservedNonzero : Nat := 0x0004
def invalidMode : Nat := 0x0005
def badOpcode : Nat := 0x0006
def nonfinite : Nat := 0x0007
def wrongState : Nat := 0x0008
def staleHandle : Nat := 0x0010
def staleKey : Nat := 0x0011
def notPermitted : Nat := 0x0012
def notOwner : Nat := 0x0013
def versionConflict : Nat := 0x0014
def rangeInUse : Nat := 0x0015
def programInUse : Nat := 0x0016
def quotaExceeded : Nat := 0x0020
def noResource : Nat := 0x0021
def backpressure : Nat := 0x0022
def notResident : Nat := 0x0030
def recomputeNeeded : Nat := 0x0031
def bobbinLocked : Nat := 0x0032
def appendConflict : Nat := 0x0033
def creelFull : Nat := 0x0034
def creelOffline : Nat := 0x0035
def programMissing : Nat := 0x0040
def programInvalid : Nat := 0x0041
def programTrap : Nat := 0x0042
def tableMissing : Nat := 0x0043
def combineTimeout : Nat := 0x0050
def orphaned : Nat := 0x0051
def cancelled : Nat := 0x0052
def chainError : Nat := 0x0053
def waitTimeout : Nat := 0x0054
def noMatch : Nat := 0x0055
def triggerHalted : Nat := 0x0056
def connError : Nat := 0x0060
def retryExceeded : Nat := 0x0061
def reassemblyTimeout : Nat := 0x0062
def noReceive : Nat := 0x0063
def signatureInvalid : Nat := 0x0070
def rollback : Nat := 0x0071
def commandTimeout : Nat := 0x0080
def aborted : Nat := 0x0081
def internal : Nat := 0x0082
end St

/-- An event's code and severity. -/
structure EvCode where
  code : Nat
  sev : Nat
deriving DecidableEq, Repr

namespace Ev
def bobbinDamaged : EvCode := ⟨0x0101, 2⟩
def leaseOrphaned : EvCode := ⟨0x0102, 1⟩
def duplicatePly : EvCode := ⟨0x0103, 1⟩
def programTrap : EvCode := ⟨0x0104, 1⟩
def policyTrap : EvCode := ⟨0x0105, 1⟩
def runDamaged : EvCode := ⟨0x0106, 2⟩
def prefixSoftError : EvCode := ⟨0x0107, 1⟩
def poolExhausted : EvCode := ⟨0x0201, 2⟩
def creelReadOnly : EvCode := ⟨0x0202, 2⟩
def creelBlockRetired : EvCode := ⟨0x0203, 1⟩
def sessionAuthFail : EvCode := ⟨0x0301, 2⟩
def cqFull : EvCode := ⟨0x0302, 1⟩
def triggerExhausted : EvCode := ⟨0x0303, 0⟩
def triggerActionLost : EvCode := ⟨0x0304, 2⟩
def triggerPostRefused : EvCode := ⟨0x0305, 1⟩
def cxlLinkDegraded : EvCode := ⟨0x0401, 1⟩
def lentAccessDenied : EvCode := ⟨0x0402, 1⟩
def lentUe : EvCode := ⟨0x0403, 2⟩
def publicationConflict : EvCode := ⟨0x0404, 1⟩
def cxlIdeFail : EvCode := ⟨0x0405, 2⟩
def channelVacant : EvCode := ⟨0x0501, 2⟩
def eccUncorrectable : EvCode := ⟨0x0502, 2⟩
def skeinLost : EvCode := ⟨0x0503, 2⟩
def reelLost : EvCode := ⟨0x0504, 2⟩
def componentSuspect : EvCode := ⟨0x0505, 1⟩
def componentExpelled : EvCode := ⟨0x0506, 1⟩
def sparesExhausted : EvCode := ⟨0x0507, 2⟩
def auditMismatch : EvCode := ⟨0x0508, 2⟩
def spindleQuarantined : EvCode := ⟨0x0509, 2⟩
/-- severity 3 below the attention set (R474) -/
def serviceLevel (below : Bool) : EvCode := ⟨0x050A, if below then 3 else 1⟩
def dutyLate : EvCode := ⟨0x050B, 1⟩
def straggler : EvCode := ⟨0x050C, 1⟩
def combineTimeout : EvCode := ⟨0x050D, 1⟩
def timeLockLost : EvCode := ⟨0x0520, 1⟩
def timeLocked : EvCode := ⟨0x0521, 0⟩
def timeReferenceFault : EvCode := ⟨0x0522, 2⟩
def timeLoaded : EvCode := ⟨0x0523, 1⟩
def powerState : EvCode := ⟨0x0540, 0⟩
def powerCapUnmet : EvCode := ⟨0x0541, 1⟩
def thermalThrottle : EvCode := ⟨0x0542, 1⟩
def thermalTrip : EvCode := ⟨0x0543, 3⟩
def inputOutOfRange : EvCode := ⟨0x0544, 2⟩
def powerLoss : EvCode := ⟨0x0545, 2⟩
def startComplete : EvCode := ⟨0x0560, 0⟩
def restoreComplete : EvCode := ⟨0x0561, 0⟩
def skeinRestored : EvCode := ⟨0x0562, 1⟩
/-- severity 2 on failure (R528) -/
def firmwareActivated (ok : Bool) : EvCode := ⟨0x0563, if ok then 0 else 2⟩
def generationsLost : EvCode := ⟨0x0564, 2⟩
def sessionEstablished : EvCode := ⟨0x0580, 0⟩
def lmsIndexLow : EvCode := ⟨0x0581, 1⟩
def attestSigningStopped : EvCode := ⟨0x0582, 3⟩
def rngFail : EvCode := ⟨0x0583, 3⟩
def keyTagFault : EvCode := ⟨0x0584, 2⟩
def tenantErased : EvCode := ⟨0x0585, 0⟩
def coolantWarning : EvCode := ⟨0x05A0, 1⟩
end Ev

end Sys2Proof.Machine
end

