-- ==== Sys2Proof/Machine/Ops.lean ====
section
/-!
DEFINITION. Operations that every family shares: what leaves the module, MSI-X (R351), events (R392, R393), tenants
and quotas (R222–R225), the free pool (R226, R227), queue-window memory (R354), completions (R303, R304) and the
consequences of a failed action (R322).
-/
namespace Sys2Proof.Machine

/-- A refusal or the effect of a request: the status that refuses it, or what it gives. -/
abbrev Res (α : Type) := Except Nat α

/-- A check that refuses with a status. -/
def need (c : Bool) (st : Nat) : Res Unit := if c then .ok () else .error st

/-- Clears the outcome of a step that always has a next state. -/
abbrev Next (s : State) : Host.Outcome State Fault Refusal := .next s

/-! ## Free values and what leaves the module -/

/-- The next free value below `n` and the state that has used it (DESIGN CHOICE, log 3). -/
def State.free (s : State) (n : Nat) : Nat × State :=
  (Config.freeValue s.freeCount % n, { s with freeCount := s.freeCount + 1 })

/-- A free index of a table, below `n`: which one is the module's choice (DESIGN CHOICE, log 3). -/
def State.pick {α : Type} (s : State) (t : Table α) (n : Nat) : Option (Nat × State) :=
  let (start, s) := s.free n
  match (List.range (min n (t.length + 1))).find? fun i => !thas t ((start + i) % n) with
  | some i => some ((start + i) % n, s)
  | none => none

/-- Puts something on a port of the module. -/
def State.emit (s : State) (o : Out) : State := { s with out := s.out ++ [o] }

/-! ## LDs and MSI-X -/

def State.ld (s : State) (d : Nat) : Ld := (tget s.cxl.lds d).getD {}
def State.setLd (s : State) (d : Nat) (x : Ld) : State := { s with cxl := { s.cxl with lds := tset s.cxl.lds d x } }
def State.modLd (s : State) (d : Nat) (f : Ld → Ld) : State := s.setLd d (f (s.ld d))

/-- Raises a vector on an LD; while MSI-X is not enabled it waits (R351, R521). -/
def State.raiseVector (s : State) (ld v : Nat) : State :=
  if (s.ld ld).msixEnabled then s.emit (.msix ld v)
  else s.modLd ld fun l => { l with heldVectors := if v ∈ l.heldVectors then l.heldVectors else l.heldVectors ++ [v] }

/-! ## Mailboxes and events -/

def State.mbox (s : State) (m : Nat) : Mbox := (tget s.box.boxes m).getD {}
def State.setMbox (s : State) (m : Nat) (b : Mbox) : State := { s with box := { s.box with boxes := tset s.box.boxes m b } }
def State.modMbox (s : State) (m : Nat) (f : Mbox → Mbox) : State := s.setMbox m (f (s.mbox m))

/-- Raises a vector on the LD of a mailbox. -/
def State.raiseMboxVector (s : State) (m v : Nat) : State :=
  match (s.mbox m).ld with
  | some d => s.raiseVector d v
  | none => s

/-- Slots of an event ring. -/
def eventSlots : Nat := 256
/-- Records of the overflow store (R393). -/
def overflowSlots : Nat := 65536

/-- Whether a mailbox's event ring has no free slot. -/
def Mbox.ringFull (b : Mbox) : Bool := decide (b.evWritten ≥ b.evRead + eventSlots)

/-- Writes a record into the next slot of a mailbox's event ring and raises its vector (R392). -/
def State.writeEvent (s : State) (m : Nat) (e : EventRec) : State :=
  let b := s.mbox m
  let e := { e with phase := decide (b.evWritten / eventSlots % 2 = 0) }
  (s.setMbox m { b with ring := tset b.ring (b.evWritten % eventSlots) e, evWritten := b.evWritten + 1 }).raiseMboxVector
    m (1024 + m)

/-- Adds to the first waiting record that satisfies a test, saturating (R393). -/
def bumpFirst (p : Nat × EventRec → Bool) (n : Nat) : List (Nat × EventRec) → List (Nat × EventRec)
  | [] => []
  | x :: xs => if p x then (x.1, { x.2 with count := min 65535 (x.2.count + n) }) :: xs else x :: bumpFirst p n xs

/-- A record for a mailbox: written, merged with a waiting one, stored, or counted in a SUMMARY (R393). -/
def State.pushEvent (s : State) (m : Nat) (e : EventRec) : State :=
  let same := fun (x : Nat × EventRec) => x.1 == m && x.2.code == e.code && x.2.tenant == e.tenant && x.2.detail == e.detail
  let counted := fun (x : Nat × EventRec) => x.1 == m && x.2.code == e.code
  let waits := s.box.overflow.any (fun x => x.1 == m) || s.box.summaries.any (fun x => x.1 == m)
  if !(s.mbox m).ringFull && !waits then s.writeEvent m e
  else if s.box.overflow.any same then { s with box := { s.box with overflow := bumpFirst same 1 s.box.overflow } }
  else if s.box.overflow.length < overflowSlots then { s with box := { s.box with overflow := s.box.overflow ++ [(m, e)] } }
  else if s.box.summaries.any counted then { s with box := { s.box with summaries := bumpFirst counted 1 s.box.summaries } }
  else { s with box := { s.box with summaries := s.box.summaries ++ [(m, { e with detail := [], summary := true })] } }

/-- Waiting records enter a ring as its slots become free, `fuel` of them at most (R393). -/
def State.drainEvents : Nat → Nat → State → State
  | 0, _, s => s
  | fuel + 1, m, s =>
    if (s.mbox m).ringFull then s else
    match s.box.overflow.find? fun x => x.1 == m with
    | some x => drainEvents fuel m ({ s with box := { s.box with overflow := s.box.overflow.erase x } }.writeEvent m x.2)
    | none =>
      match s.box.summaries.find? fun x => x.1 == m with
      | some x => drainEvents fuel m ({ s with box := { s.box with summaries := s.box.summaries.erase x } }.writeEvent m x.2)
      | none => s

/-- Whom an event is for (R392). -/
inductive For where
  | module | tenant (tag : W16) | ld (d : Nat)
deriving DecidableEq, Repr

/-- The mailboxes that an event goes to (R392). -/
def State.eventBoxes (s : State) : For → List Nat
  | .module => [0]
  | .tenant tag =>
    let ms := (s.box.boxes.filter fun x => x.2.bound && x.2.events && x.2.tenant == tag && x.1 != 0).map (·.1)
    if ms.isEmpty then [0] else ms
  | .ld d =>
    match s.box.boxes.find? fun x => x.2.state == .active && x.2.events && x.2.ld == some d with
    | some x => [x.1]
    | none => [0]

/-- An event of severity 2 or 3 raises an in-band interrupt, at most one per 100 ms (R540). -/
def State.inBand (s : State) (sev : Nat) : State :=
  let due : Bool := match s.box.lastInBand with
    | none => true
    | some t => decide (t + 100000000 ≤ s.time.localNow)
  if sev ≥ 2 ∧ due then { s with box := { s.box with lastInBand := some s.time.localNow } }.emit (.inBand sev) else s

/-- Raises an event (R392, R393): its severity is counted and its record goes to each mailbox it is for. -/
def State.raise (s : State) (c : EvCode) (towards : For) (detail : List Nat) : State :=
  let e : EventRec :=
    { code := c.code, severity := c.sev, tenant := match towards with | .tenant t => t | _ => 0, count := 1,
      time := s.time.now, detail }
  let s := { s with box := { s.box with sevCounts := s.box.sevCounts.modify c.sev fun n => min 0xFFFFFFFF (n + 1) } }
  ((s.eventBoxes towards).foldl (fun s m => s.pushEvent m e) s).inBand c.sev

/-! ## Tenants and quotas -/

/-- Quota codes (R403). -/
def qSram : Nat := 0
def qDram : Nat := 1
def qCreel : Nat := 2
def qSkein : Nat := 3
def qRun : Nat := 4
def qPrefix : Nat := 5
def qConn : Nat := 6
def qRegion : Nat := 7

/-- The largest value of each quota (R222). -/
def quotaMax (k : Nat) : Nat :=
  [3840, 12156928, 402653184, 4194304, 262144, 262144, 262144, 1048576].getD k 0

/-- Tenant ID and generation of a tenant field. -/
def tidOf (tag : W16) : Nat := tag.toNat % 4096
def tgenOf (tag : W16) : Nat := tag.toNat / 4096

/-- The live tenant that a full tenant field names (R396); one whose teardown has begun is named by nothing but
TENANT_DESTROY (DEDUCED, log 22). -/
def State.tenant? (s : State) (tag : W16) : Option Tenant :=
  match tget s.tenants (tidOf tag) with
  | some t => if t.live && !t.teardown && t.gen == tgenOf tag then some t else none
  | none => none

def State.modTenant (s : State) (tag : W16) (f : Tenant → Tenant) : State :=
  { s with tenants := tmod s.tenants (tidOf tag) f }

/-- A tenant's use and quota of one kind. -/
def State.useOf (s : State) (tag : W16) (k : Nat) : Nat := ((tget s.tenants (tidOf tag)).getD {}).use.getD k 0
def State.quotaOf (s : State) (tag : W16) (k : Nat) : Nat := ((tget s.tenants (tidOf tag)).getD {}).quota.getD k 0

/-- Quota kind and units of a bobbin at a tier (R222). -/
def tierQuota (tier : Nat) : Nat × Nat := if tier = 0 then (qSram, 4) else if tier = 1 then (qDram, 1) else (qCreel, 1)

/-- Whether a reload moves a bobbin now (R234). -/
def Leaf.reloadable (l : Leaf) : Bool := l.tier == 2 && !l.move && l.check != .damaged

/-- Whether a pin, an unpin or a run still has to move a bobbin (R230, R199); one with PIN = 1 or LOCK = 1 stays (R50). -/
def PinWork.moves (p : PinWork) (l : Leaf) : Bool :=
  l.tier != p.tier && l.tier != 3 && (p.kind != 1 || l.tier == 0) && !l.move && !l.lock && !l.pin && l.check != .damaged

/-- How many of a skein's leaves under some keys satisfy a test. -/
def State.countLeaves (s : State) (idx : Nat) (keys : List Nat) (p : Leaf → Bool) : Nat :=
  match tget s.store.skeins idx with
  | none => 0
  | some k => (keys.filter fun key => match tget k.leaves key with
    | some l => p l
    | none => false).length

/-- Bobbins that a pin, an unpin or a run still has to move. -/
def State.pinLeft (s : State) (p : PinWork) : Nat := s.countLeaves p.skein p.keys p.moves

/-- What requests that were granted still have to charge to a tenant: their moves are charged one by one (R224), and no
later request takes what they were granted (R223). -/
def State.reserved (s : State) (tag : W16) (q : Nat) : Nat :=
  let mine := fun (i : Nat) => match tget s.store.skeins i with
    | some k => tidOf k.tenant == tidOf tag
    | none => false
  let pins := (s.store.pins.filter fun p => mine p.skein && (tierQuota p.tier).1 == q).map fun p => (tierQuota p.tier).2 * s.pinLeft p
  let held := (s.store.reloads.filter fun r => !r.2.whole && q == qDram && mine r.1).map fun r => s.countLeaves r.1 r.2.first Leaf.reloadable
  pins.sum + held.sum

/-- Whether a charge would take the tenant above its quota, with what was granted before it (R223). -/
def State.overQuota (s : State) (tag : W16) (k n : Nat) : Bool :=
  decide (n > 0 ∧ s.useOf tag k + s.reserved tag k + n > s.quotaOf tag k)

/-- Slots of the residence pool that are neither taken nor granted to a pin or a run (R217, R230). -/
def State.residenceFree (s : State) : Nat :=
  960 - s.cfg.tableSlots - s.store.sramUsed.length - ((s.store.pins.filter fun p => p.tier == 0).map s.pinLeft).sum

/-- A charge and a credit (R223). -/
def State.charge (s : State) (tag : W16) (k n : Nat) : State :=
  s.modTenant tag fun t => { t with use := t.use.modify k (· + n) }
def State.credit (s : State) (tag : W16) (k n : Nat) : State :=
  s.modTenant tag fun t => { t with use := t.use.modify k (· - n) }

/-! ## The free pool -/

/-- First PBN of the bobbin pool, and the slots of the pool and the lent window together (R219). -/
def poolBase : Nat := 32768
def poolMax : Nat := 12156928
/-- Slots of the lent window (R219). -/
def State.lentSlots (s : State) : Nat := s.cfg.lentGib * 16384
/-- First PBN of the lent window (R219). -/
def State.lentBase (s : State) : Nat := 12189696 - s.lentSlots

/-- The channel group of a DRAM slot (R151). -/
def groupOf (pbn : Nat) : Nat := pbn % 64

/-- FREE (R226): free slots of the pool, withdrawn channel groups left out (R176). -/
def State.poolFree (s : State) : Nat :=
  let usable := s.store.poolSlots - s.store.withdrawn.length * (s.store.poolSlots / 64)
  usable - (s.store.dramUsed.filter fun p => !s.store.withdrawn.contains (groupOf p)).length

/-- Whether a number of free slots is below a mark in 1/1,024 of the pool (R226). -/
def State.belowMark (s : State) (mark free : Nat) : Bool := decide (free * 1024 < mark * s.store.poolSlots)
def State.belowLow (s : State) : Bool := s.belowMark s.cfg.lowWater s.poolFree
def State.belowReserve (s : State) : Bool := s.belowMark s.cfg.reserve s.poolFree

/-- Whether a request for `n` new slots is throttled (R227). -/
def State.throttles (s : State) (n : Nat) : Bool :=
  s.belowLow || decide (n > s.poolFree) || (decide (n > 0) && s.belowMark s.cfg.lowWater (s.poolFree - n))

/-- Quota first, then the free pool, for a charge of `n` bobbins that needs `n` new slots (R223, R227). -/
def State.dramNeed (s : State) (tag : W16) (n : Nat) : Res Unit := do
  need (!s.overQuota tag qDram n) St.quotaExceeded
  need (!(decide (n > 0) && s.throttles n)) St.backpressure

/-- Slots of the pool that may be given out: a band that the lent window is growing into is not (R238). -/
def State.openSlots (s : State) : Nat :=
  match s.store.lentWaiter with
  | some (_, gib) => min s.store.poolSlots (12189696 - gib * 16384 - poolBase)
  | none => s.store.poolSlots

/-- Whether a DRAM slot of the pool can be given out. -/
def State.slotFree (s : State) (p : Nat) : Bool :=
  !s.store.dramUsed.contains p && !s.store.withdrawn.contains (groupOf p) && decide (poolBase ≤ p ∧ p < poolBase + s.openSlots)

/-- The first free slot from a place on, wrapping around the open part of the pool. -/
def State.findSlot (s : State) : Nat → Nat → Option Nat
  | 0, _ => none
  | fuel + 1, i =>
    let p := poolBase + i % s.openSlots
    if s.slotFree p then some p else findSlot s fuel (i + 1)

/-- LOW_WATER_HIT is set when FREE falls below LOW_WATER; `was` tells whether it stood there before (R229). -/
def State.noteLow (s : State) (was : Bool) : State := if !was && s.belowLow then s.setFlag Flag.lowWaterHit else s

/-- Whether any of `n` bytes from a module physical address lies in an uncorrectable line (R443, R444). -/
def State.lineBad (s : State) (a n : Nat) : Bool := s.cxl.badLines.any fun l => decide (l < a + n ∧ a < l + 64)

/-- Whether any of `n` bytes at an offset of an area lies in an uncorrectable line (R444). -/
def State.areaBad (s : State) (a : Area) (off n : Nat) : Bool :=
  s.cxl.badLines.any fun l => (indexed a).any fun x =>
    l / slotBytes == slotAddr 1 x.1 / slotBytes &&
      decide (x.2 * slotBytes + l % slotBytes < off + n ∧ off < x.2 * slotBytes + l % slotBytes + 64)

/-- Lines that are written whole read well again (R443). -/
def State.heal (s : State) (p : Nat → Bool) : State := { s with cxl := { s.cxl with badLines := s.cxl.badLines.filter fun l => !p l } }

/-- A slot that is written with zeros when it is given out (R440). -/
def State.zeroSlot (s : State) (tier pbn : Nat) : State :=
  { s with mem := s.mem.clear (slotAddr tier pbn) slotBytes }.heal fun l => l / slotBytes == slotAddr tier pbn / slotBytes

/-- Takes one slot of the pool: which one is the tier engine's choice (DESIGN CHOICE, log 3). The slot reads zeros (R440), and
LOW_WATER_HIT is set when FREE falls below the mark (R229). -/
def State.takeSlot (s : State) : Option (Nat × State) :=
  let (start, s1) := s.free s.openSlots
  match s1.findSlot ((s1.store.dramUsed.length + 1) * 64) start with
  | none => none
  | some p => some (p, ({ s1 with store := { s1.store with dramUsed := p :: s1.store.dramUsed } }.zeroSlot 1 p).noteLow s1.belowLow)

/-- Takes `n` slots of the pool. -/
def State.takeSlots : Nat → State → Option (Area × State)
  | 0, s => some ([], s)
  | n + 1, s => do
    let (p, s) ← s.takeSlot
    let (ps, s) ← takeSlots n s
    return (p :: ps, s)

/-- Gives slots back to the pool. -/
def State.giveSlots (s : State) (a : Area) : State :=
  { s with store := { s.store with dramUsed := s.store.dramUsed.filter fun p => !a.contains p } }

/-- 64 KiB slots that hold a number of bytes. -/
def slotsFor (bytes : Nat) : Nat := (bytes + slotBytes - 1) / slotBytes

/-! ## The queue window (R354) -/

/-- 64 KiB units of the queue window (R352). -/
def windowUnits : Nat := 1048576

/-- Whether [w, w + n) is free of slabs. -/
def State.windowFree (s : State) (w n : Nat) : Bool :=
  decide (w + n ≤ windowUnits) && s.cxl.slabs.all fun b => decide (w + n ≤ b.woff ∨ b.woff + b.area.length ≤ w)

/-- The first place from a start on where `n` units are free. -/
def State.findWindow (s : State) (n : Nat) : Nat → Nat → Option Nat
  | 0, _ => none
  | fuel + 1, i =>
    let w := i % windowUnits
    if s.windowFree w n then some w else findWindow s n fuel (i + 1)

/-- Maps an area into the window of the LD of mailbox `m`; the WINDOW_OFFSET is the module's choice (DESIGN CHOICE, log 3). -/
def State.mapArea (s : State) (m : Nat) (tenant : Option Nat) (a : Area) : Option (Nat × State) :=
  let (start, s) := s.free windowUnits
  match s.findWindow a.length windowUnits start with
  | none => none
  | some w => some (w * slotBytes, { s with cxl := { s.cxl with slabs := s.cxl.slabs ++ [{ mb := m, woff := w, area := a, tenant }] } })

/-- Unmaps and frees an area (R354). -/
def State.dropArea (s : State) (a : Area) : State :=
  if a.isEmpty then s else
  ({ s with cxl := { s.cxl with slabs := s.cxl.slabs.filter fun b => b.area != a } }).giveSlots a

/-- An area of `bytes` bytes in the queue window, charged to a tenant's DRAM_QUOTA (R354, R222). -/
def State.newRing (s : State) (m : Nat) (tag : W16) (bytes : Nat) : Res (Area × Nat × State) := do
  let n := slotsFor bytes
  s.dramNeed tag n
  match s.takeSlots n with
  | none => .error St.noResource
  | some (a, s) =>
    match s.mapArea m (some (tidOf tag)) a with
    | none => .error St.noResource
    | some (w, s) => .ok (a, w, s.charge tag qDram n)

/-- The slab that holds a queue-window offset of an LD. -/
def State.slabAt (s : State) (ld off : Nat) : Option Slab :=
  s.cxl.slabs.find? fun b => (s.mbox b.mb).ld == some ld &&
    decide (b.woff * slotBytes ≤ off ∧ off < (b.woff + b.area.length) * slotBytes)

/-- The module physical address of a queue-window offset of an LD. -/
def State.windowAddr (s : State) (ld off : Nat) : Option Nat := do
  let b ← s.slabAt ld off
  areaAddr? b.area (off - b.woff * slotBytes)

/-- `n` bytes of the queue window; unmapped bytes read zero (R354). -/
def State.windowRead (s : State) (ld off n : Nat) : List Byte :=
  (List.range n).map fun i => match s.windowAddr ld (off + i) with
    | some a => s.mem.read a
    | none => 0

/-- Writes bytes into the queue window; unmapped bytes are discarded (R354). -/
def State.windowWrite (s : State) (ld off : Nat) : List Byte → State
  | [] => s
  | b :: bs =>
    let s1 := match s.windowAddr ld off with
      | some a => { s with mem := s.mem.write a b }
      | none => s
    windowWrite s1 ld (off + 1) bs

/-! ## Completions (R303, R304, R318, R322) -/

/-- The 32 bytes of a completion entry (R303). -/
def Cqe.image (e : Cqe) (phase : Bool) : List Byte :=
  toLe 8 e.tag.toNat ++ toLe 2 e.status ++ [BitVec.ofNat 8 e.kind] ++
  [BitVec.ofNat 8 ((if e.replayed then 2 else 0) + (if phase then 1 else 0))] ++ toLe 4 e.source.toNat ++
  toLe 4 e.msgSeq ++ toLe 4 e.bytes ++ toLe 4 e.retry ++ toLe 4 e.aux

def State.modCq (s : State) (q : Nat) (f : Cq → Cq) : State := { s with work := { s.work with cqs := tmod s.work.cqs q f } }

/-- Whether a completion ring has no free entry. -/
def Cq.full (c : Cq) : Bool := decide (c.written ≥ c.consumed + c.entries)

/-- Writes an entry into the next slot of a completion ring. -/
def State.writeCqe (s : State) (q : Nat) (c : Cq) (e : Cqe) : State :=
  let b := e.image (decide (c.written / c.entries % 2 = 0))
  { s with mem := s.mem.areaWrite c.area (c.written % c.entries * 32) b }.modCq q
    fun c => { c with written := c.written + 1 }

/-- Posts a completion: written, or held while the ring is full, with a CQ_FULL event (R303, R304). -/
def State.postCqe (s : State) (q : Nat) (e : Cqe) : State :=
  match tget s.work.cqs q with
  | none => s
  | some c =>
    if c.full || !c.held.isEmpty then
      (s.modCq q fun c => { c with held := c.held ++ [e] }).raise Ev.cqFull (.tenant c.tenant) [q]
    else s.writeCqe q c e

/-- Held completions enter the ring as space appears, `fuel` of them at most; CQ_FULL again where they fill it and others stay
held (R304). -/
def State.drainCq : Nat → Nat → State → State
  | 0, _, s => s
  | fuel + 1, q, s =>
    match tget s.work.cqs q with
    | none => s
    | some c =>
      match c.held with
      | [] => s
      | e :: es =>
        if c.full then s
        else
          let s := (s.writeCqe q c e).modCq q fun c => { c with held := es }
          let again : Bool := !es.isEmpty && (match tget s.work.cqs q with
            | some c => c.full
            | none => false)
          drainCq fuel q (if again then s.raise Ev.cqFull (.tenant c.tenant) [q] else s)

/-- Makes a trigger entry HALTED (R316, R322). -/
def State.haltEntry (s : State) (entry : Nat) : State :=
  match tget s.work.entries entry with
  | some e =>
    if e.halted then s
    else { s with work := { s.work with entries := tset s.work.entries entry { e with halted := true } } }.setFlag Flag.trigHalted
  | none => s

/-- Posts waiting failure notices into send queues that have a slot for them, oldest first (R322). -/
def State.pumpNotices (s : State) : State :=
  let step := fun (acc : State × List (W32 × List Byte)) (n : W32 × List Byte) =>
    let c := n.1.toNat % 262144
    match tget acc.1.flyer.conns c with
    | some k =>
      if k.handle == n.1 ∧ k.sq.length < k.sqDepth then
        let e : QEntry := { payload := n.2, source := some (2, 0) }
        ({ acc.1 with flyer := { acc.1.flyer with conns := tset acc.1.flyer.conns c { k with sq := k.sq ++ [e] } } }, acc.2)
      else (acc.1, acc.2 ++ [n])
    | none => (acc.1, acc.2 ++ [n])
  let (s1, rest) := s.work.notices.foldl step (s, [])
  { s1 with work := { s1.work with notices := rest } }

/-- What a failed action does to the trigger entry that delivered it (R322). -/
def State.actionFailed (s : State) (t : TrigRef) (e : Cqe) : State :=
  let s := match t.errConn with
    | some c => { s with work := { s.work with notices := s.work.notices ++ [(c, e.image false)] } }.pumpNotices
    | none => s
  if t.halt then
    let i := t.entry.toNat % 1048576
    match tget s.work.entries i with
    | some x => if x.handle == t.entry then s.haltEntry i else s
    | none => s
  else s

/-- Counts a completion on a job queue (R318). -/
def State.countJq (s : State) (q status : Nat) : State :=
  { s with work := { s.work with jqs := tmod s.work.jqs q fun j =>
      { j with completed := j.completed + 1, failed := if status = 0 then j.failed else j.failed + 1 } } }

/-- Counts a completion on a connection's send queue (R318). -/
def State.countSq (s : State) (c status : Nat) : State :=
  { s with flyer := { s.flyer with conns := tmod s.flyer.conns c fun k =>
      { k with completed := k.completed + 1, failed := if status = 0 then k.failed else k.failed + 1 } } }

/-- The completion of an entry of job queue `q`: counters, completion entry, and the trigger that delivered it. -/
def State.doneJq (s : State) (q : Nat) (trig : Option TrigRef) (e : Cqe) : State :=
  let cq := match tget s.work.jqs q with
    | some j => j.cq
    | none => 65536
  let s := (s.countJq q e.status).postCqe cq { e with source := BitVec.ofNat 32 q }
  match trig with
  | some t => if e.status = 0 then s else s.actionFailed t { e with source := BitVec.ofNat 32 q }
  | none => s

/-- The completion of a send-queue entry of connection `c`; a completion entry is written where `shown` holds. -/
def State.doneSq (s : State) (c : Nat) (trig : Option TrigRef) (shown : Bool) (e : Cqe) : State :=
  match tget s.flyer.conns c with
  | none => s
  | some k =>
    let e := { e with source := k.handle }
    let s := s.countSq c e.status
    let s := if shown then s.postCqe k.cq e else s
    match trig with
    | some t => if e.status = 0 then s else s.actionFailed t e
    | none => s

end Sys2Proof.Machine
end

