-- ==== Sys2Proof/Machine/JobDesc.lean ====
section
/-!
DEFINITION. The job descriptor (R121, R122): its fields, the checks that look at it alone (R12 steps 1 to 4, R122), and
the fold (R90–R92).
-/
namespace Sys2Proof.Machine

/-! ## Fields (R121) -/

def jdControl (b : List Byte) : Nat := field b 4 4
def jdStep (b : List Byte) : W64 := BitVec.ofNat 64 (field b 16 8)
def jdLaunch (b : List Byte) : W64 := BitVec.ofNat 64 (field b 24 8)
def jdSkein (b : List Byte) : W32 := BitVec.ofNat 32 (field b 32 4)
def jdSkeins (b : List Byte) : Nat := field b 36 2
def jdLayer (b : List Byte) : Nat := field b 38 1
def jdHg (b : List Byte) : Nat := field b 39 1
def jdPadded (b : List Byte) : Nat := field b 48 4
def jdSelectK (b : List Byte) : Nat := field b 52 4
def jdQ (b : List Byte) : Nat := field b 56 2
def jdDk (b : List Byte) : Nat := field b 58 2
def jdDv (b : List Byte) : Nat := field b 60 2
def jdKeyFirst (b : List Byte) : Nat := field b 62 2
def jdValueFirst (b : List Byte) : Nat := field b 64 2
def jdQueryBase (b : List Byte) : Nat := field b 66 2
def jdScale (b : List Byte) : W32 := BitVec.ofNat 32 (field b 68 4)
def jdArg (b : List Byte) (i : Nat) : W32 := BitVec.ofNat 32 (field b (72 + 4 * i) 4)
/-- The score-program slot, the rescale-table slot and the up-projection slot, where the job uses one. -/
def jdProgram (b : List Byte) : Option Nat := if bit 15 (field b 80 2) then some (bits 3 0 (field b 80 2)) else none
def jdRescale (b : List Byte) : Option Nat := if bit 15 (field b 82 2) then some (bits 11 0 (field b 82 2)) else none
def jdUpproj (b : List Byte) : Option Nat := if bit 15 (field b 84 2) then some (bits 11 0 (field b 84 2)) else none
def jdPlySlub (b : List Byte) : Nat := field b 86 1
def jdBarrier (b : List Byte) : Nat := field b 87 1
def jdRank (b : List Byte) : Nat := field b 92 2
def jdCombine (b : List Byte) : Nat := field b 94 2
def jdConn (b : List Byte) : Nat := field b 96 4
def jdQueryKey (b : List Byte) : W32 := BitVec.ofNat 32 (field b 100 4)
def jdPlyKey (b : List Byte) : W32 := BitVec.ofNat 32 (field b 108 4)
def jdListKey (b : List Byte) : W32 := BitVec.ofNat 32 (field b 116 4)
def jdQuerySlub (b : List Byte) : Nat := field b 124 1

/-! ## CONTROL (R122) -/

def jdCheckLease (b : List Byte) : Bool := bit 26 (jdControl b)
def jdCache (b : List Byte) : Bool := bit 25 (jdControl b)
def jdDest (b : List Byte) : Nat := bits 24 23 (jdControl b)
def jdFromRegion (b : List Byte) : Bool := bit 22 (jdControl b)
def jdReload (b : List Byte) : Nat := bits 21 20 (jdControl b)
def jdEngine (b : List Byte) : Nat := bits 19 18 (jdControl b)
def jdPinFold (b : List Byte) : Bool := bit 17 (jdControl b)
def jdFoldDepth (b : List Byte) : Nat := bits 16 15 (jdControl b)
def jdFoldWidth (b : List Byte) : Nat := bits 14 13 (jdControl b)
def jdPlyBf16 (b : List Byte) : Bool := bit 12 (jdControl b)
def jdWeightBf16 (b : List Byte) : Bool := bit 11 (jdControl b)
def jdQueryBf16 (b : List Byte) : Bool := bit 10 (jdControl b)
def jdKeepEnds (b : List Byte) : Bool := bit 9 (jdControl b)
def jdIsPadded (b : List Byte) : Bool := bit 8 (jdControl b)
def jdDet (b : List Byte) : Bool := bit 7 (jdControl b)
def jdExpanded (b : List Byte) : Bool := bit 6 (jdControl b)
def jdSelective (b : List Byte) : Bool := bit 5 (jdControl b)
def jdToTail (b : List Byte) : Bool := bit 4 (jdControl b)

/-- Spindles that a mask names. -/
def maskSpindles (m : Nat) : List Nat := (List.range 8).filter fun i => bit i m

/-! ## Steps 1 and 2 of R124 -/

/-- Whether every field that must be zero is zero (R8, R121, R122). -/
def jobZeros (b : List Byte) : Bool :=
  let c := jdControl b
  let z := fun (cond : Bool) (off n : Nat) => cond || field b off n == 0
  bits 31 27 c == 0 && bits 3 0 c == 0 && (jdPinFold b || (jdFoldDepth b == 0 && jdFoldWidth b == 0)) && field b 3 1 == 0 &&
  z (jdSkeins b == 1) 32 4 && z (jdSkeins b == 1) 40 4 && z (jdSkeins b == 1 && !jdToTail b) 44 4 && z (jdIsPadded b) 48 4 &&
  z (jdSelective b) 52 4 && z (!jdExpanded b) 62 2 && z (!jdExpanded b) 64 2 && z (jdProgram b).isSome 72 8 &&
  bits 14 4 (field b 80 2) == 0 && bits 14 12 (field b 82 2) == 0 && bits 14 12 (field b 84 2) == 0 && z (!jdPlyBf16 b) 86 1 &&
  z (jdCheckLease b) 88 4 && z (jdDest b != 1) 94 2 && z (jdDest b == 0) 96 4 && z (jdFromRegion b) 100 4 &&
  z (jdDest b == 1) 108 4 && z (decide (jdSkeins b > 1)) 116 4 && z (jdFromRegion b && !jdQueryBf16 b) 124 1 && zeroIn b 125 3

/-- Whether CONTROL holds a reserved code or an excluded combination (R122). -/
def jobExcluded (b : List Byte) : Bool :=
  let whorl := jdEngine b == 1
  jdDest b == 3 || jdReload b == 3 || jdEngine b == 3 || jdFoldDepth b == 3 || (jdKeepEnds b && !jdSelective b) ||
  (jdExpanded b && whorl) || (whorl && (jdPinFold b || jdBarrier b != 0)) || (maskSpindles (jdBarrier b)).length == 1 ||
  (jdUpproj b).isSome != jdExpanded b

/-- Steps 1 to 4 of R12 for a descriptor of one TYPE with `units` × 64 bytes. -/
def checkHeader (b : List Byte) (ty units : Nat) (zero : Bool) : Res Unit := do
  need (field b 0 1 == ty) St.badType
  need (field b 1 1 == 1) St.versionUnsupported
  need (field b 2 1 == units) St.lengthRange
  need zero St.reservedNonzero

/-! ## The fold (R90–R93) -/

/-- D and W of a fold by its codes (R116). -/
def foldDepthOf (code : Nat) : Nat := 512 / 2 ^ code
def foldWidthOf (code : Nat) : Nat := 512 / 2 ^ code

/-- The codes of the fold that a job takes: pinned, or the smallest depth and width that hold it (R91, R92); `rows` is Q or
a batch's largest ROW_COUNT (R123). -/
def foldCodes (b : List Byte) (rows : Nat) : Nat × Nat :=
  if jdPinFold b then (jdFoldDepth b, jdFoldWidth b)
  else
    let need := max (jdDk b) (jdDv b)
    let d := if need ≤ 128 then 2 else if need ≤ 256 then 1 else 0
    let q := min rows 512
    let w := if q ≤ 64 then 3 else if q ≤ 128 then 2 else if q ≤ 256 then 1 else 0
    (d, w)

/-- Sub-arrays of a fold: Gr × Gc (R90). -/
def foldSubs (f : Nat × Nat) : Nat := 2 ^ f.1 * 2 ^ f.2

/-- Query passes of `rows` rows at a width (R93). -/
def passes (rows width : Nat) : Nat := (rows + width - 1) / width

end Sys2Proof.Machine
end

