-- ==== Sys2Proof/Machine/CreelOps.lean ====
section
/-!
DEFINITION. The creel below the tier engine: allocation of bobbin slots (R240, R241), the records of programmed pages (R245,
R246), where pages land (R242), buffer size (R244), retirement of blocks (R253–R256), READ_ONLY (R257), the system areas
(R239, R260, R512), skein records (R247) and reel segments (R465).
-/
namespace Sys2Proof.Machine

/-- Bobbin slots of a logical block, and logical blocks (R239, R240). -/
def lbSlots : Nat := 384
def lbCount : Nat := 1048576
/-- Bobbin slots of the creel. -/
def creelSlots : Nat := 402653184
/-- Data blocks (R239). -/
def dataBlocks : Nat := 1397760
/-- Pages of a block in SLC and in TLC mode (R239). -/
def slcPages : Nat := 512
def tlcPages : Nat := 1536

def State.modCreel (s : State) (f : Creel → Creel) : State := { s with creel := f s.creel }

/-- Planes' system blocks: 1,024, numbered after the data blocks (R239; log 81). -/
def systemBlocks : Nat := 1024
/-- Bytes of a flash page (R239). -/
def flashPage : Nat := 16384
/-- Flash pages for a number of bytes. -/
def flashPages (bytes : Nat) : Nat := (bytes + flashPage - 1) / flashPage

/-- Whether the creel takes part in moves at all: not OFFLINE and not REBUILDING (R252). -/
def State.creelServes (s : State) : Bool := s.creel.state == .online || s.creel.state == .readOnly

/-- S of R244 for a number of allocated bobbin slots, in SLC blocks. -/
def bufferBlocksFor (alloc : Nat) : Nat :=
  let f := 24 * 2 ^ 40 - slotBytes * alloc
  min (max (f / 3 / (8 * 2 ^ 20)) 8192) 262144

/-- Computes S again when F has changed by 1 GiB since it was last computed (R244). -/
def State.resize (s : State) : State :=
  let n := s.store.creelUsed.length
  let d := if n ≥ s.creel.sizedAt then n - s.creel.sizedAt else s.creel.sizedAt - n
  if d ≥ 16384 ∨ s.creel.bufferSize = 0 then s.modCreel fun c => { c with bufferSize := bufferBlocksFor n, sizedAt := n } else s

/-! ## Allocation -/

/-- Slots of a logical block that are allocated. -/
def State.lbUsed (s : State) (lb : Nat) : Nat := (s.store.creelUsed.filter fun p => p / lbSlots == lb).length

/-- The lowest free slot of a logical block. -/
def State.lbFree (s : State) (lb : Nat) : Option Nat :=
  (List.range lbSlots).find? fun i => !s.store.creelUsed.contains (lb * lbSlots + i)

/-- Whether a logical block is mapped: it holds an allocated slot (R241). -/
def State.lbMapped (s : State) (lb : Nat) : Bool := s.store.creelUsed.any fun p => p / lbSlots == lb

/-- The lowest-numbered unmapped logical block. -/
def State.lbUnmapped (s : State) : Option Nat :=
  (List.range (min lbCount (s.store.creelUsed.length + 1))).find? fun lb => !s.lbMapped lb

/-- The mapped logical block with the most free slots, the lower number on a tie (R241). -/
def State.lbFullest (s : State) : Option Nat :=
  let lbs := (s.store.creelUsed.map (· / lbSlots)).eraseDups
  lbs.foldl (fun (a : Option Nat) lb => match a with
    | none => some lb
    | some b => if s.lbUsed lb < s.lbUsed b || (s.lbUsed lb == s.lbUsed b && decide (lb < b)) then some lb else a) none

/-- The destination slot of the next doff bobbin, and the logical block being filled (R240, R241). -/
def State.takeCreel (s : State) : Option (Nat × State) :=
  let use := fun (lb i : Nat) =>
    (lb * lbSlots + i, ({ s with store := { s.store with creelUsed := (lb * lbSlots + i) :: s.store.creelUsed },
                                 creel := { s.creel with filling := some lb } }).resize)
  let inFilling := do
    let lb ← s.creel.filling
    let i ← s.lbFree lb
    return (lb, i)
  match inFilling with
  | some (lb, i) => some (use lb i)
  | none =>
    match s.lbUnmapped with
    | some lb => some (use lb 0)
    | none => do
      let lb ← s.lbFullest
      let i ← s.lbFree lb
      return use lb i

/-- Logical pages of a creel bobbin (R240). -/
def bobbinPages (pbn : Nat) : List Nat := (List.range 4).map fun k => pbn / lbSlots * tlcPages + 4 * (pbn % lbSlots) + k

/-! ## Programmed pages (R245, R246) -/

/-- Codes of KIND (R245). -/
def PageKind.code : PageKind → Nat
  | .lea => 1 | .skein => 2 | .reel => 3 | .checkpoint => 4 | .flush => 5 | .system => 6

/-- Bytes 0–15 of a page's record. -/
def PageRecord.head (r : PageRecord) : List Byte :=
  toLe 1 r.kind.code ++ toLe 1 r.flags.toNat ++ toLe 2 r.pageIndex.toNat ++ toLe 4 r.logicalBlock.toNat ++ toLe 8 r.sequence.toNat

/-- RECORD_CHECK: the CRC-32C, without locator, of bytes 0–15 and 20–127 (R245). -/
def PageRecord.check (r : PageRecord) : W32 := crc32c (r.head ++ zeros 108)

/-- Bytes 0–127 of the spare area of a page, programmed or erased (R245). -/
def spareArea : Option FlashPage → List Byte
  | some p => p.record.head ++ toLe 4 p.record.check.toNat ++ zeros 108
  | none => List.replicate 128 0xFF

/-- The programmed pages of a block. -/
def Creel.pagesIn (c : Creel) (b : Nat) : List FlashPage := (tget c.flash b).getD []
/-- How many they are: the number of the block's first unprogrammed page. -/
def Creel.fill (c : Creel) (b : Nat) : Nat := (c.pagesIn b).length

/-- Programs the next page of a block under the next SEQUENCE; no CLEAN mark outlives it (R245, R246, R251). -/
def Creel.program (c : Creel) (b : Nat) (kind : PageKind) (index lb : Nat) (flags : BitVec 2) : Creel :=
  let r : PageRecord := { kind, flags, pageIndex := BitVec.ofNat 16 index, logicalBlock := BitVec.ofNat 20 lb, sequence := c.sequence }
  { c with flash := tset c.flash b (c.pagesIn b ++ [{ record := r }]), sequence := c.sequence + 1, cleanMark := none }

/-- Whether a record or a tombstone is live: the last of its index, a tombstone only while an older one is in flash (log 81). -/
def Creel.metaLive (c : Creel) (m : MetaRec) : Bool :=
  let same := c.metas.filter fun x => x.idx == m.idx
  same.getLast? == some m && (m.body.isSome || decide (1 < same.length))

/-- Whether a block holds a live page (R243). -/
def Creel.holdsLive (c : Creel) (b : Nat) : Bool :=
  (c.pages.any fun e => e.2.1 == b) || (c.metas.any fun m => c.metaLive m && m.places.any fun p => p.1 == b) ||
    c.reelPages.any fun p => p.place.1 == b

/-- Turns blocks that hold no live page over to erasing: written buffer, log and record blocks, data blocks, and merge
destinations of logical blocks that were unmapped meanwhile (R241, R243). -/
def State.reclaim (s : State) : State :=
  let c := s.creel
  let dead := fun (b : Nat × BlkUse) => match b.2 with
    | .buffer | .log => decide (0 < c.fill b.1) && !c.holdsLive b.1
    | .data _ => !c.holdsLive b.1
    | .mergeDest lb => !s.lbMapped lb
    | _ => false
  let names := (c.blocks.filter dead).map (·.1)
  s.modCreel fun c =>
    { c with
      blocks := c.blocks.map fun (b : Nat × BlkUse) => if names.contains b.1 then (b.1, .erasing (b.2 == .buffer)) else b
      map := c.map.filter fun e => !names.contains e.2
      bufferBlocks := c.bufferBlocks.filter fun b => !names.contains b
      logBlocks := c.logBlocks.filter fun b => !names.contains b
      recordBlocks := c.recordBlocks.filter fun b => !names.contains b }

/-- Frees a creel slot at once; its pages become invalid, and blocks left with no live page are erased (R241). -/
def State.giveCreel (s : State) (pbn : Nat) : State :=
  let s := { s with store := { s.store with creelUsed := s.store.creelUsed.filter (· != pbn) } }
  (s.modCreel fun c => { c with pages := c.pages.filter fun e => !(bobbinPages pbn).contains e.1 }).reclaim.resize

/-! ## READ_ONLY (R257) -/

/-- Enters READ_ONLY when no spare is left and free blocks are below the floor (R257). -/
def State.checkReadOnly (s : State) : State :=
  if s.creel.state = .online ∧ s.creel.spare = 0 ∧ s.creel.freeBlocks < 1024 then
    (s.modCreel fun c => { c with state := .readOnly }).raise Ev.creelReadOnly .module []
  else s

/-- Leaves READ_ONLY when free blocks reach 4,096 (R257). -/
def State.leaveReadOnly (s : State) : State :=
  if s.creel.state = .readOnly ∧ s.creel.freeBlocks ≥ 4096 then s.modCreel fun c => { c with state := .online } else s

/-! ## Where pages land (R242, R258) -/

/-- A block's wear figure in tenths: TLC erases and a tenth of SLC erases, over what manufacture left (R258, R262). -/
def Creel.wear (c : Creel) (b : Nat) : Nat := 10 * min 29 Config.newWearRaw + 10 * tnum c.tlcErases b + tnum c.slcErases b

/-- Puts a free block to a use, erased as it is. -/
def State.useBlock (s : State) (b : Nat) (u : BlkUse) : State :=
  (s.modCreel fun c => { c with blocks := tset c.blocks b u, freeBlocks := c.freeBlocks - 1, flash := tdel c.flash b }).checkReadOnly

/-- Takes a free data block with the lowest wear figure; which one of them is the creel's choice (R258; DESIGN CHOICE, log 3). -/
def State.takeBlock (s : State) (u : BlkUse) : Option (Nat × State) :=
  if s.creel.freeBlocks = 0 then none else
  let c := s.creel
  let (start, s) := s.free dataBlocks
  let window := (List.range (c.blocks.length + c.tlcErases.length + c.slcErases.length + 1)).map fun i => (start + i) % dataBlocks
  let least := (window.filter fun b => !thas c.blocks b).foldl (fun (a : Option Nat) b => match a with
    | none => some b
    | some x => if c.wear b < c.wear x then some b else a) none
  least.map fun b => (b, s.useBlock b u)

/-- SLC pages that the buffer holds. -/
def Creel.bufferPages (c : Creel) : Nat := (c.bufferBlocks.map c.fill).sum

/-- Whether new writes wait for merges: free blocks below the merge floor while spares remain (R257). -/
def Creel.writesWait (c : Creel) : Bool := decide (c.freeBlocks < 1024 ∧ c.spare > 0)

/-- The open block of the first available unit, opened where it must be: the SLC buffer, else a log block (R242). -/
def State.openUnit (s : State) : Option (Nat × State) :=
  let c := s.creel
  if c.bufferPages < c.bufferSize * slcPages then
    match c.bufferBlocks.find? fun b => decide (c.fill b < slcPages) with
    | some b => some (b, s)
    | none => do
      let (b, s) ← s.takeBlock .buffer
      return (b, s.modCreel fun c => { c with bufferBlocks := c.bufferBlocks ++ [b] })
  else
    match c.logBlocks.find? fun b => decide (c.fill b < tlcPages) with
    | some b => some (b, s)
    | none =>
      if c.logBlocks.length ≥ 256 then none else do
        let (b, s) ← s.takeBlock .log
        return (b, s.modCreel fun c => { c with logBlocks := c.logBlocks ++ [b] })

/-- Programs one logical page in the open unit (R242). -/
def State.programPage (s : State) (page : Nat) : Option State := do
  let (b, s) ← s.openUnit
  return s.modCreel fun c =>
    { c.program b .lea (page % tlcPages) (page / tlcPages) 0 with pages := tset c.pages page (b, c.fill b) }

/-- Notes that a bobbin slot was written since the last merge of its logical block (R243). -/
def Creel.noteWritten (c : Creel) (pbn : Nat) : Creel :=
  let had := (tget c.merges (pbn / lbSlots)).getD []
  { c with merges := tset c.merges (pbn / lbSlots) (pbn % lbSlots :: had.filter (· != pbn % lbSlots)) }

/-- Programs the four leas of a bobbin; none while the write must wait (R242, R257). -/
def State.programBobbin (s : State) (pbn : Nat) : Option State :=
  if s.creel.writesWait then none
  else do
    let s ← (bobbinPages pbn).foldlM (fun s p => s.programPage p) s
    return s.modCreel fun c => c.noteWritten pbn

/-- The block that takes a record page: an SLC block of such pages, opened from more than `least` free blocks (R257; log 81). -/
def State.openRecord (s : State) (least : Nat) : Option (Nat × State) :=
  match s.creel.recordBlocks.find? fun b => decide (s.creel.fill b < slcPages) with
  | some b => some (b, s)
  | none =>
    if s.creel.freeBlocks ≤ least then none else do
      let (b, s) ← s.takeBlock .buffer
      return (b, s.modCreel fun c => { c with recordBlocks := c.recordBlocks ++ [b] })

/-- Programs `n` pages of a record, giving where they lie; those for which no block is left are not written. -/
def State.programRecord (s : State) (kind : PageKind) (n least : Nat) : List PageAt × State :=
  (List.range n).foldl (fun (a : List PageAt × State) i => match a.2.openRecord least with
    | some (b, s) => (a.1 ++ [(b, s.creel.fill b)], s.modCreel fun c => c.program b kind i 0 0)
    | none => a) ([], s)

/-! ## Retirement (R256) -/

/-- Retires a block: a spare takes its place while there is one, and CREEL_BLOCK_RETIRED names the block and the cause
(R256): 1 program, 2 erase, 3 merge destination, 4 wear. -/
def State.retireBlock (s : State) (b cause : Nat) : State :=
  let s := s.modCreel fun c =>
    { c with blocks := tset c.blocks b .retired, retired := c.retired + 1,
             freeBlocks := if c.spare > 0 then c.freeBlocks + 1 else c.freeBlocks, spare := c.spare - 1,
             bufferBlocks := c.bufferBlocks.filter (· != b), logBlocks := c.logBlocks.filter (· != b)
             recordBlocks := c.recordBlocks.filter (· != b), flash := tdel c.flash b
             metas := c.metas.filter fun m => !m.places.any fun p => p.1 == b }
  (s.raise Ev.creelBlockRetired .module [b, cause]).checkReadOnly

/-! ## System areas (R239, R250, R256, R260, R512) -/

/-- The system blocks of an area, by number: block j of plane p is 2 p + j (DESIGN CHOICE, log 81). -/
def SysArea.blocks : SysArea → List Nat
  | .flush => (List.range 256).map (4 * ·)
  | .image => (List.range 8).map fun d => 4 * d + 2
  | .map copy => (List.range 192).map fun d => 4 * (d + 64) + 2 + copy
  | .generations copy => [8 * copy + 3, 8 * copy + 7]
  | .keyStore copy => [34 + 4 * copy]
  | .lmsIndex copy => [42 + 4 * copy]
  | .tenants => [50]
  | .repair => [54]

/-- The physical block that serves as a system block: itself, or the spare that replaced it (R256). -/
def Creel.sysBlock (c : Creel) (i : Nat) : Nat := dataBlocks + (tget c.sysMoved i).getD i

/-- Spare system blocks: of no area and no continuation of the flush area (R256; log 81). -/
def spareSystem : List Nat := (List.range systemBlocks).filter fun i =>
  let d := i / 4
  (i % 4 == 2 && decide (16 ≤ d ∧ d < 64)) || (i % 4 == 3 && decide (8 ≤ d ∧ d < 64))

/-- Erases an area and writes `n` pages into it. -/
def Creel.writeArea (c : Creel) (a : SysArea) (kind : PageKind) (n : Nat) : Creel :=
  let bs := a.blocks.map c.sysBlock
  let c := { c with flash := bs.foldl tdel c.flash }
  (List.range n).foldl (fun (c : Creel) i => match bs[i / slcPages]? with
    | some b => c.program b kind i 0 0
    | none => c) c

/-- A system area is written anew: records of tenants, the repair record, the image (R450, R512, R514). -/
def State.writeSystem (s : State) (a : SysArea) (bytes : Nat) : State := s.modCreel fun c => c.writeArea a .system (flashPages bytes)

/-- The tenant record area, which TENANT_CREATE, QUOTA_SET and teardown write before they complete (R514). -/
def State.writeTenants (s : State) : State := s.writeSystem .tenants 1

/-- The repair record, written before a change of a map takes effect (R450). -/
def State.writeRepair (s : State) : State := s.writeSystem .repair 1

/-- The key store: a header and one entry for each tenant ID and for the metadata creel key, written whole to the block that is not
current; the previous block is then erased (R436). -/
def State.writeKeyStore (s : State) : State :=
  let copy := s.sec.keyStoreSeq % 2
  let s := s.writeSystem (.keyStore (1 - copy)) (64 + 128 * 4097)
  let old := (SysArea.keyStore copy).blocks.map s.creel.sysBlock
  { s with sec := { s.sec with keyStoreSeq := s.sec.keyStoreSeq + 1 }, creel := { s.creel with flash := old.foldl tdel s.creel.flash } }

/-- The island's index record, NEXT, in its two blocks alternately (R425). -/
def State.writeLmsIndex (s : State) (next : Nat) : State := s.writeSystem (.lmsIndex (next % 2)) 1

/-- A failed system block: a spare one takes its place, and its pages are programmed there from the copy in DRAM (R256). -/
def State.replaceSystem (s : State) (b cause : Nat) : State :=
  let c := s.creel
  let taken := c.sysMoved.map (·.2)
  match (List.range systemBlocks).find? (fun i => c.sysBlock i == b),
    spareSystem.find? (fun i => !taken.contains i && !thas c.blocks (dataBlocks + i)) with
  | some i, some x =>
    let pages := c.pagesIn b
    let s := s.modCreel fun c =>
      let c := { c with sysMoved := tset c.sysMoved i x, blocks := tset c.blocks b .retired, flash := tdel c.flash b }
      pages.foldl (fun (c : Creel) p => c.program (dataBlocks + x) p.record.kind p.record.pageIndex.toNat 0 0) c
    s.raise Ev.creelBlockRetired .module [b, cause]
  | _, _ => s

/-! ## Records and reels (R247, R465) -/

/-- Bobbins that a skein record is charged: 8 bytes per bobbin plus 4 KiB, rounded up (R247). -/
def recordBytes (bobbins : Nat) : Nat := 8 * bobbins + 4096
def recordBobbinsFor (bobbins : Nat) : Nat := slotsFor (recordBytes bobbins)

/-- Bobbins that a skein's reel segments are charged (R465). -/
def reelBobbinsFor (entries : Nat) : Nat := slotsFor ((entries + 63) / 64 * 320)

/-- Writes the tombstone of a skein's record, where there is one, and credits its charge (R247). -/
def State.tombstone (s : State) (idx : Nat) (tag : W16) : State :=
  let n := tnum s.creel.recordBobbins idx
  if thas s.creel.records idx then
    let (places, s) := s.programRecord .skein 1 0
    (s.modCreel fun c => { c with records := tdel c.records idx, recordBobbins := tdel c.recordBobbins idx
                                  metas := c.metas ++ [{ idx, body := none, places, seq := c.sequence.toNat }] }).reclaim.credit tag qCreel n
  else s

/-- Writes the skein record of a DOFFED skein and charges it, in place of the one it had (R247). -/
def State.writeRecord (s : State) (idx : Nat) (k : Skein) : State :=
  let n := recordBobbinsFor k.leaves.length
  let had := tnum s.creel.recordBobbins idx
  let (places, s) := s.programRecord .skein (flashPages (recordBytes k.leaves.length)) 0
  let r : SkRecord := { skein := k, seq := s.creel.sequence.toNat }
  ((s.modCreel fun c => { c with records := tset c.records idx r, recordBobbins := tset c.recordBobbins idx n
                                 metas := c.metas ++ [{ idx, body := some r, places, seq := r.seq }] }).credit
    k.tenant qCreel had).charge k.tenant qCreel n

/-- Whether reel segments can be written now (R252, R257). -/
def State.creelTakesReels (s : State) : Bool :=
  s.creel.state == .online || (s.creel.state == .readOnly && decide (s.creel.freeBlocks > 64))

/-- Reel segments of a page (R465). -/
def reelSegments : Nat := 51

/-- Programs the pages of the segments of blocks `first` to `last − 1` of a skein's reel (R465; one skein to a page, log 81). -/
def State.programReel (s : State) (idx first last : Nat) : State :=
  let (places, s) := s.programRecord .reel ((last - first + reelSegments - 1) / reelSegments) 64
  let new := (indexed places).map fun (p : PageAt × Nat) =>
    ({ idx, place := p.1, first := first + reelSegments * p.2, last := min last (first + reelSegments * (p.2 + 1)) } : ReelPage)
  s.modCreel fun c => { c with reelPages := c.reelPages ++ new }

/-- Writes a skein's unpersisted reel tail as segments: every index it has is then covered by the creel (R465). -/
def State.persistReel (s : State) (idx : Nat) (k : Skein) : State × Skein :=
  let top := match k.reel.getLast? with
    | some e => e.1 + 1
    | none => 0
  if top ≤ k.persisted then (s, k)
  else
    let n := reelBobbinsFor k.reel.length
    let k1 := { k with persisted := top, reelCreelBobbins := n }
    let s := if n ≥ k.reelCreelBobbins then s.charge k.tenant qCreel (n - k.reelCreelBobbins)
             else s.credit k.tenant qCreel (k.reelCreelBobbins - n)
    ((s.programReel idx (k.persisted / 64) ((top + 63) / 64)).modCreel fun c => { c with reels := tset c.reels idx k.reel }, k1)

end Sys2Proof.Machine
end

