-- ==== Sys2Proof/Machine/Triggers.lean ====
section
/-!
DEFINITION. Objects that a tenant names (queues, connections, regions, lists), regions as bytes (R284, R285), and
trigger entries: posting (R309), the posting ring (R552), firing (R310–R315), removal (R316, R317).
-/
namespace Sys2Proof.Machine

/-! ## Objects of a tenant -/

def State.modWork (s : State) (f : Work → Work) : State := { s with work := f s.work }
def State.modFlyer (s : State) (f : Flyer → Flyer) : State := { s with flyer := f s.flyer }

/-- A live job queue of a tenant. -/
def State.jqFor (s : State) (tag : W16) (q : Nat) : Option Jq :=
  match tget s.work.jqs q with
  | some j => if j.tenant == tag && !j.destroyed then some j else none
  | none => none

/-- A completion queue of a tenant. -/
def State.cqFor (s : State) (tag : W16) (q : Nat) : Option Cq :=
  match tget s.work.cqs q with
  | some c => if c.tenant == tag then some c else none
  | none => none

/-- The connection that a handle names for a tenant: index and connection. -/
def State.connFor (s : State) (tag : W16) (h : W32) : Option (Nat × Conn) :=
  match tget s.flyer.conns (rcIndex h) with
  | some c => if c.handle == h && c.tenant == tag then some (rcIndex h, c) else none
  | none => none

/-- The connection of a tenant at an index: a job's CONNECTION field holds no generation (R121). -/
def State.connAt (s : State) (tag : W16) (i : Nat) : Option Conn :=
  match tget s.flyer.conns i with
  | some c => if c.tenant == tag then some c else none
  | none => none

/-- A trigger list of a tenant. -/
def State.listFor (s : State) (tag : W16) (i : Nat) : Option TrigList :=
  match tget s.work.lists i with
  | some l => if l.tenant == tag && !l.destroyed then some l else none
  | none => none

/-- A shared receive queue of a tenant. -/
def State.srqFor (s : State) (tag : W16) (i : Nat) : Option Srq :=
  match tget s.flyer.srqs i with
  | some q => if q.tenant == tag then some q else none
  | none => none

/-- A live region of a tenant by its key (R284). -/
def State.regionFor (s : State) (tag : W16) (key : W32) : Option Region :=
  match tget s.flyer.regions (keyIndex key) with
  | some r => if r.key == key && r.tenant == tag then some r else none
  | none => none

/-! ## Regions (R285) -/

/-- Rights bits of R408. -/
def rightRead : Nat := 0
def rightWrite : Nat := 1
def rightAtomic : Nat := 2
def rightImport : Nat := 3

/-- Bytes that a region covers: a BUFFER its length, a LEASE the lease word and EXPIRY, a SKEIN its SVA space (R31). -/
def Region.size (r : Region) : Nat := if r.kind = 1 then r.length else if r.kind = 2 then 2 ^ 48 else 16

/-- The checks of R285 for an operation on [off, off + len). -/
def State.regionCheck (s : State) (tag : W16) (key : W32) (right off len : Nat) (aligned : Bool) : Res Region :=
  match s.regionFor tag key with
  | none => .error St.staleKey
  | some r => do
    need (bit right r.rights) St.notPermitted
    need (decide (off + len ≤ r.size) && (!aligned || off % 8 == 0)) St.lengthRange
    return r

/-- Whether a tenant tag matches its key slot: the generation of the tenant it names (R438). -/
def State.tagOk (s : State) (tag : W16) : Bool := match tget s.tenants (tag.toNat % 4096) with
  | some t => t.gen == tag.toNat / 4096
  | none => false

/-- The flyer among the units that present tenant tags: spindles are 0 to 7, stacks 8 to 15 (DESIGN CHOICE, log 12). -/
def flyerUnit : Nat := 16

/-- An access whose tag does not match its key slot raises KEY_TAG_FAULT; any other changes nothing (R438). -/
def State.checkTag (s : State) (tag : W16) (unit addr : Nat) : State :=
  if s.tagOk tag then s else s.raise Ev.keyTagFault .module [tag.toNat, unit, addr]

/-- The memory that a tag reads: zeros where it does not match (R438). -/
def State.memFor (s : State) (tag : W16) : Mem := if s.tagOk tag then s.mem else []

/-- Bytes of a BUFFER region. -/
def State.bufRead (s : State) (r : Region) (off n : Nat) : List Byte := (s.memFor r.tenant).areaRead r.area off n
/-- Writes bytes of a BUFFER region. -/
def State.bufWrite (s : State) (r : Region) (off : Nat) (bs : List Byte) : State :=
  if !s.tagOk r.tenant then s.checkTag r.tenant flyerUnit (slotAddr 1 (r.area.getD (off / slotBytes) 0) + off % slotBytes)
  else { s with mem := s.mem.areaWrite r.area off bs }.heal fun l => (indexed r.area).any fun x =>
    l / slotBytes == slotAddr 1 x.1 / slotBytes &&
      decide (off ≤ x.2 * slotBytes + l % slotBytes ∧ x.2 * slotBytes + l % slotBytes + 64 ≤ off + bs.length)

/-! ## Trigger entries (R307–R309) -/

/-- Descriptor length by TYPE in 64-byte units (R12). -/
def typeUnits (ty : Nat) : Nat := if ty = 0x10 then 2 else 1
/-- Types an action may have (R309). -/
def actionTypes : List Nat := [0x10, 0x11, 0x12, 0x13, 0x20]

/-- Splits action bytes, each checked against its own TYPE, VERSION and LENGTH (R309). -/
def splitActions : Nat → List Byte → Res (List (List Byte))
  | 0, _ => .ok []
  | fuel + 1, bs =>
    if bs.isEmpty then .ok [] else do
      let ty := field bs 0 1
      need (actionTypes.contains ty) St.badType
      need (field bs 1 1 == 1) St.versionUnsupported
      let n := typeUnits ty * 64
      need (field bs 2 1 == typeUnits ty && decide (n ≤ bs.length)) St.lengthRange
      let rest ← splitActions fuel (bs.drop n)
      return bs.take n :: rest

def hdrControl (h : List Byte) : Nat := field h 4 4
def hdrCount (h : List Byte) : Nat := bits 2 0 (hdrControl h)
def hdrStepMode (h : List Byte) : Nat := bits 8 7 (hdrControl h)
def hdrLaunch (h : List Byte) : Nat := bits 10 9 (hdrControl h)
def hdrCopyStep (h : List Byte) : Bool := bit 11 (hdrControl h)
def hdrNotifyExhaust (h : List Byte) : Bool := bit 12 (hdrControl h)
def hdrHalt (h : List Byte) : Bool := bit 13 (hdrControl h)
def hdrErrorNotify (h : List Byte) : Bool := bit 14 (hdrControl h)
def hdrErrorConn (h : List Byte) : W32 := BitVec.ofNat 32 (field h 44 4)
def hdrTarget (h : List Byte) (k : Nat) : W32 := BitVec.ofNat 32 (field h (48 + 4 * k) 4)

/-- Whether an action's target exists for a tenant (R309, R312). -/
def State.targetOk (s : State) (tag : W16) (action : List Byte) (target : W32) : Bool :=
  if field action 0 1 = 0x20 then (s.connFor tag target).isSome
  else decide (target.toNat < 65536) && (s.jqFor tag target.toNat).isSome

/-- Reserved fields and "zero unless" fields of a trigger header (R8, R307, R308). -/
def headerReserved (h : List Byte) : Bool :=
  let c := hdrControl h
  field h 3 1 == 0 && bits 31 15 c == 0 && bits 6 3 c == 0 &&
    (hdrLaunch h != 0 || (field h 32 8 == 0 && field h 40 4 == 0)) && (hdrErrorNotify h || field h 44 4 == 0) &&
    ((List.range 4).all fun k => decide (k < hdrCount h) || field h (48 + 4 * k) 4 == 0)

/-- The checks of posting that look at the entry alone (R309): its header and its actions. `len` is the length of the
data that carries it where that must agree. -/
def checkEntry (b : List Byte) (len : Option Nat) : Res (List Byte × List (List Byte)) := do
  need (field b 0 1 == 0x14) St.badType
  need (field b 1 1 == 1) St.versionUnsupported
  let n := field b 2 1
  need (decide (2 ≤ n ∧ n ≤ 9) && (match len with | some l => l == n * 64 | none => true)) St.lengthRange
  let h := b.take 64
  need (headerReserved h) St.reservedNonzero
  need (hdrLaunch h != 3 && hdrStepMode h != 3) St.invalidMode
  let actions ← splitActions 8 ((b.take (n * 64)).drop 64)
  need (decide (1 ≤ hdrCount h ∧ hdrCount h ≤ 4) && hdrCount h == actions.length) St.lengthRange
  need (hdrLaunch h != 1 || hdrStepMode h == 1 || hdrStepMode h == 2) St.invalidMode
  need (!hdrErrorNotify h || hdrErrorConn h != 0) St.invalidMode
  need (hdrLaunch h == 0 || decide (1 ≤ field h 40 4 ∧ field h 40 4 ≤ 10000000)) St.lengthRange
  return (h, actions)

/-- Bytes that an entry takes of its list's store. -/
def TrigEntry.bytes (e : TrigEntry) : Nat := 64 + (e.actions.map List.length).sum

/-- Posts an entry to a list: its handle and the state, or the status that refuses it (R309). -/
def State.postEntry (s : State) (i : Nat) (l : TrigList) (b : List Byte) (len : Option Nat) : Res (W32 × State) := do
  let (h, actions) ← checkEntry b len
  need ((actions.zip (List.range 4)).all fun a => s.targetOk l.tenant a.1 (hdrTarget h a.2)) St.staleHandle
  need (!hdrErrorNotify h || (s.connFor l.tenant (hdrErrorConn h)).isSome) St.staleHandle
  let n := field b 2 1 * 64
  need (decide (l.storeUse + n ≤ l.store * slotBytes)) St.noResource
  match s.work.trigPool.take 1048576 with
  | none => .error St.noResource
  | some (x, p) =>
    let handle := trHandle (p.gen x) x
    let e : TrigEntry := { list := i, handle, header := h, actions, order := s.work.postOrder }
    return (handle, s.modWork fun w =>
      { w with trigPool := p, postOrder := w.postOrder + 1, entries := tset w.entries x e,
               lists := tset w.lists i { l with storeUse := l.storeUse + n } })

/-- Posts the posting-ring slots up to a tail, `fuel` of them, each with its result (R552). -/
def State.postRing : Nat → Nat → State → State
  | 0, _, s => s
  | fuel + 1, i, s =>
    match tget s.work.lists i with
    | none => s
    | some l =>
      let k := l.ringDone % l.ringDepth
      let phase : Byte := if l.ringDone / l.ringDepth % 2 = 0 then 1 else 0
      let (entry, st, s) := match if s.areaBad l.area (640 * k) 576 then .error St.internal else s.postEntry i l (s.mem.areaRead l.area (640 * k) 576) none with
        | .ok (h, s) => (h, St.ok, s)
        | .error st => (0, st, s)
      let s := { s with mem := s.mem.areaWrite l.area (640 * k + 576) (toLe 4 entry.toNat ++ toLe 2 st ++ [phase] ++ zeros 57) }
      let s := s.modWork fun w => { w with lists := tmod w.lists i fun l => { l with ringDone := l.ringDone + 1 } }
      let s := if st = St.ok then s else s.raise Ev.triggerPostRefused (.tenant l.tenant) [i, k, st]
      postRing fuel i s

/-! ## Staging (R312) -/

/-- Whether a job, a queued action or a held action still needs the QUERY payload of a firing. -/
def State.firingHeld (s : State) (firing : Nat) : Bool :=
  (s.work.jobs.any fun j => match j.2.staging with | some (_, _, f) => f == firing | none => false) ||
  (s.work.jqs.any fun q => q.2.entries.any fun e => match e.query with | some x => x.firing == firing | none => false) ||
  (s.work.hold.any fun a => match a.query with | some x => x.firing == firing | none => false)

/-- The last of a destroyed list: its STAGING is freed when nothing reads it any more (R407). -/
def State.endList (s : State) (i : Nat) : State :=
  match tget s.work.lists i with
  | some l =>
    if l.destroyed ∧ l.stagingUse = 0 then
      ((s.giveSlots l.stagingSlabs).credit l.tenant qDram l.stagingSlabs.length).modWork fun w => { w with lists := tdel w.lists i }
    else s
  | none => s

/-- Gives back the STAGING space of a firing when nothing holds it any more (R312). -/
def State.releaseStaging (s : State) (list space firing : Nat) : State :=
  if s.firingHeld firing then s
  else (s.modWork fun w => { w with lists := tmod w.lists list fun l => { l with stagingUse := l.stagingUse - space } }).endList list

/-- Releases what a query context holds. -/
def State.releaseQuery (s : State) (q : Option QueryCtx) : State :=
  match q with
  | some x => s.releaseStaging x.list x.space x.firing
  | none => s

/-! ## Completions of actions -/

/-- KIND of a completion by descriptor TYPE (R303, R320). -/
def kindOf (ty : Nat) (send : Bool) : Nat :=
  if send then 4 else if ty = 0x11 then 2 else if ty = 0x12 then 3 else 1

/-- A completion for an action that never ran, in its target queue, with its own tag and KIND (R317). -/
def State.refuseAction (s : State) (action : List Byte) (target : W32) (trig : Option TrigRef) (st : Nat) : State :=
  let ty := field action 0 1
  let e : Cqe := { tag := BitVec.ofNat 64 (field action 8 8), status := st, kind := kindOf ty (ty == 0x20) }
  if ty = 0x20 then
    match tget s.flyer.conns (rcIndex target) with
    | some c => if c.handle == target then s.doneSq (rcIndex target) trig true e else s
    | none => s
  else if thas s.work.jqs target.toNat then s.doneJq target.toNat trig e else s

/-- How the failure of an action of an entry travels (R322). -/
def trigRef (handle : W32) (list : Nat) (h : List Byte) : TrigRef :=
  { entry := handle, list, errConn := if hdrErrorNotify h then some (hdrErrorConn h) else none, halt := hdrHalt h }

/-! ## Removal (R316, R317) -/

/-- Frees an entry: its index takes its next generation and its store space is released. -/
def State.freeEntry (s : State) (x : Nat) (e : TrigEntry) : State :=
  s.modWork fun w =>
    { w with entries := tdel w.entries x, trigPool := (w.trigPool.bump 4095 x).put x,
             lists := tmod w.lists e.list fun l => { l with storeUse := l.storeUse - e.bytes } }

/-- A job queue is destroyed: entries and held actions that target it keep no hold of a later queue of its index (R312, R315,
R317). -/
def State.forgetJq (s : State) (q : Nat) : State :=
  let lost := fun (e : TrigEntry) => (List.range e.actions.length).filter fun k =>
    field (e.actions.getD k []) 0 1 != 0x20 && hdrTarget e.header k == BitVec.ofNat 32 q
  s.modWork fun w =>
    { w with entries := w.entries.map fun (e : Nat × TrigEntry) => (e.1, { e.2 with gone := (e.2.gone ++ lost e.2).eraseDups })
             hold := w.hold.map fun a => if field a.bytes 0 1 ≠ 0x20 ∧ a.target = BitVec.ofNat 32 q then { a with gone := true } else a }

/-- Removes a completion queue; held actions no longer name it (R315). -/
def State.dropCq (s : State) (i : Nat) : State :=
  s.modWork fun w => { w with cqs := tdel w.cqs i, hold := w.hold.map fun a => if a.cq = i then { a with cq := 65536 } else a }

/-- Removes an entry: its actions and its held actions complete with a status (R317). -/
def State.removeEntry (s : State) (x st : Nat) : State :=
  match tget s.work.entries x with
  | none => s
  | some e =>
    let s := s.freeEntry x e
    let s := (e.actions.zip (List.range 4)).foldl (fun s a =>
      if e.gone.contains a.2 then s else s.refuseAction a.1 (hdrTarget e.header a.2) none st) s
    let held := s.work.hold.filter fun a => a.entry == e.handle
    let s := s.modWork fun w => { w with hold := w.hold.filter fun a => a.entry != e.handle }
    held.foldl (fun s a => (if a.gone then s else s.refuseAction a.bytes a.target (some a.trig) st).releaseQuery a.query) s

/-- Removes every entry whose SKEIN names a skein (R317). -/
def State.removeSkeinEntries (s : State) (h : W32) (st : Nat) : State :=
  (s.work.entries.filter fun e => field e.2.header 8 4 == h.toNat).foldl (fun s e => s.removeEntry e.1 st) s

/-- TRIGGER_LIST_DESTROY and teardown: every entry is removed, the posting ring and the store are freed (R317, R407). -/
def State.destroyList (s : State) (i : Nat) : State :=
  let s := (s.work.entries.filter fun e => e.2.list == i).foldl (fun s e => s.removeEntry e.1 St.cancelled) s
  match tget s.work.lists i with
  | none => s
  | some l =>
    let s := (s.dropArea l.area).giveSlots l.storeSlabs
    let s := s.credit l.tenant qDram (l.area.length + l.storeSlabs.length)
    (s.modWork fun w => { w with lists := tset w.lists i { l with destroyed := true, area := [], storeSlabs := [] } }).endList i

/-! ## Matching and firing (R310–R315) -/

/-- What a QUERY says (R289). -/
structure Query where
  skein : Nat
  layer : Nat
  hg : Nat
  rows : Nat
  step : W64
  slub : Nat
  bf16 : Bool
  elements : Nat
  tag : Nat
  data : List Byte

/-- Whether an entry matches a QUERY, its state aside (R310). -/
def TrigEntry.hits (e : TrigEntry) (q : Query) : Bool :=
  let h := e.header
  let base := BitVec.ofNat 64 (field h 16 8)
  field h 8 4 == q.skein && field h 12 1 == q.layer && field h 13 1 == q.hg &&
    (q.tag ^^^ field h 24 4) &&& field h 28 4 == 0 &&
    (if hdrStepMode h = 0 then true else if hdrStepMode h = 1 then q.step == base
     else q.step == base + BitVec.ofNat 64 e.fired)

/-- The matching entry that was posted earliest among those a test admits. -/
def State.earliest (s : State) (tag : W16) (q : Query) (p : TrigEntry → Bool) : Option (Nat × TrigEntry) :=
  let mine := s.work.entries.filter fun e =>
    p e.2 && e.2.hits q && (match tget s.work.lists e.2.list with | some l => l.tenant == tag | none => false)
  mine.foldl (fun (a : Option (Nat × TrigEntry)) e => match a with
    | none => some e
    | some b => if e.2.order < b.2.order then some e else some b) none

/-- Lc of R314: the launch count of a firing now. -/
def launchCount (h : List Byte) (step now : W64) : Option W64 :=
  let base := BitVec.ofNat 64 (field h 32 8)
  let period := field h 40 4
  if hdrLaunch h = 1 then some (base + (step - BitVec.ofNat 64 (field h 16 8)) * BitVec.ofNat 64 period)
  else if hdrLaunch h = 2 then
    some (if now ≤ base then base
          else base + BitVec.ofNat 64 ((((now - base).toNat + period - 1) / period) * period))
  else none

/-- Whether a job action takes its rows from the QUERY: QUERY_SOURCE 0 (R122). -/
def needsQuery (action : List Byte) : Bool := field action 0 1 == 0x10 && !bit 22 (field action 4 4)

/-- Overwrites bytes of a descriptor. -/
def patch (bs : List Byte) (off : Nat) (new : List Byte) : List Byte := bs.take off ++ new ++ bs.drop (off + new.length)

/-- The copy of an action that a firing delivers: STEP under COPY_STEP and LAUNCH_COUNT (R313, R314). -/
def substitute (h : List Byte) (step : W64) (lc : Option W64) (action : List Byte) : List Byte :=
  let ty := field action 0 1
  let a := if hdrCopyStep h ∧ (ty = 0x10 ∨ ty = 0x11) then patch action 16 (toLe 8 step.toNat) else action
  match lc with
  | some n => if ty = 0x10 then patch a 24 (toLe 8 n.toNat) else a
  | none => a

/-- Free slots of an action's target queue. -/
def State.targetRoom (s : State) (action : List Byte) (target : W32) : Nat :=
  if field action 0 1 = 0x20 then
    match tget s.flyer.conns (rcIndex target) with
    | some c => c.sqDepth - c.sq.length
    | none => 0
  else match tget s.work.jqs target.toNat with
    | some j => j.depth - j.entries.length
    | none => 0

/-- Delivers an action to the tail of its target queue. -/
def State.deliver (s : State) (action : List Byte) (target : W32) (q : Option QueryCtx) (t : TrigRef) : State :=
  let e : QEntry := { bytes := action, query := q, trig := some t }
  if field action 0 1 = 0x20 then
    s.modFlyer fun f => { f with conns := tmod f.conns (rcIndex target) fun c => { c with sq := c.sq ++ [e] } }
  else s.modWork fun w => { w with jqs := tmod w.jqs target.toNat fun j => { j with entries := j.entries ++ [e] } }

/-- The completion queue that a target is bound to. -/
def State.targetCq (s : State) (action : List Byte) (target : W32) : Nat :=
  if field action 0 1 = 0x20 then
    match tget s.flyer.conns (rcIndex target) with
    | some c => c.cq
    | none => 65536
  else match tget s.work.jqs target.toNat with
    | some j => j.cq
    | none => 65536

/-- Actions that the timed hold takes (R315). -/
def holdSlots : Nat := 4096

/-- One firing of an entry for a QUERY whose payload takes `space` bytes: the status of the QUERY, and whether the
payload passed to STAGING (R312). -/
def State.fire (s : State) (tag : W16) (x : Nat) (e : TrigEntry) (q : Query) (space : Nat) : Nat × Bool × State :=
  let h := e.header
  let acts := e.actions.zip ((List.range 4).map (hdrTarget h))
  match tget s.work.lists e.list with
  | none => (St.staleHandle, false, s.haltEntry x)
  | some l =>
    if !e.gone.isEmpty || !(acts.all fun a => s.targetOk tag a.1 a.2) then (St.staleHandle, false, s.haltEntry x)
    else
      let lc := launchCount h q.step s.time.now
      let future : Bool := match lc with
        | some n => decide (s.time.now < n)
        | none => false
      let holds := if future then (e.actions.filter fun a => field a 0 1 != 0x10).length else 0
      let uses := e.actions.any needsQuery
      let full := acts.any fun a => decide (s.targetRoom a.1 a.2 < (acts.filter fun b => b.2 == a.2 && (field b.1 0 1 == 0x20) == (field a.1 0 1 == 0x20)).length)
      let noHold := decide (s.work.hold.length + holds > holdSlots)
      let noStaging := uses && decide (l.stagingUse + space > l.staging * slotBytes)
      if full || noHold || noStaging then
        let s := if noStaging then s.setFlag Flag.trigStagingFull else s
        (St.noResource, false, if noHold then s.setFlag Flag.trigHoldFull else s)
      else
        let firing := s.work.firing
        let ctx : QueryCtx := { rows := q.rows, slub := q.slub, bf16 := q.bf16, elements := q.elements, data := q.data,
                                list := e.list, space, firing }
        let t := trigRef e.handle e.list h
        let s := s.modWork fun w =>
          { w with firing := firing + 1
                   lists := if uses then tset w.lists e.list { l with stagingUse := l.stagingUse + space } else w.lists
                   entries := tset w.entries x { e with fired := e.fired + 1 } }
        let s := acts.foldl (fun s a =>
          let b := substitute h q.step lc a.1
          let ctx := if needsQuery a.1 then some ctx else none
          match lc with
          | some due =>
            if future ∧ field a.1 0 1 ≠ 0x10 then
              s.modWork fun w => { w with hold := w.hold ++ [{ entry := e.handle, list := e.list, firing, bytes := b, target := a.2,
                                                               due, query := ctx, trig := t, cq := s.targetCq a.1 a.2, tenant := tag }] }
            else s.deliver b a.2 ctx t
          | none => s.deliver b a.2 ctx t) s
        let firings := field h 14 2
        let s := if firings ≠ 0 ∧ e.fired + 1 ≥ firings then
            let s := s.freeEntry x e
            if hdrNotifyExhaust h then s.raise Ev.triggerExhausted (.tenant tag) [e.handle.toNat, e.list] else s
          else s
        (St.ok, uses, s)

/-- A QUERY offered to the trigger lists of its tenant: its status, whether the payload passed to STAGING (R310, R312). -/
def State.offer (s : State) (tag : W16) (q : Query) (space : Nat) : Nat × Bool × State :=
  match s.earliest tag q (fun e => !e.halted) with
  | some (x, e) => s.fire tag x e q space
  | none =>
    match s.earliest tag q (fun e => e.halted) with
    | some _ => (St.triggerHalted, false, s)
    | none => (St.noMatch, false, s.setFlag Flag.trigNoMatch)

end Sys2Proof.Machine
end

