-- ==== Sys2Proof/Machine/Skeins.lean ====
section
/-!
DEFINITION. Skeins: handles (R24), rows and lengths (R27), page tables and their charge (R33, R35), translation (R46),
loss (R41, R42), moves between slots and tiers (R48–R50), states (R30), destruction and release (R51).
-/
namespace Sys2Proof.Machine

def State.modStore (s : State) (f : Store → Store) : State := { s with store := f s.store }
def State.setSkein (s : State) (idx : Nat) (k : Skein) : State :=
  { s with store := { s.store with skeins := tset s.store.skeins idx k } }
def State.modSkein (s : State) (idx : Nat) (f : Skein → Skein) : State :=
  { s with store := { s.store with skeins := tmod s.store.skeins idx f } }
def State.skein? (s : State) (idx : Nat) : Option Skein := tget s.store.skeins idx

/-- The skein that a handle names for a tenant; none where R24 gives ST_STALE_HANDLE. -/
def State.skeinFor (s : State) (tag : W16) (h : W32) : Option Skein :=
  match s.skein? (skIndex h) with
  | some k => if k.handle == h && k.state != .retiring && k.tenant == tag && decide (skGen h ≠ 0) then some k else none
  | none => none

def State.skeinOf (s : State) (tag : W16) (h : W32) : Res Skein :=
  match s.skeinFor tag h with
  | some k => .ok k
  | none => .error St.staleHandle

/-! ## Rows (R27) -/

/-- The leaves of a row, ascending. -/
def Skein.rowLeaves (k : Skein) (row : Nat) : List (Nat × Leaf) := k.leaves.filter fun e => keyRow e.1 == row

/-- The tail bobbin of a row and its leaf. -/
def Skein.tail (k : Skein) (row : Nat) : Option (Nat × Leaf) :=
  match (k.rowLeaves row).getLast? with
  | some e => some (keyBob e.1, e.2)
  | none => none

/-- A row's length: (tail bobbin index × C) + the tail's TOKEN_COUNT (R27). -/
def Skein.rowLength (k : Skein) (row : Nat) : Nat :=
  match k.tail row with
  | some (b, l) => b * k.cap + l.count
  | none => 0

/-- Rows of a skein, layer-major. -/
def Skein.rows (k : Skein) : List Nat :=
  (List.range k.layers).flatMap fun l => (List.range k.heads).map fun h => rowKey l h

/-- Bobbins at one tier. -/
def Skein.atTier (k : Skein) (t : Nat) : Nat := (k.leaves.filter fun e => e.2.tier == t).length

/-- STATE from the leaves: DOFFED when there are bobbins and none is at tier 0 or 1 (R30). -/
def Skein.restate (k : Skein) : Skein :=
  if k.state = .retiring then k
  else { k with state := if !k.leaves.isEmpty && k.leaves.all (fun e => decide (e.2.tier ≥ 2)) then .doffed else .active }

/-- RESIDENCY of R356: the highest code that applies. -/
def Skein.residency (k : Skein) : Nat :=
  if k.leaves.isEmpty then 0
  else if k.leaves.all fun e => e.2.tier == 3 then 5
  else if k.leaves.any fun e => e.2.tier == 3 || e.2.check == .damaged then 4
  else if k.leaves.all fun e => e.2.tier == 2 then 3
  else if k.leaves.any fun e => e.2.tier == 2 then 2
  else 1

/-! ## Page tables (R33, R35) -/

/-- The tables that a leaf needs beneath the root. -/
def tablesFor (key : Nat) : List Nat :=
  [2 * 2 ^ 32 + keyLayer key, 3 * 2 ^ 32 + keyRow key, 4 * 2 ^ 32 + key / 256]

/-- The tables that a list of leaves needs and the skein lacks. -/
def Skein.newTables (k : Skein) (keys : List Nat) : List Nat :=
  ((keys.flatMap tablesFor).eraseDups).filter fun t => !k.tables.contains t

/-- Bobbins charged for a number of tables (R35). -/
def tableCharge (n : Nat) : Nat := (n + 31) / 32

/-- The slabs that new tables add (R35). -/
def Skein.tableSlabsNeeded (k : Skein) (new : Nat) : Nat := tableCharge (k.tables.length + new) - k.tableSlabs.length

/-- Makes tables with the slabs already taken (R33). -/
def Skein.addTables (k : Skein) (new : List Nat) (slabs : Area) : Skein :=
  { k with tables := k.tables ++ new, tableSlabs := k.tableSlabs ++ slabs }

/-- The module physical address of a table: its slab, and its place among the 32 tables of the slab (log 73). -/
def Skein.tableAt (k : Skein) (t : Nat) : Option Nat :=
  (k.tables.findIdx? (· == t)).bind fun i => (k.tableSlabs[i / 32]?).map fun p => slotAddr 1 p + i % 32 * 2048

/-- The table that entry `e` of a table of level 1 to 3 names (R33). -/
def tableBelow (t e : Nat) : Nat :=
  let level := t / 2 ^ 32
  let first := t % 2 ^ 32
  if level = 0 then 2 * 2 ^ 32 + e else if level = 2 then 3 * 2 ^ 32 + rowKey first e else 4 * 2 ^ 32 + (first * 256 + e)

/-- The 64 bits of a directory entry: NEXT_TABLE and VALID where the next-level table exists, else zero (R36). -/
def Skein.dirWord (k : Skein) (t e : Nat) : Nat := match k.tableAt (tableBelow t e) with
  | some a => a / 2048 * 2048 + 1
  | none => 0

/-! ## Translation (R46) -/

/-- How a translation ends. -/
inductive Xlate where
  | ok (l : Leaf)
  | notPresent
  | reload (l : Leaf)
  | recompute (l : Leaf)
deriving DecidableEq, Repr

/-- The translation of a leaf for a read (R40, R46). -/
def Skein.xlate (k : Skein) (key : Nat) : Xlate :=
  match tget k.leaves key with
  | none => .notPresent
  | some l =>
    if l.check = .damaged ∨ l.tier = 3 then .recompute l
    else if l.tier = 2 then .reload l
    else .ok l

/-! ## Reel coverage (R466) -/

/-- Whether the reel holds every index of a range. -/
def Skein.reelCovers (k : Skein) (first last : Nat) : Bool :=
  (List.range (last - first)).all fun i => thas k.reel (first + i)

/-! ## Epochs and slots (R48) -/

/-- Leaves a slot: the epoch advances, and the slot is freed once every holder of a translation to it has retired (R48).
Nothing translates to a creel slot, which is freed at once (R40, R241). `owner` is the retiring skein that waits for it. -/
def State.leaveSlot (s : State) (tier pbn owner : Nat) : State :=
  if tier ≥ 3 then s
  else if tier = 2 then (s.giveCreel pbn).modStore fun t => { t with epoch := t.epoch + 1 }
  else s.modStore fun t => { t with epoch := t.epoch + 1, pendingFree := t.pendingFree ++ [(tier, pbn, t.epoch + 1, owner)] }

/-- Whether every live holder of translations is as recent as an epoch (R47, R48): a job not yet admitted and a COMPACT,
which translates bobbin by bobbin, hold none. -/
def State.holdersPast (s : State) (epoch : Nat) : Bool :=
  s.work.jobs.all fun j => decide (j.2.epoch ≥ epoch) || j.2.phase.unadmitted || j.2.phase == .compacting

/-- Frees a slot that no holder names any more (R48). -/
def State.freePending (s : State) (tier pbn : Nat) : State :=
  match s.store.pendingFree.find? fun p => p.1 == tier && p.2.1 == pbn with
  | none => s
  | some p =>
    if s.holdersPast p.2.2.1 then
      let s := s.modStore fun t =>
        { t with pendingFree := t.pendingFree.erase p, sramUsed := if tier = 0 then t.sramUsed.filter (· != pbn) else t.sramUsed }
      if tier = 1 then s.giveSlots [pbn] else s
    else s

def State.chargeTier (s : State) (tag : W16) (tier : Nat) : State := s.charge tag (tierQuota tier).1 (tierQuota tier).2
def State.creditTier (s : State) (tag : W16) (tier : Nat) : State :=
  if tier ≥ 3 then s else s.credit tag (tierQuota tier).1 (tierQuota tier).2

/-! ## Events of loss (R42, R76) -/

/-- BOBBIN_DAMAGED: the bobbin, its token range, and whether the reel covers it (R42, R76). -/
def State.raiseDamaged (s : State) (k : Skein) (key : Nat) (l : Leaf) : State :=
  let first := keyBob key * k.cap
  s.raise Ev.bobbinDamaged (.tenant k.tenant)
    [k.handle.toNat, keyLayer key, keyHg key, keyBob key, first, first + l.count,
     if k.reelCovers first (first + l.count) then 1 else 0]

/-- The prefix table without the entries of one run; nothing shifts (R212). -/
def dropRun (t : Table PEntry) (h : W32) : Table PEntry := t.filter fun e => e.2.run != h

/-- An insertion whose entry is dropped. -/
def PInsert.emptied (i : PInsert) : PInsert := { i with entry := none }

/-- Marks the runs and the other skeins that map a locked bobbin: the run is DAMAGED and its prefix entries are removed
(R204). -/
def State.damageRuns (s : State) (tier pbn : Nat) : State :=
  let hit := s.pfx.runs.filter fun r => r.2.leaves.any fun e => e.2.tier == tier && e.2.pbn == pbn
  hit.foldl (fun s r =>
    if r.2.damaged then s else
    let s := { s with pfx := { s.pfx with
      runs := tmod s.pfx.runs r.1 fun x =>
        { x with damaged := true,
                 leaves := x.leaves.map fun (e : Nat × Leaf) => if e.2.tier == tier && e.2.pbn == pbn then (e.1, { e.2 with check := .damaged }) else e }
      entries := dropRun s.pfx.entries r.2.handle
      shadow := dropRun s.pfx.shadow r.2.handle
      inserts := s.pfx.inserts.map fun (i : PInsert) => if i.entry.any (fun (e : PEntry) => e.run == r.2.handle) then i.emptied else i } }
    let n := r.2.entries
    let s := { s with pfx := { s.pfx with runs := tmod s.pfx.runs r.1 fun x => { x with entries := 0 } } }
    (s.credit r.2.tenant qPrefix n).raise Ev.runDamaged (.tenant r.2.tenant) [r.2.handle.toNat]) s

/-- Milliseconds within which firmware demotes a DAMAGED bobbin (R42), in nanoseconds. -/
def demoteBound : Nat := 100000000

/-- CHECK_STATE DAMAGED in one leaf entry. -/
def Skein.spoil (k : Skein) (key : Nat) : Skein := { k with leaves := tmod k.leaves key fun l => { l with check := .damaged } }

/-- A failed check value or a lost line: CHECK_STATE DAMAGED, the event, and a demotion that firmware owes (R42). -/
def State.damage (s : State) (idx key : Nat) : State :=
  match s.skein? idx with
  | none => s
  | some k =>
    match tget k.leaves key with
    | none => s
    | some l =>
      if l.check = .damaged then s
      else
        let s := (s.setSkein idx (k.spoil key)).raiseDamaged k key l
        let s := if l.lock then s.damageRuns l.tier l.pbn else s
        s.modStore fun t => { t with damaged := t.damaged ++ [(idx, key, s.time.localNow + demoteBound)] }

/-- One BOBBIN_DAMAGED event for several bobbins of a skein: the first of them, the token range that spans them all, and
whether the reel covers it (R42, R76). -/
def State.raiseLost (s : State) (k : Skein) (keys : List Nat) : State :=
  match keys with
  | [] => s
  | key :: _ =>
    let low := keys.map fun x => keyBob x * k.cap
    let top := keys.map fun x => keyBob x * k.cap + ((tget k.leaves x).map fun (l : Leaf) => l.count).getD 0
    let first := low.foldl min (keyBob key * k.cap)
    let last := top.foldl max 0
    s.raise Ev.bobbinDamaged (.tenant k.tenant)
      [k.handle.toNat, keyLayer key, keyHg key, keyBob key, first, last, if k.reelCovers first last then 1 else 0]

/-! ## Moves (R49, R50, R224) -/

/-- Takes a free slot of the residence pool (R217, R218). -/
def State.takeSram (s : State) : Option (Nat × State) :=
  let base := 5120 + s.cfg.tableSlots
  match (List.range (960 - s.cfg.tableSlots)).find? fun i => !s.store.sramUsed.contains (base + i) with
  | some i => some (base + i, { s with store := { s.store with sramUsed := (base + i) :: s.store.sramUsed },
                                       mem := s.mem.clear (slotAddr 0 (base + i)) slotBytes })
  | none => none

/-- A slot of one channel group where one is free, else any (R171). -/
def State.takeSlotNear (s : State) (group : Nat) : Option (Nat × State) :=
  let each := s.openSlots / 64
  let (start, s1) := s.free each
  let tries := (List.range (min each (s.store.dramUsed.length + 1))).map fun i => poolBase + 64 * ((start + i) % each) + group
  match tries.find? s1.slotFree with
  | some p => some (p, ({ s1 with store := { s1.store with dramUsed := p :: s1.store.dramUsed } }.zeroSlot 1 p).noteLow s1.belowLow)
  | none => s.takeSlot

/-- A free slot of a tier for a bobbin that stands elsewhere (R171). -/
def State.takeTier (s : State) (tier : Nat) (l : Leaf) : Option (Nat × State) :=
  if tier = 0 then s.takeSram
  else if tier = 1 then (if l.tier = 1 then s.takeSlotNear (groupOf l.pbn) else s.takeSlot)
  else s.takeCreel

/-- Steps 1 and 2 of a move: the destination slot and, where the tier changes, its charge, then MOVE = 1 (R50, R224). -/
def State.startMove (s : State) (idx key dstTier : Nat) (newFormat : Option Nat) (why : MoveFor) : Option State := do
  let k ← s.skein? idx
  let l ← tget k.leaves key
  let (pbn, s1) ← s.takeTier dstTier l
  let s2 := if l.tier = dstTier then s1 else s1.chargeTier k.tenant dstTier
  let s3 := s2.setSkein idx { k with leaves := tset k.leaves key { l with move := true } }
  return s3.modStore fun t =>
    { t with moves := t.moves ++ [(t.nextMove, { skein := idx, key, srcTier := l.tier, srcPbn := l.pbn, dstTier, dstPbn := pbn,
                                                 newFormat, why })], nextMove := t.nextMove + 1 }

/-- The copy of step 3: the bytes, re-encoded where the move compacts, with check words computed over unsealed leas
(R50, R61, R73). -/
def copyBobbin (m : Mem) (k : Skein) (mv : Move) (l : Leaf) : Mem :=
  let src := slotAddr mv.srcTier mv.srcPbn
  let dst := slotAddr mv.dstTier mv.dstPbn
  let layer := keyLayer mv.key
  let hg := keyHg mv.key
  let bob := keyBob mv.key
  match mv.newFormat with
  | some f =>
    let m := reencode m src dst k.elements l.format f k.cap l.count (slubList m src)
    (List.range 4).foldl (fun m lea => sealLea m dst layer hg bob lea) m
  | none =>
    let m := m.copy src dst slotBytes
    (List.range 4).foldl (fun m lea => if lea < sealedLeas k.cap l then m else sealLea m dst layer hg bob lea) m

/-- Whether the source of a move passes the checks that step 3 makes (R50, R74); every lea of a creel copy carries
check words (R73), and a re-encoding decodes every value (R57). -/
def moveSourceOk (m : Mem) (k : Skein) (mv : Move) (l : Leaf) : Bool :=
  let leas := if mv.srcTier = 2 then 4 else sealedLeas k.cap l
  let src := slotAddr mv.srcTier mv.srcPbn
  ((List.range leas).all fun lea => leaOk m src (keyLayer mv.key) (keyHg mv.key) (keyBob mv.key) lea) &&
    (mv.newFormat.isNone || (List.range l.count).all fun i => (tokenValues m src k.elements l.format k.cap (slubList m src) i).isSome)

/-- Steps 4 and 6: PBN, TIER and MOVE in one write, the epoch advances, the source is left, and credited where the tier
changes (R50, R224). -/
def State.commitEntry (s : State) (id : Nat) (mv : Move) : State :=
  match s.skein? mv.skein with
  | none => s
  | some k =>
    match tget k.leaves mv.key with
    | none => s
    | some l =>
      let mem := copyBobbin s.mem k mv l
      let l1 := { l with pbn := mv.dstPbn, tier := mv.dstTier, move := false,
                         format := match mv.newFormat with | some f => f | none => l.format }
      let k1 := ({ k with leaves := tset k.leaves mv.key l1 }).restate
      let s := ({ s with mem }).setSkein mv.skein k1
      let s := s.modStore fun t => { t with moves := tdel t.moves id }
      let s := s.leaveSlot mv.srcTier mv.srcPbn mv.skein
      if mv.srcTier = mv.dstTier then s else s.creditTier k.tenant mv.srcTier

/-- A move abandoned: MOVE cleared, the destination given back and credited (R50, R224). -/
def State.abandonEntry (s : State) (id : Nat) (mv : Move) : State :=
  let s := s.modStore fun t => { t with moves := tdel t.moves id }
  let tag := match s.skein? mv.skein with
    | some k => k.tenant
    | none => 0
  let s := s.modSkein mv.skein fun k => { k with leaves := tmod k.leaves mv.key fun l => { l with move := false } }
  let s := if mv.dstTier = 1 then s.giveSlots [mv.dstPbn] else if mv.dstTier = 2 then s.giveCreel mv.dstPbn
           else s.modStore fun t => { t with sramUsed := t.sramUsed.filter (· != mv.dstPbn) }
  if mv.srcTier = mv.dstTier then s else s.creditTier tag mv.dstTier

/-- Demotion of a bobbin to recompute-only: tier 3, PBN 0, its storage released and its charge credited (R41). -/
def State.demote (s : State) (idx key : Nat) : State :=
  match s.skein? idx with
  | none => s
  | some k =>
    match tget k.leaves key with
    | none => s
    | some l =>
      if l.tier = 3 then s
      else
        let s := (s.store.moves.filter fun m => m.2.skein == idx && m.2.key == key).foldl (fun s m => s.abandonEntry m.1 m.2) s
        let k1 := ({ k with leaves := tset k.leaves key { l with tier := 3, pbn := 0, move := false }
                            sketches := k.sketches.filter fun e => e.1 / 16 != key }).restate
        let s := s.setSkein idx k1
        let s := s.modStore fun t =>
          { t with damaged := t.damaged.filter fun d => !(d.1 == idx && d.2.1 == key) }
        if l.lock then s else (s.leaveSlot l.tier l.pbn idx).creditTier k.tenant l.tier

/-- An uncorrectable error in a page table: the bobbins of the leaf entries beneath it are lost and demoted, and one event
reports them all (R42). -/
def State.losePages (s : State) (idx : Nat) (k : Skein) (keys : List Nat) : State :=
  let lost := keys.filter fun key => match tget k.leaves key with
    | some l => l.check != .damaged && l.tier != 3
    | none => false
  let s := lost.foldl (fun s key =>
    let s := s.modSkein idx fun k => k.spoil key
    match tget k.leaves key with
    | some l => if l.lock then s.damageRuns l.tier l.pbn else s
    | none => s) s
  lost.foldl (fun s key => s.demote idx key) (s.raiseLost k lost)

/-! ## Reel and history slabs (R142, R464) -/

/-- Token indices of one reel slab (R464). -/
def reelSlabTokens : Nat := 15360

/-- Frees reel slabs older than the newest two whose entries are in the creel (R464). -/
def State.trimReel (s : State) (k : Skein) : State × Skein :=
  match k.reelSlabs.getLast? with
  | none => (s, k)
  | some top =>
    let old := k.reelSlabs.filter fun e => decide (e.1 + 1 < top.1 ∧ (e.1 + 1) * reelSlabTokens ≤ k.persisted)
    ((s.giveSlots (old.map (·.2))).credit k.tenant qDram old.length,
      { k with reelSlabs := k.reelSlabs.filter fun e => !(old.map (·.1)).contains e.1 })

/-- Writes a skein's reel tail to the creel and frees what it may (R464, R465). -/
def State.persistTail (s : State) (idx : Nat) : State :=
  match s.skein? idx with
  | none => s
  | some k =>
    let (s, k) := s.persistReel idx k
    let (s, k) := s.trimReel k
    s.setSkein idx k

/-- Bytes of a skein's unpersisted reel tail, headers of its slabs included (R249). -/
def Skein.tailBytes (k : Skein) : Nat :=
  let n := (k.reel.filter fun e => decide (e.1 ≥ k.persisted)).length
  if n = 0 then 0 else 4 * n + 64 * ((n + reelSlabTokens - 1) / reelSlabTokens)

/-- Unpersisted reel tails of the module in bytes (R249). -/
def State.tailTotal (s : State) : Nat := (s.store.skeins.map fun k => k.2.tailBytes).sum

/-- Writes the largest tails until the total is below 192 MiB, `fuel` of them at most (R249). -/
def State.shedTails : Nat → State → State
  | 0, s => s
  | fuel + 1, s =>
    if s.tailTotal < 192 * 2 ^ 20 ∨ !s.creelTakesReels then s else
    let big := s.store.skeins.foldl (fun (a : Option (Nat × Nat)) k => match a with
      | none => some (k.1, k.2.tailBytes)
      | some b => if k.2.tailBytes > b.2 then some (k.1, k.2.tailBytes) else some b) none
    match big with
    | some (i, n) => if n = 0 then s else shedTails fuel (s.persistTail i)
    | none => s

/-- Bytes that unpersisted reel tails may reach (R249). -/
def tailLimit : Nat := 256 * 2 ^ 20

/-- REEL_TAIL_PERSIST: at 256 MiB the largest tails are written first (R249). -/
def State.checkTails (s : State) : State := if s.tailTotal ≥ tailLimit then s.shedTails s.store.skeins.length else s

/-- Unpersisted bytes once a skein's reel has grown. -/
def State.tailAfter (s : State) (k grown : Skein) : Nat := s.tailTotal - k.tailBytes + grown.tailBytes

/-- Whether a skein's reel may grow so: the creel takes tails, or they stay within the limit in DRAM (R249, R252). -/
def State.tailRoom (s : State) (k grown : Skein) : Bool :=
  s.creelTakesReels || decide (s.tailTotal < tailLimit ∧ s.tailAfter k grown ≤ tailLimit)

/-- Writes the largest tails before one would take the total past the limit (R249). -/
def State.shedFor (s : State) (k grown : Skein) : State :=
  if s.tailAfter k grown > tailLimit then s.shedTails s.store.skeins.length else s

/-! ## Destruction and release (R51) -/

/-- Drops a skein's cached plies (R146). -/
def State.dropCache (s : State) (h : W32) : State :=
  { s with work := { s.work with cache := s.work.cache.filter fun c => !c.skeins.contains h } }

/-- Releases every bobbin of a skein that it owns; run bobbins are only unmapped (R51, R203). -/
def State.releaseBobbins (s : State) (idx : Nat) (k : Skein) : State :=
  k.leaves.foldl (fun s e =>
    if e.2.lock || decide (e.2.tier = 3) then s
    else (s.leaveSlot e.2.tier e.2.pbn idx).creditTier k.tenant e.2.tier) s

/-- SKEIN_DESTROY (R23, R51): the generation steps at once, moves are abandoned, every copy is released. Commands that
wait and runs that lose a reference are the caller's. -/
def State.destroySkein (s : State) (idx : Nat) : State :=
  match s.skein? idx with
  | none => s
  | some k =>
    let s := (s.store.moves.filter fun m => m.2.skein == idx).foldl (fun s m => s.abandonEntry m.1 m.2) s
    let k := (s.skein? idx).getD k
    let s := s.tombstone idx k.tenant
    let s := s.releaseBobbins idx k
    let s := (s.dropCache k.handle).removeSkeinEntries k.handle St.cancelled
    let s := s.modStore fun t =>
      { t with skeinPool := t.skeinPool.bump 1023 idx, doffs := tdel t.doffs idx, reloads := tdel t.reloads idx,
               damaged := t.damaged.filter fun d => d.1 != idx,
               sketchQ := t.sketchQ.filter fun q => q.2.skein != idx }
    s.setSkein idx { k with state := .retiring, leaves := [], sketches := [], run := none }

/-- The end of retirement: page tables, reel and history are released and credited, and the index is FREE (R35, R51). -/
def State.endRetirement (s : State) (idx : Nat) : State :=
  match s.skein? idx with
  | none => s
  | some k =>
    let slabs := k.tableSlabs ++ k.reelSlabs.map (·.2) ++ k.historySlabs.map (·.2)
    let s := (s.giveSlots slabs).credit k.tenant qDram slabs.length
    let s := (s.credit k.tenant qCreel k.reelCreelBobbins).credit k.tenant qSkein 1
    let s := (s.modCreel fun c => { c with reels := tdel c.reels idx, reelPages := c.reelPages.filter fun p => p.idx != idx }).reclaim
    s.modStore fun t => { t with skeins := tdel t.skeins idx, skeinPool := t.skeinPool.put idx }

/-! ## Leases (R148–R150) -/

def leaseEpoch (w : W64) : Nat := bits 63 32 w.toNat
def leaseOrphaned (w : W64) : Bool := bit 31 w.toNat
def leaseOwner (w : W64) : Nat := bits 30 0 w.toNat
def leaseWord (epoch : Nat) (orphaned : Bool) (owner : Nat) : W64 :=
  BitVec.ofNat 64 (epoch % 2 ^ 32 * 2 ^ 32 + (if orphaned then 2 ^ 31 else 0) + owner % 2 ^ 31)

/-- EXPIRY for a renewal or transfer now (R149). -/
def State.leaseEnd (s : State) (k : Skein) : W64 := s.time.now + BitVec.ofNat 64 (k.leaseMs * 1000000)

/-- Expiry of a lease whose time has come: ORPHANED and EPOCH + 1, and the event (R150). -/
def State.expireLease (s : State) (idx : Nat) : State :=
  match s.skein? idx with
  | none => s
  | some k =>
    if k.state ≠ .retiring ∧ leaseOwner k.lease ≠ 0 ∧ !leaseOrphaned k.lease ∧ k.expiry ≤ s.time.now then
      let w := leaseWord (leaseEpoch k.lease + 1) true (leaseOwner k.lease)
      (s.setSkein idx { k with lease := w, orphanUntil := some (s.time.localNow + s.cfg.orphanHold * 1000000) }).raise
        Ev.leaseOrphaned (.tenant k.tenant) [k.handle.toNat, leaseOwner k.lease, leaseEpoch w]
    else s

/-- A compare-and-swap on a lease word (R149): none where the first check refuses it; else the prior word, whether it
swapped, and the state. Expiry takes effect first (R150). -/
def State.swapLease (s : State) (idx : Nat) (cmp swp : W64) : Option (W64 × Bool × State) :=
  if leaseEpoch swp ≠ leaseEpoch cmp ∨ leaseOrphaned swp then none
  else
    let s := s.expireLease idx
    match s.skein? idx with
    | none => none
    | some k =>
      if k.lease ≠ cmp then some (k.lease, false, s)
      else if leaseOwner swp = leaseOwner k.lease ∧ !leaseOrphaned k.lease then
        some (k.lease, true, s.setSkein idx { k with expiry := s.leaseEnd k })
      else
        some (k.lease, true, s.setSkein idx
          { k with lease := leaseWord (leaseEpoch k.lease + 1) false (leaseOwner swp), expiry := s.leaseEnd k, orphanUntil := none })

/-- Whether a lease test fails: OWNER is set, and the epoch differs or the lease is ORPHANED (R149). -/
def Skein.leaseRefuses (k : Skein) (epoch : Nat) : Bool :=
  leaseOwner k.lease != 0 && (leaseOrphaned k.lease || leaseEpoch k.lease != epoch)

end Sys2Proof.Machine
end

