-- ==== Sys2Proof/Machine/Policy.lean ====
section
/-!
DEFINITION. What the tier engine weighs: the rank of a candidate skein (R192, R231), and the retry-after of a throttled
request (R228).
-/
namespace Sys2Proof.Machine

/-- Milliseconds since the last job admission on a skein, saturating: the built-in rank (R192). -/
def State.idleMs (s : State) (k : Skein) : Nat := min 0xFFFFFFFF ((s.time.localNow - k.lastJob) / 1000000)

/-- Tokens appended to a skein in the last 1,024 ms, saturating (R192). -/
def State.recentTokens (s : State) (k : Skein) : Nat :=
  min 0xFFFFFFFF ((k.appended.filter fun a => decide (a.1 + 1024000000 > s.time.localNow)).map (·.2)).sum

/-- The inputs of a tier-engine invocation (R192). -/
def State.policyInv (s : State) (idx : Nat) (k : Skein) (p : Prog) : Inv :=
  let w := fun (n : Nat) => BitVec.ofNat 32 n
  let q := s.quotaOf k.tenant qDram
  let share := if q = 0 then 65536 else min 65536 (s.useOf k.tenant qDram * 65536 / q)
  let i := Inv.fresh .tier 0 p.code p.consts 0
  { i with s := [0, w (tidOf k.tenant), w idx, w (s.idleMs k), w (k.atTier 1), w (k.atTier 0),
                 w ((if leaseOrphaned k.lease then 2 ^ 31 else 0) + (if leaseOwner k.lease ≠ 0 then 1 else 0)),
                 w share, w k.hint, w (s.recentTokens k), 0, 0, 0, 0, 0, 0] }

/-- The rank of a candidate, and the trap record where the policy program trapped (R192). -/
def State.rank (s : State) (idx : Nat) (k : Skein) : Nat × Option (Nat × Nat × Nat) :=
  match s.images.tier with
  | none => (s.idleMs k, none)
  | some p =>
    let i := (s.policyInv idx k p).runAll
    match i.trap with
    | some t => (s.idleMs k, some t)
    | none => ((i.sAt 0).toNat, none)

/-- Whether a skein is a candidate of a sweep: a tier-1 bobbin neither pinned nor locked, no job admitted or waiting, no
reload in progress (R231). -/
def State.candidate (s : State) (idx : Nat) (k : Skein) : Bool :=
  k.state == .active && k.leaves.any (fun e => e.2.tier == 1 && !e.2.pin && !e.2.lock && e.2.check != .damaged) &&
  !(s.work.jobs.any fun j => j.2.entries.any fun e => e.skein == k.handle) && !thas s.store.reloads idx

/-- The retry-after of a request that needs `n` new slots, in microseconds (R228). -/
def State.retryAfter (s : State) (n : Nat) : Nat :=
  let canDoff := s.creel.state == .online &&
    (!s.store.doffs.isEmpty || s.store.skeins.any fun k => s.candidate k.1 k.2 && decide ((s.rank k.1 k.2).1 ≠ 0))
  if !canDoff then 1000000
  else
    let low := (s.cfg.lowWater * s.store.poolSlots + 1023) / 1024
    let bytes := (low + n - s.poolFree) * slotBytes
    let rate := if s.creel.bufferPages < s.creel.bufferSize * slcPages then 28000 else 9000
    min 1000000 (max 10 ((bytes + rate - 1) / rate))

/-- The RETRY_AFTER that goes with a status. -/
def State.retryFor (s : State) (st n : Nat) : Nat := if st = St.backpressure then s.retryAfter n else 0

end Sys2Proof.Machine
end

