-- ==== Sys2Proof/Machine/Mailbox.lean ====
section
/-!
DEFINITION. The mailbox protocol (15): fetching, the checks of R551, ordering (R387–R389), responses (R384), and the
frame in which every mailbox command runs.
-/
namespace Sys2Proof.Machine

/-! ## What a command is -/

/-- What the command reference says of one opcode: its code, whether only mailbox 0 may send it, whether it carries
TENANT (0 no; 1 yes; 2 yes, checked by the command itself), the PARAMS bytes it uses, its data buffer (0 none; 1 input;
2 output; 3 optional), its bound in milliseconds (0: none) and its object set (kind, PARAMS offset, length; offset 40:
the one object of the kind). -/
structure CmdSpec where
  op : Nat
  admin : Bool
  tenant : Nat
  params : List (Nat × Nat)
  data : Nat
  bound : Nat
  objs : List (Nat × Nat × Nat)

/-! The command reference, group by group (R401–R417). -/
def cmdsModule : List CmdSpec :=
  [⟨0x0100, false, 0, [], 0, 100, []⟩,
   ⟨0x0101, false, 0, [(0, 2)], 0, 100, []⟩,
   ⟨0x0102, false, 0, [], 0, 100, []⟩,
   ⟨0x0103, true, 0, [(0, 2), (8, 8)], 0, 100, [(9, 40, 0)]⟩,
   ⟨0x0104, true, 0, [(0, 2), (2, 1)], 0, 100, [(10, 0, 2)]⟩,
   ⟨0x0105, true, 2, [(0, 2), (2, 2), (4, 1)], 0, 100, [(10, 0, 2)]⟩,
   ⟨0x0106, true, 0, [(0, 2), (2, 1)], 0, 0, [(10, 0, 2)]⟩]
def cmdsTenant : List CmdSpec :=
  [⟨0x0200, true, 2, [(0, 32)], 0, 100, [(9, 40, 0)]⟩,
   ⟨0x0201, true, 2, [], 0, 0, [(9, 40, 0)]⟩,
   ⟨0x0202, true, 1, [(0, 1), (4, 4)], 0, 100, []⟩,
   ⟨0x0203, false, 1, [], 2, 100, []⟩]
def cmdsSkein : List CmdSpec :=
  [⟨0x0300, false, 1, [(0, 16)], 0, 100, []⟩,
   ⟨0x0301, false, 1, [(0, 4)], 0, 100, [(1, 0, 4)]⟩,
   ⟨0x0302, false, 1, [(0, 4)], 3, 100, [(1, 0, 4)]⟩,
   ⟨0x0303, false, 1, [(0, 5)], 0, 100, [(1, 0, 4)]⟩,
   ⟨0x0304, false, 1, [(0, 4), (8, 16)], 0, 100, [(1, 0, 4)]⟩]
def cmdsImage : List CmdSpec :=
  [⟨0x0400, false, 2, [(0, 1)], 1, 1000, []⟩,
   ⟨0x0401, false, 2, [(0, 2)], 0, 100, [(6, 0, 2)]⟩,
   ⟨0x0402, false, 1, [(0, 1)], 1, 1000, []⟩,
   ⟨0x0403, false, 1, [(0, 2)], 0, 100, [(6, 0, 2)]⟩]
def cmdsQueue : List CmdSpec :=
  [⟨0x0500, false, 1, [(0, 4)], 0, 100, []⟩,
   ⟨0x0501, false, 1, [(0, 2)], 0, 100, [(11, 0, 2)]⟩,
   ⟨0x0502, false, 1, [(0, 6), (8, 4)], 0, 100, [(11, 4, 2)]⟩,
   ⟨0x0503, false, 1, [(0, 2)], 0, 0, [(4, 0, 2)]⟩,
   ⟨0x0504, false, 1, [(0, 2), (8, 8)], 0, 100, [(4, 0, 2)]⟩,
   ⟨0x0505, false, 1, [(0, 2)], 0, 100, [(15, 0, 2)]⟩,
   ⟨0x0506, false, 1, [(0, 1), (4, 4)], 0, 100, [(4, 4, 4)]⟩,
   ⟨0x0507, false, 1, [(0, 6)], 0, 100, []⟩,
   ⟨0x0508, false, 1, [(0, 2)], 0, 100, [(5, 0, 2)]⟩,
   ⟨0x0509, false, 1, [(0, 2)], 1, 100, [(5, 0, 2)]⟩,
   ⟨0x050A, false, 1, [(0, 4)], 0, 100, [(14, 0, 4)]⟩,
   ⟨0x050B, false, 1, [(0, 4)], 0, 100, [(14, 0, 4)]⟩]
def cmdsFlyer : List CmdSpec :=
  [⟨0x0600, false, 1, [(0, 19), (20, 10)], 0, 100, [(17, 2, 2), (12, 24, 2), (11, 26, 2)]⟩,
   ⟨0x0601, false, 1, [(0, 5), (8, 12)], 0, 100, [(3, 0, 4)]⟩,
   ⟨0x0602, false, 1, [(0, 4)], 0, 0, [(3, 0, 4)]⟩,
   ⟨0x0603, false, 1, [(0, 4)], 0, 0, [(3, 0, 4)]⟩,
   ⟨0x0604, false, 1, [(0, 4)], 0, 100, []⟩,
   ⟨0x0605, false, 1, [(0, 2)], 0, 100, [(12, 0, 2)]⟩,
   ⟨0x0606, false, 1, [(0, 2), (4, 12)], 0, 100, [(1, 4, 4)]⟩,
   ⟨0x0607, false, 1, [(0, 4)], 0, 100, [(13, 0, 4)]⟩,
   ⟨0x0608, true, 0, [(0, 2)], 0, 100, [(16, 0, 1)]⟩,
   ⟨0x0609, true, 0, [(0, 2), (4, 28)], 0, 100, [(16, 0, 1)]⟩,
   ⟨0x060A, true, 1, [(0, 3), (4, 8)], 0, 100, []⟩,
   ⟨0x060B, true, 0, [(0, 1), (8, 8)], 1, 100, [(16, 0, 1)]⟩]
def cmdsPrefix : List CmdSpec :=
  [⟨0x0700, false, 1, [(0, 9)], 0, 0, [(1, 0, 4)]⟩,
   ⟨0x0701, false, 1, [(0, 28)], 0, 100, [(2, 0, 4), (1, 4, 4)]⟩,
   ⟨0x0702, false, 1, [(0, 4)], 0, 100, [(2, 0, 4)]⟩,
   ⟨0x0703, false, 1, [(0, 13)], 0, 0, [(2, 0, 4)]⟩,
   ⟨0x0704, false, 1, [(0, 12)], 0, 100, [(2, 0, 4)]⟩,
   ⟨0x0705, false, 1, [(0, 3)], 1, 100, []⟩]
def cmdsTier : List CmdSpec :=
  [⟨0x0800, false, 1, [(0, 4)], 0, 0, [(1, 0, 4)]⟩,
   ⟨0x0801, false, 1, [(0, 4)], 0, 0, [(1, 0, 4)]⟩,
   ⟨0x0802, false, 1, [(0, 21)], 0, 0, [(1, 0, 4)]⟩,
   ⟨0x0803, false, 1, [(0, 20)], 0, 0, [(1, 0, 4)]⟩]
def cmdsLent : List CmdSpec :=
  [⟨0x0900, true, 0, [(0, 4), (8, 16)], 0, 100, [(18, 0, 1)]⟩,
   ⟨0x0901, true, 0, [(0, 2)], 0, 0, [(7, 0, 2)]⟩,
   ⟨0x0902, true, 0, [(0, 1)], 0, 0, [(18, 0, 1)]⟩,
   ⟨0x0903, true, 0, [(0, 16)], 0, 100, []⟩,
   ⟨0x0904, true, 0, [(0, 2)], 0, 100, [(8, 0, 2)]⟩,
   ⟨0x0905, false, 0, [(0, 2), (8, 8)], 1, 100, [(8, 0, 2)]⟩,
   ⟨0x0906, false, 0, [(0, 2)], 2, 100, [(8, 0, 2)]⟩]
def cmdsRel : List CmdSpec :=
  [⟨0x0A00, true, 0, [(0, 4)], 0, 0, [(19, 0, 4)]⟩,
   ⟨0x0A01, true, 0, [(0, 14), (16, 4)], 2, 0, [(19, 0, 2)]⟩,
   ⟨0x0A02, true, 0, [(0, 2)], 0, 100, []⟩,
   ⟨0x0A03, true, 0, [(0, 1), (4, 4)], 0, 100, []⟩,
   ⟨0x0A04, true, 0, [], 2, 100, []⟩]
def cmdsTele : List CmdSpec :=
  [⟨0x0B00, true, 0, [(0, 7), (8, 4)], 3, 100, []⟩,
   ⟨0x0B01, false, 2, [(0, 4)], 3, 100, []⟩,
   ⟨0x0B02, false, 2, [(0, 2)], 3, 100, []⟩]
def cmdsTime : List CmdSpec :=
  [⟨0x0C00, true, 0, [(0, 2), (8, 8)], 0, 100, []⟩,
   ⟨0x0C01, false, 0, [], 0, 100, []⟩]
def cmdsPower : List CmdSpec :=
  [⟨0x0D00, true, 0, [(0, 1)], 0, 1000, [(9, 40, 0)]⟩,
   ⟨0x0D01, true, 0, [(0, 2)], 0, 100, []⟩,
   ⟨0x0D02, true, 0, [(0, 3), (4, 4)], 0, 100, []⟩,
   ⟨0x0D03, false, 0, [], 0, 100, []⟩]
def cmdsFw : List CmdSpec :=
  [⟨0x0E00, true, 0, [(0, 8)], 1, 1000, []⟩,
   ⟨0x0E01, true, 0, [(0, 1)], 0, 0, [(9, 40, 0)]⟩,
   ⟨0x0E02, false, 0, [], 0, 100, []⟩,
   ⟨0x0E03, true, 0, [], 0, 1000, []⟩,
   ⟨0x0E04, false, 2, [(0, 32)], 2, 1000, []⟩,
   ⟨0x0E05, true, 0, [(0, 3), (4, 2)], 0, 1000, [(17, 0, 2)]⟩,
   ⟨0x0E06, true, 0, [(0, 2)], 0, 100, [(17, 0, 2)]⟩]
/-- Every command of the reference (R401–R417). -/
def cmdTable : List CmdSpec :=
  cmdsModule ++ cmdsTenant ++ cmdsSkein ++ cmdsImage ++ cmdsQueue ++ cmdsFlyer ++ cmdsPrefix ++ cmdsTier ++ cmdsLent ++ cmdsRel ++ cmdsTele ++ cmdsTime ++ cmdsPower ++ cmdsFw

/-- The reference entry of an opcode (R383). -/
def cmdSpec? (op : Nat) : Option CmdSpec := cmdTable.find? fun c => c.op == op

def Cmd.opcode (c : Cmd) : Nat := field c.bytes 4 2
def Cmd.ident (c : Cmd) : Nat := field c.bytes 6 2
def Cmd.flags (c : Cmd) : Nat := field c.bytes 8 4
def Cmd.dataLen (c : Cmd) : Nat := field c.bytes 12 4
def Cmd.dataOff (c : Cmd) : Nat := field c.bytes 16 8
/-- A PARAMS field (R395). -/
def Cmd.param (c : Cmd) (off len : Nat) : Nat := field c.bytes (24 + off) len
/-- The TENANT field (R396). -/
def Cmd.tenantField (c : Cmd) : W16 := BitVec.ofNat 16 (c.param 38 2)
def Cmd.barrier (c : Cmd) : Bool := bit 1 c.flags
def Cmd.ref (c : Cmd) : CmdRef := (c.mb, c.seq)

/-- Why a command is refused: status, DETAIL, and the new slots it needed (for RETRY_AFTER). -/
abbrev CmdErr := Nat × Nat × Nat

/-- What a command's own part gives. -/
inductive CmdOut where
  /-- ST_OK with RESULT -/
  | done (s : State) (result : List Byte)
  /-- past the commit point, completed with a status of its own -/
  | ended (s : State) (st : Nat) (result : List Byte)
  /-- past the commit point; the response comes later -/
  | wait (s : State)
  /-- still before the commit point; the response comes later -/
  | pend (s : State)

/-- A command's own part. -/
abbrev CmdM := Except CmdErr CmdOut

/-- A refusal with a status. -/
def refuse {α : Type} (st : Nat) : Except CmdErr α := .error (st, 0, 0)
/-- A condition and the status of its failure. -/
def req (c : Bool) (st : Nat) : Except CmdErr Unit := if c then .ok () else .error (st, 0, 0)
/-- A code or mode (R551 step 4). -/
def mode (c : Bool) : Except CmdErr Unit := req c St.invalidMode
/-- A count, length, index or range in the PARAMS field at `off` (R551 step 6, DETAIL of R384). -/
def inRange (c : Bool) (off : Nat) : Except CmdErr Unit := if c then .ok () else .error (St.lengthRange, 24 + off, 0)
/-- A shared check, with the new slots it asks for. -/
def within {α : Type} (slots : Nat) : Res α → Except CmdErr α
  | .ok x => .ok x
  | .error st => .error (st, 0, slots)
/-- Something that must exist. -/
def found {α : Type} (st : Nat) : Option α → Except CmdErr α
  | some x => .ok x
  | none => .error (st, 0, 0)

/-- The command as its own part sees it: the command, and the tenant it acts under. -/
structure Ctx where
  c : Cmd
  tag : W16

def Ctx.p (x : Ctx) (off len : Nat) : Nat := x.c.param off len
def Ctx.p32 (x : Ctx) (off : Nat) : W32 := BitVec.ofNat 32 (x.c.param off 4)
/-- The bytes of the data buffer (R383). -/
def Ctx.data (x : Ctx) (s : State) : List Byte := s.windowRead x.c.ld x.c.dataOff x.c.dataLen
/-- Writes the data buffer; bytes beyond its length are not written. -/
def Ctx.output (x : Ctx) (s : State) (bs : List Byte) : State := s.windowWrite x.c.ld x.c.dataOff (bs.take x.c.dataLen)

/-! ## Checks before the command's own part (R551 steps 1–3) -/

/-- Reserved bits within the PARAMS bytes that a command uses: byte offset and mask (R401–R417). -/
def reservedBits (op : Nat) : List (Nat × Nat) :=
  match op with
  | 0x0105 => [(4, 0xFE)]
  | 0x0106 => [(2, 0xFE)]
  | 0x0300 => [(6, 0xF0), (9, 0xF0)]
  | 0x0600 => [(9, 0x10), (11, 0x10), (13, 0x10), (15, 0x10), (17, 0xFE)]
  | 0x0601 => [(4, 0xFC), (9, 0x10), (11, 0x10), (13, 0x10), (15, 0x10)]
  | 0x0606 => [(1, 0xF0)]
  | 0x060A => [(1, 0xFC)]
  | 0x0900 => [(1, 0xFC), (3, 0xF0)]
  | 0x0C00 => [(1, 0xF0)]
  | _ => []

/-- The byte offset of the first non-zero reserved field of a command's PARAMS, where there is one (R8, R395). -/
def Cmd.reservedByte (c : Cmd) (sp : CmdSpec) : Option Nat :=
  let used := fun i => sp.params.any (fun p => decide (p.1 ≤ i ∧ i < p.1 + p.2)) || (sp.tenant != 0 && decide (38 ≤ i))
  let mask := fun i => if used i then (((reservedBits sp.op).filter fun b => b.1 == i).map (·.2)).sum else 0xFF
  ((List.range 40).find? fun i => field c.bytes (24 + i) 1 &&& mask i != 0).map (24 + ·)

/-- Bits of VALUE that an item of MODULE_CONFIGURE defines; none where VALUE is a number and not a field (R402). -/
def itemWidth (item : Nat) : Option Nat :=
  match item with
  | 1 => some 10 | 2 => some 24 | 3 => some 4 | 5 => some 40
  | _ => none

/-- Fields of a command that must be zero because of its other fields: PARAMS offset and length (R402–R405, R408, R415). -/
def Cmd.zeroFields (c : Cmd) : List (Nat × Nat) :=
  match c.opcode with
  | 0x0300 => if bit 3 (c.param 9 1) then [] else [(10, 1)]
  | 0x0606 => if c.param 0 1 = 1 then [(4, 4)] else [(8, 8)]
  | 0x0C00 => if c.param 0 1 = 0 then [(8, 8)] else []
  | _ => []

/-- The byte offset of the first non-zero reserved byte that depends on the command's other fields (R8, R384). -/
def Cmd.condReserved (c : Cmd) : Option Nat :=
  let off := match c.opcode with
    | 0x0103 => match itemWidth (c.param 0 2) with
      | some w => if c.param 8 8 < 2 ^ w then none else (List.range 8).find? fun i => c.param (8 + i) 1 / 2 ^ (w - 8 * i) != 0 && decide (w < 8 * i + 8)
      | none => none
    | 0x0200 => if c.param 38 2 < 4096 then none else some 39
    | _ => none
  match off with
  | some i => some (if c.opcode = 0x0103 then 32 + i else 24 + i)
  | none => (c.zeroFields.flatMap fun f => (List.range f.2).map (f.1 + ·)).find? (fun i => c.param i 1 != 0) |>.map (24 + ·)

/-- Steps 1 to 4 of R12 and OPCODE (R551 step 1). -/
def Cmd.headCheck (c : Cmd) : Except CmdErr Unit := do
  req (field c.bytes 0 1 == 1) St.badType
  req (field c.bytes 1 1 == 1) St.versionUnsupported
  if field c.bytes 2 1 == 1 then .ok () else .error (St.lengthRange, 2, 0)
  if field c.bytes 3 1 == 0 then .ok () else .error (St.reservedNonzero, 3, 0)
  if c.flags < 4 then .ok () else .error (St.reservedNonzero, 8, 0)
  match cmdSpec? c.opcode with
  | none => refuse St.badOpcode
  | some sp => match c.reservedByte sp with
    | some i => .error (St.reservedNonzero, i, 0)
    | none => match c.condReserved with
      | some i => .error (St.reservedNonzero, i, 0)
      | none => .ok ()

/-- Authority: mailbox 0 only, and TENANT (R396; R551 step 2). Gives the tenant that the command acts under. -/
def State.authority (s : State) (c : Cmd) (sp : CmdSpec) : Except CmdErr W16 := do
  req (!sp.admin || c.mb == 0) St.notPermitted
  if c.mb ≠ 0 then
    req (sp.tenant == 0 || c.tenantField == 0) St.staleHandle
    return (s.mbox c.mb).tenant
  else if sp.tenant = 1 then
    req (s.tenant? c.tenantField).isSome St.staleHandle
    return c.tenantField
  else if sp.tenant = 2 then return c.tenantField
  else return 0

/-- Whether a command may use a slab: its tenant's, and for mailbox 0 the module's own as well (R383). -/
def slabUsable (c : Cmd) (tag : W16) (b : Slab) : Bool :=
  match b.tenant with
  | none => c.mb == 0
  | some t => t == tidOf tag && (c.mb != 0 || tag != 0)

/-- Whether the data buffer lies wholly within usable slabs of the mailbox's LD (R383). -/
def State.bufferOk (s : State) (c : Cmd) (tag : W16) : Bool :=
  let n := c.dataLen
  let o := c.dataOff
  let ends := (o + n - 1) :: o :: (List.range (n / slotBytes + 1)).map fun i => min (o + n - 1) ((o / slotBytes + i) * slotBytes + slotBytes - 1)
  ends.all fun a => match s.slabAt c.ld a with
    | some b => slabUsable c tag b
    | none => false

/-- The data buffer of R382 and R383 (R551 step 3). -/
def State.dataCheck (s : State) (c : Cmd) (sp : CmdSpec) (tag : W16) : Except CmdErr Unit := do
  if c.dataLen = 0 then
    if c.dataOff = 0 then .ok () else .error (St.lengthRange, 16, 0)
  else
    if sp.data = 0 ∨ c.dataLen > 16777216 then .error (St.lengthRange, 12, 0)
    else if c.dataOff % 64 ≠ 0 ∨ !s.bufferOk c tag then .error (St.lengthRange, 16, 0)
    else .ok ()

/-! ## Order (R387–R389, R399) -/

/-- The object set of a command (R399). -/
def State.objects (s : State) (c : Cmd) : List (Nat × Nat) :=
  let tag := if c.mb ≠ 0 then (s.mbox c.mb).tenant else c.tenantField
  match cmdSpec? c.opcode with
  | none => []
  | some sp => (if tag = 0 then [] else [(0, tidOf tag)]) ++ sp.objs.map fun o => (o.1, c.param o.2.1 o.2.2)

/-- Whether a fetched command may start: no BARRIER holds it back, and no earlier command that shares an object with it
is still before its commit point (R388, R389). -/
def State.startable (s : State) (c : Cmd) : Bool :=
  let earlier := s.box.inflight.filter fun d => decide (d.seq < c.seq)
  let mine := earlier.filter fun d => d.mb == c.mb
  !c.committed && (!c.barrier || mine.isEmpty) && !(mine.any Cmd.barrier) &&
    earlier.all fun d => d.committed || !((s.objects d).any fun o => (s.objects c).contains o)

/-! ## Fetching (R379, R380, R387, R499) -/

/-- Commands of a mailbox in flight. -/
def State.inflightOf (s : State) (m : Nat) : Nat := (s.box.inflight.filter fun c => c.mb == m).length

/-- Submission slots between the module's head and SQ_TAIL. -/
def Mbox.waiting (b : Mbox) : Nat := (b.sqTail + b.depth - b.sqHead) % b.depth

/-- Whether the module fetches at all now: running firmware, not between two firmwares (R391, R522). -/
def State.fetching (s : State) : Bool :=
  (s.boot.state == .ready || (s.boot.state == .recovery && s.boot.recoveryRun)) && !s.boot.fetchHeld && decide (s.boot.coresDown.length < 4) && !s.power.stopped && !s.power.off

/-- Whether the module may fetch a command of a mailbox (R376, R380, R387, R499). -/
def State.canFetch (s : State) (m : Nat) : Bool :=
  let b := s.mbox m
  b.state == .active && b.ld.isSome && decide (0 < b.depth) && decide (0 < b.waiting) &&
    decide (s.inflightOf m < 16) && decide (s.box.inflight.length < 256) &&
    decide (b.cqWritten + s.inflightOf m < b.cqRead + b.depth) &&
    (m == 0 || s.power.state == .run || s.power.state == .hold)

/-- The mailbox of the next fetch: round-robin, mailbox 0 every second time while it waits (R387). -/
def State.nextBox (s : State) : Option Nat :=
  let others := ((s.box.boxes.map (·.1)).filter fun m => m != 0 && s.canFetch m)
  let other := match others.find? fun m => decide (s.box.rrLast < m) with
    | some m => some m
    | none => others.head?
  if s.canFetch 0 ∧ (!s.box.lastZero ∨ other = none) then some 0 else other

/-- The 32 bytes of a response (R384). -/
def respBytes (c : Cmd) (st detail retry : Nat) (phase : Bool) (sqHead : Nat) (result : List Byte) : List Byte :=
  toLe 2 c.ident ++ toLe 2 st ++ toLe 2 (if field c.bytes 0 4 % 2 ^ 24 = 0x010101 then c.opcode else 0) ++
  toLe 2 ((if phase then 0x8000 else 0) + sqHead % 4096) ++ toLe 4 detail ++ toLe 4 retry ++ padTo 16 result

/-- Writes a response into the next completion slot and raises the mailbox's vector (R380, R381, R384). -/
def State.writeResponse (s : State) (c : Cmd) (st detail retry : Nat) (result : List Byte) : State :=
  let b := s.mbox c.mb
  let bs := respBytes c st detail retry (decide (b.cqWritten / b.depth % 2 = 0)) b.sqHead result
  let s := { s with mem := s.mem.areaWrite b.cqArea (b.cqBase + b.cqWritten % b.depth * 32) bs }
  let s := s.setMbox c.mb { b with cqWritten := b.cqWritten + 1 }
  if bit 0 c.flags then s else s.raiseMboxVector c.mb c.mb

/-- The end of an unbind: the rings' slabs are freed and credited, and the mailbox is DISABLED (R376). -/
def State.disableBox (s : State) (m : Nat) : State :=
  let b := s.mbox m
  let s := (s.dropArea b.sqArea).dropArea b.cqArea
  let s := s.credit b.tenant qDram (b.sqArea.length + b.cqArea.length)
  s.setMbox m { ld := b.ld, ring := b.ring, evWritten := b.evWritten, evRead := b.evRead, eventHead := b.eventHead }

/-- Completes a command in flight: its response, and the end of an unbind that waited for it (R376, R381). `fuel` bounds
the chain of unbinds. -/
def State.completeCmd : Nat → State → Cmd → Nat → Nat → Nat → List Byte → State
  | 0, s, _, _, _, _, _ => s
  | fuel + 1, s, c, st, detail, retry, result =>
    let s := s.writeResponse c st detail retry result
    let s := { s with box := { s.box with inflight := s.box.inflight.filter fun d => d.seq != c.seq } }
    let b := s.mbox c.mb
    if b.state = .draining ∧ s.inflightOf c.mb = 0 then
      let s := s.disableBox c.mb
      match b.unbindWaiter with
      | none => s
      | some w =>
        match s.box.inflight.find? fun d => d.ref == w with
        | some d => completeCmd fuel s d St.ok 0 0 []
        | none => s
    else s

/-- Completes a command whose response was owed. -/
def State.answer (s : State) (w : CmdRef) (st : Nat) (result : List Byte) (slots : Nat := 0) : State :=
  match s.box.inflight.find? fun d => d.ref == w with
  | some d => s.completeCmd 8 d st 0 (s.retryFor st slots) result
  | none => s

/-- Completes several commands with one status and result. -/
def State.answerAll (s : State) (ws : List CmdRef) (st : Nat) (result : List Byte) (slots : Nat := 0) : State :=
  ws.foldl (fun s w => s.answer w st result slots) s

/-- Fetches commands while any may be fetched, `fuel` of them at most: each is read from its slot, refused at once
where its head fails, and otherwise in flight (R379, R387, R551). -/
def State.fetch : Nat → State → State
  | 0, s => s
  | fuel + 1, s =>
    if !s.fetching then s else
    match s.nextBox with
    | none => s
    | some m =>
      let b := s.mbox m
      let c : Cmd :=
        { mb := m, slot := b.sqHead, ld := match b.ld with | some d => d | none => 0, seq := s.box.fetchSeq,
          bytes := s.mem.areaRead b.sqArea (b.sqHead * 64) 64, fetchedAt := s.time.localNow }
      let s := s.setMbox m { b with sqHead := (b.sqHead + 1) % b.depth }
      let s := { s with box := { s.box with inflight := s.box.inflight ++ [c], fetchSeq := s.box.fetchSeq + 1,
                                            rrLast := if m = 0 then s.box.rrLast else m, lastZero := m == 0 } }
      if s.areaBad b.sqArea (b.sqHead * 64) 64 then
        let c := { c with bytes := (List.range 64).map fun i => BitVec.ofNat 8 (Config.freeValue (s.freeCount + i)) }
        fetch fuel ({ s with freeCount := s.freeCount + 64 }.completeCmd 8 c St.internal 0 0 [])
      else
      match c.headCheck with
      | .error e => fetch fuel (s.completeCmd 8 c e.1 e.2.1 0 [])
      | .ok _ => fetch fuel s

/-- Submitted commands of all mailboxes: a bound on fetches. -/
def State.submitted (s : State) : Nat := (s.box.boxes.map fun b => b.2.waiting).sum

/-- A round of fetching. -/
def State.fetchAll (s : State) : State := s.fetch s.submitted

/-! ## The frame of a command -/

/-- Opcodes that the module executes in Doze and Standby (R400). -/
def dozeOpcodes : List Nat := [0x0100, 0x0101, 0x0102, 0x0D00, 0x0D03, 0x0E02]

/-- Statuses that R551 decides before the state of the module. -/
def earlyStatus (st : Nat) : Bool :=
  [St.invalidMode, St.staleHandle, St.staleKey, St.programMissing, St.tableMissing, St.lengthRange, St.nonfinite,
   St.reservedNonzero, St.versionUnsupported].contains st

/-- Opcodes that the recovery firmware executes (R525). -/
def recoveryOpcodes : List Nat := [0x0100, 0x0102, 0x0E02, 0x0E00, 0x0E01, 0x0E04]

/-- Whether the module's state lets a command execute: R400 in Doze and Standby, R525 in recovery. -/
def State.executes (s : State) (op : Nat) : Bool :=
  (s.power.state == .run || s.power.state == .hold || dozeOpcodes.contains op) &&
  (s.boot.state != .recovery || recoveryOpcodes.contains op)

/-- A command that the module does not execute in its present state is refused with ST_WRONG_STATE, after the checks
that come before (R551 step 7, R400, R525). -/
def State.gateByState (s : State) (op : Nat) (r : CmdM) : CmdM :=
  if s.executes op then r
  else match r with
    | .error e => if earlyStatus e.1 then .error e else refuse St.wrongState
    | .ok _ => refuse St.wrongState

/-- Marks a command as past its commit point (R389). -/
def State.commitCmd (s : State) (c : Cmd) : State :=
  { s with box := { s.box with inflight := s.box.inflight.map fun d => if d.seq == c.seq then { d with committed := true } else d } }

/-- What a fetched command does, from authority to response (R551, R389). -/
def State.runCmd (s : State) (c : Cmd) (body : Ctx → State → CmdM) : State :=
  let r : CmdM := do
    let sp ← found St.badOpcode (cmdSpec? c.opcode)
    let tag ← s.authority c sp
    s.dataCheck c sp tag
    s.gateByState c.opcode (body { c, tag } s)
  match r with
  | .error (st, detail, slots) => s.completeCmd 8 c st detail (s.retryFor st slots) []
  | .ok (.done s' result) => s'.completeCmd 8 c St.ok 0 0 result
  | .ok (.ended s' st result) => s'.completeCmd 8 c st 0 0 result
  | .ok (.wait s') => s'.commitCmd c
  | .ok (.pend s') => s'

/-- The fetched command of a mailbox and slot with an opcode that has not committed, the oldest first. -/
def State.fetched? (s : State) (op m slot : Nat) : Option Cmd :=
  s.box.inflight.find? fun c => c.mb == m && c.slot == slot && c.opcode == op && !c.committed

/-- A mailbox row: the named command runs where it is in flight and may start; otherwise nothing happens (DEDUCED, log 2). -/
def cmdRow (op : Nat) (body : Ctx → State → CmdM) (m slot : Nat) (s : State) : Host.Outcome State Fault Refusal :=
  if m ≥ 1024 then .fault .noSuchUnit
  else match s.fetched? op m slot with
    | none => .next s
    | some c => if s.startable c then .next (s.runCmd c body).fetchAll else .next s

end Sys2Proof.Machine
end

