-- ==== Sys2Proof/Machine/JobQueues.lean ====
section
/-!
DEFINITION. Job queues (R119, R120, R318): the head entry, completions of entries, the end of a job, cancellation
(R407, R150), and the release of a combine context (R134).
-/
namespace Sys2Proof.Machine

/-- Whether the data path works: not in Doze or Standby, not stopped, not without power (R496, R497, R508). -/
def State.awake (s : State) : Bool :=
  (s.power.state == .run || s.power.state == .hold) && !s.power.stopped && !s.power.off

/-- The 128 bytes of a queue entry: its ring slot as it stands now, or the delivered action (R346). -/
def State.entryBytes (s : State) (j : Jq) (e : QEntry) : List Byte :=
  match e.slot with
  | some k => s.mem.areaRead j.area (128 * k) 128
  | none => padTo 128 e.bytes

def entryTag (b : List Byte) : W64 := BitVec.ofNat 64 (field b 8 8)
def entryKind (b : List Byte) : Nat := kindOf (field b 0 1) false

def State.modJq (s : State) (q : Nat) (f : Jq → Jq) : State := s.modWork fun w => { w with jqs := tmod w.jqs q f }

/-- Completes an entry that was not admitted. -/
def State.completeEntry (s : State) (q : Nat) (e : QEntry) (b : List Byte) (st retry : Nat) : State :=
  (s.doneJq q e.trig { tag := entryTag b, status := st, kind := entryKind b, retry }).releaseQuery e.query

/-- Tables that are unloaded and that no job holds any more vanish (R406). -/
def sweepTables (t : Table TableImg) : Table TableImg := t.filter fun e => !(e.2.unloaded && e.2.holders.isEmpty)

/-- Images that no tenant is bound to and that no admitted job holds any more vanish (R198). -/
def sweepProgs (t : Table Prog) : Table Prog := t.filter fun e => !(e.2.bound.isEmpty && e.2.holders.isEmpty)

/-- Gives up what a job holds of programs and tables (R197, R198, R406). -/
def State.dropHolder (s : State) (j : Nat) : State :=
  let p := fun (t : Table Prog) => sweepProgs (t.map fun e => (e.1, { e.2 with holders := e.2.holders.filter (· != j) }))
  { s with images :=
    { s.images with
      score := p s.images.score
      whorl := p s.images.whorl
      tables := sweepTables (s.images.tables.map fun e => (e.1, { e.2 with holders := e.2.holders.filter (· != j) })) } }

/-- Whether a combine context, or a PLY send of one, still has to complete in a queue (R139, R407). -/
def State.owesCombine (s : State) (q : Nat) : Bool :=
  (s.work.combines.any fun c => c.2.queue == q) ||
  s.flyer.conns.any fun k => (k.2.sq.any fun e => e.source == some (1, q)) || k.2.unacked.any fun m => m.source == some (1, q)

/-- A destroyed queue whose last admitted entry has ended answers its command; its index is free once no combine names
it either (R407). -/
def State.endQueue (s : State) (q : Nat) : Option CmdRef × State :=
  match tget s.work.jqs q with
  | some j =>
    if j.destroyed ∧ !(s.work.jobs.any fun x => x.2.queue == q) then
      let s := if s.owesCombine q then s.modJq q fun j => { j with waiter := none }
               else s.modWork fun w => { w with jqs := tdel w.jqs q }
      (j.waiter, s)
    else (none, s)
  | none => (none, s)

/-- Answers a JOB_QUEUE_DESTROY whose queue has ended. -/
def State.answerQueue (s : State) (q : Nat) : State :=
  match s.endQueue q with
  | (some w, s) => s.answer w St.ok []
  | (none, s) => s

/-- Sub-arrays (spindle × 64 + sub-array) that serve an item now. -/
def State.flying (s : State) : List Nat := s.work.jobs.flatMap fun j => j.2.items.filterMap fun i => if i.done then none else i.sub

/-- A spindle with an item in flight. -/
def Spindle.work (p : Spindle) : Spindle := { p with state := if p.state ≤ 1 then 1 else p.state }
/-- A spindle with nothing in flight: DETERMINISTIC and EXPANDED speak of current items, the fold stays (R116). -/
def Spindle.rest (p : Spindle) : Spindle := { p with state := if p.state ≤ 1 then 0 else p.state, deterministic := false, expanded := false }

/-- The spindles after items came or went: BUSY while an item is in flight, else IDLE (R116). -/
def State.restSpindles (s : State) : State :=
  let busy := s.flying.map (· / 64)
  let now := fun (p : Spindle × Nat) => bif busy.contains p.2 then p.1.work else p.1.rest
  { s with rel := { s.rel with spindles := (indexed s.rel.spindles).map now } }

/-! ## The ply cache (R146, R147) -/

/-- The cache's size in bytes (R146). -/
def cacheBytes : Nat := 512 * 2 ^ 20

/-- Drops the oldest entries until the rest fits (R146). -/
def fitCache : List CachedPly → List CachedPly
  | [] => []
  | c :: cs => if (c.rows.length + (cs.map fun (x : CachedPly) => x.rows.length).sum) ≤ cacheBytes then c :: cs else fitCache cs

/-- Stores a job's rows as sent: entries of the same skein, layer and head group for steps below s − 1 go, then the
oldest ones while space runs short (R146). -/
def State.storePly (s : State) (j : Job) : State :=
  let skeins := j.entries.map (·.skein)
  let layer := field j.bytes 38 1
  let hg := field j.bytes 39 1
  let step := BitVec.ofNat 64 (field j.bytes 16 8)
  let old := fun (c : CachedPly) => c.layer == layer && c.hg == hg && c.skeins.any skeins.contains && decide (c.step.toNat + 1 < step.toNat)
  let kept := s.work.cache.filter fun c => !old c && c.key != j.key
  s.modWork fun w => { w with cache := fitCache (kept ++ [{ skeins, layer, hg, step, key := j.key, rows := j.rows }]) }

/-- Removes a job with everything it holds. -/
def State.dropJob (s : State) (id : Nat) (j : Job) : State :=
  let s := (s.modWork fun w => { w with jobs := tdel w.jobs id }).restSpindles
  let s := s.dropHolder id
  match j.staging with
  | some (l, n, f) => s.releaseStaging l n f
  | none => s

/-- The end of an admitted or waiting job with its completion, and of a destroyed queue with its last job; the rows of a
job with CACHE_PLY go into the cache when it completes with ST_OK (R146). -/
def State.endJob (s : State) (id : Nat) (j : Job) (st retry bytes : Nat) : State :=
  let keep := st == 0 && bit 25 (field j.bytes 4 4) && field j.bytes 0 1 == 0x10 && !j.replayed && !j.uncached
  let s := if keep then s.storePly j else s
  ((s.dropJob id j).doneJq j.queue j.trig
    { tag := entryTag j.bytes, status := st, kind := entryKind j.bytes, retry, bytes, replayed := j.replayed }).answerQueue j.queue

/-- Ends a wait that stands at the head of a job queue (R320). -/
def State.endWaitJq (s : State) (q : Nat) (w : Wait) (st : Nat) (cancel : Bool) : State :=
  let s := s.modJq q fun j => { j with wait := none, cancelNext := if cancel then j.cancelNext + w.cancelNext else j.cancelNext }
  s.doneJq q w.trig { tag := w.tag, status := st, kind := 1 }

/-- Removes the unadmitted entries that a test picks, each completed with a status; how many there were. -/
def State.purgeQueue (s : State) (q : Nat) (p : List Byte → Bool) (st : Nat) : Nat × State :=
  match tget s.work.jqs q with
  | none => (0, s)
  | some j =>
    let all := j.entries.map fun e => (e, s.entryBytes j e)
    let gone := all.filter fun x => p x.2
    let s := s.modJq q fun j => { j with entries := (all.filter fun x => !p x.2).map (·.1) }
    (gone.length, gone.foldl (fun s x => s.completeEntry q x.1 x.2 st 0) s)

/-- A cancelled job whose ply has not left its send queue sends none (R128, R322). -/
def State.dropPly (s : State) (id : Nat) : State :=
  { s with flyer := { s.flyer with conns := s.flyer.conns.map fun (c : Nat × Conn) =>
      (c.1, { c.2 with sq := c.2.sq.filter fun e => e.source != some (0, id) }) } }

/-- Cancels entries of a queue: unadmitted ones, a wait at its head, and jobs, waiting or admitted (R407, R128). -/
def State.cancelIn (s : State) (q : Nat) (p : List Byte → Bool) (waitTag : W64 → Bool) (admitted : Bool) (st : Nat) : Nat × State :=
  let (n, s) := s.purgeQueue q p st
  let js := s.work.jobs.filter fun j => j.2.queue == q && p j.2.bytes && (admitted || j.2.phase.unadmitted)
  let s := js.foldl (fun s j => (if j.2.phase = .sent then s.dropPly j.1 else s).endJob j.1 j.2 st 0 0) s
  match tget s.work.jqs q with
  | some j =>
    match j.wait with
    | some w => if waitTag w.tag then (n + js.length + 1, s.endWaitJq q w st false) else (n + js.length, s)
    | none => (n + js.length, s)
  | none => (n + js.length, s)

/-- Cancels the pre-posted jobs of a skein: unadmitted ones and those that wait for a reload (R150, R126). A queued
batch job that names the skein in its list alone is none of them (DESIGN CHOICE, log 84). -/
def State.cancelSkeinJobs (s : State) (h : W32) (st : Nat) : State :=
  let p := fun (b : List Byte) => field b 0 1 == 0x10 && field b 32 4 == h.toNat
  let s := s.work.jqs.foldl (fun s q => (s.cancelIn q.1 p (fun _ => false) false st).2) s
  (s.work.jobs.filter fun j => j.2.phase.unadmitted && j.2.entries.any fun e => e.skein == h).foldl
    (fun s j => s.endJob j.1 j.2 st 0 0) s

/-- Releases a combine context without emitting: its descriptor completes, its DRAM is credited (R134, R407). -/
def State.releaseCombine (s : State) (id st : Nat) : State :=
  match tget s.work.combines id with
  | none => s
  | some c =>
    let s := ((s.giveSlots c.area).credit c.tenant qDram c.charge).modWork fun w => { w with combines := tdel w.combines id }
    s.doneJq c.queue c.trig { tag := entryTag c.bytes, status := st, kind := 2 }

/-- Whether a job that waits for its bobbins or for sketch updates holds its queue (R120, R489). -/
def State.queueHeld (s : State) (q : Nat) : Bool :=
  s.work.jobs.any fun j => j.2.queue == q && (j.2.phase == .waiting || j.2.phase == .sketchWait)

/-- Whether the ring slot of a queue entry lies in an uncorrectable line (R444). -/
def State.entryBad (s : State) (j : Jq) (e : QEntry) : Bool := match e.slot with
  | some k => s.areaBad j.area (128 * k) 128
  | none => false

/-- The completion of an entry whose slot could not be read: TAG and KIND are free values (R444; DESIGN CHOICE, log 3). -/
def State.unreadEntry (s : State) (q : Nat) : State :=
  let (t, s) := s.free (2 ^ 64)
  let (k, s) := s.free 256
  s.doneJq q none { tag := BitVec.ofNat 64 t, status := St.internal, kind := k }

/-- Whether a queue has an admissible head entry (R120): no wait stands there, no earlier job holds the queue, and whorl
commands other than COMPACT run in Run alone (R496). -/
def State.admissible (s : State) (q : Nat) (j : Jq) : Bool :=
  match j.entries with
  | [] => false
  | e :: _ =>
    let b := s.entryBytes j e
    !j.wait.isSome && !s.queueHeld q && (s.power.state == .run || field b 0 1 != 0x12 || bits 3 0 (field b 4 4) == 2)

/-- The queue whose turn it is: the next above the last one served that has an admissible head entry, going round (R120). -/
def State.queueTurn (s : State) : Option Nat :=
  let qs := (s.work.jqs.filter fun e => s.admissible e.1 e.2).map (·.1)
  (qs.find? fun q => decide (s.work.rrQueue < q)).or qs.head?

/-- The row that takes the head entry of a queue: nothing where it is not the queue's turn, while the queue is held or the head
is of another kind; a cancelled entry completes with ST_CHAIN_ERROR (R120, R319, R320). -/
def headRow (mine : List Byte → Bool) (q : Nat) (s : State) (f : Jq → QEntry → List Byte → State → State) :
    Host.Outcome State Fault Refusal :=
  match tget s.work.jqs q with
  | none => .next s
  | some j =>
    if s.queueTurn ≠ some q || !s.awake then .next s
    else match j.entries with
      | [] => .next s
      | e :: es =>
        let b := s.entryBytes j e
        let s1 := (s.modWork fun w => { w with rrQueue := q }).modJq q fun j => { j with entries := es, cancelNext := j.cancelNext - 1 }
        if s.entryBad j e then .next (s1.unreadEntry q)
        else if !mine b then .next s
        else
          if j.cancelNext > 0 then .next (s1.completeEntry q e b St.chainError 0)
          else .next (f { j with entries := es } e b s1)

end Sys2Proof.Machine
end

