-- ==== Sys2Proof/Machine/Scheduler.lean ====
section
/-!
DEFINITION. The transmit scheduler of a port (13) and the start of a frame: eligibility by gate and shaper (R326–R332),
deficit round-robin (R329, R330), sealing (R278) and framing (R270, R271, R273).
-/
namespace Sys2Proof.Machine

/-- Ports of the module (R17). -/
def portCount : Nat := 4

def State.portAt (s : State) (p : Nat) : Port := (tget s.flyer.ports p).getD {}
def State.setPort (s : State) (p : Nat) (x : Port) : State := s.modFlyer fun f => { f with ports := tset f.ports p x }
def State.modPort (s : State) (p : Nat) (f : Port → Port) : State := s.setPort p (f (s.portAt p))

/-- Wavelengths of a map. -/
def wlCount (m : BitVec 9) : Nat := ((List.range 9).filter m.getLsbD).length

/-! ## Lengths, shapers, gates -/

/-- Length of a frame under R270. -/
def frameLen (f : TxFrame) : Nat := f.body.length + 42
/-- Shaped length (R326). -/
def Port.shaped (p : Port) (f : TxFrame) : Nat := frameLen f + p.overhead
/-- The lowest wavelength of a map alone. -/
def lowestOf (m : BitVec 9) : BitVec 9 := match (List.range 9).find? m.getLsbD with
  | some i => 1#9 <<< i
  | none => 0
/-- The stripe map in use: in LOW_RATE one wavelength is left (R267, R497). -/
def Port.mapNow (p : Port) : BitVec 9 := if p.state = .lowRate then lowestOf p.map else p.map

/-- A frame's 64-byte units with the wavelengths that carry them, in ascending order of the map (R264). -/
def stripe (m : BitVec 9) (frame : List Byte) : List (Nat × List Byte) :=
  let lanes := (List.range 9).filter m.getLsbD
  (indexed (chunks 64 frame.length frame)).map fun x => (lanes.getD (x.2 % max 1 lanes.length) 0, x.1)

/-- Transmission time in ns at `w` wavelengths of 400 Gbit/s, rounded up to 10 ns (R326). -/
def txTime (len w : Nat) : Nat := if w = 0 then 0 else 10 * ((len + 500 * w - 1) / (500 * w))

/-- The transmission time of a frame on a port, at 25 Gbit/s in LOW_RATE (R267, R326). -/
def Port.txTime (p : Port) (len : Nat) : Nat :=
  if p.state = .lowRate then 10 * ((len * 32 + 999) / 1000) else Machine.txTime len (wlCount p.map)

/-- A tenant's shaper for a class, its tokens accrued up to now (R327, R328): RATE MB/s is RATE thousandths of a byte
per ns. -/
def State.shaper (s : State) (tid cls : Nat) : Shaper :=
  let sh := (tget s.flyer.shapers (tid * 8 + cls)).getD {}
  { sh with milli := min (sh.burst * 1000) (sh.milli + sh.rate * (s.time.localNow - sh.lastAt)), lastAt := s.time.localNow }

/-- Cycle time of a gate list in ns (R331). -/
def gateCycle (g : List Gate) : Nat := 10 * (g.map (·.1)).sum

/-- The entry in force at a time into the cycle, and what is left of it. -/
def gateWalk : List Gate → Nat → Nat → Nat × Nat
  | [], _, _ => (0, 0)
  | (d, _) :: gs, t, i => if t < 10 * d then (i, 10 * d - t) else gateWalk gs (t - 10 * d) (i + 1)

/-- Whether an entry opens a class. -/
def gateOpen (c : Nat) (g : Gate) : Bool := g.2.getLsbD c

/-- The entries from a place on, around the list once. -/
def gateFrom (g : List Gate) (i : Nat) : List Gate := g.drop i ++ g.take i

/-- The rest of a class's open window; none where the class never closes (R332). -/
def openLeft (g : List Gate) (start now : W64) (c : Nat) : Option Nat :=
  if g.all (gateOpen c) then none
  else
    let (i, left) := gateWalk g ((now - start).toNat % gateCycle g) 0
    match gateFrom g i with
    | [] => none
    | e :: rest => if gateOpen c e then some (left + 10 * ((rest.takeWhile (gateOpen c)).map (·.1)).sum) else some 0

/-- The longest window of a class; none where it never closes. -/
def longestWindow (g : List Gate) (c : Nat) : Option Nat :=
  if g.all (gateOpen c) then none
  else some ((List.range g.length).foldl (fun m i => max m (10 * (((gateFrom g i).takeWhile (gateOpen c)).map (·.1)).sum)) 0)

/-- Whether a head frame is eligible on a port (R328, R332). -/
def State.eligible (s : State) (p : Port) (f : TxFrame) : Bool :=
  let len := p.shaped f
  let fits : Bool := match openLeft p.gates p.gateStart s.time.now f.cls with
    | none => true
    | some left => decide (0 < left ∧ p.txTime len ≤ left)
  let sh := s.shaper f.tid f.cls
  fits && (f.unshaped || !sh.enable || decide (len * 1000 ≤ sh.milli))

/-! ## Choosing (R324, R329, R330) -/

/-- The key of a queue: class × 4,096 + tenant. -/
def queueKey (cls tid : Nat) : Nat := cls * 4096 + tid

/-- The keys of a class's queues with frames, ascending. -/
def Port.queuesOf (p : Port) (c : Nat) : List Nat :=
  sortBy (fun a b => decide (a < b)) ((p.queue.filter fun f => f.cls == c).map fun f => queueKey c f.tid).eraseDups

/-- Queues and classes that have emptied lose their deficits (R329, R330). -/
def Port.settleDeficits (p : Port) : Port :=
  { p with deficit := p.deficit.filter fun e => p.queue.any fun f => queueKey f.cls f.tid == e.1
           classDeficit := p.classDeficit.filter fun e => p.queue.any fun f => f.cls == e.1 }

/-- The head frame of a queue: the oldest of the connection whose turn it is (R324). -/
def Port.headFrame (p : Port) (key : Nat) : Option TxFrame :=
  let fs := p.queue.filter fun f => queueKey f.cls f.tid == key
  let cs := sortBy (fun a b => decide (a < b)) (fs.map (·.conn)).eraseDups
  let next := match tget p.lastConn key with
    | some l => (match cs.find? fun c => decide (l < c) with | some c => some c | none => cs.head?)
    | none => cs.head?
  match next with
  | some c => fs.find? fun f => f.conn == c
  | none => none

/-- Deficit round-robin from the entry after the last one served: each visit adds the quantum, and the first entry whose
deficit covers its frame is chosen (R329). Entries are (key, frame length, quantum). -/
def drrGo : Nat → List (Nat × Nat × Nat) → Table Nat → Option (Nat × Table Nat)
  | fuel + 1, (id, len, q) :: rest, d =>
    let x := tnum d id + q
    if len ≤ x then some (id, tset d id (x - len)) else drrGo fuel (rest ++ [(id, len, q)]) (tset d id x)
  | _, _, _ => none

/-- One choice: the entry of the present visit while its deficit lasts, then the next in ascending order. -/
def drr (cands : List (Nat × Nat × Nat)) (last : Option Nat) (d : Table Nat) : Option (Nat × Table Nat) :=
  match cands.find? fun c => last == some c.1 && decide (c.2.1 ≤ tnum d c.1) with
  | some c => some (c.1, tset d c.1 (tnum d c.1 - c.2.1))
  | none =>
    let after := match last with
      | some l => (cands.filter fun c => decide (l < c.1)) ++ cands.filter fun c => decide (c.1 ≤ l)
      | none => cands
    drrGo (12 * (cands.length + 1)) after d

/-- Whether a queue's head frame is eligible. -/
def State.keyReady (s : State) (p : Port) (key : Nat) : Bool := match p.headFrame key with
  | some f => s.eligible p f
  | none => false

/-- At a choice, queues whose head frame is not eligible and classes that do not count lose their deficits (R329, R330). -/
def State.skipIdle (s : State) (p : Port) : Port :=
  { p with deficit := p.deficit.filter fun e => s.keyReady p e.1
           classDeficit := p.classDeficit.filter fun e => (p.queuesOf e.1).any (s.keyReady p) }

/-- The choice within one class: the frame, and the port with that class's deficits (R329). -/
def State.pickTenant (s : State) (p : Port) (c : Nat) : Option (TxFrame × Port) :=
  let keys := p.queuesOf c
  let cands := keys.filterMap fun k => match p.headFrame k with
    | some f => if s.eligible p f then some (k, p.shaped f, (s.shaper f.tid c).weight * 1024) else none
    | none => none
  match drr cands ((tget p.lastTenant c).map (queueKey c)) p.deficit with
  | none => none
  | some (k, d) => match p.headFrame k with
    | none => none
    | some f => some (f, { p with deficit := d, lastTenant := tset p.lastTenant c f.tid })

/-- The next frame of a port: class 7 first, then classes 0–6 by deficit round-robin (R330). -/
def State.choose (s : State) (p : Port) : Option (TxFrame × Port) :=
  match s.pickTenant p 7 with
  | some x => some x
  | none =>
    let picks := (List.range 7).filterMap fun c => (s.pickTenant p c).map fun x => (c, x)
    let cands := picks.map fun x => (x.1, p.shaped x.2.1, p.quantum.getD x.1 16384)
    match drr cands (some p.lastClass) p.classDeficit with
    | none => none
    | some (c, d) => match picks.find? fun x => x.1 == c with
      | none => none
      | some (_, f, p') => some (f, { p' with classDeficit := d, lastClass := c })

/-! ## Sending a frame (R270, R271, R273, R278) -/

/-- A node's address (R271). -/
def State.mac (s : State) (node : Nat) : List Byte := toBe 3 s.cfg.macPrefix.toNat ++ [0] ++ toBe 2 node

/-- The number of the key of one direction (0 towards the peer) and generation of a key pair. -/
def keyId (pair dir gen : Nat) : Nat := (pair * 2 + dir) * 2 ^ 32 + gen

/-- NODE_ID as frames carry it. -/
def State.nodeNo (s : State) : Nat := s.cfg.nodeId.getD 0x3FF

/-- The nonce of R278. -/
def nonce (node count : Nat) : List Byte := toLe 2 node ++ zeros 2 ++ toLe 8 count

/-- A sealed frame without its LSEQ, reserved bytes and FCS, and the session after it (R278). -/
def State.sealFrame (s : State) (f : TxFrame) (x : Session) : List Byte × Session :=
  let hdr := patch (patch (f.body.take 64) 30 (toLe 2 (x.peerIndex * 2 + x.txGen % 2))) 32 (toLe 8 x.txCount)
  let (ct, tag) := Config.gcmSeal (keyId x.keyNo 0 x.txGen) (nonce s.nodeNo x.txCount) hdr (f.body.drop 64)
  let outer := s.mac f.dst ++ s.mac s.nodeNo ++ [0x81, 0x00] ++ toBe 2 (f.cls * 8192 + f.pathTag) ++ [0x88, 0xB5]
  (outer ++ hdr ++ ct ++ tag, { x with txCount := x.txCount + 1 })

/-- LSEQ, three zero bytes and the FCS (R270). -/
def closeFrame (b : List Byte) (lseq : Byte) : List Byte :=
  let x := b ++ [lseq, 0, 0, 0]
  x ++ toLe 4 (crc32 x).toNat

/-- Whether a port's link layer can start a frame (R266, R273). -/
def Port.canStart (p : Port) : Bool :=
  (p.state == .up || p.state == .lowRate) && p.sending.isNone && decide (p.replay.length < 64) &&
  !p.failover && p.light && !p.partnerLowRate

/-- Whether a queued frame cannot fit any window of its class at the present width (R333). -/
def Port.stalls (p : Port) : Bool :=
  p.queue.any fun f => match longestWindow p.gates f.cls with
    | none => false
    | some w => decide (w < p.txTime (p.shaped f))

/-- Request opcodes, whose last packet starts the ACK timer (R300). -/
def requestOps : List Nat := [1, 2, 4, 5, 7, 8, 9, 10]

/-- Starts sending a chosen frame. -/
def State.startFrame (s : State) (p : Nat) (f : TxFrame) (x : Port) : State :=
  match tget s.flyer.sessions f.sess with
  | none => s.setPort p { x with queue := x.queue.erase f }
  | some ses =>
    let (b, ses) := s.sealFrame f ses
    let frame := closeFrame b x.sendSeq
    let key := queueKey f.cls f.tid
    let len := x.shaped f
    let sh := s.shaper f.tid f.cls
    let wait := s.time.localNow - f.queuedAt
    let rest := x.queue.erase f
    let x1 := { x with
      queue := rest, sending := some f, replay := x.replay ++ [(x.sendSeq, frame)], sendSeq := x.sendSeq + 1,
      oldestAt := if x.replay.isEmpty then s.time.localNow else x.oldestAt,
      lastConn := tset x.lastConn key f.conn, framesSent := tadd x.framesSent key 1,
      maxDelay := tset x.maxDelay key (max wait (tnum x.maxDelay key)) }
    let s := s.setPort p x1.settleDeficits
    let stamp := fun (m : Msg) => if m.seq = field f.body 16 4 then { m with sentAt := s.time.localNow } else m
    let s := s.modFlyer fun y =>
      { y with sessions := tset y.sessions f.sess ses,
               shapers := if f.unshaped || !sh.enable then y.shapers
                          else tset y.shapers (f.tid * 8 + f.cls) { sh with milli := sh.milli - len * 1000 },
               conns := if requestOps.contains (field f.body 0 1) && bit 0 (field f.body 1 1) then
                          tmod y.conns f.conn fun k => { k with unacked := k.unacked.map stamp }
                        else y.conns }
    s.emit (.frame p x.mapNow frame)

/-- An idle port starts its next frame where one is eligible. -/
def State.kick (s : State) (p : Nat) : State :=
  let x := s.portAt p
  let s := if x.stalls && !(s.flagWord (Flag.gateStall p).1).getLsbD (Flag.gateStall p).2 then s.setFlag (Flag.gateStall p) else s
  if !x.canStart || x.queue.isEmpty then s
  else
    let x := s.skipIdle x
    match s.choose x with
    | none => s.setPort p x
    | some (f, x) => s.startFrame p f x

/-- Every idle port starts its next frame, in ascending port order (R328). -/
def State.kickAll (s : State) : State := (List.range portCount).foldl State.kick s

end Sys2Proof.Machine
end

