-- ==== Sys2Proof/Machine/Sketch.lean ====
section
/-!
DEFINITION. Sketch records (R159–R161): the extremes of each channel over a bobbin's tokens, kept by the sixteen whorls
of its group.
-/
namespace Sys2Proof.Machine

/-- The key of a sketch record: leaf × 16 + whorl. -/
def sketchKey (leaf whorl : Nat) : Nat := leaf * 16 + whorl

/-- A value as a sketch holds it (R59, R159). -/
def sketchValue (v : W32) : W16 := toBf16 (ofF32 v)

/-- The larger and the smaller of two sketch values. -/
def sketchMax (a b : W16) : W16 := if (ofBf16 a).lt (ofBf16 b) then b else a
def sketchMin (a b : W16) : W16 := if (ofBf16 b).lt (ofBf16 a) then b else a

/-- A record after one more token: the first sets HI and LO, each later one widens them (R160). -/
def widen (old : Option (List W16 × List W16)) (vals : List W16) : List W16 × List W16 :=
  match old with
  | none => (vals, vals)
  | some (hi, lo) => (hi.zipWith sketchMax vals, lo.zipWith sketchMin vals)

/-- A token's values applied to the sixteen records of a leaf (R160). -/
def Skein.sketchToken (k : Skein) (leaf : Nat) (vals : List W32) : Skein :=
  let w := k.elements / 16
  { k with sketches := (List.range 16).foldl (fun t i =>
      tset t (sketchKey leaf i) (widen (tget t (sketchKey leaf i)) (((vals.drop (i * w)).take w).map sketchValue))) k.sketches }

/-- The records of a leaf removed. -/
def Skein.dropSketch (k : Skein) (leaf : Nat) : Skein := { k with sketches := k.sketches.filter fun e => e.1 / 16 != leaf }

/-- The records of a leaf rebuilt from the bobbin's data at its present place (R161). -/
def Skein.rebuildSketch (k : Skein) (m : Mem) (key : Nat) : Skein :=
  if !k.sketch then k else
  match tget k.leaves key with
  | none => k
  | some l =>
    let addr := slotAddr l.tier l.pbn
    let slubs := slubList m addr
    (List.range l.count).foldl (fun k i => match tokenValues m addr k.elements l.format k.cap slubs i with
      | some v => k.sketchToken key v
      | none => k) (k.dropSketch key)

/-- The records of a bobbin after a move: dropped outside tier 1, kept by a plain move within it, otherwise rebuilt
(R152, R161). -/
def State.moveSketch (s : State) (idx key srcTier : Nat) (recoded : Bool) : State :=
  match s.skein? idx with
  | none => s
  | some k =>
    match tget k.leaves key with
    | none => s
    | some l =>
      if !k.sketch then s
      else if l.tier ≠ 1 then s.setSkein idx (k.dropSketch key)
      else if srcTier = 1 ∧ !recoded then s
      else s.setSkein idx (k.rebuildSketch s.mem key)

/-- The stack of a tier-1 slot's channel group (R151). -/
def stackOf (pbn : Nat) : Nat := pbn % 64 / 8

/-- Entries of a stack's update queue (R160); updates beyond them stay with the carding pass until there is room. -/
def sketchSlots : Nat := 4096

/-- Sketch updates of a stack that are not applied yet. -/
def State.sketchDepth (s : State) (stack : Nat) : Nat := (s.store.sketchQ.filter fun q => q.1 == stack).length
/-- Whether a stack's queue is full: carding writes into the stack are held (R160). -/
def State.sketchFull (s : State) (stack : Nat) : Bool := decide (sketchSlots ≤ s.sketchDepth stack)

/-- The 128 bytes of the sketch record of one whorl of a leaf (R159). -/
def Skein.sketchRecord (k : Skein) (leaf whorl : Nat) : List Byte :=
  let (hi, lo) := (tget k.sketches (sketchKey leaf whorl)).getD ([], [])
  let half := fun (xs : List W16) => padTo 64 (xs.flatMap fun x => toLe 2 x.toNat)
  half hi ++ half lo

/-- The bobbins of a row that hold tokens [first, last), with the tokens of each. -/
def bobbinRanges (cap first last : Nat) : List (Nat × Nat × Nat) :=
  if last ≤ first then [] else
  (List.range ((last - 1) / cap + 1 - first / cap)).map fun i =>
    let b := first / cap + i
    (b, max first (b * cap), min last ((b + 1) * cap))

/-- Queues the sketch update of one token (R160): only bobbins at tier 1 have sketches. -/
def State.queueSketch (s : State) (idx key slot : Nat) : State :=
  match s.skein? idx with
  | none => s
  | some k =>
    match tget k.leaves key with
    | none => s
    | some l =>
      let addr := slotAddr l.tier l.pbn
      if l.tier ≠ 1 then s
      else match tokenValues s.mem addr k.elements l.format k.cap (slubList s.mem addr) slot with
        | some v => s.modStore fun t =>
            { t with sketchQ := t.sketchQ ++ [(stackOf l.pbn, { skein := idx, key, values := v, seq := t.sketchSeq })],
                     sketchSeq := t.sketchSeq + 1 }
        | none => s

/-- Queues the sketch updates of an APPEND's new tokens (R160). -/
def State.queueSketches (s : State) (a : Append) : State :=
  match s.skein? (skIndex a.skein) with
  | none => s
  | some k =>
    if !k.sketch || k.handle != a.skein then s
    else (List.range a.ids.length).foldl (fun s i =>
      s.queueSketch (skIndex a.skein) (leafKey a.layer a.hg ((a.t0 + i) / k.cap)) ((a.t0 + i) % k.cap)) s

/-- Drops the appends of a connection; what an applied one has written still reaches the sketches (R49, R160, R282). -/
def State.dropAppends (s : State) (c : Nat) : State :=
  let gone := s.store.appends.filter fun a => a.conn == c && a.applied
  (gone.foldl State.queueSketches s).modStore fun t =>
    { t with appends := t.appends.filter fun a => a.conn != c, writeHold := t.writeHold.filter fun w => w.1 != c }

end Sys2Proof.Machine
end

