-- ==== Sys2Proof/Machine/Transport.lean ====
section
/-!
DEFINITION. Transport shared by every message (11): packets (R275, R276), spraying (R292), ACK and NAK (R298), the end
of a sent message (R133, R322), ERROR (R282), retransmission (R300), reads of regions (R285, R287), completion of a
received message (R296).
-/
namespace Sys2Proof.Machine

/-! ## Codes -/

namespace Op
def write : Nat := 1
def read : Nat := 2
def readResponse : Nat := 3
def send : Nat := 4
def fetchAdd : Nat := 5
def atomicResponse : Nat := 6
def compareSwap : Nat := 7
def query : Nat := 8
def ply : Nat := 9
def append : Nat := 10
def ack : Nat := 16
def nak : Nat := 17
end Op

/-- Operations of R277. -/
def opKnown (op : Nat) : Bool := decide (1 ≤ op ∧ op ≤ 10) || op == Op.ack || op == Op.nak
/-- Operations whose payload is held in the receive buffer (R293). -/
def opHeld (op : Nat) : Bool := [Op.readResponse, Op.send, Op.query, Op.ply, Op.append].contains op
/-- Operations that carry a region key (R275). -/
def opKeyed (op : Nat) : Bool := [Op.write, Op.read, Op.fetchAdd, Op.compareSwap].contains op
/-- Operations answered by a response (R277). -/
def opAnswered (op : Nat) : Bool := [Op.read, Op.fetchAdd, Op.compareSwap].contains op

/-- Payload bytes of a packet (R276). -/
def pieceBytes : Nat := 9088
/-- Longest message (R275). -/
def msgMax : Nat := 16777216

def State.conn? (s : State) (c : Nat) : Option Conn := tget s.flyer.conns c
def State.modConn (s : State) (c : Nat) (f : Conn → Conn) : State := s.modFlyer fun y => { y with conns := tmod y.conns c f }

/-- `a` is at or below `b` in serial arithmetic (R295). -/
def seqLe (a b : Nat) : Bool := decide ((b + 2 ^ 32 - a % 2 ^ 32) % 2 ^ 32 < 2 ^ 31)

/-- Steps from `a` up to `b` in serial arithmetic. -/
def seqDist (a b : Nat) : Nat := (b + 2 ^ 32 - a % 2 ^ 32) % 2 ^ 32

/-! ## Headers and frames (R275, R276, R292) -/

/-- What the fields beyond a connection's own say in one header. -/
structure Hdr where
  op : Nat
  flags : Nat
  seq : Nat
  key : Nat := 0
  roff : Nat := 0
  ackSeq : Nat := 0
  status : Nat := 0
  credit : Nat := 0
  retry : Nat := 0

/-- A transport header before SESSION and PKT_COUNT are set (R275). -/
def headerBytes (h : Hdr) (path src dst dstConn srcConn off total plen : Nat) : List Byte :=
  toLe 1 h.op ++ toLe 1 h.flags ++ [1] ++ toLe 1 path ++ toLe 2 src ++ toLe 2 dst ++ toLe 4 dstConn ++ toLe 4 srcConn ++
  toLe 4 h.seq ++ toLe 4 off ++ toLe 4 total ++ toLe 2 plen ++ zeros 10 ++ toLe 4 h.key ++ toLe 8 h.roff ++
  toLe 4 h.ackSeq ++ toLe 2 h.status ++ toLe 2 h.credit ++ toLe 4 h.retry

/-- Whether a path is in service: its port is UP or LOW_RATE (R292). -/
def State.pathUp (s : State) (p : Nat × Nat) : Bool := (s.portAt p.1).state == .up || (s.portAt p.1).state == .lowRate

/-- Indices of a connection's paths in service. -/
def State.pathsUp (s : State) (k : Conn) : List Nat := (indexed k.paths).filterMap fun p => if s.pathUp p.1 then some p.2 else none

/-- The list from its first element at or above a number, going around. -/
def turnTo (ps : List Nat) (i : Nat) : List Nat := (ps.filter fun p => decide (i ≤ p)) ++ ps.filter fun p => decide (p < i)

/-- Puts a frame into a port's transmit queue. -/
def State.queueFrame (s : State) (port : Nat) (f : TxFrame) : State := s.modPort port fun p => { p with queue := p.queue ++ [f] }

/-- Queues the packets of one message of a connection, dealt to the paths in the order given (R276, R292). -/
def State.queuePackets (s : State) (c : Nat) (k : Conn) (order : List Nat) (cls : Nat) (unshaped : Bool) (h : Hdr)
    (payload : List Byte) : State :=
  match order with
  | [] => s
  | _ :: _ =>
    let pieces := if payload.isEmpty then [[]] else chunks pieceBytes payload.length payload
    (indexed pieces).foldl (fun s x =>
      let first := x.2 == 0
      let last := x.2 + 1 == pieces.length
      let path := order.getD (x.2 % order.length) 0
      let pt := k.paths.getD path (0, 0)
      let flags := h.flags + (if first then 2 else 0) + (if last then 1 else 0)
      let hd := headerBytes { h with flags } path s.nodeNo k.peerNode k.peerConn.toNat k.handle.toNat (x.2 * pieceBytes)
        (if last then payload.length else 0) x.1.length
      s.queueFrame pt.1
        { tid := tidOf k.tenant, cls, conn := c, sess := k.sess, dst := k.peerNode, pathTag := pt.2, body := hd ++ x.1,
          queuedAt := s.time.localNow, unshaped }) s

/-- ACK_REQ and RETRY flags (R275). -/
def flagAckReq : Nat := 4
def flagRetry : Nat := 8

/-- Sends a message of a connection: it starts with the path after the one that carried the previous message's first
packet (R292). Gives that path. -/
def State.sendPackets (s : State) (c : Nat) (h : Hdr) (payload : List Byte) : Nat × State :=
  match s.conn? c with
  | none => (0, s)
  | some k =>
    let order := turnTo (s.pathsUp k) k.nextPath
    let first := match order with
      | p :: _ => p
      | [] => k.nextPath
    let s := s.queuePackets c k order k.cls false h payload
    (first, (s.modConn c fun k => { k with nextPath := (first + 1) % max 1 k.paths.length }).kickAll)

/-! ## ACK and NAK (R297, R298) -/

/-- Whether a message has been received whole (R293). -/
def Reasm.received (r : Reasm) : Bool := r.total == some r.got

/-- The reassembly context of a connection and message, responses apart from requests. -/
def State.reasm? (s : State) (c seq : Nat) (response : Bool) : Option Reasm :=
  s.flyer.reasm.find? fun r => r.conn == c && r.seq == seq && (r.opcode == Op.readResponse || r.opcode == Op.atomicResponse) == response

/-- CREDIT: free receive buffer in 64 KiB units (R297). -/
def Conn.creditNow (k : Conn) : Nat := if k.creditZero then 0 else min 65535 (k.rxBuffer - (k.rxUse + 65535) / 65536)

/-- Sends an ACK or NAK in class 7 (R325). -/
def State.sendCtl (s : State) (c : Nat) (h : Hdr) (payload : List Byte) : State :=
  match s.conn? c with
  | none => s
  | some k =>
    (s.queuePackets c k ((s.pathsUp k).take 1) 7 true { h with ackSeq := k.lcs, credit := k.creditNow } payload).kickAll

/-- An ACK with its receive bitmap; no ACK is owed then (R298). -/
def State.sendAck (s : State) (c : Nat) : State :=
  match s.conn? c with
  | none => s
  | some k =>
    let bit := fun i => match s.reasm? c ((k.lcs + 1 + i) % 2 ^ 32) false with
      | some r => if r.received then 2 ^ i else 0
      | none => 0
    (s.modConn c fun k => { k with sinceAck := 0, oldestUnacked := none }).sendCtl c { op := Op.ack, flags := 0, seq := 0 }
      (toLe 8 ((List.range 64).map bit).sum)

/-- A NAK for a message (R298, R301). -/
def State.sendNak (s : State) (c seq st retry : Nat) : State := s.sendCtl c { op := Op.nak, flags := 0, seq, status := st, retry } []

/-! ## The end of a sent message -/

/-- The completion of what stood in a send queue: a work request's own, or that of the job or combine whose PLY send it
was; a failure notice only counts (R133, R139, R318, R322). -/
def State.endSend (s : State) (c : Nat) (src : Option (Nat × Nat)) (trig : Option TrigRef) (onDone : Option Cqe) (shown : Bool)
    (e : Cqe) : State :=
  match src with
  | none => s.doneSq c trig shown e
  | some (0, j) =>
    let s := s.countSq c e.status
    match tget s.work.jobs j with
    | some x => s.endJob j x e.status e.retry (if e.status = 0 then e.bytes else 0)
    | none => s
  | some (1, q) =>
    let s := s.countSq c e.status
    match onDone with
    | some d => (s.doneJq q trig { d with status := if e.status = 0 then d.status else e.status, retry := e.retry, bytes := e.bytes }).answerQueue q
    | none => s
  | some _ => s.countSq c e.status

/-- Bytes placed or sent by a message. -/
def Msg.bytes (m : Msg) : Nat := if m.opcode = Op.read then m.len else if opAnswered m.opcode then 8 else m.payload.length

/-- The completion of a sent message. -/
def State.endMsg (s : State) (c : Nat) (m : Msg) (st retry : Nat) : State :=
  s.endSend c m.source m.trig m.onDone (m.signal || st != 0)
    { tag := m.tag, status := st, kind := 4, msgSeq := m.seq, bytes := if st = 0 then m.bytes else 0, retry }

/-- The 64 bytes of a send-queue entry. -/
def State.sqBytes (s : State) (k : Conn) (e : QEntry) : List Byte :=
  match e.slot with
  | some i => s.mem.areaRead k.area (64 * i) 64
  | none => padTo 64 e.bytes

/-- Whether the slot of a send-queue entry lies in an uncorrectable line (R444). -/
def State.sqBad (s : State) (k : Conn) (e : QEntry) : Bool := match e.slot with
  | some i => s.areaBad k.area (64 * i) 64
  | none => false

/-- The completion of a send-queue entry whose slot could not be read: its TAG is a free value (R444; DESIGN CHOICE, log 3). -/
def State.unreadWr (s : State) (c : Nat) (e : QEntry) : State :=
  let (t, s) := s.free (2 ^ 64)
  s.endSend c e.source e.trig e.onDone true { tag := BitVec.ofNat 64 t, status := St.internal, kind := 4 }

/-- The completion of a send-queue entry that sent nothing. -/
def State.endUnsent (s : State) (c : Nat) (k : Conn) (e : QEntry) (st : Nat) : State :=
  s.endSend c e.source e.trig e.onDone true { tag := entryTag (s.sqBytes k e), status := st, kind := 4 }

/-- The end of the wait at the head of a send queue (R320). -/
def State.endWaitSq (s : State) (c : Nat) (w : Wait) (st : Nat) (cancel : Bool) : State :=
  (s.modConn c fun k => { k with wait := none, cancelNext := if cancel then k.cancelNext + w.cancelNext else k.cancelNext }).doneSq
    c w.trig true { tag := w.tag, status := st, kind := 4 }

/-- Waits whose source is destroyed end with ST_STALE_HANDLE and cancel: kind 0 a job queue, 1 a connection (R320). -/
def State.sourceGone (s : State) (kind : Nat) (source : W32) : State :=
  let on := fun (w : Option Wait) => w.filter fun w => w.sourceKind == kind && w.source == source
  let s := s.work.jqs.foldl (fun s q => match on q.2.wait with
    | some w => s.endWaitJq q.1 w St.staleHandle true
    | none => s) s
  s.flyer.conns.foldl (fun s k => match on k.2.wait with
    | some w => s.endWaitSq k.1 w St.staleHandle true
    | none => s) s

/-! ## Freeing and ERROR (R282) -/

/-- Frames of a connection leave every transmit queue; telemetry still sees that the queues held them (R334). -/
def State.dropFrames (s : State) (c : Nat) : State :=
  (List.range portCount).foldl (fun s p => s.modPort p fun x =>
    let gone := x.queue.filter fun f => f.conn == c
    let y : Port := { x with queue := x.queue.filter (fun f => f.conn != c)
                             framesSent := gone.foldl (fun t f => tadd t (queueKey f.cls f.tid) 0) x.framesSent }
    y.settleDeficits) s

/-- Reassembly contexts of a connection go, with the appends that they fed. -/
def State.dropReasm (s : State) (c : Nat) : State :=
  (s.dropAppends c).modFlyer fun f => { f with reasm := f.reasm.filter fun r => r.conn != c }

/-- A connection becomes FREE: its index takes its next generation, its slabs and charges go back (R282). -/
def State.freeConn (s : State) (c : Nat) : State :=
  match s.conn? c with
  | none => s
  | some k =>
    let s := (s.dropFrames c).dropReasm c
    let s := (s.dropArea k.area).giveSlots k.rxArea
    let s := (s.credit k.tenant qDram (k.area.length + k.rxArea.length)).credit k.tenant qConn 1
    (s.modFlyer fun f => { f with conns := tdel f.conns c, connPool := (f.connPool.bump 16383 c).put c }).sourceGone 1 k.handle

/-- What follows once a connection has nothing outstanding: DRAINING ends, a destroyed connection is freed (R282). -/
def State.settle (s : State) (c : Nat) : State :=
  match s.conn? c with
  | none => s
  | some k =>
    if !k.unacked.isEmpty then s
    else match k.destroyWaiter with
      | some w => (s.freeConn c).answer w St.ok []
      | none =>
        if k.state = .draining then
          (s.modConn c fun k => { k with state := .ready, drainWaiters := [] }).answerAll k.drainWaiters St.ok []
        else s

/-- Entry to ERROR: the message that caused it completes with the cause's status, all other work requests with
ST_CONN_ERROR (R282). -/
def State.connError (s : State) (c st : Nat) (cause : Option Nat) : State :=
  match s.conn? c with
  | none => s
  | some k =>
    if k.state = .error then s
    else
      let s := s.modConn c fun k =>
        { k with state := .error, unacked := [], sq := [], wait := none, ctl := [], rxUse := 0, cancelNext := 0,
                 sinceAck := 0, oldestUnacked := none, drainWaiters := [], creditZero := false }
      let s := (s.dropFrames c).dropReasm c
      let s := k.unacked.foldl (fun s m => s.endMsg c m (if cause = some m.seq then st else St.connError) 0) s
      let s := match k.wait with
        | some w => s.endWaitSq c w St.connError false
        | none => s
      let s := k.sq.foldl (fun s e => s.endUnsent c k e St.connError) s
      (s.answerAll k.drainWaiters St.connError []).settle c

/-! ## Retransmission (R300) -/

/-- Sends a message again in all its packets, on a path other than its first where one exists; beyond RETRY_LIMIT the
connection goes to ERROR (R292, R300). -/
def State.retransmit (s : State) (c : Nat) (m : Msg) : State :=
  match s.conn? c with
  | none => s
  | some k =>
    if m.attempts ≥ k.retryLimit then s.connError c St.retryExceeded (some m.seq)
    else
      let order := turnTo (s.pathsUp k) ((m.path + 1) % max 1 k.paths.length)
      let set := fun (x : Msg) => if x.seq = m.seq then { x with attempts := x.attempts + 1, sentAt := s.time.localNow } else x
      let s := s.modConn c fun k => { k with unacked := k.unacked.map set }
      let flags := flagRetry + if m.ackReq then flagAckReq else 0
      (s.queuePackets c k order k.cls false { op := m.opcode, flags, seq := m.seq, key := m.key.toNat, roff := m.roff.toNat }
        m.payload).kickAll

/-! ## Regions (R285, R287, R288) -/

/-- Steps 1 and 2 of R285. -/
def State.regionGrant (s : State) (tag : W16) (key : W32) (right : Nat) : Res Region :=
  match s.regionFor tag key with
  | none => .error St.staleKey
  | some r => do
    need (bit right r.rights) St.notPermitted
    return r

/-- The pieces of bobbins that a range of a row covers: bobbin, first byte, end. -/
def bobbinPieces : Nat → Nat → Nat → List (Nat × Nat × Nat)
  | 0, _, _ => []
  | fuel + 1, pos, stop =>
    if stop ≤ pos then [] else
    let e := min stop ((pos / slotBytes + 1) * slotBytes)
    (pos / slotBytes, pos % slotBytes, e - pos / slotBytes * slotBytes) :: bobbinPieces fuel e stop

/-- Bytes [lo, hi) of a bobbin as R287 reads them: every sealed block sent is checked under R74, and the check words of leas
not sealed are computed. -/
def State.readBobbin (s : State) (idx : Nat) (k : Skein) (key lo hi : Nat) : Nat × List Byte × State :=
  match k.xlate key with
  | .notPresent => (St.lengthRange, [], s)
  | .reload _ => (St.notResident, [], s)
  | .recompute _ => (St.recomputeNeeded, [], s)
  | .ok l =>
    let addr := slotAddr l.tier l.pbn
    let sent := (List.range 16).filter fun b => decide (4096 * b < hi ∧ lo < 4096 * (b + 1))
    let sealedOk := sent.all fun b =>
      decide (sealedLeas k.cap l ≤ b / 4) || blockOk (s.memFor k.tenant) addr (keyLayer key) (keyHg key) (keyBob key) b
    let s := s.checkTag k.tenant flyerUnit (addr + lo)
    if !sealedOk then (St.recomputeNeeded, [], s.damage idx key)
    else
      let m := ((List.range 4).filter fun i => decide (sealedLeas k.cap l ≤ i)).foldl (fun m i =>
        sealLea m addr (keyLayer key) (keyHg key) (keyBob key) i) (s.memFor k.tenant)
      (St.ok, m.readN (addr + lo) (hi - lo), s)

/-- Pieces of a row one after the other; the first failure ends the read. -/
def State.readPieces (s : State) (idx : Nat) (k : Skein) (row : Nat) : List (Nat × Nat × Nat) → Nat × List Byte × State
  | [] => (St.ok, [], s)
  | p :: ps =>
    match s.readBobbin idx k (row * 65536 + p.1) p.2.1 p.2.2 with
    | (0, b, s) =>
      match readPieces s idx k row ps with
      | (0, bs, s) => (St.ok, b ++ bs, s)
      | x => x
    | x => x

/-- A read of a region: status, bytes, and the state, in which a failed check has marked its bobbin (R285 step 3, R287,
R31, R32). -/
def State.readRegion (s : State) (r : Region) (off n : Nat) : Nat × List Byte × State :=
  if r.kind = 1 then
    if r.length < off + n then (St.lengthRange, [], s)
    else if s.areaBad r.area off n then (St.internal, [], s)
    else (St.ok, s.bufRead r off n, s.checkTag r.tenant flyerUnit (slotAddr 1 (r.area.getD (off / slotBytes) 0) + off % slotBytes))
  else
    match s.skeinFor r.tenant r.skein with
    | none => (St.staleHandle, [], s)
    | some k =>
      if r.kind = 3 then
        if off + n > 16 then (St.lengthRange, [], s)
        else
          let s := s.expireLease (skIndex r.skein)
          match s.skein? (skIndex r.skein) with
          | some k => (St.ok, ((toLe 8 k.lease.toNat ++ toLe 8 k.expiry.toNat).drop off).take n, s)
          | none => (St.staleHandle, [], s)
      else if off ≥ 2 ^ 48 then (St.reservedNonzero, [], s)
      else
        let layer := off / 2 ^ 40
        let hg := off / 2 ^ 32 % 256
        let pos := off % 2 ^ 32
        let row := rowKey layer hg
        let shown := (k.rowLength row + k.cap - 1) / max 1 k.cap
        if layer ≥ k.layers ∨ hg ≥ k.heads ∨ pos + n > shown * slotBytes then (St.lengthRange, [], s)
        else s.readPieces (skIndex r.skein) k row (bobbinPieces (n / slotBytes + 2) pos (pos + n))

/-- Places bytes into a local region: a BUFFER of the tenant that holds them (R277, R302). -/
def State.placeLocal (s : State) (tag : W16) (key : W32) (off : Nat) (bs : List Byte) : Res State :=
  match s.regionFor tag key with
  | none => .error St.staleKey
  | some r => do
    need (r.kind == 1) St.notPermitted
    need (decide (off + bs.length ≤ r.length)) St.lengthRange
    return s.bufWrite r off bs

/-! ## Completion of a received message (R296, R298, R301) -/

/-- Drops a context and gives its buffer space back (R297). -/
def State.endReasm (s : State) (c seq : Nat) (response : Bool) : State :=
  match s.reasm? c seq response with
  | none => s
  | some r =>
    let s := s.modFlyer fun f => { f with reasm := f.reasm.erase r }
    if opHeld r.opcode then s.modConn c fun k => { k with rxUse := k.rxUse - r.got } else s

/-- A message completes: LCS advances to it; success is acknowledged under R298, any other status by a NAK under R301,
after which STOP_ON_ERROR puts the connection in ERROR (R282). -/
def State.completeRx (s : State) (c seq : Nat) (ackReq : Bool) (st retry : Nat) : State :=
  let s := (s.endReasm c seq false).modConn c fun k =>
    { k with lcs := seq, sinceAck := k.sinceAck + 1, creditZero := false,
             oldestUnacked := match k.oldestUnacked with
               | some t => some t
               | none => some s.time.localNow }
  match s.conn? c with
  | none => s
  | some k =>
    if st = St.ok then
      if ackReq || decide (k.sinceAck ≥ 8) then s.sendAck c else s
    else
      let s := s.sendNak c seq st retry
      if k.stopOnError then s.connError c st none else s

/-- A response to a request, under the request's MSG_SEQ (R277). -/
def State.respond (s : State) (c op seq : Nat) (bytes : List Byte) : State :=
  (s.sendPackets c { op, flags := 0, seq } bytes).2

/-- The received message that a connection executes next, where it is of one opcode (R296); the connection is not in
ERROR. -/
def State.ready? (s : State) (c seq op : Nat) : Option (Conn × Reasm) :=
  match s.conn? c, s.reasm? c seq false with
  | some k, some r =>
    if k.state != .error && s.awake && seq == (k.lcs + 1) % 2 ^ 32 && r.opcode == op && r.received then some (k, r) else none
  | _, _ => none

/-- The payload of a received message. -/
def Reasm.payload (r : Reasm) : List Byte := (r.parts.map (·.2)).flatten

/-- A message row: the named message executes where it is the next of its connection; otherwise nothing happens
(DEDUCED, log 2). -/
def msgRow (c seq op : Nat) (s : State) (f : Conn → Reasm → List Byte → State → State) : Host.Outcome State Fault Refusal :=
  match s.ready? c seq op with
  | none => .next s
  | some (k, r) => .next (f k r r.payload s)

end Sys2Proof.Machine
end

