-- ==== Sys2Proof/Machine/Wire.lean ====
section
/-!
DEFINITION. Vectors on the wire: wire-8 (R79–R82), BF16 rows, and ply rows (R83, R84, R131).
-/
namespace Sys2Proof.Machine

/-- Bytes of a wire-8 vector of `n` channels with `s` slub entries (R79). -/
def wire8Size (n s : Nat) : Nat := n / 32 + n + 4 * s
/-- Bytes of a vector in either format. -/
def vectorSize (n s : Nat) (bf16 : Bool) : Nat := if bf16 then 2 * n else wire8Size n s

/-- Slub entries of a wire-8 vector: channel and BF16 value (R79). -/
def slubEntries (n s : Nat) (bs : List Byte) : List (Nat × W16) :=
  (List.range s).map fun i => (field bs (n / 32 + n + 4 * i) 2, BitVec.ofNat 16 (field bs (n / 32 + n + 4 * i + 2) 2))

/-- Used entries come first, strictly ascending below `n` (R80). -/
def slubOrder (n : Nat) : List Nat → Bool
  | [] => true
  | c :: cs =>
    if c = 0xFFFF then cs.all (· == 0xFFFF)
    else decide (c < n) && (match cs with
      | [] => true
      | d :: _ => decide (d = 0xFFFF ∨ c < d)) && slubOrder n cs

/-- The FP32 values of a wire-8 vector, or the status that refuses it (R80, R81). -/
def decodeWire8 (n s : Nat) (bs : List Byte) : Res (List W32) := do
  let slubs := slubEntries n s bs
  need (slubOrder n (slubs.map (·.1))) St.lengthRange
  let scales := (List.range (n / 32)).map fun i => field bs i 1
  let codes := (List.range n).map fun i => field bs (n / 32 + i) 1
  need (scales.all (· != 255) && codes.all (fun c => !Enc.isNaN .e4m3 c) && slubs.all fun e => !nonfinite16 e.2) St.nonfinite
  let plain := (indexed codes).map fun c => elementValue .e4m3 (scales.getD (c.2 / 32) 0) c.1
  return (slubs.filter fun e => e.1 != 0xFFFF).foldl (fun v e => v.set e.1 (toF32 (ofBf16 e.2))) plain

/-- The FP32 values of a BF16 vector (R83, R84). -/
def decodeBf16 (n : Nat) (bs : List Byte) : Res (List W32) := do
  let vs := (List.range n).map fun i => BitVec.ofNat 16 (field bs (2 * i) 2)
  need (vs.all fun v => !nonfinite16 v) St.nonfinite
  return vs.map fun v => toF32 (ofBf16 v)

/-- The values of a vector in either format. -/
def decodeVector (n s : Nat) (bf16 : Bool) (bs : List Byte) : Res (List W32) := if bf16 then decodeBf16 n bs else decodeWire8 n s bs

/-- A vector narrowed to wire-8 (R82). -/
def encodeWire8 (n s : Nat) (vals : List W32) : List Byte :=
  let ds := vals.map ofF32
  let slubs := chooseSlubs 32 s 3 [ds]
  let x := (indexed ds).map fun d => if slubs.contains d.2 then none else some d.1
  let groups := (chunks 32 n x).map (encodeGroup .e4m3)
  let entries := (List.range s).map fun i => match slubs[i]? with
    | some c => toLe 2 c ++ toLe 2 (toBf16 (ds.getD c { m := 0, e := 0 })).toNat
    | none => toLe 2 0xFFFF ++ toLe 2 0
  groups.map (fun g => BitVec.ofNat 8 g.1) ++ (groups.map fun g => g.2.map (BitVec.ofNat 8)).flatten ++ entries.flatten

/-- A vector as a ply row carries it (R82, R59). -/
def encodeVector (n s : Nat) (bf16 : Bool) (vals : List W32) : List Byte :=
  if bf16 then (vals.map fun v => toLe 2 (toBf16 (ofF32 v)).toNat).flatten else encodeWire8 n s vals

/-- The vector of an EMPTY row (R84). -/
def emptyVector (n s : Nat) (bf16 : Bool) : List Byte :=
  if bf16 then zeros (2 * n) else zeros (n / 32 + n) ++ ((List.range s).map fun _ => toLe 2 0xFFFF ++ toLe 2 0).flatten

end Sys2Proof.Machine
end

