-- ==== Sys2Proof/Machine/Combines.lean ====
section
/-!
DEFINITION. Ply rows (R83, R84, R130, R131), PLY messages (R290), and combine contexts (R134–R139).
-/
namespace Sys2Proof.Machine

/-! ## Ply rows -/

namespace Ply
def empty : Nat := 1
def selective : Nat := 2
def deterministic : Nat := 4
def partialCoverage : Nat := 8
def replayed : Nat := 16
def combined : Nat := 32
def bf16 : Nat := 64
def incomplete : Nat := 128
end Ply

/-- The header of a ply row (R130). -/
structure PlyHdr where
  skein : Nat
  layer : Nat
  hg : Nat
  flags : Nat
  step : W64
  qi : Nat
  coverage : Nat
  missing : Nat
  combine : Nat
  rank : Nat

/-- SOURCE_NODE of a row that this module writes (R130). -/
def State.sourceNode (s : State) : Nat := s.cfg.nodeId.getD 0xFFFF

/-- A ply row as the module writes it: EMPTY, BF16 and PARTIAL_COVERAGE follow from what it holds (R82–R84, R130–R132). -/
def plyRow (node : Nat) (h : PlyHdr) (st : RowState) (slub : Nat) (bf16 : Bool) : List Byte :=
  let n := st.acc.length
  let none := st.m == negInf
  let flags := h.flags ||| (if none then Ply.empty else 0) ||| (if bf16 then Ply.bf16 else 0) |||
    (if h.missing ≠ 0 ∨ h.flags &&& Ply.incomplete ≠ 0 then Ply.partialCoverage else 0)
  toLe 4 h.skein ++ toLe 1 h.layer ++ toLe 1 h.hg ++ toLe 2 flags ++ toLe 8 h.step.toNat ++ toLe 2 h.qi ++ toLe 2 node ++
  toLe 4 (min 0xFFFFFFFF h.coverage) ++ toLe 4 (min 0xFFFFFFFF h.missing) ++ toLe 2 h.combine ++ toLe 2 h.rank ++
  toLe 4 (if none then negInf else st.m).toNat ++ toLe 4 (if none then 0 else st.l.toNat) ++
  (if none then emptyVector n slub bf16 else encodeVector n slub bf16 st.acc)

/-- Bytes of a ply row (R83). -/
def plyRowSize (n slub : Nat) (bf16 : Bool) : Nat := 40 + vectorSize n slub bf16

/-- The header of a PLY message (R290). -/
def plyHeader (rows slub : Nat) (bf16 : Bool) (dv : Nat) : List Byte :=
  toLe 2 rows ++ toLe 1 slub ++ toLe 1 (if bf16 then 1 else 0) ++ toLe 2 dv ++ zeros 58

/-- What a row's bytes say before its numbers are looked at. -/
def rowStep (r : List Byte) : W64 := BitVec.ofNat 64 (field r 8 8)
def rowQi (r : List Byte) : Nat := field r 16 2
def rowCombine (r : List Byte) : Nat := field r 28 2
def rowRank (r : List Byte) : Nat := field r 30 2

/-- A row as a combine keeps it: a row with m negative infinity is EMPTY whatever it holds (R84). -/
def rowInput (n slub : Nat) (bf16 : Bool) (r : List Byte) : Res Input := do
  let m : W32 := BitVec.ofNat 32 (field r 32 4)
  let l : W32 := BitVec.ofNat 32 (field r 36 4)
  let i : Input := { qi := rowQi r, rank := rowRank r, layer := field r 4 1, hg := field r 5 1, flags := field r 6 2,
                     coverage := field r 20 4, missing := field r 24 4, m, l, vec := [] }
  if m = negInf then return { i with flags := i.flags ||| Ply.empty, l := 0, vec := List.replicate n 0 }
  need (!nonfinite32 m && !nonfinite32 l) St.nonfinite
  let vec ← decodeVector n slub bf16 (r.drop 40)
  return { i with vec }

/-! ## Combine descriptors (R135) -/

def cdControl (b : List Byte) : Nat := field b 4 4
def cdDest (b : List Byte) : Nat := bits 5 4 (cdControl b)
def cdAuto (b : List Byte) : Bool := bit 3 (cdControl b)
def cdBf16 (b : List Byte) : Bool := bit 2 (cdControl b)
def cdNormalise (b : List Byte) : Bool := bit 1 (cdControl b)
def cdFixed (b : List Byte) : Bool := bit 0 (cdControl b)
def cdId (b : List Byte) : Nat := field b 24 2
def cdInputs (b : List Byte) : Nat := field b 26 2
def cdRows (b : List Byte) : Nat := field b 28 2
def cdBase (b : List Byte) : Nat := field b 30 2
def cdDv (b : List Byte) : Nat := field b 32 2
def cdSlub (b : List Byte) : Nat := field b 34 1
def cdOutRank (b : List Byte) : Nat := field b 36 2
def cdOutCombine (b : List Byte) : Nat := field b 38 2
def cdConn (b : List Byte) : W32 := BitVec.ofNat 32 (field b 40 4)
def cdKey (b : List Byte) : W32 := BitVec.ofNat 32 (field b 44 4)
def cdTimeout (b : List Byte) : Nat := field b 52 4

/-- DK and DV under R91. -/
def channelsOk (n : Nat) : Bool := decide (32 ≤ n ∧ n ≤ 512) && n % 32 == 0

/-- Steps 1 to 3 of R135. -/
def checkCombine (b : List Byte) : Res Unit := do
  let z := fun (cond : Bool) (off n : Nat) => cond || field b off n == 0
  checkHeader b 0x11 1 (field b 3 1 == 0 && bits 31 6 (cdControl b) == 0 && z (!cdBf16 b) 34 1 && field b 35 1 == 0 &&
    z (cdDest b == 0) 40 4 && z (cdDest b == 1) 44 4 && zeroIn b 56 8)
  need (cdDest b != 3 && !(cdNormalise b && cdDest b == 2)) St.invalidMode
  need (decide (cdId b ≤ 16383 ∧ 1 ≤ cdInputs b ∧ cdInputs b ≤ 1024 ∧ 1 ≤ cdRows b ∧ cdRows b ≤ 4096 ∧
    cdBase b + cdRows b ≤ 65536 ∧ cdSlub b ≤ 8 ∧ cdTimeout b ≤ 10000000) && channelsOk (cdDv b)) St.lengthRange

/-- The combine context of a tenant at an ID. -/
def State.combineFor (s : State) (tag : W16) (id : Nat) : Option Combine :=
  match tget s.work.combines id with
  | some c => if c.tenant == tag then some c else none
  | none => none

/-- Bobbins of DRAM that a context takes (R134). -/
def combineSlots (b : List Byte) : Nat := slotsFor (cdRows b * cdInputs b * (cdDv b * 4 + 8) * (if cdAuto b then 2 else 1))

/-- Creates a context, or the status that refuses its descriptor (R134, R135). -/
def State.postCombine (s : State) (q : Nat) (tag : W16) (e : QEntry) (b : List Byte) : Res State := do
  checkCombine b
  need (!thas s.work.combines (cdId b)) St.noResource
  need (if cdDest b = 0 then (s.connFor tag (cdConn b)).isSome else if cdDest b = 1 then (s.regionFor tag (cdKey b)).isSome
        else (s.combineFor tag (cdOutCombine b)).isSome) St.noResource
  let n := combineSlots b
  s.dramNeed tag n
  match s.takeSlots n with
  | none => .error St.noResource
  | some (area, s) =>
    let c : Combine := { tenant := tag, queue := q, bytes := b, step := BitVec.ofNat 64 (field b 16 8), charge := n, area, trig := e.trig }
    return (s.charge tag qDram n).modWork fun w => { w with combines := tset w.combines (cdId b) c }

/-- COMBINE_DESCRIPTOR_POST (R135): the head entry of a job queue. -/
def execCombineDescriptorPost (q : Nat) (s : State) : Host.Outcome State Fault Refusal :=
  headRow (fun b => field b 0 1 == 0x11) q s fun j e b s =>
    match s.postCombine q j.tenant e b with
    | .ok s => s
    | .error st => s.completeEntry q e b st (s.retryFor st (combineSlots b))

/-! ## Arrival of rows (R136, R137) -/

/-- Where a row of a step goes: discarded, the first bank, the second bank, or refused (R136). -/
def Combine.bank (c : Combine) (step : W64) : Option Nat :=
  if step < c.step then some 2
  else if step = c.step then some 0
  else if cdAuto c.bytes ∧ step = c.step + 1 then some 1 else none

/-- The checks of R136 on one row. -/
def State.rowCheck (s : State) (tag : W16) (n : Nat) (r : List Byte) : Res Unit :=
  match s.combineFor tag (rowCombine r) with
  | none => .error St.staleHandle
  | some c =>
    need (decide (cdBase c.bytes ≤ rowQi r ∧ rowQi r < cdBase c.bytes + cdRows c.bytes ∧ rowRank r < cdInputs c.bytes ∧
      n = cdDv c.bytes) && (c.bank (rowStep r)).isSome) St.lengthRange

/-- Whether two rows of one rank carry the same values (R136). -/
def Input.same (a b : Input) : Bool :=
  { a with flags := a.flags &&& (0xFFFF - Ply.replayed) } == { b with flags := b.flags &&& (0xFFFF - Ply.replayed) }

/-- Takes one row into its context: discarded and counted, merged with its bank, or dropped as a second row, with an event
where it differs (R136); a discarded row counts by itself (DESIGN CHOICE, log 84). -/
def State.takeRow (s : State) (id : Nat) (step : W64) (i : Input) : State :=
  match tget s.work.combines id with
  | none => s
  | some c =>
    let put := fun (c : Combine) => s.modWork fun w => { w with combines := tset w.combines id c }
    let dup := fun (xs : List Input) => xs.find? fun (x : Input) => x.qi == i.qi && x.rank == i.rank
    let again := fun (old : Input) => if old.same i then s else s.raise Ev.duplicatePly (.tenant c.tenant) [id, i.rank]
    match c.bank step with
    | some 0 =>
      match dup c.inputs with
      | some old => again old
      | none => put { c with inputs := c.inputs ++ [i], startedAt := some (c.startedAt.getD s.time.localNow) }
    | some 1 =>
      match dup c.second with
      | some old => again old
      | none => put { c with second := c.second ++ [i] }
    | _ => put { c with discarded := c.discarded + 1 }

/-- Whether every row has every rank (R139). -/
def Combine.full (c : Combine) : Bool := decide (c.inputs.length ≥ cdRows c.bytes * cdInputs c.bytes)

/-! ## Emission (R137–R139, R470) -/

def Input.state (i : Input) : RowState := { m := i.m, l := i.l, acc := i.vec }

/-- The merged state of a row: the fixed tree over rank, or the running merge in arrival order (R137). -/
def Combine.merged (c : Combine) (mine : List Input) : RowState :=
  let n := cdDv c.bytes
  if cdFixed c.bytes then
    mergeTree n ((List.range (cdInputs c.bytes)).map fun r => match mine.find? fun i => i.rank == r with
      | some i => i.state
      | none => RowState.empty n)
  else mergeAll n (mine.map Input.state)

/-- Normalised by l (R139 step 1); where l is zero the spec gives no value, and the channels are free (DESIGN CHOICE, log 3). -/
def State.normalise (s : State) (st : RowState) : RowState × State :=
  if st.m = negInf then (st, s)
  else if fzero st.l then
    ({ st with acc := (List.range st.acc.length).map fun i => BitVec.ofNat 32 (Config.freeValue (s.freeCount + i)) },
     { s with freeCount := s.freeCount + st.acc.length })
  else ({ st with acc := st.acc.map fun a => fdiv a st.l }, s)

/-- One combined row (R138); the layer and head group of a row that received nothing are free (DESIGN CHOICE, log 3). -/
def State.combinedRow (s : State) (c : Combine) (qi : Nat) : List Byte × State :=
  let b := c.bytes
  let mine := c.inputs.filter fun i => i.qi == qi
  let low := mine.foldl (fun (a : Option Input) i => match a with
    | none => some i
    | some x => if i.rank < x.rank then some i else some x) none
  let (layer, hg, s) := match low with
    | some i => (i.layer, i.hg, s)
    | none => let (x, s) := s.free 65536; (x % 256, x / 256, s)
  let any := fun (f : Nat) => mine.any fun i => i.flags &&& f != 0
  let short := decide (mine.length < cdInputs b)
  let det := cdFixed b && !mine.isEmpty && mine.all fun i => i.flags &&& Ply.deterministic != 0
  let flags := Ply.combined + (if any Ply.selective then Ply.selective else 0) + (if any Ply.replayed then Ply.replayed else 0) +
    (if short || any Ply.incomplete then Ply.incomplete else 0) + (if det then Ply.deterministic else 0)
  let st := c.merged mine
  let (st, s) := if cdNormalise b then s.normalise st else (st, s)
  (plyRow s.sourceNode
    { skein := 0, layer, hg, flags, step := c.step, qi, coverage := (mine.map fun i => i.coverage).sum,
      missing := (mine.map fun i => i.missing).sum, combine := cdOutCombine b, rank := cdOutRank b } st (cdSlub b) (cdBf16 b), s)

/-- All rows of an emission, in ascending QUERY_INDEX (R133). -/
def State.combinedRows (s : State) (c : Combine) : List Byte × State :=
  (List.range (cdRows c.bytes)).foldl (fun (a : List Byte × State) r =>
    let (row, s) := a.2.combinedRow c (cdBase c.bytes + r)
    (a.1 ++ row, s)) ([], s)

/-- The event of an emission under TIMEOUT: context, step, count of absent ranks, the first eight (R470). -/
def State.timeoutEvent (s : State) (id : Nat) (c : Combine) : State :=
  let absent := (List.range (cdInputs c.bytes)).filter fun r =>
    decide ((c.inputs.filter fun i => i.rank == r).length < cdRows c.bytes)
  s.raise Ev.combineTimeout (.tenant c.tenant) ([id, c.step.toNat, absent.length] ++ absent.take 8)

/-- What follows an emission: re-armed for the next step with its second bank, or released (R135, R139 step 4). -/
def State.afterEmission (s : State) (id : Nat) (c : Combine) : State :=
  if cdAuto c.bytes then
    let start := if c.second.isEmpty then none else some s.time.localNow
    let next := { c with step := c.step + 1, inputs := c.second, second := [], startedAt := start }
    s.modWork fun w => { w with combines := tset w.combines id next }
  else ((s.giveSlots c.area).credit c.tenant qDram c.charge).modWork fun w => { w with combines := tdel w.combines id }

/-- The completion entry of an emission (R139). -/
def Combine.cqe (c : Combine) (st bytes : Nat) : Cqe := { tag := entryTag c.bytes, status := st, kind := 2, bytes }

/-- A connection's send queue takes a PLY of the module's own (R133). -/
def State.postPly (s : State) (conn : Nat) (e : QEntry) : State :=
  s.modFlyer fun f => { f with conns := tmod f.conns conn fun k => { k with sq := k.sq ++ [e] } }

/-- Rows written to a BUFFER region under R285. -/
def State.writeRows (s : State) (tag : W16) (key : W32) (off : Nat) (rows : List Byte) : Res State := do
  let r ← s.regionGrant tag key rightWrite
  need (r.kind == 1) St.notPermitted
  need (decide (off + rows.length ≤ r.length)) St.lengthRange
  return s.bufWrite r off rows

/-- The rows of a message split (R290). -/
def splitRows (size count : Nat) (bs : List Byte) : List (List Byte) := chunks size count bs

/-- The checks on the rows of one ply: R290, then R136 for every row, then their numbers (R81, R84). -/
def State.checkRows (s : State) (tag : W16) (n slub : Nat) (bf16 : Bool) (rows : List (List Byte)) : Res (List Input) := do
  let r0 := rows.headD []
  need (rows.all fun r => rowStep r == rowStep r0 && rowCombine r == rowCombine r0 && rowRank r == rowRank r0 &&
    bit 6 (field r 6 2) == bf16) St.invalidMode
  let _ ← rows.mapM (s.rowCheck tag n)
  rows.mapM (rowInput n slub bf16)

/-- Rows taken by a context, without emission: the state and the context, or the status that refuses them all. -/
def State.takeRows (s : State) (tag : W16) (n slub : Nat) (bf16 : Bool) (rows : List (List Byte)) : Res (Nat × State) := do
  let ins ← s.checkRows tag n slub bf16 rows
  let r0 := rows.headD []
  return (rowCombine r0, ins.foldl (fun s i => s.takeRow (rowCombine r0) (rowStep r0) i) s)

/-- Emits a context, and what follows from it in local contexts, `fuel` emissions at most (R139). -/
def State.emitCombine : Nat → Nat → Nat → State → State
  | 0, _, _, s => s
  | fuel + 1, id, st, s =>
    match tget s.work.combines id with
    | none => s
    | some c =>
      let b := c.bytes
      let s := if st = St.combineTimeout then s.timeoutEvent id c else s
      let (rows, s) := s.combinedRows c
      let s := s.afterEmission id c
      let done := fun (s : State) (st : Nat) =>
        (s.doneJq c.queue c.trig (c.cqe st (if st = St.ok ∨ st = St.combineTimeout then rows.length else 0))).answerQueue c.queue
      let s :=
        if s.areaBad c.area 0 (c.area.length * slotBytes) then
          done (s.heal fun l => c.area.any fun p => l / slotBytes == slotAddr 1 p / slotBytes) St.internal
        else if cdDest b = 0 then
          match s.connFor c.tenant (cdConn b) with
          | none => done s St.staleHandle
          | some (i, _) =>
            s.postPly i { payload := plyHeader (cdRows b) (cdSlub b) (cdBf16 b) (cdDv b) ++ rows, source := some (1, c.queue),
                          trig := c.trig, onDone := some (c.cqe st rows.length) }
        else if cdDest b = 1 then
          match s.writeRows c.tenant (cdKey b) (field b 48 4) rows with
          | .ok s => done s st
          | .error e => done s e
        else
          match s.takeRows c.tenant (cdDv b) (cdSlub b) (cdBf16 b) (splitRows (plyRowSize (cdDv b) (cdSlub b) (cdBf16 b)) (cdRows b) rows) with
          | .error e => done s e
          | .ok (o, s) =>
            let s := done s st
            match tget s.work.combines o with
            | some x => if x.full then emitCombine fuel o St.ok s else s
            | none => s
      match tget s.work.combines id with
      | some x => if cdAuto b && x.full && decide (c.step < x.step) then emitCombine fuel id St.ok s else s
      | none => s

/-- Emissions that one arrival can set off: no context emits more than twice. -/
def State.emitFuel (s : State) : Nat := 4 * s.work.combines.length + 4

/-- The rows of a ply delivered to the tenant's combine contexts: the status, and the state (R136, R139, R290). -/
def State.deliverPly (s : State) (tag : W16) (n slub : Nat) (bf16 : Bool) (rows : List (List Byte)) : Nat × State :=
  match s.takeRows tag n slub bf16 rows with
  | .error st => (st, s)
  | .ok (id, s) =>
    (St.ok, match tget s.work.combines id with
      | some c => if c.full then s.emitCombine s.emitFuel id St.ok else s
      | none => s)

/-- The layout of a PLY message (R290, R8). -/
def checkPly (p : List Byte) : Res (Nat × Nat × Bool × Nat) := do
  need (decide (64 ≤ p.length)) St.lengthRange
  need (zeroIn p 6 58) St.reservedNonzero
  let rows := field p 0 2
  let slub := field p 2 1
  let rf := field p 3 1
  let n := field p 4 2
  need (decide (1 ≤ rows ∧ rows ≤ 4096 ∧ slub ≤ 8 ∧ rf ≤ 1) && channelsOk n && (rf == 0 || slub == 0) &&
    p.length == 64 + rows * plyRowSize n slub (rf == 1)) St.lengthRange
  need ((splitRows (plyRowSize n slub (rf == 1)) rows (p.drop 64)).all fun r => bits 15 8 (field r 6 2) == 0) St.reservedNonzero
  return (rows, slub, rf == 1, n)

/-- PLY_EXECUTE (R136, R290, R296). -/
def execPlyExecute (c seq : Nat) (s : State) : Host.Outcome State Fault Refusal :=
  msgRow c seq Op.ply s fun k r p s =>
    match checkPly p with
    | .error st => s.completeRx c seq r.ackReq st 0
    | .ok (rows, slub, bf, n) =>
      let (st, s) := s.deliverPly k.tenant n slub bf (splitRows (plyRowSize n slub bf) rows (p.drop 64))
      s.completeRx c seq r.ackReq st 0

/-- COMBINE_TIMEOUT_EXPIRY (R135, R139, R470): TIMEOUT runs from the step's first ply. -/
def execCombineTimeoutExpiry (id : Nat) (s : State) : Host.Outcome State Fault Refusal :=
  match tget s.work.combines id with
  | none => .next s
  | some c =>
    match c.startedAt with
    | none => .next s
    | some t =>
      if cdTimeout c.bytes ≠ 0 ∧ t + cdTimeout c.bytes * 1000 ≤ s.time.localNow ∧ s.awake then
        .next (s.emitCombine s.emitFuel id St.combineTimeout)
      else .next s

end Sys2Proof.Machine
end

