-- ==== Sys2Proof/Machine/RelOps.lean ====
section
/-!
DEFINITION. Units in service, the service level (R463), health bookkeeping and expulsion budgets (R455–R457), and the
states of a port that the link layer and the reliability unit share (R265, R267, R273).
-/
namespace Sys2Proof.Machine

def State.modRel (s : State) (f : Rel → Rel) : State := { s with rel := f s.rel }

/-- A reliability counter: code − 0x0400 and instance. -/
def relCounter (code inst : Nat) : Nat := code * 65536 + inst

/-- A reliability counter goes up by one (R475). -/
def State.countRel (s : State) (code inst : Nat) : State := s.modRel fun r => { r with counters := tadd r.counters (relCounter code inst) 1 }

/-- A duty is deferred: counted once in each of its budget periods, 1 s for the creel patrol and 1 ms otherwise (R446, R475). -/
def State.deferDuty (s : State) (d : Nat) : State :=
  let p := s.time.localNow / if d = 5 then 1000000000 else 1000000
  if tget s.rel.deferAt d = some p then s else (s.countRel 8 d).modRel fun r => { r with deferAt := tset r.deferAt d p }

/-- What a duty has used of the present budget period (R446). -/
def usedIn (period : Nat) (u : Nat × Nat) : Nat := if u.1 = period then u.2 else 0

/-- Spindles in service: IDLE or BUSY (R116). -/
def State.spindlesInService (s : State) : Nat := (s.rel.spindles.filter fun p => decide (p.state ≤ 1)).length
/-- Ports UP or LOW_RATE. -/
def State.portsUp (s : State) : Nat := (s.flyer.ports.filter fun p => p.2.state == .up || p.2.state == .lowRate).length
/-- Stacks not OFFLINE. -/
def State.stacksUp (s : State) : Nat := (s.rel.stackUnits.filter fun k => k.state != 2).length

/-! ## Service level (R457, R463) -/

/-- Logical channels of a stack in service. -/
def Stack.channels (k : Stack) : Nat := if k.state = 2 then 0 else 128 - k.vacant.length

/-- Whether CXL carries commands and job submission: L0, L0P_REDUCED or L1 (R343, R463). -/
def State.cxlUp (s : State) : Bool := decide (2 ≤ s.cxl.linkState ∧ s.cxl.linkState ≤ 4 ∧ 0 < s.cxl.width)

/-- Whether a port carries frames with at least `n` wavelengths. -/
def Port.serves (p : Port) (n : Nat) : Bool := (p.state != .down && p.state != .training) && decide (n ≤ wlCount p.map)

/-- The attention set (R457). -/
def State.attentionSet (s : State) : Bool :=
  decide (0 < s.spindlesInService) && s.rel.stackUnits.any (fun k => decide (64 ≤ k.channels)) &&
    (s.flyer.ports.any (fun p => p.2.serves 4) || s.cxlUp)

/-- SERVICE_LEVEL code of R527: 0 NONE, 1 MANAGEMENT_ONLY, 2 DEGRADED, 3 FULL. -/
def State.levelNow (s : State) : Nat :=
  if s.attentionSet then
    if s.spindlesInService = 8 && s.rel.stackUnits.all (fun k => k.state == 0) && s.flyer.ports.all (fun p => p.2.serves 8) then 3 else 2
  else if s.cxlUp then 1 else 0

/-- The service level follows the units, with an event on every change (R463); recovery keeps MANAGEMENT_ONLY (R525). -/
def State.refreshLevel (s : State) : State :=
  let l := s.levelNow
  if s.boot.state = .recovery ∨ s.boot.state = .booting ∨ s.boot.state = .halted ∨ l = s.boot.serviceLevel then s
  else ({ s with boot := { s.boot with serviceLevel := l } }).raise (Ev.serviceLevel (decide (l < 2))) .module [s.boot.serviceLevel, l]

/-! ## Expulsion (R455, R456) -/

/-- KIND codes of R454. -/
def kSpindle : Nat := 1
def kChannel : Nat := 2
def kWavelength : Nat := 3
def kColumn : Nat := 4

/-- The unit group whose budget an expulsion counts against: a stack, a port or a spindle. -/
def budgetGroup (kind idx : Nat) : Nat := if kind = kChannel then idx / 136 else if kind = kWavelength then idx / 9 else idx / 516

/-- Whether a class's budget allows one more expulsion in the last 3,600 s of fabric time (R455); a channel whose copy to
a spare is under way counts already (R451). -/
def State.budgetLeft (s : State) (kind idx : Nat) : Bool :=
  let mine := s.rel.expulsions.filter fun e => e.1 == kind && e.2.1 == budgetGroup kind idx &&
    decide (s.time.now.toNat < e.2.2 + 3600000000000)
  let copying := if kind = kChannel then (s.rel.copies.filter fun c => c.1 / 128 == idx / 136).length else 0
  decide (mine.length + copying < if kind = kChannel then 2 else 1)

/-- An expulsion: counted, no longer SUSPECT, and reported (R455, R474). -/
def State.expel (s : State) (kind idx : Nat) : State :=
  (s.modRel fun r =>
    { r with expelled := r.expelled ++ [(kind, idx)], suspect := r.suspect.filter (· != (kind, idx)),
             expulsions := r.expulsions ++ [(kind, budgetGroup kind idx, s.time.now.toNat)] }).raise
    Ev.componentExpelled .module [kind, idx]

/-- A component becomes SUSPECT, with an event the first time (R456). -/
def State.makeSuspect (s : State) (kind idx : Nat) : State :=
  if s.rel.suspect.contains (kind, idx) then s
  else (s.modRel fun r => { r with suspect := r.suspect ++ [(kind, idx)] }).raise Ev.componentSuspect .module [kind, idx]

/-! ## Ports (R265–R267, R273) -/

/-- Enters DOWN (R267). -/
def State.portToDown (s : State) (p : Nat) : State :=
  if (s.portAt p).state = .down then s
  else ((s.modPort p fun x => { x with state := .down, sending := none, failover := false, switching := none }).setFlag (Flag.portDown p)).refreshLevel

/-- Starts a retrain (R273). -/
def State.startRetrain (s : State) (p : Nat) : State :=
  if (s.portAt p).state = .up ∨ (s.portAt p).state = .lowRate then
    (s.modPort p fun x => { x with state := .retraining, retrainStart := s.time.localNow, replays := 0, sending := none }).setFlag
      (Flag.retrain p)
  else s

/-- The spare wavelength of a port: trained, not in the map and not failed (R265). -/
def Port.spare (p : Port) : Option Nat := (List.range 9).find? fun i => !p.map.getLsbD i && !p.failedWl.contains i

/-- A new stripe map; the spare wavelength is the ninth (R268; DESIGN CHOICE, log 78). -/
def Port.setMap (p : Port) (m : BitVec 9) : Port := { p with map := m, spareUsed := m.getLsbD 8 }

/-- A control block (R274). -/
def controlBlock (ty content : Nat) : W64 := BitVec.ofNat 64 (ty * 2 ^ 56 + content)
/-- Sends a control block; a port carries nothing during a failover or a loss of light (R266, R274). -/
def State.control (s : State) (p ty content : Nat) : State :=
  let x := s.portAt p
  if x.failover || !x.light then s else s.emit (.control p (controlBlock ty content))
def ctlAck : Nat := 2
def ctlReplay : Nat := 3
def ctlSwitch : Nat := 4
def ctlWake : Nat := 5

/-- A wavelength leaves the map, the spare taking its place where there is one; SWITCH tells the partner, in how many units is
a free value (R264, R265, R274; log 78). -/
def State.dropWavelength (s : State) (p wl : Nat) : State :=
  let x := s.portAt p
  let off := x.map &&& ~~~(1#9 <<< wl)
  let sp := x.spare
  let map : BitVec 9 := match sp with
    | some i => off ||| (1#9 <<< i)
    | none => off
  let (units, s) := s.free 256
  let s := (s.control p ctlSwitch (units * 65536 + map.toNat)).setPort p ({ x with failedWl := wl :: x.failedWl }.setMap map)
  let s := (s.setFlag (Flag.wavelengthSwitch p)).expel kWavelength (p * 9 + wl)
  let s := if sp.isSome then s.raise Ev.sparesExhausted .module [kWavelength, p] else s
  (if map = 0 then s.portToDown p else s).refreshLevel

end Sys2Proof.Machine
end

