-- ==== Sys2Proof/Machine/Rows.lean ====
section
/-!
DEFINITION. What a row's growth needs (R35, R142, R464), the reel and the chained block hash (R143, R205), and the append
history (R142).
-/
namespace Sys2Proof.Machine

/-! ## Metadata slabs -/

/-- Metadata that new tokens need: page tables, reel slabs and history slabs. -/
structure Growth where
  tables : List Nat
  reel : List Nat
  hist : List Nat

/-- The slab that holds a row's history record: 128 records in row order (R142). -/
def Skein.histSlab (k : Skein) (row : Nat) : Nat := (row / 256 * k.heads + row % 256) / 128

/-- What leaves at `keys`, reel entries at `indices` and history records of `rows` need and the skein lacks. -/
def Skein.growth (k : Skein) (keys indices rows : List Nat) : Growth :=
  { tables := k.newTables keys
    reel := (((indices.filter fun i => !thas k.reel i).map (· / reelSlabTokens)).eraseDups).filter fun i => !thas k.reelSlabs i
    hist := ((rows.map k.histSlab).eraseDups).filter fun i => !thas k.historySlabs i }

/-- DRAM slots of a growth. -/
def Growth.slots (g : Growth) (k : Skein) : Nat := k.tableSlabsNeeded g.tables.length + g.reel.length + g.hist.length

/-- Takes and charges the slabs of a growth (R33, R142, R464). -/
def State.grow (s : State) (idx : Nat) (g : Growth) : Option State :=
  match s.skein? idx with
  | none => none
  | some k =>
    let nt := k.tableSlabsNeeded g.tables.length
    match s.takeSlots (g.slots k) with
    | none => none
    | some (a, s) =>
      let k := k.addTables g.tables (a.take nt)
      let reel := g.reel.zip (a.drop nt)
      let hist := g.hist.zip (a.drop (nt + g.reel.length))
      let k := { k with reelSlabs := reel.foldl (fun t e => tset t e.1 e.2) k.reelSlabs
                        historySlabs := hist.foldl (fun t e => tset t e.1 e.2) k.historySlabs }
      some ((s.setSkein idx k).charge k.tenant qDram a.length)

/-! ## The reel (R143, R205) -/

/-- Adds reel entries that are not held yet (R143). -/
def Skein.addReel (k : Skein) (es : List (Nat × W32)) : Skein :=
  let new := es.filter fun e => !thas k.reel e.1
  { k with reel := new.foldl (fun t e => tset t e.1 e.2) k.reel, persisted := new.foldl (fun p e => min p e.1) k.persisted }

/-- The chained hash of a block (R205): a 96-bit number. -/
def chainHash (prev : Nat) (ids : List W32) : Nat := ofLe ((sha256 (toLe 12 prev ++ ids.flatMap fun i => toLe 4 i.toNat)).take 12)

/-- The hash of a block, where its identifiers and the hash before it are held (R173, R205). -/
def Skein.hashOf (k : Skein) (block : Nat) : Option Nat :=
  let prev := if block = 0 then some 0 else tget k.blockHash (block - 1)
  match prev with
  | none => none
  | some p =>
    if k.reelCovers (64 * block) (64 * block + 64) then
      some (chainHash p ((List.range 64).map fun i => (tget k.reel (64 * block + i)).getD 0))
    else none

/-- The hash of a block written beside the reel (R173). -/
def Skein.addHash (k : Skein) (block : Nat) : Skein :=
  if thas k.blockHash block then k
  else match k.hashOf block with
    | some h => { k with blockHash := tset k.blockHash block h }
    | none => k

/-- Hashes of the blocks below `n`, as far as they are held or can be computed. -/
def Skein.hashes (k : Skein) (n : Nat) : List Nat :=
  let k := (List.range n).foldl Skein.addHash k
  ((List.range n).map (tget k.blockHash)).takeWhile (·.isSome) |>.filterMap id

/-! ## The append history (R142) -/

/-- The key of a token's word in its row's record. -/
def histKey (row t : Nat) : Nat := row * 64 + t % 64

/-- The check of a token's BF16 input bytes (R142). -/
def tokenCheck (vals : List W16) : W32 := crc32c (vals.flatMap fun v => toLe 2 v.toNat)

def Skein.addHistory (k : Skein) (row t : Nat) (c : W32) : Skein := { k with history := tset k.history (histKey row t) (t, c) }

/-- Adds history entries of tokens that the records do not hold yet; a word keeps the later token (R142, R168). -/
def Skein.takeHistory (k : Skein) (es : List (Nat × Nat × W32)) : Skein :=
  { k with history := es.foldl (fun t e => match tget t e.1 with
      | none => tset t e.1 e.2
      | some x => if x.1 < e.2.1 then tset t e.1 e.2 else t) k.history }

/-- Whether a replayed token is a no-op: its record word holds it with the same check, and it lies within the row's last
64 tokens (R142). -/
def Skein.replayOk (k : Skein) (row n t : Nat) (c : W32) : Bool :=
  decide (n ≤ t + 64) && (match tget k.history (histKey row t) with
    | some e => e.1 == t && e.2 == c
    | none => false)

end Sys2Proof.Machine
end

