-- ==== Sys2Proof/Machine/TierOps.lean ====
section
/-!
DEFINITION. The tier engine (09): its queue of work (R232), doffs (R233, R235, R237), reloads (R234), pins (R230), runs
(R199–R204), and the sweep (R231).
-/
namespace Sys2Proof.Machine

/-! ## Runs (R199–R204) -/

def State.modPfx (s : State) (f : Prefix → Prefix) : State := { s with pfx := f s.pfx }

/-- References to a run (R203). -/
def Run.refs (r : Run) : Nat := (if r.creator then 1 else 0) + r.skeins.length + r.entries

/-- Frees a run whose last reference has gone: its bobbins are released under R48, but for those that another run holds
as well (R203). -/
def State.settleRun (s : State) (i : Nat) : State :=
  match tget s.pfx.runs i with
  | none => s
  | some r =>
    if r.refs > 0 then s
    else
      let others := s.pfx.runs.filter fun o => o.1 != i
      let own := r.leaves.filter fun e => !others.any fun o => o.2.leaves.any fun f => f.2.tier == e.2.tier && f.2.pbn == e.2.pbn
      let s := own.foldl (fun s e => (s.leaveSlot e.2.tier e.2.pbn 4194304).creditTier r.tenant e.2.tier) s
      s.modPfx fun p => { p with runs := tdel p.runs i, runPool := (p.runPool.bump 16383 i).put i }

/-- A skein stops mapping runs (R203). -/
def State.leaveRuns (s : State) (idx : Nat) : State :=
  let hit := (s.pfx.runs.filter fun r => r.2.skeins.contains idx).map (·.1)
  let s := s.modPfx fun p => { p with runs := p.runs.map fun (r : Nat × Run) => (r.1, { r.2 with skeins := r.2.skeins.filter (· != idx) }) }
  hit.foldl State.settleRun s

/-- Removes the entries of a run that a test picks, one reference and one unit of quota each (R212): their number and
the state. Nothing shifts. -/
def State.removeEntries (s : State) (i : Nat) (p : PEntry → Bool) : Nat × State :=
  match tget s.pfx.runs i with
  | none => (0, s)
  | some r =>
    let gone := (s.pfx.entries.filter fun e => e.2.run == r.handle && p e.2).length
    let keep := fun (t : Table PEntry) => t.filter fun e => !(e.2.run == r.handle && p e.2)
    let s := s.modPfx fun x => { x with entries := keep x.entries, shadow := keep x.shadow,
                                        runs := tmod x.runs i fun r => { r with entries := r.entries - gone } }
    (gone, (s.credit r.tenant qPrefix gone).settleRun i)

/-- The live run that a handle names for a tenant (R200). -/
def State.runFor (s : State) (tag : W16) (h : W32) : Option Run :=
  match tget s.pfx.runs (rcIndex h) with
  | some r => if r.handle == h && r.tenant == tag then some r else none
  | none => none

/-- Steps 2 to 4 of R199: LOCK in the source's entries, whose moves are abandoned (DESIGN CHOICE, log 86), and the
run's record. -/
def State.makeRun (s : State) (i idx b : Nat) : State :=
  let s := (s.store.moves.filter fun m => m.2.skein == idx && decide (keyBob m.2.key < b)).foldl (fun s m => s.abandonEntry m.1 m.2) s
  match s.skein? idx with
  | none => s
  | some k =>
    let mine := fun (key : Nat) => decide (keyBob key < b)
    let k1 := { k with leaves := k.leaves.map fun (e : Nat × Leaf) => if mine e.1 then (e.1, { e.2 with lock := true }) else e }
    let len := b * k.cap
    let r : Run :=
      { handle := rcHandle (s.pfx.runPool.gen i) i, tenant := k.tenant, layers := k.layers, heads := k.heads, elements := k.elements,
        format := k.format, cap := k.cap, modelId := k.modelId, bobbins := b, length := len,
        hashes := k.hashes (len / 64), leaves := k1.leaves.filter fun e => mine e.1,
        source := idx, reel := k.reel.filter fun e => decide (e.1 < len),
        history := k.history.filter fun e => decide (e.2.1 < len), skeins := [idx] }
    (s.setSkein idx k1).modPfx fun p => { p with runs := tset p.runs i r }

/-! ## Destruction (R51) -/

/-- SKEIN_DESTROY with all that waits on the skein: doffs and reloads end with ST_CANCELLED and what they moved (R235),
pins with ST_CANCELLED, and the runs it mapped lose a reference. -/
def State.killSkein (s : State) (idx : Nat) : State :=
  let d := tget s.store.doffs idx
  let r := tget s.store.reloads idx
  let ps := s.store.pins.filter fun p => p.skein == idx
  let s := s.modStore fun t => { t with pins := t.pins.filter fun p => p.skein != idx }
  let tag := match s.skein? idx with
    | some k => k.tenant
    | none => 0
  let s := (s.destroySkein idx).leaveRuns idx
  let s := match d with
    | some d => s.answerAll d.waiters St.cancelled (toLe 4 d.moved)
    | none => s
  let s := match r with
    | some r => s.answerAll r.waiters St.cancelled (toLe 4 r.reloaded ++ toLe 4 r.damaged)
    | none => s
  ps.foldl (fun s p =>
    let s := if p.kind = 2 then (s.credit tag qRun 1).modPfx fun x => { x with runPool := x.runPool.put p.run } else s
    match p.waiter with
    | some w => s.answer w St.cancelled []
    | none => s) s

/-! ## The queue of work (R232) -/

/-- Bobbin moves in flight: 64 leas (R232). -/
def moveLimit : Nat := 16

/-- The first leaf, ascending, that satisfies a test. -/
def Skein.firstLeaf (k : Skein) (p : Leaf → Bool) : Option Nat := (k.leaves.find? fun e => p e.2).map (·.1)

/-- Whether a doff moves a bobbin now (R233). -/
def Leaf.doffable (l : Leaf) : Bool := l.tier == 1 && !l.pin && !l.lock && !l.move && l.check != .damaged

def State.setDoff (s : State) (idx : Nat) (d : Doff) : State := s.modStore fun t => { t with doffs := tset t.doffs idx d }
def State.setReload (s : State) (idx : Nat) (r : Reload) : State := s.modStore fun t => { t with reloads := tset t.reloads idx r }

/-- The next bobbin of a doff: moved, or refused under R237 and R252; none where nothing starts. -/
def State.doffNext (s : State) (idx : Nat) (d : Doff) : Option State := do
  let k ← s.skein? idx
  let key ← if d.stopping || d.status != 0 then none else k.firstLeaf Leaf.doffable
  let stop := fun (st : Nat) => s.setDoff idx { d with status := st }
  if !s.creelServes then return stop St.creelOffline
  else if s.creel.state = .readOnly then return stop St.creelFull
  else if s.overQuota k.tenant qCreel 1 then return stop St.quotaExceeded
  else if s.creel.writesWait then none
  else return (s.startMove idx key 2 none .doff).getD (stop St.creelFull)

/-- The next bobbin of a reload (R234, R126, R227); none where nothing starts. -/
def State.reloadNext (s : State) (idx : Nat) (r : Reload) : Option State := do
  let k ← s.skein? idx
  let ok := s.creelServes && r.status == 0 && !(r.whole && thas s.store.doffs idx)
  let wanted := r.first.find? fun key => match tget k.leaves key with
    | some l => l.reloadable
    | none => false
  let key ← if !ok then none else match wanted with
    | some key => some key
    | none => if r.whole then k.firstLeaf Leaf.reloadable else none
  let stop := fun (st : Nat) => s.setReload idx { r with status := st }
  if s.overQuota k.tenant qDram 1 && r.whole then return stop St.quotaExceeded
  else if r.whole && s.throttles 1 then return stop St.backpressure
  else if s.belowReserve then none
  else s.startMove idx key 1 none (if r.whole then .reload else .heldWrite)

/-- The next bobbin of a pin, an unpin or a run (R230, R199); below RESERVE none takes a slot of the pool (R227). -/
def State.pinNext (s : State) (p : PinWork) : Option State := do
  let k ← s.skein? p.skein
  let key ← p.keys.find? fun key => match tget k.leaves key with
    | some l => p.moves l
    | none => false
  let l ← tget k.leaves key
  if (l.tier == 2 && !s.creelServes) || (p.tier == 1 && s.belowReserve) then none
  else s.startMove p.skein key p.tier none (if p.kind = 2 then .run else if p.kind = 1 then .unpin else .pin)

/-- The first slot of the band that a growing lent window takes; none where it does not grow (R238). -/
def State.bandFirst (s : State) : Option Nat :=
  match s.store.lentWaiter with
  | some (_, gib) => if gib > s.cfg.lentGib then some (12189696 - gib * 16384) else none
  | none => none

/-- The next bobbin that leaves the band (R238). -/
def State.bandNext (s : State) : Option State := do
  let first ← s.bandFirst
  let inBand := fun (l : Leaf) => l.tier == 1 && decide (first ≤ l.pbn) && !l.lock && !l.move && l.check != .damaged
  let (idx, k) ← s.store.skeins.find? fun k => k.2.leaves.any fun e => inBand e.2
  let key ← k.firstLeaf inBand
  s.startMove idx key 1 none .band

/-- Whether a bobbin is one that COMPACT re-encodes: GOOD, at tier 1, unlocked and wider than FORMAT (R169). -/
def Leaf.compacts (l : Leaf) (fmt : Nat) : Bool :=
  l.check == .good && l.tier == 1 && !l.lock && decide ((fmtEnc fmt).b < (fmtEnc l.format).b)

/-- The bobbins that a COMPACT has still to re-encode: skein index, the leaf keys, and the format. -/
def State.toCompact (s : State) (j : Job) : Option (Nat × List Nat × Nat) := do
  let e ← j.entries.head?
  let k ← s.skeinFor j.tenant e.skein
  let fmt := field j.bytes 40 1
  return (skIndex e.skein, j.keys.filter fun key => match tget k.leaves key with
    | some l => l.compacts fmt
    | none => false, fmt)

/-- The next bobbin that a COMPACT re-encodes (R169). -/
def State.compactNext (s : State) : Option State :=
  (s.work.jobs.filter fun j => j.2.phase == .compacting).findSome? fun j => do
    let (idx, keys, fmt) ← s.toCompact j.2
    let k ← s.skein? idx
    let key ← keys.find? fun key => match tget k.leaves key with
      | some l => !l.move
      | none => false
    s.startMove idx key 1 (some fmt) .compact

/-- A COMPACT with nothing left to re-encode completes (R169). -/
def State.endCompacts (s : State) : State :=
  let above := fun (j : Job) => match s.toCompact j with
    | some (_, keys, _) => keys.isEmpty
    | none => true
  (s.work.jobs.filter fun j => j.2.phase == .compacting && above j.2).foldl (fun s j => s.endJob j.1 j.2 St.ok 0 0) s

/-- The first piece of work, in arrival order, that can start. -/
def firstStart (xs : List (Nat × Option State)) : Option State := (sortBy (fun a b => decide (a.1 < b.1)) xs).findSome? (·.2)

/-- The next move of the tier engine, class by class (R232). -/
def State.tierStart (s : State) : Option State :=
  let rel := fun (job : Bool) => (s.store.reloads.filter fun r => r.2.forJob == job).map fun r => (r.2.order, s.reloadNext r.1 r.2)
  let dof := fun (sweep : Bool) => (s.store.doffs.filter fun d => d.2.bySweep == sweep).map fun d => (d.2.order, s.doffNext d.1 d.2)
  [firstStart (rel true), firstStart (rel false ++ s.store.pins.map fun p => (p.order, s.pinNext p)), firstStart (dof true),
   firstStart (dof false), s.bandNext, s.compactNext].findSome? id

/-- Starts moves while any can start. -/
def State.tierPump : Nat → State → State
  | 0, s => s
  | fuel + 1, s =>
    if s.store.moves.length ≥ moveLimit ∨ !s.awake then s
    else match s.tierStart with
      | some s => tierPump fuel s
      | none => s

/-- A round of the tier engine: at most the free move places and one refusal per task. -/
def State.runTier (s : State) : State := (s.tierPump (moveLimit + s.store.doffs.length + s.store.reloads.length)).endCompacts

/-! ## Asking for work -/

/-- Starts a doff, or joins the one in progress (R233, R235). -/
def State.askDoff (s : State) (idx : Nat) (w : Option CmdRef) (sweep : Bool) : State :=
  match tget s.store.doffs idx with
  | some d => s.setDoff idx { d with waiters := d.waiters ++ w.toList }
  | none => (s.setDoff idx { order := s.store.nextTask, waiters := w.toList, bySweep := sweep }).modStore fun t =>
      { t with nextTask := t.nextTask + 1 }

/-- Asks for a reload of a whole skein, or of the bobbins of a held write; a doff in progress stops (R234, R235, R49). -/
def State.askReload (s : State) (idx : Nat) (w : Option CmdRef) (first : List Nat) (whole forJob : Bool) : State :=
  let s := match tget s.store.doffs idx with
    | some d => if whole then s.setDoff idx { d with stopping := true } else s
    | none => s
  match tget s.store.reloads idx with
  | some r => s.setReload idx { r with waiters := r.waiters ++ w.toList, first := first ++ r.first, whole := r.whole || whole,
                                       forJob := r.forJob || forJob }
  | none => (s.setReload idx { order := s.store.nextTask, waiters := w.toList, first, whole, forJob }).modStore fun t =>
      { t with nextTask := t.nextTask + 1 }

/-- Tier-2 bobbins that a whole reload brings back. -/
def Skein.toReload (k : Skein) : Nat := (k.leaves.filter fun e => e.2.tier == 2 && e.2.check != .damaged).length

/-! ## What follows a move -/

/-- Where a pin, an unpin or a run stands. -/
inductive PinStand where
  | waits | done | lost
deriving DecidableEq, Repr

/-- A bobbin lost on the way ends a pin or a run; an unpin goes on without it. -/
def State.pinStand (s : State) (p : PinWork) : PinStand :=
  match s.skein? p.skein with
  | none => .lost
  | some k =>
    let ls := p.keys.map (tget k.leaves)
    if p.kind ≠ 1 ∧ (ls.any fun l => match l with | none => true | some l => l.tier == 3 || l.check == .damaged) then .lost
    else if ls.all fun l => match l with | none => true | some l => !l.move && !p.moves l then .done
    else .waits

def State.answerPin (s : State) (p : PinWork) (st : Nat) (r : List Byte) : State := match p.waiter with
  | some w => s.answer w st r
  | none => s

/-- What a pin or a run that ended early leaves at tier 0 with neither PIN nor LOCK goes back to tier 1 (R218). -/
def State.backToDram (s : State) (p : PinWork) : State :=
  let loose := fun (key : Nat) => match (s.skein? p.skein).bind fun k => tget k.leaves key with
    | some l => (l.tier == 0 || l.move) && !l.pin && !l.lock
    | none => false
  let keys := p.keys.filter loose
  if p.kind = 1 ∨ p.tier ≠ 0 ∨ keys.isEmpty then s
  else s.modStore fun t => { t with pins := t.pins ++ [{ p with order := t.nextTask, waiter := none, keys, tier := 1, kind := 1 }],
                                    nextTask := t.nextTask + 1 }

/-- The end of a pin, an unpin or a run creation; one that lost a bobbin ends with ST_RECOMPUTE_NEEDED. -/
def State.endPin (s : State) (p : PinWork) : State :=
  match s.pinStand p with
  | .waits => s
  | .lost =>
    let s := s.modStore fun t => { t with pins := t.pins.erase p }
    let tag := match s.skein? p.skein with
      | some k => k.tenant
      | none => 0
    let s := if p.kind = 2 then (s.credit tag qRun 1).modPfx fun x => { x with runPool := x.runPool.put p.run } else s
    (s.backToDram p).answerPin p St.recomputeNeeded []
  | .done =>
    let s := s.modStore fun t => { t with pins := t.pins.erase p }
    if p.kind = 2 then
      let s := s.makeRun p.run p.skein p.count
      match tget s.pfx.runs p.run with
      | some r => s.answerPin p St.ok (toLe 4 r.handle.toNat ++ toLe 4 r.length)
      | none => s
    else
      let set := fun (e : Nat × Leaf) => if p.keys.contains e.1 then (e.1, { e.2 with pin := true }) else e
      let s := if p.kind = 0 then s.modSkein p.skein fun k => { k with leaves := k.leaves.map set } else s
      s.answerPin p St.ok (toLe 4 p.count)

/-- Pins, unpins and runs whose moves have ended. -/
def State.endPins (s : State) : State := s.store.pins.foldl State.endPin s

/-- A move that ended leaves the list of its COMPACT. -/
def State.compacted (s : State) (idx key : Nat) : State :=
  s.modWork fun w => { w with jobs := w.jobs.map fun (j : Nat × Job) =>
    if j.2.phase == .compacting && j.2.entries.any (fun e => skIndex e.skein == idx) then
      (j.1, { j.2 with keys := j.2.keys.filter (· != key) }) else j }

/-- Whether a move may commit now: a doff bobbin needs creel pages (R242, R257). -/
def State.programFor (s : State) (mv : Move) : Option State :=
  if mv.dstTier = 2 then s.programBobbin mv.dstPbn else some s

/-- Counts a committed move on its doff or reload; the first commit of a reload writes the tombstone (R247). -/
def State.countMove (s : State) (mv : Move) : State :=
  match mv.why with
  | .doff => s.modStore fun t => { t with doffs := tmod t.doffs mv.skein fun d => { d with moved := d.moved + 1 } }
  | .reload | .heldWrite => s.modStore fun t => { t with reloads := tmod t.reloads mv.skein fun r => { r with reloaded := r.reloaded + 1 } }
  | .compact => s.compacted mv.skein mv.key
  | _ => s

/-- The tombstone that goes before the first creel copy is freed (R247). -/
def State.beforeCreelFree (s : State) (mv : Move) : State :=
  if mv.srcTier ≠ 2 then s else
  match s.skein? mv.skein with
  | some k => s.tombstone mv.skein k.tenant
  | none => s

/-- Whether the check values of a move's source hold (R50 step 3). -/
def State.moveOk (s : State) (mv : Move) : Bool :=
  match s.skein? mv.skein with
  | none => true
  | some k => match tget k.leaves mv.key with
    | none => true
    | some l => l.check != .damaged && moveSourceOk s.mem k mv l

/-- An abandoned move; a failed check value damages the bobbin (R50, R42). -/
def State.failMove (s : State) (id : Nat) (mv : Move) (checkFailed : Bool) : State :=
  let s := s.abandonEntry id mv
  let s := if checkFailed then s.damage mv.skein mv.key else s
  let s := if mv.why = .compact then (if checkFailed then s.compacted mv.skein mv.key else s) else s
  if checkFailed ∧ (mv.why = .reload ∨ mv.why = .heldWrite) then
    s.modStore fun t => { t with reloads := tmod t.reloads mv.skein fun r => { r with damaged := r.damaged + 1 } }
  else s

/-- A doff bobbin whose creel turned READ_ONLY before it was written is refused, and the doff stops there (R237, R257). -/
def State.refuseDoff (s : State) (id : Nat) (mv : Move) : State :=
  (s.abandonEntry id mv).modStore fun t => { t with doffs := tmod t.doffs mv.skein fun d => { d with status := St.creelFull } }

/-- Steps 3 to 6 of R50 for one move: abandoned where a check value fails, none while it must wait for creel pages. -/
def State.commitMove (s : State) (id : Nat) (mv : Move) : Option State :=
  if !s.moveOk mv then some (s.failMove id mv true)
  else if mv.dstTier = 2 ∧ s.creel.state = .readOnly then some (s.refuseDoff id mv)
  else do
    let s ← s.programFor mv
    let s := (s.beforeCreelFree mv).commitEntry id mv
    return (s.moveSketch mv.skein mv.key mv.srcTier mv.newFormat.isSome).countMove mv

/-! ## Changes of the lent window (R238) -/

/-- Whether a host-table entry overlaps lent offsets [a, b). -/
def State.lentCovered (s : State) (a b : Nat) : Bool :=
  s.cxl.hostTable.any fun e => decide (e.2.base < b ∧ a < e.2.base + e.2.length)

/-- Whether a change of LENT_GIB to another size may start (R238); the band that shrinking removes is the lowest of the window
by PBN, which offsets below its size map to (R220; DEDUCED, log 16). -/
def State.lentCheck (s : State) (v : Nat) : Res Unit :=
  let old := s.cfg.lentGib
  if v > old then
    let pool := s.store.poolSlots - (v - old) * 16384
    let used := s.store.dramUsed.length
    need (decide (used ≤ pool) && !decide ((pool - used) * 1024 < s.cfg.lowWater * pool)) St.noResource
  else need (!s.lentCovered 0 ((old - v) * 2 ^ 30)) St.rangeInUse

/-- Starts a change that may start. -/
def State.lentBegin (s : State) (w : CmdRef) (v : Nat) : State := (s.modStore fun t => { t with lentWaiter := some (w, v) }).runTier

/-! ## Doff end and reload end (R233–R237) -/

/-- Whether a doff has no more to do (R233, R235, R237). -/
def State.doffDone (s : State) (idx : Nat) (d : Doff) : Bool :=
  !(s.store.moves.any fun m => m.2.skein == idx && m.2.why == .doff) &&
  (d.stopping || d.status != 0 || (match s.skein? idx with
    | some k => (k.firstLeaf Leaf.doffable).isNone
    | none => true))

/-- Demotes a skein's remaining resident bobbins while its tenant is over its DRAM quota, `fuel` of them, giving the
keys (R237). -/
def State.demoteRest : Nat → Nat → State → List Nat → List Nat × State
  | 0, _, s, done => (done, s)
  | fuel + 1, idx, s, done =>
    match s.skein? idx with
    | none => (done, s)
    | some k =>
      if s.useOf k.tenant qDram ≤ s.quotaOf k.tenant qDram then (done, s)
      else match k.firstLeaf Leaf.doffable with
        | none => (done, s)
        | some key => demoteRest fuel idx (s.demote idx key) (done ++ [key])

/-- R237 for a refused doff of a tenant over its DRAM quota, with one event for the skein (R76). -/
def State.overflowDemote (s : State) (idx : Nat) : State :=
  match s.skein? idx with
  | none => s
  | some k =>
    let (keys, s) := State.demoteRest k.leaves.length idx s []
    s.raiseLost k keys

/-- The tenants over their DRAM quota (R225, R231). -/
def State.overTenants (s : State) : List Nat := (s.tenants.filter fun t => t.2.live && decide (t.2.use.getD qDram 0 > t.2.quota.getD qDram 0)).map (·.1)
/-- Whether FREE is a sweep's cause: it fell below EVICT_START and has not reached EVICT_STOP since (R226). -/
def State.poolCause (s : State) : Bool :=
  s.belowMark (if s.store.evicting then s.cfg.evictStop else s.cfg.evictStart) s.poolFree
/-- Whether a sweep's cause remains (R231). -/
def State.sweepCause (s : State) : Bool := s.poolCause || !s.overTenants.isEmpty

/-- The next candidate of the sweep, unless its cause has gone; where the candidates run out and FREE is still short of
EVICT_STOP the eviction goes on with the next sweep (R226, R231 steps 3 and 4). -/
def State.sweepNext (s : State) : State :=
  if (s.store.doffs.any fun d => d.2.bySweep) || (s.power.inTransition && s.power.target == .doze) then s
  else
    let pool := s.poolCause
    let fit := fun (i : Nat) => match s.skein? i with
      | some k => s.candidate i k && !thas s.store.doffs i && (pool || s.overTenants.contains (tidOf k.tenant))
      | none => false
    match s.store.sweep.dropWhile fun i => !fit i with
    | [] => s.modStore fun t => { t with sweep := [], evicting := t.evicting && pool }
    | i :: rest =>
      if s.sweepCause then (s.modStore fun t => { t with sweep := rest, evicting := t.evicting && pool }).askDoff i none true
      else s.modStore fun t => { t with sweep := [], evicting := false }

/-- The end of a doff: demotion where R237 asks for it, the reel and the record of a skein that became DOFFED, and the
completion of SKEIN_DOFF (R233, R237, R247, R465). -/
def State.endDoff (s : State) (idx : Nat) (d : Doff) : State :=
  let s := s.modStore fun t => { t with doffs := tdel t.doffs idx }
  let s := if d.status = St.creelFull ∨ d.status = St.quotaExceeded then s.overflowDemote idx else s
  let s := match s.skein? idx with
    | some k =>
      if k.state = SkState.doffed then
        let s := if s.creelTakesReels then s.persistTail idx else s
        match s.skein? idx with
        | some k => s.writeRecord idx k
        | none => s
      else s
    | none => s
  (s.answerAll d.waiters d.status (if d.status = 0 then toLe 4 d.moved else [])).sweepNext

/-- Whether a reload has no more to do (R234). -/
def State.reloadDone (s : State) (idx : Nat) (r : Reload) : Bool :=
  !(s.store.moves.any fun m => m.2.skein == idx && (m.2.why == .reload || m.2.why == .heldWrite)) &&
  !(r.whole && thas s.store.doffs idx) &&
  (r.status != 0 || (match s.skein? idx with
    | some k => if r.whole then (k.firstLeaf Leaf.reloadable).isNone
                else r.first.all fun key => match tget k.leaves key with
                  | some l => !l.reloadable
                  | none => true
    | none => true))

/-- Whether a leaf is still on its way to tier 1. -/
def Skein.awaits (k : Skein) (key : Nat) : Bool :=
  match tget k.leaves key with
  | some l => l.tier == 2 && l.check != .damaged
  | none => false

/-- Slots that a reload has still to fill (R228, R234). -/
def State.reloadLeft (s : State) (idx : Nat) (r : Reload) : Nat := match s.skein? idx with
  | some k => if r.whole then (k.leaves.filter fun e => e.2.reloadable).length else (r.first.filter k.awaits).length
  | none => 0

/-- The end of a reload: SKEIN_RELOAD completes, and jobs that it could not serve are refused with its status (R126). -/
def State.endReload (s : State) (idx : Nat) (r : Reload) : State :=
  let s := s.modStore fun t => { t with reloads := tdel t.reloads idx }
  let need := s.reloadLeft idx r
  let s := s.answerAll r.waiters r.status (if r.status = 0 then toLe 4 r.reloaded ++ toLe 4 r.damaged else []) need
  if r.status = 0 then s
  else
    let retry := s.retryFor r.status need
    (s.work.jobs.filter fun j => j.2.phase == .waiting && j.2.entries.any fun e => skIndex e.skein == idx).foldl
      (fun s j => s.endJob j.1 j.2 r.status retry 0) s

end Sys2Proof.Machine
end

