-- ==== Sys2Proof/Machine/Admission.lean ====
section
/-!
DEFINITION. Job admission (R124–R129, R147, R162–R164): the checks in their order, the ply cache, selection, translation
under the reload policies, and delivery of rows (R133).
-/
namespace Sys2Proof.Machine

def State.setJob (s : State) (id : Nat) (j : Job) : State := s.modWork fun w => { w with jobs := tset w.jobs id j }
def State.job? (s : State) (id : Nat) : Option Job := tget s.work.jobs id

/-! ## Steps 1 to 3 (R121–R124) -/

/-- The entries of a batch list as they stand in its region (R123). -/
def listEntries (n : Nat) (bs : List Byte) : List JobEntry :=
  (List.range n).map fun i =>
    let r := bs.drop (16 * i)
    { skein := BitVec.ofNat 32 (field r 0 4), first := field r 4 4, last := field r 8 4, rowFirst := field r 12 2,
      rowCount := field r 14 2, len := 0 }

/-- The one entry of a job over one skein. -/
def soleEntry (b : List Byte) : JobEntry :=
  { skein := jdSkein b, first := field b 40 4, last := field b 44 4, rowFirst := 0, rowCount := jdQ b, len := 0 }

/-- Steps 1 and 2, and the region keys of step 3. -/
def State.jobKeys (s : State) (tag : W16) (e : QEntry) (b : List Byte) : Res Unit := do
  checkHeader b 0x10 2 (jobZeros b)
  need (!jobExcluded b && (jdFromRegion b || e.query.isSome)) St.invalidMode
  if jdSkeins b > 1 then
    let _ ← s.regionGrant tag (jdListKey b) rightRead
  if jdFromRegion b then
    let _ ← s.regionGrant tag (jdQueryKey b) rightRead
  need (decide (jdSkeins b ≤ 256)) St.lengthRange

/-- The entries of a job, read where it is a batch. -/
def State.jobList (s : State) (tag : W16) (b : List Byte) : Res (List JobEntry) × State :=
  if jdSkeins b > 1 then
    match s.regionFor tag (jdListKey b) with
    | none => (.error St.staleKey, s)
    | some r => match s.readRegion r (field b 120 4) (16 * jdSkeins b) with
      | (0, bs, s) => (.ok (listEntries (jdSkeins b) bs), s)
      | (st, _, s) => (.error st, s)
  else if jdSkeins b = 1 then (.ok [soleEntry b], s)
  else (.ok [], s)

/-! ## Steps 4 to 7 -/

/-- The largest ROW_COUNT (R123). -/
def mostRows (es : List JobEntry) : Nat := (es.map fun (e : JobEntry) => e.rowCount).foldl max 0

/-- Whether no two entries share a row (R123). -/
def rowsApart : List JobEntry → Bool
  | [] => true
  | e :: es => es.all (fun f => decide (e.rowFirst + e.rowCount ≤ f.rowFirst ∨ f.rowFirst + f.rowCount ≤ e.rowFirst)) && rowsApart es

/-- Whether a job runs on the whorls (R164); `data` is the data bytes per token of the skein's declared format. -/
def usesWhorls (b : List Byte) (rows data : Nat) : Bool :=
  let scratch := rows * ((if jdQueryBf16 b then 2 * jdDk b else jdDk b) + 8 * jdDv b + 64)
  jdEngine b == 1 || (jdEngine b == 2 && !jdExpanded b && !jdPinFold b && jdBarrier b == 0 &&
    decide (rows * (jdDk b + jdDv b) < 16 * data ∧ scratch ≤ 98304))

/-- Whether a job fits the whorls' scratch (R164). -/
def fitsScratch (b : List Byte) (rows : Nat) : Bool :=
  decide (rows * ((if jdQueryBf16 b then 2 * jdDk b else jdDk b) + 8 * jdDv b + 64) ≤ 98304)

/-- The ranges of one entry (R32, R54, R123, R125): the entry with its range resolved. -/
def entryRange (b : List Byte) (k : Skein) (e : JobEntry) : Res JobEntry := do
  let len := k.rowLength (rowKey (jdLayer b) (jdHg b))
  let last := if jdToTail b then len else e.last
  need (decide (jdLayer b < k.layers ∧ jdHg b < k.heads ∧ e.first ≤ last ∧ last ≤ len ∧ 1 ≤ e.rowCount ∧
    e.rowFirst + e.rowCount ≤ jdQ b)) St.lengthRange
  need (!(jdToTail b && e.last != 0)) St.lengthRange
  need (!(jdIsPadded b && decide (jdPadded b < len))) St.lengthRange
  need (jdExpanded b || decide (jdKeyFirst b + jdDk b ≤ k.elements ∧ jdValueFirst b + jdDv b ≤ k.elements)) St.lengthRange
  return { e with last, len, cap := k.cap, elements := k.elements }

/-- Step 5 (R91, R92, R123–R125, R164). -/
def State.jobRanges (s : State) (b : List Byte) (es : List (JobEntry × Skein)) : Res (List JobEntry) := do
  need (!es.isEmpty) St.lengthRange
  let out ← es.mapM fun x => entryRange b x.2 x.1
  let rows := mostRows out
  let elems := (es.map fun x => x.2.elements).headD 0
  let data := (es.map fun x => tokenBytes x.2.elements x.2.format).headD 0
  need (rowsApart out && es.all (fun x => x.2.elements == elems)) St.lengthRange
  need (decide (1 ≤ jdQ b ∧ jdQ b ≤ 4096 ∧ jdQueryBase b + jdQ b ≤ 65536) && channelsOk (jdDk b) && channelsOk (jdDv b)) St.lengthRange
  need (!jdPinFold b || decide (max (jdDk b) (jdDv b) ≤ foldDepthOf (jdFoldDepth b))) St.lengthRange
  need (!jdSelective b || decide (1 ≤ jdSelectK b ∧ jdSelectK b ≤ 65536)) St.lengthRange
  need (decide (jdQuerySlub b ≤ 8 ∧ jdPlySlub b ≤ 8 ∧ jdCombine b ≤ 16383 ∧ jdConn b < 262144)) St.lengthRange
  need (decide ((jdLaunch b).toNat ≤ s.time.now.toNat + 10000000000)) St.lengthRange
  need (!(usesWhorls b rows data) || fitsScratch b rows) St.lengthRange
  return out

/-- A loaded table of one kind that belongs to a tenant. -/
def State.tableOf (s : State) (tag : W16) (kind slot : Nat) : Option TableImg :=
  match tget s.images.tables slot with
  | some t => if t.kind == kind && t.tenant == tag && !t.unloaded then some t else none
  | none => none

/-- Whether a rescale table holds a job's layer and channels (R77, R78). -/
def rescaleOk (b : List Byte) (t : TableImg) : Bool := decide (jdLayer b < field t.image 0 2 ∧ jdDv b ≤ field t.image 2 2)
/-- Whether an up-projection table holds a job's layer (R111). -/
def upprojOk (b : List Byte) (t : TableImg) : Bool :=
  decide (upFirst t.image ≤ jdLayer b ∧ jdLayer b < upFirst t.image + upLayers t.image)

/-- Step 6 (R111, R124, R163). -/
def State.jobImages (s : State) (tag : W16) (b : List Byte) (ks : List Skein) : Res Unit := do
  need (match jdProgram b with
    | some n => (match tget s.images.score n with
      | some p => p.bound.contains tag
      | none => false)
    | none => true) St.programMissing
  need (match jdRescale b with
    | some n => (match s.tableOf tag 1 n with
      | some t => rescaleOk b t
      | none => false)
    | none => true) St.tableMissing
  match jdUpproj b with
  | some n => match s.tableOf tag 2 n with
    | some t => do
      need (upprojOk b t) St.tableMissing
      let i := t.image
      need (ks.all (fun k => upLatent i + upPositional i == k.elements &&
        decide (k.cap * upHeads i * ((jdDk b + jdDv b) / 32 * 33) ≤ 8 * 2 ^ 20)) &&
        jdDk b == upKey i + upPositional i && jdDv b == upValue i) St.lengthRange
    | none => .error St.tableMissing
  | none => .ok ()
  need (!jdSelective b || ks.all fun k => k.sketch) St.invalidMode
  need (!jdSelective b || ks.all fun k => match k.sketchProgram with
    | some n => thas s.images.whorl n
    | none => true) St.programMissing

/-- Whether the stacks that hold a skein's tier-1 bobbins of a row are in service (R124 step 7). -/
def State.stacksServe (s : State) (b : List Byte) (k : Skein) : Bool :=
  (k.rowLeaves (rowKey (jdLayer b) (jdHg b))).all fun e => e.2.tier != 1 || (match s.rel.stackUnits[stackOf e.2.pbn]? with
    | some x => x.state != 2
    | none => false)

/-- Whether a spindle takes items: IDLE or BUSY (R116). -/
def State.spindleServes (s : State) (i : Nat) : Bool := match s.rel.spindles[i]? with
  | some p => decide (p.state ≤ 1)
  | none => false

/-- Step 7 (R118, R124). -/
def State.jobEngines (s : State) (b : List Byte) (whorls : Bool) (ks : List Skein) : Res Unit := do
  need (if whorls then ks.all (s.stacksServe b) else decide (0 < s.spindlesInService)) St.noResource
  need ((maskSpindles (jdBarrier b)).all s.spindleServes) St.noResource

/-! ## Steps 8 and 9 -/

/-- Channels of a query row (R129). -/
def queryChannels (b : List Byte) (elements : Nat) : Nat := if jdExpanded b then jdDk b else elements
/-- Query rows, the pooled one included (R129). -/
def queryRows (b : List Byte) : Nat := jdQ b + if jdSelective b then 1 else 0

/-- Whether query data decodes under R81, every row. -/
def queryOk (n slub rows : Nat) (bf16 : Bool) (data : List Byte) : Res Unit := do
  need (data.length == rows * vectorSize n slub bf16) St.lengthRange
  let _ ← (splitRows (vectorSize n slub bf16) rows data).mapM (decodeVector n slub bf16)
  return ()

/-- The query data of step 8: slub count and bytes (R129). -/
def State.jobQuery (s : State) (tag : W16) (e : QEntry) (b : List Byte) (elements : Nat) : Res (Nat × List Byte) × State :=
  let n := queryChannels b elements
  let bf := jdQueryBf16 b
  let rows := queryRows b
  let check := fun (slub : Nat) (data : List Byte) => (do
    queryOk n slub rows bf data
    need (!nonfinite32 (jdScale b)) St.nonfinite
    return (slub, data) : Res (Nat × List Byte))
  if jdFromRegion b then
    match s.regionFor tag (jdQueryKey b) with
    | none => (.error St.staleKey, s)
    | some r => match s.readRegion r (field b 104 4) (rows * vectorSize n (jdQuerySlub b) bf) with
      | (0, data, s) => (check (jdQuerySlub b) data, s)
      | (st, _, s) => (.error st, s)
  else match e.query with
    | none => (.error St.invalidMode, s)
    | some q =>
      (do
        need (q.bf16 == bf) St.invalidMode
        need (q.elements == n && q.rows == rows) St.lengthRange
        check q.slub q.data, s)

/-- Whether a local context is armed for a step (R135, R321). -/
def Combine.armed (c : Combine) (step : W64) : Bool := step == c.step || (cdAuto c.bytes && step == c.step + 1)

/-- Step 9. -/
def State.jobDest (s : State) (tag : W16) (b : List Byte) : Res Unit :=
  need (if jdDest b = 0 then (s.connAt tag (jdConn b)).isSome
    else if jdDest b = 1 then (s.regionFor tag (jdPlyKey b)).isSome
    else match s.combineFor tag (jdCombine b) with
      | some c => c.armed (jdStep b)
      | none => false) St.noResource

/-! ## The cache key (R147) -/

/-- The descriptor with the fields that do not key the cache cleared. -/
def keyDescriptor (b : List Byte) : List Byte :=
  let c := jdControl b
  let keep := c - bits 25 23 c * 2 ^ 23
  [(8, 8), (24, 8), (88, 4), (92, 2), (94, 2), (96, 4), (108, 4), (112, 4)].foldl (fun b f => patch b f.1 (zeros f.2)) (patch b 4 (toLe 4 keep))

/-- The key of a job: descriptor, batch list, resolved ranges, and the check of its query bytes. -/
def jobKey (b : List Byte) (es : List JobEntry) (query : List Byte) : List Byte :=
  keyDescriptor b ++ es.flatMap (fun e => toLe 4 e.skein.toNat ++ toLe 2 e.rowFirst ++ toLe 2 e.rowCount ++ toLe 4 e.first ++ toLe 4 e.last) ++
  toLe 4 (crc32c query).toNat

/-! ## Delivery (R133) -/

/-- Vector channels, slub entries and format of a job's ply rows. -/
def jobRowSize (b : List Byte) : Nat := plyRowSize (jdDv b) (jdPlySlub b) (jdPlyBf16 b)

/-- A job that reads its query rows no more gives their STAGING back (R312). -/
def State.queryRead (s : State) (id : Nat) : State :=
  match s.job? id with
  | none => s
  | some j =>
    match j.staging with
    | some (l, n, f) => (s.setJob id { j with staging := none }).releaseStaging l n f
    | none => s

/-- The rows of a job go to its destination, and the job completes where R133 says. -/
def State.deliverJob (s : State) (id : Nat) (j : Job) (rows : List Byte) (replayed : Bool) : State :=
  let b := j.bytes
  let j := { j with rows, replayed, phase := .sent }
  let s := (s.setJob id j).queryRead id
  let j := { j with staging := none }
  let count := rows.length / jobRowSize b
  if jdDest b = 0 then
    match s.connAt j.tenant (jdConn b) with
    | none => s.endJob id j St.staleHandle 0 0
    | some _ => s.postPly (jdConn b) { payload := plyHeader count (jdPlySlub b) (jdPlyBf16 b) (jdDv b) ++ rows, source := some (0, id),
                                       trig := none }
  else if jdDest b = 1 then
    match s.writeRows j.tenant (jdPlyKey b) (field b 112 4) rows with
    | .ok s => s.endJob id j St.ok 0 rows.length
    | .error st => s.endJob id j st 0 0
  else
    let (st, s) := s.deliverPly j.tenant (jdDv b) (jdPlySlub b) (jdPlyBf16 b) (splitRows (jobRowSize b) count rows)
    s.endJob id j st 0 (if st = 0 then rows.length else 0)

/-- Cached rows as a job sends them: REPLAYED, with its own RANK and COMBINE_ID (R147). -/
def replayRows (b rows : List Byte) : List Byte :=
  (splitRows (jobRowSize b) (rows.length / jobRowSize b) rows).flatMap fun r =>
    patch (patch r 6 (toLe 2 (field r 6 2 ||| Ply.replayed))) 28 (toLe 2 (jdCombine b) ++ toLe 2 (jdRank b))

/-! ## Selection (R113, R162, R163) -/

/-- The rows of a job's query as values. -/
def Job.queryRow (j : Job) (elements r : Nat) : List W32 :=
  let n := queryChannels j.bytes elements
  let bf := jdQueryBf16 j.bytes
  match decodeVector n j.querySlub bf ((j.query.drop (r * vectorSize n j.querySlub bf)).take (vectorSize n j.querySlub bf)) with
  | .ok v => v
  | .error _ => List.replicate n 0

/-- The pooled query's values of one whorl's channels, none outside the key range. -/
def pooled (b : List Byte) (v : List W32) (elements w : Nat) : List (Option W32) :=
  (List.range (elements / 16)).map fun i =>
    let c := w * (elements / 16) + i
    if jdKeyFirst b ≤ c ∧ c < jdKeyFirst b + jdDk b then v[c]? else none

/-- A candidate's score along the chain of sixteen whorls, or the trap of the skein's sketch program (R162, R191). -/
def State.sketchScore (s : State) (j : Job) (k : Skein) (v : List W32) (key count tail : Nat) : Except (Nat × Trap) W32 :=
  (List.range 16).foldl (fun acc w => do
    let total ← acc
    let (hi, lo) := (tget k.sketches (sketchKey key w)).getD ([], [])
    let q := pooled j.bytes v k.elements w
    match k.sketchProgram with
    | none => return fadd total (sketchPart q hi lo)
    | some slot => match tget s.images.whorl slot with
      | none => return fadd total 0
      | some p =>
        let i := (sketchInv slot p (entryTag j.bytes) w (keyBob key) count tail (jdLayer j.bytes) q hi lo).runAll
        match i.trap with
        | some t => .error (slot, t)
        | none => return fadd total (i.sAt 0)) (.ok 0)

/-- Whether candidate `a` comes before `b`: the higher score, none lowest, then the lower index (R113, R163). -/
def scoreBefore (a b : Nat × Option W32) : Bool :=
  match a.2, b.2 with
  | some x, some y => decide (f32key x > f32key y) || (decide (f32key x = f32key y) && decide (a.1 < b.1))
  | some _, none => true
  | none, some _ => false
  | none, none => decide (a.1 < b.1)

/-- The bobbins that a selective entry streams, ascending (R113, R163). -/
def State.selectBobbins (s : State) (j : Job) (k : Skein) (e : JobEntry) : Except (Nat × Trap) (List Nat) := do
  let b := j.bytes
  let row := rowKey (jdLayer b) (jdHg b)
  let cands := (bobbinRanges k.cap e.first e.last).map (·.1)
  let tail := (e.len - 1) / k.cap
  let ends := if jdKeepEnds b then cands.filter fun c => c == 0 || c == tail else []
  let v := j.queryRow k.elements (jdQ b)
  let rest := cands.filter fun c => !ends.contains c
  let leaf := fun (c : Nat) => tget k.leaves (row * 65536 + c)
  let near := rest.filter fun c => match leaf c with
    | some l => l.tier == 0 && l.check != .damaged
    | none => false
  let scored ← (rest.filter fun c => !near.contains c).mapM fun c => match leaf c with
    | some l =>
      if l.tier = 1 ∧ l.check ≠ Check.damaged then do
        let x ← s.sketchScore j k v (row * 65536 + c) l.count tail
        pure (c, some x)
      else pure (c, none)
    | none => pure (c, none)
  let order := ends ++ near ++ (sortBy scoreBefore scored).map (·.1)
  return sortBy (fun a b => decide (a < b)) (order.take (jdSelectK b))

/-- The plans of all entries of a job (R113). -/
def State.planJob (s : State) (j : Job) : Except (Nat × Trap) (List JobEntry) :=
  j.entries.mapM fun e => match s.skein? (skIndex e.skein) with
    | none => .ok { e with plan := [] }
    | some k =>
      if jdSelective j.bytes then do
        let p ← s.selectBobbins j k e
        return { e with plan := p }
      else .ok { e with plan := (bobbinRanges k.cap e.first e.last).map (·.1) }

/-- The event of a score-path or whorl trap: place, slot, word, code, IMM and JOB_TAG (R188). -/
def State.raiseTrap (s : State) (j : Job) (place slot : Nat) (t : Trap) : State :=
  s.raise Ev.programTrap (.tenant j.tenant) [place, slot, t.2.2, t.1, t.2.1, (entryTag j.bytes).toNat]

/-- A trap fails the whole job (R98, R162). -/
def State.trapJob (s : State) (id : Nat) (j : Job) (place slot : Nat) (t : Trap) : State :=
  (s.raiseTrap j place slot t).endJob id j St.programTrap 0 0

/-! ## Step 12 (R126, R127) -/

/-- What translation gives for one planned bobbin: streamed with its leaf, to be reloaded, or excluded. -/
inductive Named where
  | streams (l : Leaf) | reloads | excluded
deriving DecidableEq, Repr

def Skein.named (k : Skein) (key : Nat) : Named :=
  match k.xlate key with
  | .ok l => .streams l
  | .reload _ => .reloads
  | _ => .excluded

/-- The leaf keys of an entry's plan. -/
def JobEntry.keys (e : JobEntry) (b : List Byte) : List Nat := e.plan.map (rowKey (jdLayer b) (jdHg b) * 65536 + ·)

/-- The planned bobbins of an entry that need a reload. -/
def State.reloadsOf (s : State) (b : List Byte) (e : JobEntry) : List Nat :=
  match s.skein? (skIndex e.skein) with
  | none => []
  | some k => (e.keys b).filter fun key => k.named key == .reloads

/-- The fold of a job (R91, R123). -/
def Job.fold (j : Job) : Nat × Nat := foldCodes j.bytes (mostRows j.entries)
/-- Query rows of one pass (R93); a whorl job has one pass. -/
def Job.width (j : Job) : Nat := if j.whorls then 4096 else foldWidthOf j.fold.2

/-- The up-projection image of a job. -/
def State.upImage (s : State) (j : Job) : List Byte :=
  match jdUpproj j.bytes with
  | some i => match tget s.images.tables i with
    | some t => t.image
    | none => []
  | none => []

/-- The head that a query row of an expanded job stands for: the spec leaves the assignment open (DEDUCED, log 21). -/
def headOf (q heads row : Nat) : Nat := Config.rowHead q heads row % max 1 heads

/-- The query rows of an entry as its work items take them: passes of the fold's width, in expanded mode over the rows of one
head at a time (R93, R111). -/
def State.rowGroups (s : State) (j : Job) (e : JobEntry) : List (List Nat) :=
  let rows := (List.range e.rowCount).map (e.rowFirst + ·)
  let split := fun (xs : List Nat) => chunks j.width (passes xs.length j.width) xs
  if jdExpanded j.bytes then
    let heads := upHeads (s.upImage j)
    (List.range (max 1 heads)).flatMap fun h => split (rows.filter fun r => headOf (jdQ j.bytes) heads r == h)
  else split rows

/-- An entry's items and its excluded tokens as translation finds them now (R52, R93, R111, R126). -/
def State.itemsOf (s : State) (j : Job) (e : JobEntry) (n : Nat) : List Item × JobEntry :=
  match s.skein? (skIndex e.skein) with
  | none => ([], e)
  | some k =>
    let b := j.bytes
    let row := rowKey (jdLayer b) (jdHg b)
    let groups := s.rowGroups j e
    let out := e.plan.map fun c => (c, k.named (row * 65536 + c))
    let items := (List.range groups.length).flatMap fun p => out.filterMap fun x => match x.2 with
      | .streams l => some { entry := n, pass := p, bobbin := x.1, leaf := l }
      | _ => none
    let gone := out.filter fun x => match x.2 with
      | .streams _ => false
      | _ => true
    let missing := (gone.map fun x => min e.last ((x.1 + 1) * k.cap) - max e.first (x.1 * k.cap)).sum
    (items, { e with missing, groups })

/-- The job whose barrier a spindle drains for and arrives at: the first admitted of those that name it and have not been
released (R118; DESIGN CHOICE, log 75). -/
def State.barrierOf (s : State) (sp : Nat) : Option Nat :=
  (s.work.jobs.find? fun j => (j.2.phase == .barrier || j.2.phase == .launchWait) && bit sp (jdBarrier j.2.bytes)).map (·.1)
/-- Whether a barrier awaits a spindle, which then takes no new items (R116, R118). -/
def State.awaited (s : State) (sp : Nat) : Bool := (s.barrierOf sp).isSome

/-- The sub-arrays that may take a job's items, spindle by spindle (R94, R118). -/
def State.subArrays (s : State) (j : Job) : List Nat :=
  let mask := jdBarrier j.bytes
  ((List.range 8).filter fun sp => s.spindleServes sp && (mask == 0 || bit sp mask)).flatMap fun sp =>
    (List.range (foldSubs j.fold)).map (sp * 64 + ·)

/-- The unit of an item in deterministic mode: its row and its order class (R107). -/
def Item.unit (i : Item) : Nat × Nat × Nat := (i.entry, i.pass, i.bobbin % 256)

/-- Deals units round-robin to sub-arrays, in ascending order of row position and then of class: those of the items that a
test picks (R107). -/
def Job.deal (j : Job) (subs : List Nat) (p : Item → Bool) : Job :=
  let before := fun (a b : Nat × Nat × Nat) => decide (a.1 < b.1) || (a.1 == b.1 && (decide (a.2.1 < b.2.1) || (a.2.1 == b.2.1 && decide (a.2.2 < b.2.2))))
  let units := sortBy before ((j.items.filter p).map Item.unit).eraseDups
  let place := fun (i : Item) => (units.findIdx? (· == i.unit)).bind fun n => subs[n % max 1 subs.length]?
  if !jdDet j.bytes || j.whorls then j
  else { j with items := j.items.map fun i => if p i then { i with dealt := place i } else i }

/-- The phase in which an admitted job starts (R118, R127). -/
def State.firstPhase (s : State) (b : List Byte) : JobPhase :=
  if s.time.now < jdLaunch b then .launchWait else if jdBarrier b ≠ 0 then .barrier else .streaming

/-- The admission of a job: it holds its translations, its program and its tables (R127, R197, R406). -/
def State.admitJob (s : State) (id : Nat) (j : Job) : State :=
  let out := (indexed j.entries).map fun e => s.itemsOf j e.1 e.2
  let j1 : Job :=
    { j with items := out.flatMap (·.1), entries := out.map (·.2), phase := s.firstPhase j.bytes, epoch := s.store.epoch,
             launch := jdLaunch j.bytes, startAt := s.time.localNow, waitUntil := none }
  let j1 := j1.deal (s.subArrays j1) fun _ => true
  let hold := fun (t : Table Prog) (n : Option Nat) => match n with
    | some i => tmod t i fun p => { p with holders := p.holders ++ [id] }
    | none => t
  let holdT := fun (t : Table TableImg) (n : Option Nat) => match n with
    | some i => tmod t i fun p => { p with holders := p.holders ++ [id] }
    | none => t
  let s := s.setJob id j1
  let s := j.entries.foldl (fun s e => s.modSkein (skIndex e.skein) fun k => { k with lastJob := s.time.localNow }) s
  let sketch := fun (t : Table Prog) (e : JobEntry) => hold t (((s.skein? (skIndex e.skein)).map (fun (k : Skein) => k.sketchProgram)).getD none)
  { s with images :=
    { s.images with
      score := hold s.images.score (jdProgram j.bytes)
      whorl := if jdSelective j.bytes then j.entries.foldl sketch s.images.whorl else s.images.whorl
      tables := holdT (holdT s.images.tables (jdRescale j.bytes)) (jdUpproj j.bytes) } }

/-- Admission after a wait: an image that lost the tenant's binding meanwhile takes no new admission (R198, R406), and engines
that have left service since take none either (R109, R118). -/
def State.admitLate (s : State) (id : Nat) (j : Job) : State :=
  let ks := j.entries.filterMap fun e => s.skein? (skIndex e.skein)
  let again : Res Unit := do
    s.jobImages j.tenant j.bytes ks
    s.jobEngines j.bytes j.whorls ks
  match again with
  | .ok _ => s.admitJob id j
  | .error st => s.endJob id j st 0 0

/-- The reloads that a job asks for: each skein with the job's bobbins first (R126, R234). -/
def State.askReloads (s : State) (j : Job) (forJob : Bool) : State :=
  j.entries.foldl (fun s e =>
    let keys := s.reloadsOf j.bytes e
    if keys.isEmpty then s else s.askReload (skIndex e.skein) none keys true forJob) s

/-- DRAM that the reloads of a job's skeins need, and whether the quota and the free pool hold it (R126). -/
def State.reloadNeed (s : State) (j : Job) : Nat :=
  (((j.entries.filter fun e => !(s.reloadsOf j.bytes e).isEmpty).map fun e => skIndex e.skein).eraseDups.map fun i => match s.skein? i with
    | some k => k.toReload
    | none => 0).sum

/-- Step 12: translation under the reload policy (R126). -/
def State.translateJob (s : State) (id : Nat) (j : Job) : State :=
  if j.entries.any fun e => (s.skein? (skIndex e.skein)).isNone then s.endJob id j St.staleHandle 0 0
  else if j.entries.all fun e => (s.reloadsOf j.bytes e).isEmpty then s.admitLate id j
  else if jdReload j.bytes = 0 then s.endJob id j St.notResident 0 0
  else
    let n := s.reloadNeed j
    let room := s.dramNeed j.tenant n
    if jdReload j.bytes = 2 then
      let s1 := s.admitLate id j
      if s.creelServes && room.isOk && (s1.job? id).isSome then (s1.askReloads j false).runTier else s1
    else
      match s.creelServes, room with
      | true, .error st => s.endJob id j st (s.retryFor st n) 0
      | _, _ =>
        let wait := (tget s.work.jqs j.queue).map (fun (q : Jq) => q.admitWait) |>.getD 0
        let until' := j.waitUntil.getD (s.time.localNow + wait * 1000)
        let s := s.setJob id { j with phase := .waiting, waitUntil := some until' }
        (s.askReloads j true).runTier

/-! ## Steps 10 and 11 (R113, R147, R489) -/

/-- Sketch updates that a deterministic selective job still waits for (R489). -/
def State.sketchPending (s : State) (j : Job) : Bool :=
  s.store.sketchQ.any fun q => decide (q.2.seq < j.sketchSeq) && j.entries.any fun e => skIndex e.skein == q.2.skein

/-- Steps 11 and 12. -/
def State.selectJob (s : State) (id : Nat) (j : Job) : State :=
  match s.planJob j with
  | .error (slot, t) => s.trapJob id j 2 slot t
  | .ok es =>
    let j := { j with entries := es }
    (s.setJob id j).translateJob id j

/-- Step 11, after the wait of R489. -/
def State.step11 (s : State) (id : Nat) (j : Job) : State :=
  if jdSelective j.bytes && jdDet j.bytes && s.sketchPending j then
    s.setJob id { j with phase := .sketchWait }
  else s.selectJob id j

/-- Whether another job of the same key is still running (R147). -/
def State.keyRuns (s : State) (id : Nat) (j : Job) : Bool :=
  s.work.jobs.any fun x => x.1 != id && x.2.key == j.key && x.2.phase != .cacheWait

/-- Step 10: the ply cache (R147). -/
def State.step10 (s : State) (id : Nat) (j : Job) : State :=
  if !jdCache j.bytes then s.step11 id j
  else match s.work.cache.find? fun c => c.key == j.key with
    | some c =>
      let s := j.entries.foldl (fun s e => s.modSkein (skIndex e.skein) fun k => { k with lastJob := s.time.localNow }) s
      s.deliverJob id j (replayRows j.bytes c.rows) true
    | none =>
      if s.keyRuns id j then s.setJob id { j with phase := .cacheWait } else s.step11 id j

/-! ## Admission (R124) -/

/-- Steps 4 to 7, and the entries with their ranges. -/
def State.jobChecks (s : State) (tag : W16) (b : List Byte) (es : List JobEntry) : Res (List JobEntry × Bool × Nat) := do
  let ks ← es.mapM fun e => s.skeinOf tag e.skein
  need (!jdCheckLease b || ks.all fun k => !k.leaseRefuses (field b 88 4)) St.notOwner
  let out ← s.jobRanges b (es.zip ks)
  s.jobImages tag b ks
  let data := (ks.map fun k => tokenBytes k.elements k.format).headD 0
  let whorls := usesWhorls b (mostRows out) data
  s.jobEngines b whorls ks
  return (out, whorls, (ks.map fun k => k.elements).headD 0)

/-- Steps 1 to 9: the job that enters step 10, or the status that refuses it. -/
def State.checkJob (s : State) (q : Nat) (tag : W16) (e : QEntry) (b : List Byte) : Res Job × State :=
  match s.jobKeys tag e b with
  | .error st => (.error st, s)
  | .ok () =>
    match s.jobList tag b with
    | (.error st, s) => (.error st, s)
    | (.ok raw, s) =>
      match s.jobChecks tag b raw with
      | .error st => (.error st, s)
      | .ok (entries, whorls, elements) =>
        match s.jobQuery tag e b elements with
        | (.error st, s) => (.error st, s)
        | (.ok (slub, data), s) =>
          match s.jobDest tag b with
          | .error st => (.error st, s)
          | .ok () =>
            (.ok { queue := q, tenant := tag, bytes := b, phase := .cacheWait, query := data, querySlub := slub, trig := e.trig,
                   staging := e.query.map fun x => (x.list, x.space, x.firing), entries, whorls,
                   key := if jdCache b then jobKey b entries data else [], sketchSeq := s.store.sketchSeq }, s)

/-- JOB_ADMISSION (R124): the head entry of a job queue. -/
def execJobAdmission (q : Nat) (s : State) : Host.Outcome State Fault Refusal :=
  headRow (fun b => !([0x11, 0x12, 0x13].contains (field b 0 1))) q s fun jq e b s =>
    match s.checkJob q jq.tenant e b with
    | (.error st, s) => s.completeEntry q e b st 0
    | (.ok j, s) =>
      let id := s.work.nextJob
      let s := s.modWork fun w => { w with nextJob := id + 1, jobs := tset w.jobs id j }
      s.step10 id j

/-- JOB_ADMISSION_RESUME (R126, R147): a job that waits for its bobbins goes on once none of them is on its way, and one
that waits for a running job of the same key once that has ended. -/
def execJobAdmissionResume (id : Nat) (s : State) : Host.Outcome State Fault Refusal :=
  match s.job? id with
  | none => .next s
  | some j =>
    if !s.awake then .next s
    else match j.phase with
      | .waiting => .next (if j.entries.all fun e => (s.reloadsOf j.bytes e).isEmpty then s.translateJob id j else s)
      | .cacheWait => .next (if s.keyRuns id j then s else s.step10 id j)
      | _ => .next s

/-- ADMIT_WAIT_EXPIRY (R126): the job is refused; a reload request that never started lapses with it. -/
def execAdmitWaitExpiry (id : Nat) (s : State) : Host.Outcome State Fault Refusal :=
  match s.job? id with
  | none => .next s
  | some j =>
    match j.phase, j.waitUntil with
    | .waiting, some t =>
      if s.time.localNow < t ∨ !s.awake then .next s
      else
        let s := s.endJob id j St.notResident 0 0
        let idle := fun (i : Nat) (r : Reload) => !s.creelServes && r.waiters.isEmpty && r.forJob && r.reloaded == 0 &&
          j.entries.any (fun e => skIndex e.skein == i) &&
          !(s.work.jobs.any fun x => x.2.phase == .waiting && x.2.entries.any fun e => skIndex e.skein == i)
        .next (s.modStore fun t => { t with reloads := t.reloads.filter fun r => !idle r.1 r.2 })
    | _, _ => .next s

/-- SKETCH_WAIT_DONE (R489). -/
def execSketchWaitDone (id : Nat) (s : State) : Host.Outcome State Fault Refusal :=
  match s.job? id with
  | none => .next s
  | some j =>
    if j.phase ≠ .sketchWait ∨ s.sketchPending j ∨ !s.awake then .next s
    else .next (s.selectJob id j)

end Sys2Proof.Machine
end

