-- ==== Sys2Proof/Machine/Messages.lean ====
section
/-!
DEFINITION. Messages: work requests (R283), WRITE, READ, SEND and the atomics at the target (R277, R285–R288, R302),
their responses at the requester, QUERY (R289, R310), ACK, NAK and the timers (R294, R298–R301), and the timed hold
(R315).
-/
namespace Sys2Proof.Machine

/-! ## WORK_REQUEST_POST (R283) -/

def wrOpcode (b : List Byte) : Nat := field b 4 1
def wrLen (b : List Byte) : Nat := field b 24 4

/-- The operations that a work request may name (R283). -/
def wrOps : List Nat := [1, 2, 4, 5, 7, 8, 9, 10]

/-- The message that a work request makes, without its MSG_SEQ, or the status that refuses it (R12, R283). The state
differs where a SKEIN region read met a failed check. -/
def State.workRequest (s : State) (tag : W16) (b : List Byte) : Nat × List Byte × State :=
  let op := wrOpcode b
  let len := wrLen b
  let off := field b 20 4
  let check : Res Region := do
    need (field b 0 1 == 0x20) St.badType
    need (field b 1 1 == 1) St.versionUnsupported
    need (field b 2 1 == 1) St.lengthRange
    need (field b 3 1 == 0 && decide (field b 5 1 < 4) && zeroIn b 6 2 && zeroIn b 40 24 &&
      (opKeyed op || (zeroIn b 28 4 && zeroIn b 32 8))) St.reservedNonzero
    need (wrOps.contains op) St.invalidMode
    match s.regionFor tag (BitVec.ofNat 32 (field b 16 4)) with
    | none => .error St.staleKey
    | some r => do
      need (decide (1 ≤ len ∧ len ≤ msgMax) && (!(op == Op.fetchAdd || op == Op.compareSwap) || len == 16)) St.lengthRange
      need (r.kind == 1) St.notPermitted
      need (op != Op.read || decide (off + len ≤ r.length)) St.lengthRange
      return r
  match check with
  | .error st => (st, [], s)
  | .ok r => if op = Op.read then (St.ok, toLe 4 len ++ zeros 4, s) else s.readRegion r off len

/-- Held-payload bytes of the messages that a connection has unacknowledged (R297). -/
def Conn.heldOut (k : Conn) : Nat := ((k.unacked.filter fun m => opHeld m.opcode).map fun m => m.payload.length).sum

/-- Whether a message may be sent now: the 64-message window, a peer CREDIT that is not exhausted, and room in it for held
payload (R295, R297, R324; log 79). -/
def Conn.mayTake (k : Conn) (op len : Nat) : Bool :=
  decide (k.unacked.length < 64) && (match k.credit with
    | none => true
    | some u => decide (k.heldOut < u * 65536) && (!opHeld op || decide (k.heldOut + len ≤ u * 65536)))

/-- Sends a message: it takes the next MSG_SEQ (R283, R295). -/
def State.sendMsg (s : State) (c : Nat) (k : Conn) (m : Msg) : State :=
  let m := { m with seq := k.nextSeq, sentAt := s.time.localNow }
  let s := s.modConn c fun k => { k with nextSeq := (k.nextSeq + 1) % 2 ^ 32, unacked := k.unacked ++ [m] }
  let (first, s) := s.sendPackets c
    { op := m.opcode, flags := if m.ackReq then flagAckReq else 0, seq := m.seq, key := m.key.toNat, roff := m.roff.toNat } m.payload
  let set := fun (x : Msg) => if x.seq = m.seq then { x with path := first } else x
  s.modConn c fun k => { k with unacked := k.unacked.map set }

/-- The message of an entry that the module itself posted: a PLY send, or a failure notice (R133, R139, R322). -/
def ownMsg (e : QEntry) (src : Nat × Nat) : Msg :=
  { seq := 0, opcode := if src.1 = 2 then Op.send else Op.ply, ackReq := true, signal := false, tag := 0, payload := e.payload,
    source := e.source, trig := e.trig, onDone := e.onDone }

/-- The message of a work request. -/
def wrMsg (b : List Byte) (e : QEntry) (payload : List Byte) : Msg :=
  { seq := 0, opcode := wrOpcode b, ackReq := bit 1 (field b 5 1), signal := bit 0 (field b 5 1), tag := entryTag b, payload,
    key := BitVec.ofNat 32 (field b 28 4), roff := BitVec.ofNat 64 (field b 32 8), lkey := BitVec.ofNat 32 (field b 16 4),
    loff := field b 20 4, len := wrLen b, trig := e.trig }

/-- The head of a send queue that is no wait: cancelled, refused by the connection's state, refused by its own checks,
or sent (R282, R283, R320, R408, R409). -/
def State.takeWr (s : State) (c : Nat) (k : Conn) (e : QEntry) (rest : List QEntry) : State :=
  let b := s.sqBytes k e
  let pop := fun (s : State) => s.modConn c fun k => { k with sq := rest, cancelNext := k.cancelNext - 1 }
  let refused := fun (st : Nat) => ((pop s).endUnsent c k e st).pumpNotices
  if k.state = .error then refused St.connError
  else if k.cancelNext > 0 then refused St.chainError
  else if k.destroyWaiter.isSome then refused St.cancelled
  else if k.peerConn = 0 then refused St.wrongState
  else if k.state = .draining then s
  else
    match e.source with
    | some src =>
      let m := ownMsg e src
      if k.mayTake m.opcode m.payload.length then ((pop s).sendMsg c k m).pumpNotices else s
    | none =>
      if s.sqBad k e then ((pop s).unreadWr c e).pumpNotices
      else if !k.mayTake (wrOpcode b) (wrLen b) then s
      else
        match s.workRequest k.tenant b with
        | (0, payload, s1) => ((pop s1).sendMsg c k (wrMsg b e payload)).pumpNotices
        | (st, _, s1) => ((pop s1).endUnsent c k e st).pumpNotices

/-- WORK_REQUEST_POST (R283): the head entry of a connection's send queue. -/
def execWorkRequestPost (c : Nat) (s : State) : Host.Outcome State Fault Refusal :=
  match s.conn? c with
  | none => .next s
  | some k =>
    if k.wait.isSome || !s.awake then .next s
    else match k.sq with
      | [] => .next s
      | e :: rest => if field (s.sqBytes k e) 0 1 = 0x13 ∧ e.source.isNone ∧ !s.sqBad k e then .next s else .next (s.takeWr c k e rest)

/-! ## Execution at the target (R277, R285–R288, R296, R302) -/

/-- Whether a WRITE's key names a SKEIN region: it is then an IMPORT (R287). -/
def State.importKey (s : State) (k : Conn) (r : Reasm) : Bool :=
  match s.regionFor k.tenant r.key with
  | some g => g.kind == 2
  | none => false

/-- WRITE_EXECUTE (R285, R296): the status that a packet met, else success. -/
def execWriteExecute (c seq : Nat) (s : State) : Host.Outcome State Fault Refusal :=
  msgRow c seq Op.write s fun k r _ s => if s.importKey k r then s else s.completeRx c seq r.ackReq r.failed 0

/-- The READ of a message: status, bytes and state (R277, R285, R287). -/
def State.readFor (s : State) (tag : W16) (key : W32) (roff : W64) (p : List Byte) : Nat × List Byte × State :=
  match s.regionGrant tag key rightRead with
  | .error st => (st, [], s)
  | .ok r =>
    let n := field p 0 4
    if p.length ≠ 8 then (St.lengthRange, [], s)
    else if !zeroIn p 4 4 then (St.reservedNonzero, [], s)
    else if n = 0 ∨ n > msgMax then (St.lengthRange, [], s)
    else s.readRegion r roff.toNat n

/-- READ_EXECUTE (R277, R287). -/
def execReadExecute (c seq : Nat) (s : State) : Host.Outcome State Fault Refusal :=
  msgRow c seq Op.read s fun k r p s =>
    match s.readFor k.tenant r.key r.roff p with
    | (0, bytes, s) => (s.respond c Op.readResponse seq bytes).completeRx c seq r.ackReq St.ok 0
    | (st, _, s) => s.completeRx c seq r.ackReq st 0

/-- The record of a connection's last 64 atomic results (R299). -/
def Conn.recordAtomic (k : Conn) (seq : Nat) (v : W64) : Conn := { k with atomics := ((seq, v) :: k.atomics).take 64 }

/-- An atomic on 8 bytes of a BUFFER: the prior value and the state (R277). -/
def State.atomicBuffer (s : State) (r : Region) (off : Nat) (f : W64 → W64) : W64 × State :=
  let old := BitVec.ofNat 64 (ofLe (s.bufRead r off 8))
  (old, s.bufWrite r off (toLe 8 (f old).toNat))

/-- The checks of an atomic and its operation: the prior value and the state (R277, R285, R288). `onLease` says what it
does to a lease record at offset 0. -/
def State.atomicFor (s : State) (tag : W16) (key : W32) (roff : W64) (p : List Byte) (swap : Bool) : Res (W64 × State) := do
  let r ← s.regionGrant tag key rightAtomic
  let off := roff.toNat
  let a := BitVec.ofNat 64 (field p 0 8)
  let b := BitVec.ofNat 64 (field p 8 8)
  need (p.length == 16) St.lengthRange
  need (swap || b == 0) St.reservedNonzero
  need (r.kind != 3 || swap) St.notPermitted
  need (off % 8 == 0 && decide (off + 8 ≤ r.size)) St.lengthRange
  if r.kind = 3 then
    need (off == 0) St.notPermitted
    match s.skeinFor tag r.skein with
    | none => .error St.staleHandle
    | some _ =>
      match s.swapLease (skIndex r.skein) b a with
      | none => .error St.versionConflict
      | some (old, _, s) => return (old, s)
  else return s.atomicBuffer r off fun old => if swap then (if old = b then a else old) else old + a

/-- An atomic message executes: its prior value is recorded and sent back (R277, R299). -/
def State.runAtomic (s : State) (c seq : Nat) (k : Conn) (r : Reasm) (p : List Byte) (swap : Bool) : State :=
  match s.atomicFor k.tenant r.key r.roff p swap with
  | .error st => s.completeRx c seq r.ackReq st 0
  | .ok (old, s) =>
    ((s.modConn c fun k => k.recordAtomic seq old).respond c Op.atomicResponse seq (toLe 8 old.toNat)).completeRx c seq r.ackReq St.ok 0

/-- FETCH_ADD_EXECUTE (R277). -/
def execFetchAddExecute (c seq : Nat) (s : State) : Host.Outcome State Fault Refusal :=
  msgRow c seq Op.fetchAdd s fun k r p s => s.runAtomic c seq k r p false
/-- COMPARE_SWAP_EXECUTE (R277, R288). -/
def execCompareSwapExecute (c seq : Nat) (s : State) : Host.Outcome State Fault Refusal :=
  msgRow c seq Op.compareSwap s fun k r p s => s.runAtomic c seq k r p true

/-- The SEND of a connection into its SRQ's oldest entry: status, or the slot and the state (R302). -/
def State.takeReceive (s : State) (k : Conn) (p : List Byte) : Res (Nat × State) :=
  match k.srq with
  | none => .error St.noReceive
  | some q =>
    match tget s.flyer.srqs q with
    | none => .error St.noReceive
    | some x =>
      match x.fifo with
      | [] => .error St.noReceive
      | slot :: rest => do
        need (!s.areaBad x.area (16 * slot) 16) St.internal
        let e := s.mem.areaRead x.area (16 * slot) 16
        need (decide (p.length ≤ field e 12 4)) St.lengthRange
        let s ← s.placeLocal k.tenant (BitVec.ofNat 32 (field e 0 4)) (field e 4 8) p
        return (slot, s.modFlyer fun f => { f with srqs := tset f.srqs q { x with fifo := rest } })

/-- SEND_EXECUTE (R302, R304): while the completion ring is full the SEND does not complete, and the connection
advertises CREDIT 0. -/
def execSendExecute (c seq : Nat) (s : State) : Host.Outcome State Fault Refusal :=
  msgRow c seq Op.send s fun k r p s =>
    let blocked := match tget s.work.cqs k.cq with
      | some q => q.full || !q.held.isEmpty
      | none => false
    match s.takeReceive k p with
    | .error st => s.completeRx c seq r.ackReq st 0
    | .ok (slot, s1) =>
      if blocked then
        let s := s.modConn c fun k => { k with creditZero := true }
        if k.creditZero then s else s.raise Ev.cqFull (.tenant k.tenant) [k.cq]
      else
        (s1.postCqe k.cq { kind := 5, source := k.handle, msgSeq := seq, bytes := p.length, aux := slot }).completeRx c seq
          r.ackReq St.ok 0

/-- What a QUERY message says, or the status that refuses it (R289, R8). -/
def parseQuery (p : List Byte) : Res Query := do
  need (decide (64 ≤ p.length)) St.lengthRange
  need (zeroIn p 24 40) St.reservedNonzero
  let rows := field p 6 2
  let slub := field p 16 1
  let rf := field p 17 1
  let n := field p 18 2
  need (decide (1 ≤ rows ∧ rows ≤ 4097 ∧ slub ≤ 8 ∧ rf ≤ 1 ∧ 32 ≤ n ∧ n ≤ 1024) && n % 32 == 0 && (rf == 0 || slub == 0) &&
    p.length == 64 + rows * vectorSize n slub (rf == 1)) St.lengthRange
  return { skein := field p 0 4, layer := field p 4 1, hg := field p 5 1, rows, step := BitVec.ofNat 64 (field p 8 8), slub,
           bf16 := rf == 1, elements := n, tag := field p 20 4, data := p.drop 64 }

/-- QUERY_EXECUTE (R289, R296, R310–R312): the space the payload takes is its length rounded up to 64 bytes. -/
def execQueryExecute (c seq : Nat) (s : State) : Host.Outcome State Fault Refusal :=
  msgRow c seq Op.query s fun k r p s =>
    match parseQuery p with
    | .error st => s.completeRx c seq r.ackReq st 0
    | .ok q =>
      let (st, _, s) := s.offer k.tenant q ((p.length + 63) / 64 * 64)
      s.completeRx c seq r.ackReq st 0

/-! ## Responses at the requester (R277, R298) -/

/-- Places a received response into the request's local region and completes it. -/
def State.takeResponse (s : State) (c seq op : Nat) : State :=
  match s.conn? c, s.reasm? c seq true with
  | some k, some r =>
    match k.unacked.find? fun m => m.seq == seq with
    | none => s
    | some m =>
      if !(r.opcode == op && r.received) || !s.awake then s
      else
        let s := (s.endReasm c seq true).modConn c fun k => { k with unacked := k.unacked.filter fun x => x.seq != seq }
        let p := r.payload
        if p.length ≠ m.bytes then (s.endMsg c m St.lengthRange 0).settle c
        else match s.placeLocal k.tenant m.lkey m.loff p with
          | .ok s => (s.endMsg c m St.ok 0).settle c
          | .error st => (s.endMsg c m st 0).settle c
  | _, _ => s

/-- READ_RESPONSE_RECEIVE (R277). -/
def execReadResponseReceive (c seq : Nat) (s : State) : Host.Outcome State Fault Refusal := .next (s.takeResponse c seq Op.readResponse)
/-- ATOMIC_RESPONSE_RECEIVE (R277). -/
def execAtomicResponseReceive (c seq : Nat) (s : State) : Host.Outcome State Fault Refusal := .next (s.takeResponse c seq Op.atomicResponse)

/-! ## ACK and NAK at the sender (R297, R298, R300, R301) -/

/-- Completes every message up to a MSG_SEQ that waits for no response (R298), one named message apart. -/
def State.coverTo (s : State) (c ackSeq : Nat) (apart : Option Nat) : State :=
  match s.conn? c with
  | none => s
  | some k =>
    let done := fun (m : Msg) => seqLe m.seq ackSeq && !opAnswered m.opcode && apart != some m.seq
    let s := s.modConn c fun k => { k with unacked := k.unacked.filter fun m => !done m }
    (k.unacked.filter done).foldl (fun s m => s.endMsg c m St.ok 0) s

/-- The oldest received ACK or NAK of a connection. -/
def State.takeCtl (s : State) (c : Nat) (nak : Bool) : Option (Conn × Ctl × State) :=
  match s.conn? c with
  | none => none
  | some k =>
    match k.ctl with
    | [] => none
    | x :: rest =>
      if x.nak == nak && s.awake then some (k, x, s.modConn c fun k => { k with ctl := rest, credit := some x.credit }) else none

/-- ACK_RECEIVE (R298). -/
def execAckReceive (c : Nat) (s : State) : Host.Outcome State Fault Refusal :=
  match s.takeCtl c false with
  | none => .next s
  | some (_, x, s) => .next (((s.coverTo c x.ackSeq none).settle c).pumpNotices)

/-- What a NAK does to the message it names (R282, R300, R301). -/
def State.handleNak (s : State) (c : Nat) (k : Conn) (x : Ctl) : State :=
  let s := s.coverTo c x.ackSeq (some x.msgSeq)
  match k.unacked.find? fun m => m.seq == x.msgSeq with
  | none => if x.status = St.staleHandle ∨ x.status = St.connError then s.connError c x.status none else s
  | some m =>
    if x.status = St.reassemblyTimeout then s.retransmit c m
    else if x.status = St.staleHandle ∨ x.status = St.connError then s.connError c x.status (some m.seq)
    else
      let s := (s.modConn c fun k => { k with unacked := k.unacked.filter fun y => y.seq != m.seq }).endMsg c m x.status
        (if x.status = St.backpressure then x.retry else 0)
      if k.stopOnError then s.connError c x.status none else s

/-- NAK_RECEIVE (R300, R301). -/
def execNakReceive (c : Nat) (s : State) : Host.Outcome State Fault Refusal :=
  match s.takeCtl c true with
  | none => .next s
  | some (k, x, s) => .next (((s.handleNak c k x).settle c).pumpNotices)

/-- ACK_COALESCE_EXPIRY (R298): 1 µs since the oldest unacknowledged completion. -/
def execAckCoalesceExpiry (c : Nat) (s : State) : Host.Outcome State Fault Refusal :=
  match s.conn? c with
  | none => .next s
  | some k =>
    match k.oldestUnacked with
    | some t => .next (if t + 1000 ≤ s.time.localNow ∧ s.awake then s.sendAck c else s)
    | none => .next s

/-- Whether packets of a request still wait in the queue of a port that is not DOWN. -/
def State.stillQueued (s : State) (c seq : Nat) : Bool :=
  s.flyer.ports.any fun p => p.2.state != .down && p.2.queue.any fun f =>
    f.conn == c && field f.body 16 4 == seq && requestOps.contains (field f.body 0 1)

/-- ACK_TIMEOUT_EXPIRY (R300). -/
def execAckTimeoutExpiry (c seq : Nat) (s : State) : Host.Outcome State Fault Refusal :=
  match s.conn? c with
  | none => .next s
  | some k =>
    match k.unacked.find? fun m => m.seq == seq with
    | none => .next s
    | some m =>
      .next (if m.sentAt + k.ackTimeout * 1000 ≤ s.time.localNow ∧ !s.stillQueued c seq ∧ s.awake then
        ((s.retransmit c m).settle c).pumpNotices else s)

/-- REASSEMBLY_TIMEOUT_EXPIRY (R294): 200 µs from the first packet. -/
def execReassemblyTimeoutExpiry (c seq : Nat) (s : State) : Host.Outcome State Fault Refusal :=
  let late := fun (r : Reasm) => !r.received && decide (r.start + 200000 ≤ s.time.localNow) && s.awake
  match s.reasm? c seq false with
  | some r => .next (if late r then (s.endReasm c seq false).sendNak c seq St.reassemblyTimeout 0 else s)
  | none =>
    match s.reasm? c seq true with
    | some r => .next (if late r then s.endReasm c seq true else s)
    | none => .next s

/-! ## The timed hold (R315) -/

/-- Delivers or ends one action of the timed hold; whether it left the hold. -/
def State.holdOut (s : State) (a : HeldAction) : Bool × State :=
  let drop := fun (s : State) => s.modWork fun w => { w with hold := w.hold.erase a }
  let halt := fun (s : State) =>
    let i := trIndex a.entry
    match tget s.work.entries i with
    | some x => if x.handle == a.entry then s.haltEntry i else s
    | none => s
  if a.gone || !s.targetOk a.tenant a.bytes a.target then
    let ty := field a.bytes 0 1
    let e : Cqe := { tag := entryTag a.bytes, status := St.staleHandle, kind := kindOf ty (ty == 0x20), source := a.target }
    let s := if thas s.work.cqs a.cq then ((drop s).postCqe a.cq e).actionFailed a.trig e
             else ((drop s).setFlag Flag.trigActionLost).raise Ev.triggerActionLost (.tenant a.tenant) [a.entry.toNat, a.list]
    (true, (halt s).releaseQuery a.query)
  else if s.targetRoom a.bytes a.target = 0 then (false, s)
  else (true, ((drop s).deliver a.bytes a.target a.query a.trig))

/-- The actions of a firing that fall due leave the hold in order until one must stay (R315). -/
def State.drainHold : Nat → Nat → State → State
  | 0, _, s => s
  | fuel + 1, firing, s =>
    match s.work.hold.find? fun a => a.firing == firing with
    | none => s
    | some a =>
      if a.due ≤ s.time.now then
        match s.holdOut a with
        | (true, s) => drainHold fuel firing s
        | (false, s) => s
      else s

/-- TIMED_HOLD_DELIVERY (R315): the action at a place of the hold falls due; an earlier action of its firing goes
first. -/
def execTimedHoldDelivery (k : Nat) (s : State) : Host.Outcome State Fault Refusal :=
  match s.work.hold[k]? with
  | none => .next s
  | some a => .next (if s.awake then s.drainHold 4 a.firing else s)

/-- HELD_ACTION_SLOT_FREE (R315): a queue that was full has a free slot. -/
def execHeldActionSlotFree (k : Nat) (s : State) : Host.Outcome State Fault Refusal :=
  match s.work.hold[k]? with
  | none => .next s
  | some a => .next (if s.awake && decide (s.targetRoom a.bytes a.target > 0) then s.drainHold 4 a.firing else s)

end Sys2Proof.Machine
end

