-- ==== Sys2Proof/Machine/Appends.lean ====
section
/-!
DEFINITION. Appends (R141–R145, R291): checks on arrival, the hold of a moving or creel tail (R49), the checks when the
APPEND is applied, the carding pass (R62–R65, R72), completion (R144); IMPORT (R287); sketch updates (R160) and block
hashes (R173).
-/
namespace Sys2Proof.Machine

/-! ## Arrival (R141 step 1) -/

/-- What an APPEND message says, or the status that refuses its layout (R291). -/
def parseAppend (c seq : Nat) (p : List Byte) : Res (Append × Nat) := do
  need (decide (64 ≤ p.length)) St.lengthRange
  need (zeroIn p 18 46) St.reservedNonzero
  let n := field p 6 2
  let el := field p 16 2
  let idBytes := (4 * n + 63) / 64 * 64
  need (decide (1 ≤ n ∧ n ≤ 4096) && p.length == 64 + idBytes + 2 * n * el) St.lengthRange
  need (zeroIn p (64 + 4 * n) (idBytes - 4 * n)) St.reservedNonzero
  let a : Append :=
    { conn := c, seq, skein := BitVec.ofNat 32 (field p 0 4), layer := field p 4 1, hg := field p 5 1, t0 := field p 8 4,
      ids := (chunks 4 n ((p.drop 64).take (4 * n))).map fun b => BitVec.ofNat 32 (ofLe b),
      epoch := BitVec.ofNat 32 (field p 12 4),
      values := (chunks 2 (n * el) (p.drop (64 + idBytes))).map fun b => BitVec.ofNat 16 (ofLe b) }
  return (a, el)

/-- The checks of an APPEND on arrival, before any hold (R141 step 1, R24, R32, R62, R291). -/
def State.arrive (s : State) (tag : W16) (c seq : Nat) (p : List Byte) : Res Append := do
  let (a, el) ← parseAppend c seq p
  let k ← s.skeinOf tag a.skein
  need (el == k.elements) St.lengthRange
  need (decide (a.layer < k.layers ∧ a.hg < k.heads)) St.lengthRange
  need (!a.values.any nonfinite16) St.nonfinite
  return a

/-! ## Checks when the APPEND is applied (R141 steps 3–7) -/

def Append.row (a : Append) : Nat := rowKey a.layer a.hg
/-- The token index after the last. -/
def Append.last (a : Append) : Nat := a.t0 + a.ids.length
/-- The input values of a token. -/
def Append.token (a : Append) (elements t : Nat) : List W16 := (a.values.drop ((t - a.t0) * elements)).take elements

/-- The tail bobbin that new tokens of an APPEND fall into: its leaf key and leaf (R27). -/
def Skein.appendTail (k : Skein) (a : Append) : Option (Nat × Leaf) :=
  let n := k.rowLength a.row
  if a.t0 ≤ n ∧ n < a.last ∧ n % k.cap ≠ 0 then (tget k.leaves (a.row * 65536 + n / k.cap)).map fun l => (a.row * 65536 + n / k.cap, l)
  else none

/-- Leaf keys of the bobbins that an APPEND begins. -/
def Skein.newBobbins (k : Skein) (a : Append) : List Nat :=
  let b0 := (k.rowLength a.row + k.cap - 1) / k.cap
  (List.range ((a.last + k.cap - 1) / k.cap - b0)).map fun i => a.row * 65536 + b0 + i

/-- The skein with an APPEND's reel entries. -/
def Skein.withReel (k : Skein) (a : Append) : Skein := k.addReel ((indexed a.ids).map fun x => (a.t0 + x.2, x.1))

/-- The checks of an APPEND when it is applied (R141 steps 3–7): what its growth is; none where it only replays. -/
def State.appendChecks (s : State) (k : Skein) (a : Append) : Res (Option Growth) := do
  let n := k.rowLength a.row
  need (!k.leaseRefuses a.epoch.toNat) St.notOwner
  need (decide (a.t0 ≤ n ∧ a.last ≤ 65536 * k.cap)) St.lengthRange
  need ((indexed a.ids).all fun x => match tget k.reel (a.t0 + x.2) with
    | some id => id == x.1
    | none => true) St.appendConflict
  need ((List.range (min a.last n - a.t0)).all fun i => k.replayOk a.row n (a.t0 + i) (tokenCheck (a.token k.elements (a.t0 + i)))) St.appendConflict
  if a.last ≤ n then return none
  else
    match k.appendTail a with
    | some (_, l) =>
      need (l.tier != 3 && l.check != .damaged) St.recomputeNeeded
      need (!l.lock) St.bobbinLocked
    | none => .ok ()
    let new := k.newBobbins a
    let g := k.growth new ((List.range a.ids.length).map (a.t0 + ·)) [a.row]
    let slots := new.length + g.slots k
    need (new.isEmpty || !s.overQuota k.tenant qDram slots) St.quotaExceeded
    need (if new.isEmpty then slots == 0 || !(s.belowReserve || decide (slots > s.poolFree)) else !s.throttles slots) St.backpressure
    need (s.tailRoom k (k.withReel a)) St.backpressure
    return some g

/-! ## Carding (R63–R65, R72, R145) -/

/-- A free slub channel list: that of a predecessor whose data is gone (DESIGN CHOICE, log 3). -/
def State.freeSlubs (s : State) (k : Skein) : List Nat × State :=
  let (n, s) := s.free (2 ^ k.elements)
  (((List.range k.elements).filter fun c => bit c n).take k.slubMax, s)

/-- The slub channel list of a new bobbin (R63): chosen from the tokens where their APPEND is the row's first write or
writes more than one of them there, else that of the bobbin before. -/
def State.slubsFor (s : State) (k : Skein) (key : Nat) (first : Bool) (tokens : List (List W16)) : List Nat × State :=
  let choose := chooseSlubs (fmtGroup k.format) k.slubMax k.slubShift (tokens.map fun t => t.map ofBf16)
  if first ∨ tokens.length > 1 then (choose, s)
  else match tget k.leaves (key - 1) with
    | some l => if l.tier = 3 then s.freeSlubs k else (slubList s.mem (slotAddr l.tier l.pbn), s)
    | none => (choose, s)

/-- The bobbin that tokens go to, its slub list, and the state: an existing tail, or a new slot with its lea heads
(R66, R68). -/
def State.appendBobbin (s : State) (k : Skein) (key : Nat) (first : Bool) (tokens : List (List W16)) : Option (Leaf × List Nat × State) :=
  match tget k.leaves key with
  | some l => some (l, slubList s.mem (slotAddr l.tier l.pbn), s)
  | none => do
    let (slubs, s) := s.slubsFor k key first tokens
    let (p, s) ← s.takeSlot
    let mem := (List.range 4).foldl (fun m lea => payloadWrite m (slotAddr 1 p) lea 0 (leaHead slubs)) s.mem
    return ({ count := 0, format := k.format, pbn := p }, slubs, ({ s with mem }).charge k.tenant qDram 1)

/-- Writes tokens [lo, hi) into a bobbin, seals the leas that they fill and writes its leaf (R65, R72, R145). -/
def State.cardBobbin (s : State) (idx : Nat) (a : Append) (first : Bool) (b lo hi : Nat) : Option State := do
  let k ← s.skein? idx
  let key := a.row * 65536 + b
  let ts := (List.range (hi - lo)).map (lo + ·)
  let (l, slubs, s) ← s.appendBobbin k key first (ts.map (a.token k.elements))
  let addr := slotAddr l.tier l.pbn
  let mem := ts.foldl (fun m t => writeToken m addr k.elements l.format k.cap slubs (t % k.cap) (a.token k.elements t)) s.mem
  let t := k.cap / 4
  let count := hi - b * k.cap
  let filled := (List.range 4).filter fun lea => decide (lo - b * k.cap < (lea + 1) * t ∧ (lea + 1) * t ≤ count)
  let mem := filled.foldl (fun m lea => sealLea m addr a.layer a.hg b lea) mem
  let l := { l with count, check := if count = k.cap then .good else .opened }
  return ({ s with mem }).setSkein idx { k with leaves := tset k.leaves key l }

/-- The reel and history entries of an applied APPEND, and the tokens that R192 counts (R142, R143). -/
def Skein.noteAppend (k : Skein) (a : Append) (n now : Nat) : Skein :=
  let k := (k.withReel a).restate
  let k := (List.range (a.last - n)).foldl (fun k i => k.addHistory a.row (n + i) (tokenCheck (a.token k.elements (n + i)))) k
  { k with appended := (k.appended.filter fun x => decide (x.1 + 1024000000 > now)) ++ [(now, a.last - n)] }

/-- Writes an APPEND whose checks passed: growth, bobbins in ascending order, reel and history (R144, R145). -/
def State.writeAppend (s : State) (idx : Nat) (k : Skein) (a : Append) (g : Growth) : Option State := do
  let n := k.rowLength a.row
  let s := s.shedFor k (k.withReel a)
  let s ← s.grow idx g
  let s ← (bobbinRanges k.cap n a.last).foldlM (fun s r => s.cardBobbin idx a (n == 0) r.1 r.2.1 r.2.2) s
  let k ← s.skein? idx
  let (s, k) := s.trimReel (k.noteAppend a n s.time.localNow)
  return (s.setSkein idx k).checkTails

/-- Whether the carding writes of an APPEND of tokens from `n` on, written as the state has them, go into a stack whose
sketch queue is full (R160). -/
def State.cardingHeld (s : State) (idx : Nat) (a : Append) (n : Nat) : Bool :=
  match s.skein? idx with
  | none => false
  | some k => (bobbinRanges k.cap n a.last).any fun r => match tget k.leaves (a.row * 65536 + r.1) with
    | some l => l.tier == 1 && s.sketchFull (stackOf l.pbn)
    | none => false

/-! ## Hold, apply, complete -/

/-- How an APPEND goes on. -/
inductive AppendOut where
  /-- refused, or a pure replay: it completes at once -/
  | ends (st : Nat) (s : State)
  /-- written; APPEND_COMPLETE follows -/
  | wrote (n : Nat) (s : State)
  /-- held under R49 on the bobbin at this leaf key; the flag: a reload is to be asked for -/
  | holds (key : Nat) (reload : Bool)
  /-- held while the sketch queue of a stack it writes to is full (R160) -/
  | waits

/-- An APPEND translated now (R49, R141 steps 2–7, R144). -/
def State.tryAppend (s : State) (tag : W16) (a : Append) : AppendOut :=
  let idx := skIndex a.skein
  let s := s.expireLease idx
  match s.skeinFor tag a.skein with
  | none => .ends St.staleHandle s
  | some k =>
    let held := match k.appendTail a with
      | some (key, l) => if l.check != Check.damaged && l.tier != 3 && !l.lock && (l.move || l.tier == 2) then some (key, l) else none
      | none => none
    match held with
    | some (key, l) =>
      if l.tier = 2 && !l.move && s.overQuota tag qDram 1 then .ends St.quotaExceeded s
      else .holds key (l.tier == 2 && !l.move)
    | none =>
      match s.appendChecks k a with
      | .error st => .ends st s
      | .ok none => .ends St.ok s
      | .ok (some g) =>
        match s.writeAppend idx k a g with
        | some t => if t.cardingHeld idx a (k.rowLength a.row) then .waits else .wrote (k.rowLength a.row) t
        | none => .ends St.backpressure s

/-- Writes of the write-hold queue (R49). -/
def holdLimit : Nat := 1024

def State.dropAppend (s : State) (a : Append) : State :=
  s.modStore fun t => { t with appends := t.appends.filter fun x => !(x.conn == a.conn && x.seq == a.seq),
                               writeHold := t.writeHold.filter (· != (a.conn, a.seq)) }

/-- Asks once for the reload of the bobbin that a held write needs (R49). -/
def State.reloadTail (s : State) (idx key : Nat) : State :=
  let asked := match tget s.store.reloads idx with
    | some r => r.whole || r.first.contains key
    | none => false
  if asked then s else (s.askReload idx none [key] false false).runTier

/-- The new slots that an APPEND needs (R228). -/
def State.appendSlots (s : State) (a : Append) : Nat :=
  match s.skein? (skIndex a.skein) with
  | none => 0
  | some k =>
    let new := k.newBobbins a
    new.length + (k.growth new ((List.range a.ids.length).map (a.t0 + ·)) [a.row]).slots k

/-- Carries an APPEND on: completed, written, or held (R49, R144, R297). -/
def State.goAppend (s : State) (k : Conn) (r : Reasm) (a : Append) : State :=
  match s.tryAppend k.tenant a with
  | .ends st s => (s.dropAppend a).completeRx a.conn a.seq r.ackReq st (s.retryFor st (s.appendSlots a))
  | .wrote n s =>
    let rest : Append := { a with applied := true, held := false, t0 := n, ids := a.ids.drop (n - a.t0), values := [] }
    ((s.dropAppend a).modConn a.conn fun k => { k with creditZero := false }).modStore fun t => { t with appends := t.appends ++ [rest] }
  | .holds key reload =>
    if !a.held && decide (s.store.writeHold.length ≥ holdLimit) then s.modConn a.conn fun k => { k with creditZero := true }
    else
      let s := if a.held then s else (s.modConn a.conn fun k => { k with creditZero := false }).modStore fun t =>
        { t with appends := t.appends ++ [{ a with held := true }], writeHold := t.writeHold ++ [(a.conn, a.seq)] }
      if reload then s.reloadTail (skIndex a.skein) key else s
  | .waits => s

/-- The APPEND of a connection and message that waits. -/
def State.append? (s : State) (c seq : Nat) : Option Append := s.store.appends.find? fun a => a.conn == c && a.seq == seq

/-- APPEND_EXECUTE (R141, R144, R296): arrival of an APPEND, or a held one translated again. -/
def execAppendExecute (c seq : Nat) (s : State) : Host.Outcome State Fault Refusal :=
  msgRow c seq Op.append s fun k r p s =>
    match s.append? c seq with
    | some a => if a.applied then s else s.goAppend k r a
    | none =>
      match s.arrive k.tenant c seq p with
      | .error st => s.completeRx c seq r.ackReq st 0
      | .ok a => s.goAppend k r a

/-- Translates the held writes again, in arrival order (R49). -/
def State.releaseHeld (s : State) : State :=
  s.store.writeHold.foldl (fun s w =>
    match s.append? w.1 w.2, s.conn? w.1, s.reasm? w.1 w.2 false with
    | some a, some k, some r => s.goAppend k r a
    | _, _, _ => s) s

/-- APPEND_COMPLETE (R144, R160): everything is written; the sketch updates are queued and the message completes. -/
def execAppendComplete (c seq : Nat) (s : State) : Host.Outcome State Fault Refusal :=
  msgRow c seq Op.append s fun _ r _ s =>
    match s.append? c seq with
    | some a => if a.applied then ((s.queueSketches a).dropAppend a).completeRx c seq r.ackReq St.ok 0 else s
    | none => s

/-! ## IMPORT (R287) -/

/-- The four lea heads of an image: identical and within R68. -/
def headCheck (m : Mem) (addr elements : Nat) : Res Unit := do
  let heads := (List.range 4).map fun lea => payloadRead m addr lea 0 16
  let es := (chunks 2 8 (payloadRead m addr 0 0 16)).map ofLe
  need (es.all fun e => bits 14 10 e == 0 && (bit 15 e || bits 9 0 e == 0)) St.reservedNonzero
  let chans := (es.takeWhile (bit 15)).map (bits 9 0)
  need (heads.all (· == payloadRead m addr 0 0 16) && (es.dropWhile (bit 15)).all (fun e => !bit 15 e) &&
    (chans.zip (chans.drop 1)).all (fun c => decide (c.1 < c.2)) && chans.all fun c => decide (c < elements)) St.lengthRange

/-- Where an IMPORT goes (R28, R31, R32, R285, R287): the leaf key and format. -/
def Skein.importChecks (k : Skein) (roff len : Nat) : Res (Nat × Nat) := do
  let layer := bits 47 40 roff
  let hg := bits 39 32 roff
  let bob := bits 31 16 roff
  need (bits 63 52 roff == 0) St.reservedNonzero
  need (decide (layer < k.layers ∧ hg < k.heads)) St.lengthRange
  let n := k.rowLength (rowKey layer hg)
  need (bits 15 0 roff == 0 && len == slotBytes && n % k.cap == 0 && bob == n / k.cap) St.lengthRange
  need (reencodable k.format (bits 51 48 roff)) St.invalidMode
  return (leafKey layer hg bob, bits 51 48 roff)

/-- The checks of an image (R57, R68, R71, R287) at an address. -/
def imageCheck (m : Mem) (k : Skein) (addr key fmt : Nat) : Res Unit := do
  need ((List.range 4).all fun lea => leaOk m addr (keyLayer key) (keyHg key) (keyBob key) lea) St.recomputeNeeded
  headCheck m addr k.elements
  let slubs := slubList m addr
  need ((List.range k.cap).all fun i => (tokenValues m addr k.elements fmt k.cap slubs i).isSome) St.nonfinite

/-- Enters a checked image as a tier-1 bobbin, with its tables (R33, R50, R287). -/
def State.enterImage (s : State) (idx : Nat) (k : Skein) (key fmt : Nat) (p : List Byte) : Res State := do
  let g := k.growth [key] [] []
  s.dramNeed k.tenant (1 + g.slots k)
  let enter : Option State := do
    let s ← s.grow idx g
    let (pbn, s) ← s.takeSlot
    let k ← s.skein? idx
    let leaf : Leaf := { check := .good, count := k.cap, format := fmt, pbn }
    let s := ({ s with mem := s.mem.writeN (slotAddr 1 pbn) p }).charge k.tenant qDram 1
    let k := ({ k with leaves := tset k.leaves key leaf }).restate
    let first := keyBob key * k.cap
    let s := s.setSkein idx (k.rebuildSketch s.mem key)
    return if k.reelCovers first (first + k.cap) then s
           else s.raise Ev.reelLost (.tenant k.tenant) [k.handle.toNat, first, first + k.cap]
  match enter with
  | some s => return s
  | none => .error St.backpressure

/-- IMPORT_WRITE (R287): a WRITE under IMPORT of a whole bobbin. -/
def execImportWrite (c seq : Nat) (s : State) : Host.Outcome State Fault Refusal :=
  msgRow c seq Op.write s fun k r p s =>
    if !s.importKey k r then s
    else
      let checks : Res (Nat × Skein × Nat × Nat) := do
        need (r.failed == 0) r.failed
        let g ← s.regionGrant k.tenant r.key rightImport
        let sk ← s.skeinOf k.tenant g.skein
        let (key, fmt) ← sk.importChecks r.roff.toNat p.length
        imageCheck (Mem.writeN [] 0 p) sk 0 key fmt
        return (skIndex g.skein, sk, key, fmt)
      match checks with
      | .error st => s.completeRx c seq r.ackReq st 0
      | .ok (idx, sk, key, fmt) => match s.enterImage idx sk key fmt p with
        | .ok s => s.completeRx c seq r.ackReq St.ok 0
        | .error st => s.completeRx c seq r.ackReq st (s.retryFor st (1 + (sk.growth [key] [] []).slots sk))

/-! ## Sketch updates and block hashes -/

/-- Updates of a channel group that a share of 1 ms holds, the share in parts of 2²⁰ (R446; log 77): each moves 256 bytes. -/
def sketchLimit (share : Nat) : Nat := 44800000 * share / (256 * 2 ^ 20)

/-- Takes an update's bank time from its channel group's share of the present 1 ms period: on each of the 16 channels a
record of 128 bytes is read and written back at 44.8 GB/s (R153, R445, R446; log 77). None where the share is spent. -/
def State.sketchShare (s : State) (group : Nat) : Option State :=
  let period := s.time.localNow / 1000000
  let n := usedIn period ((tget s.rel.sketchUse group).getD (0, 0)) + 1
  if n ≤ sketchLimit (s.cfg.budgets.getD 3 0) then
    some (s.modRel fun r => { r with sketchUse := tset r.sketchUse group (period, n) })
  else none

/-- Applies a queued update: a bobbin that has left tier 1 has no record (R160). -/
def State.applySketch (s : State) (q : Nat × SketchUpd) (group : Option Nat) : Host.Outcome State Fault Refusal :=
  let done := fun (s : State) => (s.modStore fun t => { t with sketchQ := t.sketchQ.erase q })
  match group with
  | none => .next (done s).releaseHeld
  | some g => match s.sketchShare g with
    | none => .next (s.deferDuty 4)
    | some s => .next ((done s).modSkein q.2.skein fun k => k.sketchToken q.2.key q.2.values).releaseHeld

/-- SKETCH_UPDATE (R160): the oldest entry of a stack's queue, in Run alone (R496); deferred and counted where the share
of its channel group is spent (R20, R446). -/
def execSketchUpdate (stack : Nat) (s : State) : Host.Outcome State Fault Refusal :=
  match s.store.sketchQ.find? fun q => q.1 == stack with
  | none => .next s
  | some q =>
    if !s.awake then .next s
    else if s.power.state ≠ .run then .next (s.deferDuty 4)
    else s.applySketch q (match (s.skein? q.2.skein).bind fun k => tget k.leaves q.2.key with
      | some l => if l.tier = 1 then some (groupOf l.pbn) else none
      | none => none)

/-- BLOCK_HASH_COMPUTE (R173, R205): the hash of a filled block of a skein created with prefix hashing. -/
def execBlockHashCompute (idx block : Nat) (s : State) : Host.Outcome State Fault Refusal :=
  .next (if s.awake then s.modSkein idx fun k => if k.prefixHash && k.state != .retiring then k.addHash block else k else s)

end Sys2Proof.Machine
end

