-- ==== Sys2Proof/Machine/CmdSkein.lean ====
section
/-!
DEFINITION. Skein and lease commands (R404, R405) and the program and table commands (R196–R198, R406).
-/
namespace Sys2Proof.Machine

/-- The skein that PARAMS names for the command's tenant (R24). -/
def Ctx.skein (x : Ctx) (s : State) (off : Nat) : Except CmdErr (Nat × Skein) := do
  let h := x.p32 off
  let k ← within 0 (s.skeinOf x.tag h)
  return (skIndex h, k)

/-! ## Skeins -/

/-- The geometry fields of SKEIN_CREATE (R25, R405). -/
def skeinGeometry (x : Ctx) : Except CmdErr Unit := do
  let layers := x.p 0 2
  let heads := x.p 2 2
  let el := x.p 4 2
  inRange (decide (1 ≤ layers ∧ layers ≤ 256)) 0
  inRange (decide (1 ≤ heads ∧ heads ≤ 256)) 2
  inRange (decide (32 ≤ el ∧ el ≤ 1024) && el % fmtGroup (x.p 6 1) == 0) 4

/-- The next skein index that R518 lets SKEIN_CREATE take: one that no record already read awaits. -/
def State.takeSkeinIndex (s : State) : Option (Nat × State) :=
  let claimed := if s.creel.state = .rebuilding then [] else s.creel.toRestore.map (·.1)
  (s.store.skeinPool.takeBut 4194304 claimed).map fun r => (r.1, s.modStore fun t => { t with skeinPool := r.2 })

/-- SKEIN_CREATE (R30, R33, R405): an ACTIVE skein with its root table alone and a lease word of zero. -/
def cmdSkeinCreate (x : Ctx) (s : State) : CmdM := do
  let fmt := x.p 6 1
  let el := x.p 4 2
  let slubMax := x.p 7 1
  let slubShift := x.p 8 1
  let opt := x.p 9 1
  let slot := x.p 10 1
  let sketch := bit 0 opt
  let sketchProg := bit 3 opt
  mode (fmtOk fmt)
  mode (!sketchProg || sketch)
  mode (!sketch || decide (el ≤ 512))
  if sketchProg then
    req (match tget s.images.whorl slot with | some p => p.bound.contains x.tag | none => false) St.programMissing
  skeinGeometry x
  inRange (decide (slubMax ≤ 8 ∨ slubMax = 0xFF)) 7
  inRange (decide (slubShift ≤ 7)) 8
  let lease := x.p 14 2
  inRange (decide (10 ≤ lease ∧ lease ≤ 10000)) 14
  req (!s.overQuota x.tag qSkein 1 && !s.overQuota x.tag qDram 1) St.quotaExceeded
  within 1 (s.dramNeed x.tag 1)
  let (idx, s1) ← found St.noResource s.takeSkeinIndex
  let (slab, s2) ← found St.noResource (s1.takeSlots 1)
  let h := skHandle (s2.store.skeinPool.gen idx) idx
  let k : Skein :=
    { handle := h, tenant := x.tag, layers := x.p 0 2, heads := x.p 2 2, elements := el, format := fmt,
      cap := capacity el fmt, slubMax := if slubMax = 0xFF then 8 else slubMax, slubShift := if slubShift = 0 then 3 else slubShift,
      sketch, prefixHash := bit 1 opt, orphanRelease := bit 2 opt, sketchProgram := if sketchProg then some slot else none,
      hint := x.p 11 1, modelId := BitVec.ofNat 16 (x.p 12 2), leaseMs := lease, tableSlabs := slab, lastJob := s.time.localNow }
  let s3 := ((s2.setSkein idx k).charge x.tag qSkein 1).charge x.tag qDram 1
  return .done s3 (toLe 4 h.toNat ++ toLe 2 k.cap)

/-- SKEIN_DESTROY (R51): the response comes when the generation is incremented; doffs and reloads of the skein end with
ST_CANCELLED and what they had moved (R235). -/
def cmdSkeinDestroy (x : Ctx) (s : State) : CmdM := do
  let (idx, _) ← x.skein s 0
  return .done (s.killSkein idx).releaseHeld.runTier []

/-- STATE of R356. -/
def SkState.code : SkState → Nat
  | .active => 1 | .doffed => 2 | .retiring => 3

/-- SKEIN_INFO (R404). -/
def cmdSkeinInfo (x : Ctx) (s : State) : CmdM := do
  let (_, k) ← x.skein s 0
  let rows := k.layers * k.heads
  if x.c.dataLen = 0 ∨ x.c.dataLen ≥ 4 * rows then .ok () else .error (St.lengthRange, 12, 0)
  let out := k.rows.flatMap fun r => toLe 4 (k.rowLength r)
  let s1 := if x.c.dataLen = 0 then s else x.output s out
  return .done s1 (toLe 1 k.state.code ++ toLe 1 k.residency ++ zeros 2 ++ toLe 2 k.cap ++ zeros 2 ++ toLe 8 k.lease.toNat)

/-- SKEIN_SET_HINT: the hint takes effect from the next sweep (R404). -/
def cmdSkeinSetHint (x : Ctx) (s : State) : CmdM := do
  let (idx, _) ← x.skein s 0
  return .done (s.modSkein idx fun k => { k with nextHint := some (x.p 4 1) }) []

/-- LEASE_SWAP (R149, R150, R404). -/
def cmdLeaseSwap (x : Ctx) (s : State) : CmdM := do
  let (idx, _) ← x.skein s 0
  match s.swapLease idx (BitVec.ofNat 64 (x.p 8 8)) (BitVec.ofNat 64 (x.p 16 8)) with
  | none => refuse St.versionConflict
  | some (prior, swapped, s1) => return .done s1 (toLe 8 prior.toNat ++ [if swapped then 1 else 0])

/-! ## Programs (R195–R198) -/

/-- The store of a place. -/
def Images.store (i : Images) (p : Place) : Table Prog :=
  match p with
  | .score => i.score
  | .whorl => i.whorl
  | .tier => match i.tier with
    | some t => [(0, t)]
    | none => []

/-- PLACE codes (R195). -/
def placeOf (n : Nat) : Option Place := if n = 1 then some .score else if n = 2 then some .whorl else if n = 3 then some .tier else none

/-- Slots of a place (R178). -/
def Place.slots : Place → Nat
  | .score => 16 | .whorl => 8 | .tier => 1

/-- Words that a place's images hold. -/
def storeUsed (t : Table Prog) : Nat := (t.map fun p => p.2.code.length + p.2.consts.length).sum

/-- 32-bit words from bytes. -/
def wordsOf (bs : List Byte) : List W32 := (chunks 4 bs.length bs).map fun c => BitVec.ofNat 32 (ofLe c)

/-- Steps 4 and 5 of R196 on a program: a word index and a status where a word fails. -/
def programCheck (p : Place) (code consts : List W32) : Option (Nat × Nat) :=
  let ws := indexed code
  let bad := ws.find? fun x =>
    !wordOk p x.1 || ((opcodeOf x.1 == 9 || opcodeOf x.1 == 0x2B) && decide ((immOf x.1).toNat ≥ consts.length)) ||
      (opcodeOf x.1 == 0x2B && nonfinite32 (consts.getD (immOf x.1).toNat 0))
  match bad with
  | some x =>
    let named := wordOk p x.1 && decide ((immOf x.1).toNat < consts.length)
    some (x.2, if named then St.nonfinite else St.programInvalid)
  | none => match ws.find? fun x => !controlOk code x.2 x.1 with
    | some x => some (x.2, St.programInvalid)
    | none => none

/-- Sets the score or whorl store of a place. -/
def State.setStore (s : State) (p : Place) (t : Table Prog) : State :=
  match p with
  | .score => { s with images := { s.images with score := t } }
  | .whorl => { s with images := { s.images with whorl := t } }
  | .tier => s

/-- PROGRAM_LOAD: the checks of R196 in their order, then R197 and R198; a SLOT out of range is ST_NO_RESOURCE, and an image that
only jobs hold is not bound again (DESIGN CHOICE, log 85). -/
def cmdProgramLoad (x : Ctx) (s : State) : CmdM := do
  req (x.c.mb != 0 || x.c.tenantField == 0 || (s.tenant? x.c.tenantField).isSome) St.staleHandle
  let img := x.data s
  let n := img.length
  req (field img 0 4 == 0x55455242 && field img 4 1 == 1) St.programInvalid
  let p ← found St.invalidMode (placeOf (field img 5 1))
  req (zeroIn img 10 2 && zeroIn img 16 48) St.reservedNonzero
  let cw := field img 6 2
  let kw := field img 8 2
  req (decide (1 ≤ cw ∧ kw ≤ 256 ∧ cw + kw ≤ p.words) && n == 112 + 4 * (cw + kw)) St.lengthRange
  let digest := img.drop (n - 48)
  req (sha384 (img.take (n - 48)) == digest) St.programInvalid
  let ws := wordsOf ((img.drop 64).take (4 * (cw + kw)))
  let code := ws.take cw
  let consts := ws.drop cw
  match programCheck p code consts with
  | some (i, st) => .error (st, i, 0)
  | none => .ok ()
  req (p != .tier || x.c.mb == 0) St.notPermitted
  let tagOk := if x.c.mb = 0 then (if p = .tier then x.c.tenantField == 0 else (s.tenant? x.c.tenantField).isSome) else true
  req tagOk St.staleHandle
  let prog : Prog := { version := BitVec.ofNat 32 (field img 12 4), code, consts, digest, bound := [x.tag] }
  let result := fun (slot : Nat) => toLe 1 slot ++ zeros 3 ++ toLe 4 (worstCount code) ++ digest.take 8
  match p with
  | .tier =>
    let used := match s.images.tier with
      | some t => t.code.length + t.consts.length
      | none => 0
    req (match s.images.tierNext with | some (some _) => false | _ => true) St.noResource
    req (decide (used + cw + kw ≤ p.words)) St.noResource
    return .done { s with images := { s.images with tierNext := some (some { prog with bound := [] }) } } (result 0)
  | _ =>
    let t := s.images.store p
    match t.find? fun e => e.2.digest == digest && !e.2.bound.isEmpty with
    | some e =>
      let bound := if e.2.bound.contains x.tag then e.2.bound else e.2.bound ++ [x.tag]
      return .done (s.setStore p (tset t e.1 { e.2 with bound })) (result e.1)
    | none =>
      let want := x.p 0 1
      let (slot, s) ← found St.noResource (if want = 0xFF then s.pick t p.slots else if want < p.slots ∧ !thas t want then some (want, s) else none)
      req (decide (storeUsed t + cw + kw ≤ p.words)) St.noResource
      return .done (s.setStore p (tset t slot prog)) (result slot)

/-- Removes a tenant's binding; an image without bindings goes when no job admitted with it is left (R197, R198). -/
def unbindProg (t : Table Prog) (slot : Nat) (tag : W16) : Table Prog :=
  sweepProgs (tmod t slot fun p => { p with bound := p.bound.filter (· != tag) })

/-- PROGRAM_UNLOAD (R197, R198). -/
def cmdProgramUnload (x : Ctx) (s : State) : CmdM := do
  let p ← found St.invalidMode (placeOf (x.p 0 1))
  req (p != .tier || x.c.mb == 0) St.notPermitted
  let tagOk := if x.c.mb = 0 ∧ p ≠ .tier then (s.tenant? x.c.tenantField).isSome else if x.c.mb = 0 then x.c.tenantField == 0 else true
  req tagOk St.staleHandle
  let slot := x.p 1 1
  match p with
  | .tier =>
    req (slot == 0 && (s.images.tier.isSome || s.images.tierNext.isSome)) St.staleHandle
    return .done { s with images := { s.images with tierNext := some none } } []
  | _ =>
    let t := s.images.store p
    let e ← found St.staleHandle (tget t slot)
    req (e.bound.contains x.tag) St.staleHandle
    req (p != .whorl || !(s.store.skeins.any fun k => k.2.tenant == x.tag && k.2.state != .retiring && k.2.sketchProgram == some slot))
      St.programInUse
    return .done (s.setStore p (unbindProg t slot x.tag)) []

/-! ## Tables (R78, R112) -/

/-- The lowest `n` free slots of the table area. -/
def State.tableSpace (s : State) (n : Nat) : Option (List Nat) :=
  let used := s.images.tables.flatMap fun t => t.2.slots
  let free := ((List.range s.cfg.tableSlots).map (5120 + ·)).filter fun p => !used.contains p
  if n ≤ free.length then some (free.take n) else none

/-- Whether 32-bit entries are all finite. -/
def finiteWords (bs : List Byte) : Bool := (wordsOf bs).all fun w => !nonfinite32 w
/-- Whether BF16 entries are all finite. -/
def finiteHalves (bs : List Byte) : Bool := (chunks 2 bs.length bs).all fun c => !nonfinite16 (BitVec.ofNat 16 (ofLe c))

/-- The checks of a rescale image (R78); CHANNELS 0 is ST_LENGTH_RANGE (DESIGN CHOICE, log 87). -/
def rescaleCheck (img : List Byte) : Except CmdErr Unit := do
  let layers := field img 0 2
  let chans := field img 2 2
  req (zeroIn img 8 56) St.reservedNonzero
  req (decide (1 ≤ layers ∧ layers ≤ 256 ∧ 1 ≤ chans ∧ chans ≤ 1024) && chans % 32 == 0 && img.length == 64 + layers * chans * 4)
    St.lengthRange
  req (finiteWords (img.drop 64)) St.nonfinite

/-- Whether staple-8 groups of 33 bytes hold only numbers (R57, R112). -/
def finiteGroups (bs : List Byte) : Bool :=
  (chunks 33 bs.length bs).all fun g => field g 0 1 != 255 && (g.drop 1).all fun b => !Enc.e4m3.isNaN b.toNat

/-- The checks of an up-projection image (R112). -/
def upProjectionCheck (img : List Byte) : Except CmdErr Unit := do
  let first := field img 0 2
  let count := field img 2 2
  let latent := field img 4 2
  let pos := field img 6 2
  let heads := field img 8 2
  let kw := field img 10 2
  let vw := field img 12 2
  req (zeroIn img 14 2 && zeroIn img 20 44) St.reservedNonzero
  let ok := decide (first ≤ 255 ∧ 1 ≤ count ∧ count ≤ 256 ∧ first + count ≤ 256 ∧ 1 ≤ latent ∧ latent ≤ 512 ∧ latent % 32 = 0 ∧
    pos % 32 = 0 ∧ 1 ≤ heads ∧ heads ≤ 256 ∧ 1 ≤ kw ∧ kw % 32 = 0 ∧ kw + pos ≤ 512 ∧ 1 ≤ vw ∧ vw % 32 = 0 ∧ vw ≤ 512)
  req (ok && img.length == 64 + count * heads * (kw + vw) * (latent / 32) * 33) St.lengthRange
  req (finiteGroups (img.drop 64)) St.nonfinite

/-- TABLE_LOAD (R78, R112, R406). -/
def cmdTableLoad (x : Ctx) (s : State) : CmdM := do
  let kind := x.p 0 1
  mode (kind == 1 || kind == 2)
  let img := x.data s
  if img.length ≥ 64 then .ok () else .error (St.lengthRange, 12, 0)
  if kind = 1 then rescaleCheck img else upProjectionCheck img
  let leas := (img.length + 16383) / 16384
  req (!s.overQuota x.tag qSram leas) St.quotaExceeded
  let (i, s) ← found St.noResource (s.pick s.images.tables 4096)
  let slots ← found St.noResource (s.tableSpace (slotsFor img.length))
  let digest := sha384 img
  let t : TableImg :=
    { kind, tenant := x.tag, version := BitVec.ofNat 32 (if kind = 1 then field img 4 4 else field img 16 4), image := img, digest, leas, slots }
  return .done ({ s with images := { s.images with tables := tset s.images.tables i t } }.charge x.tag qSram leas)
    (toLe 2 i ++ zeros 2 ++ toLe 4 leas ++ digest.take 8)

/-- A loaded table of a tenant. -/
def State.tableFor (s : State) (tag : W16) (i : Nat) : Option TableImg :=
  match tget s.images.tables i with
  | some t => if t.tenant == tag && !t.unloaded then some t else none
  | none => none

/-- TABLE_UNLOAD (R406): the quota is credited at once, the space when the jobs admitted with it complete. -/
def cmdTableUnload (x : Ctx) (s : State) : CmdM := do
  let i := x.p 0 2
  let t ← found St.staleHandle (s.tableFor x.tag i)
  return .done ({ s with images := { s.images with tables := sweepTables (tset s.images.tables i { t with unloaded := true }) } }.credit
    x.tag qSram t.leas) []

/-! ## Rows -/

/-- SKEIN_CREATE (R405). -/
def execSkeinCreate (m slot : Nat) (s : State) : Host.Outcome State Fault Refusal := cmdRow 0x0300 cmdSkeinCreate m slot s
/-- SKEIN_DESTROY (R51). -/
def execSkeinDestroy (m slot : Nat) (s : State) : Host.Outcome State Fault Refusal := cmdRow 0x0301 cmdSkeinDestroy m slot s
/-- SKEIN_INFO (R404). -/
def execSkeinInfo (m slot : Nat) (s : State) : Host.Outcome State Fault Refusal := cmdRow 0x0302 cmdSkeinInfo m slot s
/-- SKEIN_SET_HINT (R404). -/
def execSkeinSetHint (m slot : Nat) (s : State) : Host.Outcome State Fault Refusal := cmdRow 0x0303 cmdSkeinSetHint m slot s
/-- LEASE_SWAP (R149). -/
def execLeaseSwap (m slot : Nat) (s : State) : Host.Outcome State Fault Refusal := cmdRow 0x0304 cmdLeaseSwap m slot s
/-- PROGRAM_LOAD (R196). -/
def execProgramLoad (m slot : Nat) (s : State) : Host.Outcome State Fault Refusal := cmdRow 0x0400 cmdProgramLoad m slot s
/-- PROGRAM_UNLOAD (R197). -/
def execProgramUnload (m slot : Nat) (s : State) : Host.Outcome State Fault Refusal := cmdRow 0x0401 cmdProgramUnload m slot s
/-- TABLE_LOAD (R406). -/
def execTableLoad (m slot : Nat) (s : State) : Host.Outcome State Fault Refusal := cmdRow 0x0402 cmdTableLoad m slot s
/-- TABLE_UNLOAD (R406). -/
def execTableUnload (m slot : Nat) (s : State) : Host.Outcome State Fault Refusal := cmdRow 0x0403 cmdTableUnload m slot s

end Sys2Proof.Machine
end

