-- ==== Sys2Proof/Machine/Breus.lean ====
section
/-!
DEFINITION. The fifty Breus rows (R178–R188). Each is one instruction issued to the running invocation; with none
running, to a new one of the place and slot that the state names (DESIGN CHOICE, log 11).
-/
namespace Sys2Proof.Machine

/-- The invocation that an instruction goes to: the running one, else a fresh one of the program resident in the place and
slot that the state names (R181; DESIGN CHOICE, log 11). -/
def State.invocation (s : State) : Inv :=
  let i := s.inv
  if i.running then i
  else
    let prog := if i.place = .tier then s.images.tier else tget (s.images.store i.place) i.slot
    match prog with
    | some p => Inv.fresh i.place i.slot p.code p.consts i.jobTag
    | none => Inv.fresh i.place i.slot [] [] i.jobTag

/-- Whether a branch of this offset may stand at the present word (R185). -/
def Inv.branchOk (i : Inv) (offset : BitVec 14) : Bool :=
  let t := i.pc + 1 + offset.toNat
  decide (1 ≤ offset.toNat ∧ t ≤ i.codeWords) && match i.body with
    | some b => decide (t ≤ b.2.1)
    | none => (repBodies i.code).all fun b => !decide (b.1 ≤ t ∧ t < b.2)

/-- Whether a body of this length may start after the present word (R186). -/
def Inv.bodyOk (i : Inv) (length : BitVec 8) : Bool :=
  decide (1 ≤ length.toNat ∧ length.toNat ≤ 64 ∧ i.pc + 1 + length.toNat ≤ i.codeWords) && i.body.isNone

/-- The record of a trap: its event, and the job that it fails (R188, R192). -/
def State.settleInv (s : State) (i : Inv) : State :=
  let s := { s with inv := i }
  match i.trap with
  | none => s
  | some (code, imm, pc) =>
    if i.place = .tier then s.raise Ev.policyTrap .module [3, i.slot, pc, code, imm]
    else
      let place := if i.place = .whorl then 2 else 1
      match i.job.bind fun id => (s.job? id).map (id, ·) with
      | some (id, j) => s.trapJob id j place i.slot (code, imm, pc)
      | none => s.raise Ev.programTrap .module [place, i.slot, pc, code, imm, i.jobTag.toNat]

/-- One Breus instruction: `code` is its opcode, `lawful` what the load checks ask of its operands where it stands. -/
def breusRow (code : Nat) (lawful : Inv → Bool) (op : BOp) (s : State) : Host.Outcome State Fault Refusal :=
  let i := s.invocation
  if i.place.accepts code && lawful i then .next (s.settleInv (i.issue op)) else .refused .notInThisPlace

/-- Operands that no load check restricts. -/
def anywhere : Inv → Bool := fun _ => true

/-- NOP (R184): Breus NOP does nothing. -/
def execNop (s : State) : Host.Outcome State Fault Refusal :=
  breusRow 0x00 anywhere bNop s

/-- END (R184): Breus END ends the invocation and takes its outputs. -/
def execEndProg (s : State) : Host.Outcome State Fault Refusal :=
  breusRow 0x01 anywhere bEnd s

/-- TRAP (R188): Breus TRAP traps with EXPLICIT. -/
def execTrap (imm : BitVec 14) (s : State) : Host.Outcome State Fault Refusal :=
  breusRow 0x02 anywhere (bTrap imm) s

/-- BRZ (R185): Breus BRZ skips forward if a scalar is zero. -/
def execBrz (a : Fin 16) (offset : BitVec 14) (s : State) : Host.Outcome State Fault Refusal :=
  breusRow 0x03 (fun i => i.branchOk offset) (bBranch (fun i => i.sAt a == 0) offset) s

/-- BRNZ (R185): Breus BRNZ skips forward if a scalar is not zero. -/
def execBrnz (a : Fin 16) (offset : BitVec 14) (s : State) : Host.Outcome State Fault Refusal :=
  breusRow 0x04 (fun i => i.branchOk offset) (bBranch (fun i => i.sAt a != 0) offset) s

/-- BRANY (R185): Breus BRANY skips forward if any predicate bit is set. -/
def execBrany (a : Fin 4) (offset : BitVec 14) (s : State) : Host.Outcome State Fault Refusal :=
  breusRow 0x05 (fun i => i.branchOk offset) (bBranch (fun i => i.pAt a != 0) offset) s

/-- BRNONE (R185): Breus BRNONE skips forward if no predicate bit is set. -/
def execBrnone (a : Fin 4) (offset : BitVec 14) (s : State) : Host.Outcome State Fault Refusal :=
  breusRow 0x06 (fun i => i.branchOk offset) (bBranch (fun i => i.pAt a == 0) offset) s

/-- REP (R186): Breus REP repeats the following body a fixed number of times. -/
def execRep (length : BitVec 8) (count : BitVec 14) (s : State) : Host.Outcome State Fault Refusal :=
  breusRow 0x07 (fun i => i.bodyOk length && decide (1 ≤ count.toNat ∧ count.toNat ≤ 4096)) (bRep length count) s

/-- REPS (R186): Breus REPS repeats the following body a number of times taken from a scalar. -/
def execReps (a : Fin 16) (length : BitVec 8) (s : State) : Host.Outcome State Fault Refusal :=
  breusRow 0x08 (fun i => i.bodyOk length) (bReps a length) s

/-- LDK (R184): Breus LDK loads a constant into a scalar. -/
def execLdk (d : Fin 16) (k : BitVec 14) (s : State) : Host.Outcome State Fault Refusal :=
  breusRow 0x09 (fun i => decide (k.toNat < i.consts.length)) (bLdk d k) s

/-- LDKX (R184): Breus LDKX loads the constant indexed by a scalar. -/
def execLdkx (d a : Fin 16) (s : State) : Host.Outcome State Fault Refusal :=
  breusRow 0x0A anywhere (bLdkx d a) s

/-- SLI (R184): Breus SLI loads a signed immediate into a scalar. -/
def execSli (d : Fin 16) (imm : BitVec 14) (s : State) : Host.Outcome State Fault Refusal :=
  breusRow 0x0B anywhere (bS d fun _ => immS imm) s

/-- SADD (R182): Breus SADD adds two scalars. -/
def execSadd (d a b : Fin 16) (s : State) : Host.Outcome State Fault Refusal :=
  breusRow 0x0C anywhere (bSS d a b (· + ·)) s

/-- SADDI (R182): Breus SADDI adds an immediate to a scalar. -/
def execSaddi (d a : Fin 16) (imm : BitVec 14) (s : State) : Host.Outcome State Fault Refusal :=
  breusRow 0x0D anywhere (bS d fun i => i.sAt a + immS imm) s

/-- SSUB (R182): Breus SSUB subtracts two scalars. -/
def execSsub (d a b : Fin 16) (s : State) : Host.Outcome State Fault Refusal :=
  breusRow 0x0E anywhere (bSS d a b (· - ·)) s

/-- SMUL (R182): Breus SMUL keeps the low 32 bits of a product. -/
def execSmul (d a b : Fin 16) (s : State) : Host.Outcome State Fault Refusal :=
  breusRow 0x0F anywhere (bSS d a b (· * ·)) s

/-- SAND (R184): Breus SAND takes a bitwise AND. -/
def execSand (d a b : Fin 16) (s : State) : Host.Outcome State Fault Refusal :=
  breusRow 0x10 anywhere (bSS d a b (· &&& ·)) s

/-- SOR (R184): Breus SOR takes a bitwise OR. -/
def execSor (d a b : Fin 16) (s : State) : Host.Outcome State Fault Refusal :=
  breusRow 0x11 anywhere (bSS d a b (· ||| ·)) s

/-- SXOR (R184): Breus SXOR takes a bitwise XOR. -/
def execSxor (d a b : Fin 16) (s : State) : Host.Outcome State Fault Refusal :=
  breusRow 0x12 anywhere (bSS d a b (· ^^^ ·)) s

/-- SSH (R182): Breus SSH shifts a scalar by a register amount. -/
def execSsh (d a b : Fin 16) (kind : Fin 4) (s : State) : Host.Outcome State Fault Refusal :=
  breusRow 0x13 (fun _ => kind.val != 3) (bSS d a b fun x y => shift kind x y.toNat) s

/-- SSHI (R184): Breus SSHI shifts a scalar by an immediate amount. -/
def execSshi (d a : Fin 16) (kind : Fin 4) (amount : BitVec 5) (s : State) : Host.Outcome State Fault Refusal :=
  breusRow 0x14 (fun _ => kind.val != 3) (bS d fun i => shift kind (i.sAt a) amount.toNat) s

/-- SMIN (R182): Breus SMIN takes the signed minimum. -/
def execSmin (d a b : Fin 16) (s : State) : Host.Outcome State Fault Refusal :=
  breusRow 0x15 anywhere (bSS d a b smin) s

/-- SMAX (R182): Breus SMAX takes the signed maximum. -/
def execSmax (d a b : Fin 16) (s : State) : Host.Outcome State Fault Refusal :=
  breusRow 0x16 anywhere (bSS d a b smax) s

/-- SMINU (R182): Breus SMINU takes the unsigned minimum. -/
def execSminu (d a b : Fin 16) (s : State) : Host.Outcome State Fault Refusal :=
  breusRow 0x17 anywhere (bSS d a b sminu) s

/-- SMAXU (R182): Breus SMAXU takes the unsigned maximum. -/
def execSmaxu (d a b : Fin 16) (s : State) : Host.Outcome State Fault Refusal :=
  breusRow 0x18 anywhere (bSS d a b smaxu) s

/-- SSLT (R182): Breus SSLT makes a signed less-than comparison. -/
def execSslt (d a b : Fin 16) (s : State) : Host.Outcome State Fault Refusal :=
  breusRow 0x19 anywhere (bSS d a b fun x y => oneIf (x.slt y)) s

/-- SSLTU (R182): Breus SSLTU makes an unsigned less-than comparison. -/
def execSsltu (d a b : Fin 16) (s : State) : Host.Outcome State Fault Refusal :=
  breusRow 0x1A anywhere (bSS d a b fun x y => oneIf (x < y)) s

/-- VADD (R183): Breus VADD adds lanes. -/
def execVadd (d a b : Fin 8) (s : State) : Host.Outcome State Fault Refusal :=
  breusRow 0x20 anywhere (bVV d a b fadd) s

/-- VSUB (R183): Breus VSUB subtracts lanes. -/
def execVsub (d a b : Fin 8) (s : State) : Host.Outcome State Fault Refusal :=
  breusRow 0x21 anywhere (bVV d a b fsub) s

/-- VMUL (R183): Breus VMUL multiplies lanes. -/
def execVmul (d a b : Fin 8) (s : State) : Host.Outcome State Fault Refusal :=
  breusRow 0x22 anywhere (bVV d a b fmul) s

/-- VDIV (R183): Breus VDIV divides lanes with defined zero divisors. -/
def execVdiv (d a b : Fin 8) (s : State) : Host.Outcome State Fault Refusal :=
  breusRow 0x23 anywhere (bVV d a b fdiv) s

/-- VMAX (R183): Breus VMAX takes the lane maximum. -/
def execVmax (d a b : Fin 8) (s : State) : Host.Outcome State Fault Refusal :=
  breusRow 0x24 anywhere (bVV d a b fmax) s

/-- VMIN (R183): Breus VMIN takes the lane minimum. -/
def execVmin (d a b : Fin 8) (s : State) : Host.Outcome State Fault Refusal :=
  breusRow 0x25 anywhere (bVV d a b fmin) s

/-- VABS (R184): Breus VABS takes the lane magnitude. -/
def execVabs (d a : Fin 8) (s : State) : Host.Outcome State Fault Refusal :=
  breusRow 0x26 anywhere (bV1 d a fabs) s

/-- VNEG (R183): Breus VNEG inverts the lane sign. -/
def execVneg (d a : Fin 8) (s : State) : Host.Outcome State Fault Refusal :=
  breusRow 0x27 anywhere (bV1 d a fneg) s

/-- VEXP (R183): Breus VEXP takes the lane exponential. -/
def execVexp (d a : Fin 8) (s : State) : Host.Outcome State Fault Refusal :=
  breusRow 0x28 anywhere (bV1 d a fexp) s

/-- VTANH (R183): Breus VTANH takes the lane hyperbolic tangent. -/
def execVtanh (d a : Fin 8) (s : State) : Host.Outcome State Fault Refusal :=
  breusRow 0x29 anywhere (bV1 d a ftanh) s

/-- VSEL (R184): Breus VSEL selects lanes by predicate. -/
def execVsel (d a b : Fin 8) (p : Fin 4) (s : State) : Host.Outcome State Fault Refusal :=
  breusRow 0x2A anywhere (bVsel d a b p) s

/-- VLDK (R184): Breus VLDK broadcasts a constant to every lane. -/
def execVldk (d : Fin 8) (k : BitVec 14) (s : State) : Host.Outcome State Fault Refusal :=
  breusRow 0x2B (fun i => decide (k.toNat < i.consts.length) && !nonfinite32 (i.consts.getD k.toNat 0)) (bV d fun i => List.replicate 64 (i.consts.getD k.toNat 0)) s

/-- VBCST (R183): Breus VBCST broadcasts a scalar's raw bits to every lane. -/
def execVbcst (d : Fin 8) (a : Fin 16) (s : State) : Host.Outcome State Fault Refusal :=
  breusRow 0x2C anywhere (bVbcst d a) s

/-- VBCSTI (R183): Breus VBCSTI broadcasts a converted signed integer to every lane. -/
def execVbcsti (d : Fin 8) (a : Fin 16) (s : State) : Host.Outcome State Fault Refusal :=
  breusRow 0x2D anywhere (bV d fun i => List.replicate 64 (fOfInt (i.sAt a).toInt)) s

/-- VLANE (R184): Breus VLANE sets each lane to its index. -/
def execVlane (d : Fin 8) (s : State) : Host.Outcome State Fault Refusal :=
  breusRow 0x2E anywhere (bV d fun _ => (List.range 64).map fun (k : Nat) => fOfInt k) s

/-- VEXT (R184): Breus VEXT extracts a lane's raw bits to a scalar. -/
def execVext (d : Fin 16) (a : Fin 8) (lane : Fin 64) (s : State) : Host.Outcome State Fault Refusal :=
  breusRow 0x2F anywhere (bS d fun i => (i.vAt a).getD lane 0) s

/-- VREDADD (R183): Breus VREDADD sums the selected lanes in order. -/
def execVredadd (d : Fin 16) (a : Fin 8) (p : Fin 4) (s : State) : Host.Outcome State Fault Refusal :=
  breusRow 0x30 anywhere (bVredadd d a p) s

/-- VREDMAX (R183): Breus VREDMAX takes the maximum of the selected lanes. -/
def execVredmax (d : Fin 16) (a : Fin 8) (p : Fin 4) (s : State) : Host.Outcome State Fault Refusal :=
  breusRow 0x31 anywhere (bVredmax d a p) s

/-- PCMP (R183): Breus PCMP compares lanes into a predicate. -/
def execPcmp (d : Fin 4) (a b : Fin 8) (cond : Fin 4) (s : State) : Host.Outcome State Fault Refusal :=
  breusRow 0x34 (fun _ => cond.val != 3) (bPcmp d a b cond) s

/-- PLOG (R184): Breus PLOG combines two predicates. -/
def execPlog (d a b : Fin 4) (op : Fin 4) (s : State) : Host.Outcome State Fault Refusal :=
  breusRow 0x35 anywhere (bP d fun i => plogic op (i.pAt a) (i.pAt b)) s

/-- PNOT (R184): Breus PNOT inverts a predicate. -/
def execPnot (d a : Fin 4) (s : State) : Host.Outcome State Fault Refusal :=
  breusRow 0x36 anywhere (bP d fun i => ~~~(i.pAt a)) s

/-- PRANGE (R184): Breus PRANGE sets the predicate bits within a signed range. -/
def execPrange (d : Fin 4) (a b : Fin 16) (s : State) : Host.Outcome State Fault Refusal :=
  breusRow 0x37 anywhere (bPrange d a b) s

/-- PCNT (R184): Breus PCNT counts the set predicate bits. -/
def execPcnt (d : Fin 16) (a : Fin 4) (s : State) : Host.Outcome State Fault Refusal :=
  breusRow 0x38 anywhere (bS d fun i => BitVec.ofNat 32 (popcount (i.pAt a))) s

end Sys2Proof.Machine
end

