-- ==== Sys2Proof/Machine/CmdModule.lean ====
section
/-!
DEFINITION. Module commands (R401, R402), and the commands of tenants' quotas (R403).
-/
namespace Sys2Proof.Machine

/-- GET_INTERFACE_VERSION: levels 1.0 to 1.0 and MODULE_CAPS 0 (R385). -/
def cmdGetInterfaceVersion (_ : Ctx) (s : State) : CmdM :=
  .ok (.done s (toLe 2 0x0100 ++ toLe 2 0x0100 ++ zeros 4 ++ toLe 8 0))

/-- SET_INTERFACE_VERSION (R385). -/
def cmdSetInterfaceVersion (x : Ctx) (s : State) : CmdM := do
  req (x.p 0 2 == 0x0100) St.versionUnsupported
  req (s.inflightOf x.c.mb == 1) St.wrongState
  return .done (s.modMbox x.c.mb fun b => { b with level := BitVec.ofNat 16 (x.p 0 2) }) []

/-- MODULE_INFO (R401). -/
def cmdModuleInfo (_ : Ctx) (s : State) : CmdM :=
  let node := match s.cfg.nodeId with
    | some n => n
    | none => 0xFFFF
  .ok (.done s (toLe 2 node ++ toLe 1 s.spindlesInService ++ toLe 1 s.portsUp ++ toLe 1 s.stacksUp ++ zeros 3 ++ toLe 4 s.boot.svn.toNat))

def State.modCfg (s : State) (f : Cfg → Cfg) : State := { s with cfg := f s.cfg }

/-- POOL_MARKS as VALUE holds it (R402). -/
def Cfg.marks (c : Cfg) : Nat := c.evictStop * 2 ^ 30 + c.evictStart * 2 ^ 20 + c.lowWater * 2 ^ 10 + c.reserve

/-- Whether a change of TABLE_SLOTS would move an occupied slot out of its area, or take one granted to a pin (R217, R230). -/
def State.tableMoveBusy (s : State) (new : Nat) : Bool :=
  let old := s.cfg.tableSlots
  if new ≥ old then (List.range (new - old)).any (fun i => s.store.sramUsed.contains (5120 + old + i)) || decide (s.residenceFree < new - old)
  else s.images.tables.any fun t => t.2.slots.any fun p => decide (5120 + new ≤ p)

/-- A change of LENT_GIB (R238): the command ends when the band is empty and zeroed; one that comes while another is in
progress waits for it (DEDUCED, log 16). -/
def lentChange (x : Ctx) (s : State) (v : Nat) : CmdM := do
  inRange (decide (v ≤ 512)) 8
  if s.store.lentWaiter.isSome then return .wait (s.modStore fun t => { t with lentNext := t.lentNext ++ [(x.c.ref, v)] })
  else if v = s.cfg.lentGib then return .done s (toLe 8 s.cfg.lentGib)
  else
    within 0 (s.lentCheck v)
    return .wait (s.lentBegin x.c.ref v)

/-- MODULE_CONFIGURE (R402). -/
def cmdModuleConfigure (x : Ctx) (s : State) : CmdM := do
  let v := x.p 8 8
  let sessions := !s.flyer.sessions.isEmpty
  match x.p 0 2 with
  | 1 =>
    req (!sessions) St.wrongState
    let prev := match s.cfg.nodeId with
      | some n => n
      | none => 0xFFFF
    return .done (s.modCfg fun c => { c with nodeId := some v }) (toLe 8 prev)
  | 2 =>
    req (!sessions) St.wrongState
    return .done (s.modCfg fun c => { c with macPrefix := BitVec.ofNat 24 v }) (toLe 8 s.cfg.macPrefix.toNat)
  | 3 =>
    req (s.ld v).bound St.wrongState
    let prev := toLe 8 s.cfg.adminLd
    let s1 := (s.writeResponse x.c St.ok 0 0 prev)
    let s1 := { s1 with box := { s1.box with inflight := s1.box.inflight.filter fun d => d.seq != x.c.seq } }
    return .wait ((s1.modCfg fun c => { c with adminLd := v }).modMbox 0 fun b => { b with ld := some v })
  | 4 =>
    inRange (decide (64 ≤ v ∧ v ≤ 896)) 8
    req (!s.tableMoveBusy v) St.rangeInUse
    return .done (s.modCfg fun c => { c with tableSlots := v }) (toLe 8 s.cfg.tableSlots)
  | 5 =>
    let stop := bits 39 30 v
    let start := bits 29 20 v
    let low := bits 19 10 v
    let res := bits 9 0 v
    mode (decide (res < low ∧ low < start ∧ start < stop))
    let s1 := s.modCfg fun c => { c with evictStop := stop, evictStart := start, lowWater := low, reserve := res }
    return .done (s1.noteLow s.belowLow) (toLe 8 s.cfg.marks)
  | 6 => lentChange x s v
  | 7 =>
    inRange (decide (1 ≤ v ∧ v ≤ 600000)) 8
    return .done (s.modCfg fun c => { c with orphanHold := v }) (toLe 8 s.cfg.orphanHold)
  | 8 =>
    inRange (decide (60 ≤ v ∧ v ≤ 604800)) 8
    return .done (s.modCfg fun c => { c with keyRotation := v }) (toLe 8 s.cfg.keyRotation)
  | _ => refuse St.invalidMode

/-- Whether the mailboxes of an LD may not be changed now: it is locked under TSP (R371). -/
def State.ldLocked (s : State) (d : Option Nat) : Bool :=
  match d with
  | some d => (s.ld d).tspLocked
  | none => false

/-- LD_CONFIGURE (R340, R374, R376). -/
def cmdLdConfigure (x : Ctx) (s : State) : CmdM := do
  let m := x.p 0 2
  let l := x.p 2 1
  inRange (decide (1 ≤ m ∧ m ≤ 1023)) 0
  inRange (decide (l ≤ 15 ∨ l = 0xFF)) 2
  let towards := if l = 0xFF then none else some l
  let b := s.mbox m
  req (!s.ldLocked b.ld && !s.ldLocked towards) St.notPermitted
  let st := if b.state = .draining then .draining else if b.bound && towards.isSome then MboxState.active else .disabled
  return .done (s.setMbox m { b with ld := towards, state := st, level := if st = .active ∧ b.state ≠ .active then 0x0100 else b.level }) []

/-- Whether a number is a power of two in a range. -/
def pow2In (lo hi n : Nat) : Bool := decide (lo ≤ n ∧ n ≤ hi) && n == 2 ^ Nat.log2 n

/-- MAILBOX_BIND (R374, R377). -/
def cmdMailboxBind (x : Ctx) (s : State) : CmdM := do
  let m := x.p 0 2
  let depth := x.p 2 2
  let fl := x.p 4 1
  let tag := x.c.tenantField
  if m = 0 then req (tag == 0) St.staleHandle else req (s.tenant? tag).isSome St.staleHandle
  inRange (decide (m ≤ 1023)) 0
  inRange (pow2In 16 4096 depth) 2
  if m = 0 then
    req (s.inflightOf 0 == 1) St.wrongState
    let (sq, s1) ← found St.noResource (s.takeSlots (slotsFor (depth * 64)))
    let (cq, s2) ← found St.noResource (s1.takeSlots (slotsFor (depth * 32)))
    let (ws, s3) ← found St.noResource (s2.mapArea 0 none sq)
    let (wc, s4) ← found St.noResource (s3.mapArea 0 none cq)
    let old := s.mbox 0
    let s5 := s4.writeResponse x.c St.ok 0 0 (toLe 8 ws ++ toLe 8 wc)
    let s6 := { s5 with box := { s5.box with inflight := s5.box.inflight.filter fun d => d.seq != x.c.seq } }
    let s7 := (s6.dropArea old.sqArea).dropArea old.cqArea
    return .wait (s7.modMbox 0 fun b => { b with depth, sqArea := sq, cqArea := cq, cqBase := 0, sqHead := 0, sqTail := 0,
                                                 cqHead := 0, cqWritten := 0, cqRead := 0 })
  else
    let b := s.mbox m
    req (!b.bound && b.state == .disabled) St.wrongState
    let n := slotsFor (depth * 64) + slotsFor (depth * 32)
    within n (s.dramNeed tag n)
    let (sq, ws, s1) ← within n (s.newRing m tag (depth * 64))
    let (cq, wc, s2) ← within n (s1.newRing m tag (depth * 32))
    let b1 : Mbox := { ld := b.ld, ring := b.ring, evWritten := b.evWritten, evRead := b.evRead, eventHead := b.eventHead,
                       bound := true, tenant := tag, depth, events := bit 0 fl, sqArea := sq, cqArea := cq,
                       state := if b.ld.isSome then .active else .disabled }
    return .done (s2.setMbox m b1) (toLe 8 ws ++ toLe 8 wc)

/-- Starts an unbind (R376): with ABORT every command before its commit point completes with ST_ABORTED. -/
def State.unbind (s : State) (m : Nat) (abort : Bool) (w : Option CmdRef) : State :=
  let s := s.modMbox m fun b => { b with state := .draining, bound := false, unbindWaiter := w }
  let s := if abort then
      (s.box.inflight.filter fun c => c.mb == m && !c.committed).foldl (fun s c => s.completeCmd 8 c St.aborted 0 0 []) s
    else s
  if (s.mbox m).state = .draining ∧ s.inflightOf m = 0 then
    let s := s.disableBox m
    match w with
    | some w => s.answer w St.ok []
    | none => s
  else s

/-- MAILBOX_UNBIND (R376). -/
def cmdMailboxUnbind (x : Ctx) (s : State) : CmdM := do
  let m := x.p 0 2
  let fl := x.p 2 1
  inRange (decide (1 ≤ m ∧ m ≤ 1023)) 0
  req (s.mbox m).bound St.wrongState
  return .wait (s.unbind m (bit 0 fl) (some x.c.ref))

/-! ## Tenants (R403) -/

/-- Refuses for want of random bits, with RNG_FAIL (R419). -/
def rngRefusal (s : State) : CmdM := .ok (.ended (s.raise Ev.rngFail .module [0]) St.internal [])

/-- TENANT_CREATE (R403): the next generation of the ID, its quotas and its keys. -/
def cmdTenantCreate (x : Ctx) (s : State) : CmdM := do
  let id := tidOf x.c.tenantField
  let quota := (List.range 8).map fun k => x.p (4 * k) 4
  let bad := (List.range 8).find? fun k => decide (quota.getD k 0 > quotaMax k)
  match bad with
  | some k => .error (St.lengthRange, 24 + 4 * k, 0)
  | none =>
    let t := (tget s.tenants id).getD {}
    req (!t.live) St.rangeInUse
    if s.sec.rngFailed then rngRefusal s
    else
      let gen := nextGen 15 t.gen
      let t1 : Tenant := { gen, live := true, quota, telePos := s.flyer.tele.written, dramKey := true, lentKey := true, creelKey := true }
      return .done ({ s with tenants := tset s.tenants id t1 }).writeKeyStore.writeTenants
        (toLe 2 (gen * 4096 + id))

/-- QUOTA_SET (R225). -/
def cmdQuotaSet (x : Ctx) (s : State) : CmdM := do
  let q := x.p 0 1
  let v := x.p 4 4
  mode (decide (q ≤ 7))
  inRange (decide (v ≤ quotaMax q)) 4
  return .done (s.modTenant x.tag fun t => { t with quota := t.quota.set q v }).writeTenants (toLe 4 (s.useOf x.tag q))

/-- TENANT_INFO (R403): each quota and its use, 64 bytes. -/
def cmdTenantInfo (x : Ctx) (s : State) : CmdM := do
  if x.c.dataLen ≥ 64 then .ok () else .error (St.lengthRange, 12, 0)
  let bs := (List.range 8).flatMap fun k => toLe 4 (s.quotaOf x.tag k) ++ toLe 4 (s.useOf x.tag k)
  return .done (x.output s bs) []

/-! ## Rows -/

/-- GET_INTERFACE_VERSION (R385, R401). -/
def execGetInterfaceVersion (m slot : Nat) (s : State) : Host.Outcome State Fault Refusal := cmdRow 0x0100 cmdGetInterfaceVersion m slot s
/-- SET_INTERFACE_VERSION (R385, R401). -/
def execSetInterfaceVersion (m slot : Nat) (s : State) : Host.Outcome State Fault Refusal := cmdRow 0x0101 cmdSetInterfaceVersion m slot s
/-- MODULE_INFO (R401). -/
def execModuleInfo (m slot : Nat) (s : State) : Host.Outcome State Fault Refusal := cmdRow 0x0102 cmdModuleInfo m slot s
/-- MODULE_CONFIGURE (R402). -/
def execModuleConfigure (m slot : Nat) (s : State) : Host.Outcome State Fault Refusal := cmdRow 0x0103 cmdModuleConfigure m slot s
/-- LD_CONFIGURE (R340, R401). -/
def execLdConfigure (m slot : Nat) (s : State) : Host.Outcome State Fault Refusal := cmdRow 0x0104 cmdLdConfigure m slot s
/-- MAILBOX_BIND (R374, R377). -/
def execMailboxBind (m slot : Nat) (s : State) : Host.Outcome State Fault Refusal := cmdRow 0x0105 cmdMailboxBind m slot s
/-- MAILBOX_UNBIND (R376). -/
def execMailboxUnbind (m slot : Nat) (s : State) : Host.Outcome State Fault Refusal := cmdRow 0x0106 cmdMailboxUnbind m slot s
/-- TENANT_CREATE (R403). -/
def execTenantCreate (m slot : Nat) (s : State) : Host.Outcome State Fault Refusal := cmdRow 0x0200 cmdTenantCreate m slot s
/-- QUOTA_SET (R225, R403). -/
def execQuotaSet (m slot : Nat) (s : State) : Host.Outcome State Fault Refusal := cmdRow 0x0202 cmdQuotaSet m slot s
/-- TENANT_INFO (R403). -/
def execTenantInfo (m slot : Nat) (s : State) : Host.Outcome State Fault Refusal := cmdRow 0x0203 cmdTenantInfo m slot s

end Sys2Proof.Machine
end

