-- ==== Sys2Proof/Machine/CmdQueues.lean ====
section
/-!
DEFINITION. Queue and trigger commands (R407): completion queues, job queues, combines, trigger lists and entries.
-/
namespace Sys2Proof.Machine

/-- A ring for the command's tenant: its area, its WINDOW_OFFSET and the state. -/
def Ctx.ring (x : Ctx) (s : State) (bytes : Nat) : Except CmdErr (Area × Nat × State) :=
  within (slotsFor bytes) (s.newRing x.c.mb x.tag bytes)

/-- Slabs without a window place, charged to a tenant. -/
def State.takeSlabs (s : State) (tag : W16) (n : Nat) : Res (Area × State) := do
  s.dramNeed tag n
  match s.takeSlots n with
  | none => .error St.noResource
  | some (a, s) => return (a, s.charge tag qDram n)

/-- CQ_CREATE (R303). -/
def cmdCqCreate (x : Ctx) (s : State) : CmdM := do
  let n := x.p 0 4
  inRange (pow2In 16 65536 n) 0
  let (a, w, s1) ← x.ring s (n * 32)
  let (i, s1) ← found St.noResource (s1.pick s.work.cqs 65536)
  let q : Cq := { tenant := x.tag, entries := n, area := a }
  return .done (s1.modWork fun k => { k with cqs := tset k.cqs i q }) (toLe 2 i ++ zeros 6 ++ toLe 8 w)

/-- Whether a queue or connection names a completion queue (R407). -/
def State.cqNamed (s : State) (q : Nat) : Bool :=
  s.work.jqs.any (fun j => j.2.cq == q) || s.flyer.conns.any fun c => c.2.cq == q

/-- CQ_DESTROY (R407). -/
def cmdCqDestroy (x : Ctx) (s : State) : CmdM := do
  let i := x.p 0 2
  let q ← found St.staleHandle (s.cqFor x.tag i)
  req (!s.cqNamed i) St.rangeInUse
  return .done (((s.dropArea q.area).credit x.tag qDram q.area.length).dropCq i) []

/-- JOB_QUEUE_CREATE (R119). -/
def cmdJobQueueCreate (x : Ctx) (s : State) : CmdM := do
  let n := x.p 0 4
  let cq := x.p 4 2
  let wait := x.p 8 4
  let _ ← found St.staleHandle (s.cqFor x.tag cq)
  inRange (pow2In 16 65536 n) 0
  inRange (decide (wait ≤ 1000000)) 8
  let (a, w, s1) ← x.ring s (n * 128)
  let (i, s1) ← found St.noResource (s1.pick s.work.jqs 65536)
  let q : Jq := { tenant := x.tag, depth := n, cq, admitWait := if wait = 0 then 20000 else wait, area := a }
  return .done (s1.modWork fun k => { k with jqs := tset k.jqs i q }) (toLe 2 i ++ zeros 6 ++ toLe 8 w)

/-- Destroys a job queue: unadmitted entries, a waiting job and a wait at its head are cancelled, and its ring is freed
(R407). -/
def State.destroyJq (s : State) (i : Nat) (waiter : Option CmdRef) : State :=
  match tget s.work.jqs i with
  | none => s
  | some q =>
    let s := (s.cancelIn i (fun _ => true) (fun _ => true) false St.cancelled).2
    let s := (s.dropArea q.area).credit q.tenant qDram q.area.length
    ((s.modJq i fun j => { j with destroyed := true, area := [], waiter }).forgetJq i).sourceGone 0 (BitVec.ofNat 32 i)

/-- JOB_QUEUE_DESTROY: answered when the last admitted entry has ended (R407). -/
def cmdJobQueueDestroy (x : Ctx) (s : State) : CmdM := do
  let i := x.p 0 2
  let _ ← found St.staleHandle (s.jqFor x.tag i)
  match (s.destroyJq i (some x.c.ref)).endQueue i with
  | (some _, s1) => return .done s1 []
  | (none, s1) => return .wait s1

/-- JOB_CANCEL (R407). -/
def cmdJobCancel (x : Ctx) (s : State) : CmdM := do
  let i := x.p 0 2
  let tag := x.p 8 8
  let _ ← found St.staleHandle (s.jqFor x.tag i)
  let (n, s1) := s.cancelIn i (fun b => field b 8 8 == tag) (fun t => t.toNat == tag) true St.cancelled
  return .done s1 (toLe 4 n)

/-- COMBINE_RELEASE (R407). -/
def cmdCombineRelease (x : Ctx) (s : State) : CmdM := do
  let i := x.p 0 2
  let c ← found St.staleHandle (tget s.work.combines i)
  req (c.tenant == x.tag) St.staleHandle
  return .done ((s.releaseCombine i St.cancelled).answerQueue c.queue) []

/-- QUEUE_STATUS (R318). -/
def cmdQueueStatus (x : Ctx) (s : State) : CmdM := do
  let k := x.p 0 1
  let t := x.p 4 4
  mode (k == 1 || k == 2)
  if k = 1 then
    req (decide (t < 65536)) St.staleHandle
    let q ← found St.staleHandle (s.jqFor x.tag t)
    return .done s (toLe 8 q.completed ++ toLe 8 q.failed)
  else
    let (_, c) ← found St.staleHandle (s.connFor x.tag (x.p32 4))
    return .done s (toLe 8 c.completed ++ toLe 8 c.failed)

/-- TRIGGER_LIST_CREATE (R305). -/
def cmdTriggerListCreate (x : Ctx) (s : State) : CmdM := do
  let store := x.p 0 2
  let staging := x.p 2 2
  let depth := x.p 4 2
  inRange (decide (1 ≤ store ∧ store ≤ 1024)) 0
  inRange (decide (1 ≤ staging ∧ staging ≤ 4096)) 2
  inRange (pow2In 16 4096 depth) 4
  let n := store + staging + slotsFor (depth * 640)
  within n (s.dramNeed x.tag n)
  let (a, w, s1) ← x.ring s (depth * 640)
  let (st, s2) ← within n (s1.takeSlabs x.tag store)
  let (sg, s3) ← within n (s2.takeSlabs x.tag staging)
  let (i, s3) ← found St.noResource (s3.pick s.work.lists 16384)
  let l : TrigList := { tenant := x.tag, store, staging, ringDepth := depth, area := a, storeSlabs := st, stagingSlabs := sg }
  return .done (s3.modWork fun k => { k with lists := tset k.lists i l }) (toLe 2 i ++ zeros 6 ++ toLe 8 w)

/-- TRIGGER_LIST_DESTROY (R317, R407). -/
def cmdTriggerListDestroy (x : Ctx) (s : State) : CmdM := do
  let i := x.p 0 2
  let _ ← found St.staleHandle (s.listFor x.tag i)
  return .done (s.destroyList i) []

/-- TRIGGER_POST (R309). -/
def cmdTriggerPost (x : Ctx) (s : State) : CmdM := do
  let i := x.p 0 2
  let l ← found St.staleHandle (s.listFor x.tag i)
  let (h, s1) ← within 0 (s.postEntry i l (padTo 576 ((x.data s).take 576)) (some x.c.dataLen))
  return .done s1 (toLe 4 h.toNat)

/-- The entry that a handle names for the command's tenant. -/
def Ctx.entry (x : Ctx) (s : State) : Except CmdErr (Nat × TrigEntry) := do
  let h := x.p32 0
  let e ← found St.staleHandle (tget s.work.entries (trIndex h))
  req (e.handle == h && (match tget s.work.lists e.list with | some l => l.tenant == x.tag | none => false)) St.staleHandle
  return (trIndex h, e)

/-- TRIGGER_CANCEL (R317). -/
def cmdTriggerCancel (x : Ctx) (s : State) : CmdM := do
  let (i, _) ← x.entry s
  return .done (s.removeEntry i St.cancelled) []

/-- TRIGGER_RESUME (R316). -/
def cmdTriggerResume (x : Ctx) (s : State) : CmdM := do
  let (i, e) ← x.entry s
  req e.halted St.wrongState
  return .done (s.modWork fun w => { w with entries := tset w.entries i { e with halted := false } }) []

/-! ## Rows -/

/-- CQ_CREATE (R303, R407). -/
def execCqCreate (m slot : Nat) (s : State) : Host.Outcome State Fault Refusal := cmdRow 0x0500 cmdCqCreate m slot s
/-- CQ_DESTROY (R407). -/
def execCqDestroy (m slot : Nat) (s : State) : Host.Outcome State Fault Refusal := cmdRow 0x0501 cmdCqDestroy m slot s
/-- JOB_QUEUE_CREATE (R119, R407). -/
def execJobQueueCreate (m slot : Nat) (s : State) : Host.Outcome State Fault Refusal := cmdRow 0x0502 cmdJobQueueCreate m slot s
/-- JOB_QUEUE_DESTROY (R407). -/
def execJobQueueDestroy (m slot : Nat) (s : State) : Host.Outcome State Fault Refusal := cmdRow 0x0503 cmdJobQueueDestroy m slot s
/-- JOB_CANCEL (R407). -/
def execJobCancel (m slot : Nat) (s : State) : Host.Outcome State Fault Refusal := cmdRow 0x0504 cmdJobCancel m slot s
/-- COMBINE_RELEASE (R407). -/
def execCombineRelease (m slot : Nat) (s : State) : Host.Outcome State Fault Refusal := cmdRow 0x0505 cmdCombineRelease m slot s
/-- QUEUE_STATUS (R318, R407). -/
def execQueueStatus (m slot : Nat) (s : State) : Host.Outcome State Fault Refusal := cmdRow 0x0506 cmdQueueStatus m slot s
/-- TRIGGER_LIST_CREATE (R305, R407). -/
def execTriggerListCreate (m slot : Nat) (s : State) : Host.Outcome State Fault Refusal := cmdRow 0x0507 cmdTriggerListCreate m slot s
/-- TRIGGER_LIST_DESTROY (R317, R407). -/
def execTriggerListDestroy (m slot : Nat) (s : State) : Host.Outcome State Fault Refusal := cmdRow 0x0508 cmdTriggerListDestroy m slot s
/-- TRIGGER_POST (R309, R407). -/
def execTriggerPost (m slot : Nat) (s : State) : Host.Outcome State Fault Refusal := cmdRow 0x0509 cmdTriggerPost m slot s
/-- TRIGGER_CANCEL (R317, R407). -/
def execTriggerCancel (m slot : Nat) (s : State) : Host.Outcome State Fault Refusal := cmdRow 0x050A cmdTriggerCancel m slot s
/-- TRIGGER_RESUME (R316, R407). -/
def execTriggerResume (m slot : Nat) (s : State) : Host.Outcome State Fault Refusal := cmdRow 0x050B cmdTriggerResume m slot s

end Sys2Proof.Machine
end

