-- ==== Sys2Proof/Machine/PowerOps.lean ====
section
/-!
DEFINITION. Wake sources (R500, R505), requests held in Doze (R502), the effective cap (R506) and the change of power
state (R495, R511).
-/
namespace Sys2Proof.Machine

def State.modPower (s : State) (f : Power → Power) : State := { s with power := f s.power }

/-- STATE code of POWER_STATUS (R509). -/
def PState.code : PState → Nat
  | .run => 0 | .hold => 1 | .doze => 2 | .standby => 3

def PState.ofCode (n : Nat) : Option PState :=
  if n = 0 then some .run else if n = 1 then some .hold else if n = 2 then some .doze else if n = 3 then some .standby else none

/-- The effective cap in watts (R506). -/
def Power.cap (p : Power) : Nat :=
  let c := if p.capSet = 0 then 1600 else min 1600 p.capSet
  let c := if p.inputLimit then min 1200 c else c
  c - p.derate

/-- A new power state, with its event (R511). -/
def State.enter (s : State) (towards : PState) : State :=
  let old := s.power.state
  (s.modPower fun p => { p with state := towards, target := towards, inTransition := false, exiting := false }).raise
    Ev.powerState .module [old.code, towards.code, s.power.wakeSource]

/-- Whether entry to Doze is under way. -/
def State.enteringDoze (s : State) : Bool := s.power.inTransition && s.power.target == .doze && s.power.state != .doze

/-- A wake source that is met: in Doze exit starts; during entry it is latched; otherwise nothing (R500, R505). -/
def State.metWake (s : State) (src : Nat) : State :=
  if s.power.state = .doze ∧ !s.power.exiting then
    s.modPower fun p =>
      { p with exiting := true, inTransition := true, target := .run, wakeSource := src, wakeDuringEntry := false,
               lastWake := s.time.now, wakeN := true }
  else if s.enteringDoze ∧ !s.power.wakeLatched then
    s.modPower fun p => { p with wakeLatched := true, wakeSource := src, lastWake := s.time.now }
  else s

/-- Whether a CXL.mem request is held: in Doze, during exit and during entry (R502). -/
def State.holdsRequests (s : State) : Bool := s.power.state == .doze || s.enteringDoze

/-- A CXL.mem request that is held and wakes the module (R500 code 3, R502). -/
def State.holdRequest (s : State) (r : HeldReq) : State :=
  ({ s with cxl := { s.cxl with held := s.cxl.held ++ [r] } }).metWake 3

end Sys2Proof.Machine
end

