-- ==== Sys2Proof/Machine/Link.lean ====
section
/-!
DEFINITION. The link layer of a port (R263–R274), the receipt of packets (R276, R279, R280, R293–R295, R299), and the
rows of ports and scheduling (R324–R336).
-/
namespace Sys2Proof.Machine

/-! ## Control blocks (R274) -/

/-- A WAKE block's CODE and NODE (R503). -/
def wakeBlock (code node : Nat) : Nat := code * 2 ^ 48 + node

/-! ## Receipt of packets -/

/-- Counts a discarded packet: 0 address, 1 session, tag or counter, 2 shape, 3 no connection, 4 window, 5 no context,
6 buffer full, 7 already recorded, 8 not awaited. -/
def State.discard (s : State) (why : Nat) : State := s.modFlyer fun f => { f with discards := tadd f.discards why 1 }

/-- A discard charged to a session: 64 within one second raise SESSION_AUTH_FAIL (R279). -/
def State.discardAuth (s : State) (i : Nat) (x : Session) : State :=
  let recent := (x.discards.filter fun t => decide (s.time.localNow < t + 1000000000)) ++ [s.time.localNow]
  let full := decide (recent.length ≥ 64)
  let s := (s.discard 1).modFlyer fun f => { f with sessions := tset f.sessions i { x with discards := if full then [] else recent } }
  if full then s.raise Ev.sessionAuthFail .module [i, x.peer] else s

/-- Accepts a counter under the replay window of R279. -/
def Session.accept (x : Session) (count : Nat) : Session :=
  let top := max x.rxTop count
  { x with rxTop := top, rxSeen := (count :: x.rxSeen).filter fun n => decide (top < n + 65536) }

/-- The key generation under which a packet of a phase opens: the present one; during an overlap the old one, and
otherwise the next (R279). -/
def Session.genFor (x : Session) (phase : Nat) : Nat :=
  if phase = x.rxGen % 2 then x.rxGen else if x.oldKeyUntil.isSome then x.rxGen - 1 else x.rxGen + 1

/-- The shape of a packet (R275, R276). -/
def packetOk (h p : List Byte) : Bool :=
  let op := field h 0 1
  let fl := field h 1 1
  let off := field h 20 4
  let total := field h 24 4
  let keyed := opKeyed op || (zeroIn h 40 4 && zeroIn h 44 8)
  opKnown op && field h 2 1 == 1 && decide (fl < 16 ∧ field h 3 1 < 4 ∧ field h 4 2 < 1024 ∧ field h 6 2 < 1024) &&
  field h 28 2 == p.length && keyed &&
  (if op = Op.ack then p.length == 8 && zeroIn h 56 2 && zeroIn h 60 4
   else if op = Op.nak then p.isEmpty
   else zeroIn h 52 12 && off % pieceBytes == 0 && bit 1 fl == (off == 0) &&
     (if bit 0 fl then decide (1 ≤ p.length ∧ p.length ≤ pieceBytes ∧ 1 ≤ total ∧ total ≤ msgMax) && off + p.length == total
      else p.length == pieceBytes && total == 0 && decide (off + pieceBytes < msgMax)))

/-- A NAK with ST_STALE_HANDLE to a packet that no connection matches (R280): it goes back over the session, on the
path it came by. -/
def State.strayNak (s : State) (port pathTag sess : Nat) (h : List Byte) : State :=
  let hd := headerBytes { op := Op.nak, flags := 3, seq := field h 16 4, status := St.staleHandle } (field h 3 1) s.nodeNo (field h 4 2)
    (field h 12 4) (field h 8 4) 0 0 0
  (s.queueFrame port { tid := 0, cls := 7, conn := 262144, sess, dst := field h 4 2, pathTag, body := hd, queuedAt := s.time.localNow,
                       unshaped := true }).kickAll

/-- WRITE payload goes into its region as each packet arrives; the status of the packet's checks (R285, R293). An IMPORT
waits for its whole image (R287). -/
def State.placeWrite (s : State) (tag : W16) (key : W32) (at' : Nat) (p : List Byte) : Nat × State :=
  match s.regionFor tag key with
  | none => (St.staleKey, s)
  | some r =>
    if !bit (if r.kind = 2 then rightImport else rightWrite) r.rights then (St.notPermitted, s)
    else if r.kind = 2 then (St.ok, s)
    else if at' + p.length ≤ r.size then (St.ok, s.bufWrite r at' p)
    else (St.lengthRange, s)

/-- Records a packet in its reassembly context, which the first one opens (R293, R294, R297). -/
def State.record (s : State) (c : Nat) (k : Conn) (h p : List Byte) (response : Bool) : State :=
  let op := field h 0 1
  let seq := field h 16 4
  let off := field h 20 4
  let old := s.reasm? c seq response
  let fresh : Reasm := { conn := c, seq, opcode := op, ackReq := false, parts := [], got := 0, total := none,
                         start := s.time.localNow, key := BitVec.ofNat 32 (field h 40 4), roff := BitVec.ofNat 64 (field h 44 8) }
  let r := old.getD fresh
  if old.isNone && decide (s.flyer.reasm.length ≥ 65536) then s.discard 5
  else if r.opcode ≠ op || thas r.parts off then s.discard 7
  else if opHeld op && decide (k.rxUse + p.length > k.rxBuffer * 65536) then s.discard 6
  else
    let (st, s) := if op = Op.write then s.placeWrite k.tenant fresh.key (fresh.roff.toNat + off) p else (St.ok, s)
    let r' := { r with parts := tset r.parts off p, got := r.got + p.length, ackReq := r.ackReq || bit 2 (field h 1 1),
                       total := if bit 0 (field h 1 1) then some (field h 24 4) else r.total,
                       failed := if r.failed = 0 then st else r.failed }
    let s := s.modFlyer fun f => { f with reasm := (f.reasm.filter (· != r)) ++ [r'] }
    if opHeld op then s.modConn c fun k => { k with rxUse := k.rxUse + p.length } else s

/-- A packet of a message already completed (R299). -/
def State.duplicate (s : State) (c : Nat) (k : Conn) (h p : List Byte) : State :=
  let op := field h 0 1
  let seq := field h 16 4
  if op = Op.fetchAdd ∨ op = Op.compareSwap then
    match k.atomics.find? fun a => a.1 == seq with
    | some a => s.respond c Op.atomicResponse seq (toLe 8 a.2.toNat)
    | none => s.sendAck c
  else if op = Op.read then
    match s.readFor k.tenant (BitVec.ofNat 32 (field h 40 4)) (BitVec.ofNat 64 (field h 44 8)) p with
    | (0, bytes, s) => s.respond c Op.readResponse seq bytes
    | (st, _, s) => s.sendNak c seq st 0
  else s.sendAck c

/-- A packet of a live connection (R282, R293–R295, R299). -/
def State.connPacket (s : State) (c : Nat) (k : Conn) (h p : List Byte) : State :=
  let op := field h 0 1
  let seq := field h 16 4
  if op = Op.ack ∨ op = Op.nak then
    if k.state = .error then s
    else s.modConn c fun k =>
      { k with ctl := k.ctl ++ [{ nak := op == Op.nak, ackSeq := field h 52 4, msgSeq := seq, status := field h 56 2,
                                  credit := field h 58 2, retry := field h 60 4, bitmap := BitVec.ofNat 64 (field p 0 8) }] }
  else if k.state = .error then s.sendNak c seq St.connError 0
  else if op = Op.readResponse ∨ op = Op.atomicResponse then
    match k.unacked.find? fun m => m.seq == seq with
    | some m =>
      if (m.opcode == Op.read) == (op == Op.readResponse) && opAnswered m.opcode then s.record c k h p true else s.discard 8
    | none => s.discard 8
  else
    let d := seqDist k.lcs seq
    if d = 0 ∨ 2 ^ 31 ≤ d then s.duplicate c k h p
    else if d > 64 then s.discard 4
    else s.record c k h p false

/-- The connection that a packet matches (R280, R409). -/
def State.matchConn (s : State) (h : List Byte) (sess : Nat) : Option (Nat × Conn) :=
  let dst := BitVec.ofNat 32 (field h 8 4)
  match s.conn? (rcIndex dst) with
  | some k =>
    if k.handle == dst && k.peerConn != 0 && k.peerConn == BitVec.ofNat 32 (field h 12 4) && k.peerNode == field h 4 2 && k.sess == sess
    then some (rcIndex dst, k) else none
  | none => none

/-- The session index of handshake packets (R433). -/
def handshakeSession : Nat := 0x7FFF

/-- A frame that the link layer has accepted: its packet is authenticated and handled (R271, R276, R279, R280). -/
def State.acceptPacket (s : State) (port : Nat) (f : List Byte) : State :=
  let tci := ofLe ((f.drop 14).take 2).reverse
  let outer := f.take 6 == s.mac s.nodeNo && ofLe ((f.drop 12).take 2).reverse == 0x8100 && !bit 12 tci &&
    ofLe ((f.drop 16).take 2).reverse == 0x88B5
  let h := (f.drop 18).take 64
  let n := f.length - 106
  let ct := (f.drop 82).take n
  let tag := (f.drop (82 + n)).take 16
  let sess := field h 30 2 / 2
  let phase := field h 30 2 % 2
  let count := field h 32 8
  let src := field h 4 2
  if !outer then s.discard 0
  else if sess = handshakeSession then s
  else match tget s.flyer.sessions sess with
    | none => s.discard 1
    | some x =>
      let gen := x.genFor phase
      if x.peer ≠ src then s.discardAuth sess x
      else match Config.gcmOpen (keyId x.keyNo 1 gen) (nonce src count) h ct tag with
        | none => s.discardAuth sess x
        | some p =>
          if count + 65536 ≤ x.rxTop ∨ x.rxSeen.contains count then s.discardAuth sess x
          else
            let x := x.accept count
            let x := if gen = x.rxGen + 1 then { x with rxGen := gen, oldKeyUntil := some (s.time.localNow + 100000000) } else x
            let s := s.modFlyer fun y => { y with sessions := tset y.sessions sess x }
            if !packetOk h p then s.discard 2
            else match s.matchConn h sess with
              | some (c, k) => s.connPacket c k h p
              | none =>
                let op := field h 0 1
                if op = Op.ack ∨ op = Op.nak then s.discard 3 else s.strayNak port (tci % 4096) sess h

/-! ## The link layer (R272, R273) -/

/-- Whether a port receives now. -/
def Port.receives (p : Port) : Bool := p.state == .up && p.light && !p.failover

/-- A LINK_ACK for the last accepted frame (R273, R274). -/
def State.linkAck (s : State) (p : Nat) : State :=
  let x := s.portAt p
  if x.failover || !x.light then s
  else (s.setPort p { x with sinceAck := 0, ackBy := none }).control p ctlAck (x.expSeq - 1).toNat

/-- The 64-byte units of a received frame count towards the partner's new map, which takes effect after the number that its
SWITCH named; what it leaves out is no spare of this port (R264, R265, R274). -/
def State.passUnits (s : State) (p n : Nat) : State :=
  let x := s.portAt p
  match x.switching with
  | none => s
  | some (map, left) =>
    if n < left then s.setPort p { x with switching := some (map, left - n) }
    else
      let out := (List.range 9).filter fun i => x.map.getLsbD i && !map.getLsbD i && !x.failedWl.contains i
      let s := s.setPort p ({ x with switching := none, failedWl := out ++ x.failedWl }.setMap map)
      let s := if map = x.map then s else s.setFlag (Flag.wavelengthSwitch p)
      (if map = 0 then s.portToDown p else s.refreshLevel).kick p

/-- A frame on a port that is in service (R270, R272, R273). -/
def State.linkFrame (s : State) (p : Nat) (f : List Byte) (uncorrectable : Bool) : State :=
  let x := s.portAt p
  let s := if uncorrectable then s.setFlag (Flag.fecUncorrectable p) else s
  let n := f.length
  let good := !uncorrectable && decide (106 ≤ n ∧ n ≤ 9216) && field f (n - 4) 4 == (crc32 (f.take (n - 4))).toNat
  if !good || field f (n - 8) 1 ≠ x.expSeq.toNat then
    (s.setPort p { x with discarded := x.discarded + 1 }).control p ctlReplay x.expSeq.toNat
  else
    let by' := match x.ackBy with
      | some t => some t
      | none => some (s.time.localNow + 100)
    let s := s.setPort p { x with expSeq := x.expSeq + 1, sinceAck := x.sinceAck + 1, ackBy := by' }
    let s := if x.sinceAck + 1 ≥ 16 then s.linkAck p else s
    s.acceptPacket p f

/-- A port row: the port must exist. -/
def portRow (p : Nat) (r : State) : Host.Outcome State Fault Refusal := if p < portCount then .next r else .fault .noSuchUnit

/-- LINK_FRAME_RECEIVE (R273). In LOW_RATE the frame is discarded and counted as activity (R503). -/
def execLinkFrameReceive (p : Nat) (f : List Byte) (uncorrectable : Bool) (s : State) : Host.Outcome State Fault Refusal :=
  portRow p (
    let x := s.portAt p
    if x.state = .lowRate then
      s.modPower fun w => { w with frameCount := w.frameCount + 1 }
    else if x.receives then (s.linkFrame p f uncorrectable).passUnits p ((f.length + 63) / 64)
    else s)

/-- Frames that a LINK_ACK covers leave the replay buffer (R273). -/
def ackedFrames (replay : List (Byte × List Byte)) (lseq : Byte) : List (Byte × List Byte) :=
  if replay.any fun f => f.1 == lseq then (replay.dropWhile fun f => f.1 != lseq).drop 1 else replay

/-- LINK_ACK_RECEIVE (R273). -/
def execLinkAckReceive (p : Nat) (lseq : Byte) (s : State) : Host.Outcome State Fault Refusal :=
  portRow p (
    let x := s.portAt p
    if x.replay.any fun f => f.1 == lseq then
      (s.setPort p { x with replay := ackedFrames x.replay lseq, replays := 0, oldestAt := s.time.localNow }).kick p
    else s)

/-- Resends frames from a place of the replay buffer onward; after 16 in a row that brought no new acknowledgement the port
retrains instead, none counted during a failover or a loss of light (R266, R273). -/
def State.replayFrom (s : State) (p : Nat) (frames : List (Byte × List Byte)) : State :=
  let x := s.portAt p
  if frames.isEmpty || !(x.state == .up || x.state == .lowRate) || x.failover || !x.light then s
  else if x.replays ≥ 16 then s.startRetrain p
  else
    let s := frames.foldl (fun s f => s.emit (.frame p x.mapNow f.2)) s
    s.setPort p { x with replays := x.replays + 1, oldestAt := s.time.localNow }

/-- REPLAY_REQ_RECEIVE (R273): frames before the named one have arrived. -/
def execReplayReqReceive (p : Nat) (lseq : Byte) (s : State) : Host.Outcome State Fault Refusal :=
  portRow p (
    let x := s.portAt p
    s.replayFrom p (x.replay.dropWhile fun f => f.1 != lseq))

/-- LINK_ACK_TIMER (R273): 100 ns from an accepted frame. -/
def execLinkAckTimer (p : Nat) (s : State) : Host.Outcome State Fault Refusal :=
  portRow p (match (s.portAt p).ackBy with
    | some t => if t ≤ s.time.localNow then s.linkAck p else s
    | none => s)

/-- LINK_REPLAY_TIMEOUT (R273): 500 ns without a LINK_ACK. -/
def execLinkReplayTimeout (p : Nat) (s : State) : Host.Outcome State Fault Refusal :=
  portRow p (
    let x := s.portAt p
    if !x.replay.isEmpty && decide (x.oldestAt + 500 ≤ s.time.localNow) then s.replayFrom p x.replay else s)

/-- RETRAIN_LIMIT_EXPIRY (R267): 1 ms without success. -/
def execRetrainLimitExpiry (p : Nat) (s : State) : Host.Outcome State Fault Refusal :=
  portRow p (
    let x := s.portAt p
    if x.state = .retraining ∧ x.retrainStart + 1000000 ≤ s.time.localNow then s.portToDown p else s)

/-- PORT_RETRAIN_COMPLETE (R273): back to UP, or to LOW_RATE in Doze. -/
def execPortRetrainComplete (p : Nat) (s : State) : Host.Outcome State Fault Refusal :=
  portRow p (
    let x := s.portAt p
    if x.state = .retraining then
      let st : PortState := if s.power.state = .doze ∧ !s.power.exiting then .lowRate else .up
      ((s.setPort p { x with state := st, light := true, replays := 0, oldestAt := s.time.localNow, pausedAt := none }).refreshLevel).kick p
    else s)

/-- SWITCH_RECEIVE (R264, R265): the new map, once the named stripe units have arrived. -/
def execSwitchReceive (p : Nat) (map : BitVec 9) (units : Byte) (s : State) : Host.Outcome State Fault Refusal :=
  portRow p (
    let x := s.portAt p
    if x.state = .up ∨ x.state = .lowRate then (s.setPort p { x with switching := some (map, units.toNat) }).passUnits p 0 else s)

/-- WAVELENGTH_FAILURE (R265): exchanged with the spare, or out of the map. -/
def execWavelengthFailure (p wl : Nat) (s : State) : Host.Outcome State Fault Refusal :=
  if wl ≥ 9 then .fault .noSuchUnit
  else portRow p (
    let x := s.portAt p
    if x.map.getLsbD wl then (s.dropWavelength p wl).kick p
    else if x.failedWl.contains wl then s
    else s.setPort p { x with failedWl := wl :: x.failedWl })

/-- The replay timer stands still from now on (R266). -/
def Port.pause (p : Port) (now : Nat) : Port := { p with pausedAt := some (p.pausedAt.getD now) }
/-- The replay timer goes on once neither a failover nor a loss of light pauses it (R266). -/
def Port.goOn (p : Port) (now : Nat) : Port :=
  if p.failover || !p.light then p
  else match p.pausedAt with
    | some t => { p with oldestAt := p.oldestAt + (now - t), pausedAt := none }
    | none => p

/-- LASER_BANK_FAILURE (R266): the standby bank is lit, or with none usable the port is DOWN; on a DOWN port the failure is
kept. -/
def execLaserBankFailure (p : Nat) (s : State) : Host.Outcome State Fault Refusal :=
  portRow p (
    let x := s.portAt p
    if x.standbyOk && !x.failover then
      if x.state = .down then s.setPort p { x with standbyOk := false, bankB := !x.bankB }
      else s.setPort p ({ x with failover := true, standbyOk := false, sending := none }.pause s.time.localNow)
    else (s.setPort p { x with standbyOk := false, noBank := true }).portToDown p)

/-- LASER_FAILOVER_COMPLETE (R266). -/
def execLaserFailoverComplete (p : Nat) (s : State) : Host.Outcome State Fault Refusal :=
  portRow p (
    let x := s.portAt p
    if x.failover then
      ((s.setPort p ({ x with failover := false, bankB := !x.bankB }.goOn s.time.localNow)).setFlag (Flag.laserFailover p)).kick p
    else s)

/-- LOSS_OF_LIGHT (R266). -/
def execLossOfLight (p : Nat) (s : State) : Host.Outcome State Fault Refusal :=
  portRow p (
    let x := s.portAt p
    if x.light then s.setPort p ({ x with light := false, lightLostAt := s.time.localNow, sending := none }.pause s.time.localNow) else s)

/-- LIGHT_RETURN (R266): within 25 µs. -/
def execLightReturn (p : Nat) (s : State) : Host.Outcome State Fault Refusal :=
  portRow p (
    let x := s.portAt p
    if !x.light ∧ x.state ≠ .retraining then (s.setPort p ({ x with light := true }.goOn s.time.localNow)).kick p else s)

/-- LOSS_OF_LIGHT_EXPIRY (R273): light lost for more than 25 µs. -/
def execLossOfLightExpiry (p : Nat) (s : State) : Host.Outcome State Fault Refusal :=
  portRow p (
    let x := s.portAt p
    if !x.light ∧ x.lightLostAt + 25000 < s.time.localNow then s.startRetrain p else s)

/-- WAKE_REQUEST_RECEIVE (R500, R503, R505): latched in Doze, answered with RESUMED in Run and Hold. -/
def execWakeRequestReceive (p : Nat) (_node : BitVec 10) (s : State) : Host.Outcome State Fault Refusal :=
  portRow p (
    if s.power.state = .doze then s.modPower fun w => { w with portWake := true }
    else if s.awake then
      let s := if s.enteringDoze then s.metWake 1 else s
      s.control p ctlWake (wakeBlock 2 s.nodeNo)
    else s)

/-- RESUMED_RECEIVE (R503): the partner has returned to service. -/
def execResumedReceive (p : Nat) (_node : BitVec 10) (s : State) : Host.Outcome State Fault Refusal :=
  portRow p ((s.modPort p fun x => { x with partnerLowRate := false }).kick p)

/-- ENTERING_LOW_RATE_RECEIVE (R503): no data frame goes to the partner until it resumes. -/
def execEnteringLowRateReceive (p : Nat) (_node : BitVec 10) (s : State) : Host.Outcome State Fault Refusal :=
  portRow p (s.modPort p fun x => { x with partnerLowRate := true })

/-! ## Scheduling (R324–R336) -/

/-- FRAME_TRANSMIT_END (R330). -/
def execFrameTransmitEnd (p : Nat) (s : State) : Host.Outcome State Fault Refusal :=
  portRow p ((s.modPort p fun x => { x with sending := none }).kick p)

/-- SHAPER_TOKEN_ACCRUAL (R328): the tokens of a tenant's class reach what a head frame needs. -/
def execShaperTokenAccrual (_tid _cls p : Nat) (s : State) : Host.Outcome State Fault Refusal := portRow p (s.kick p)

/-- GATE_ENTRY_CHANGE (R332): the entry in force at this count. -/
def execGateEntryChange (p : Nat) (s : State) : Host.Outcome State Fault Refusal :=
  portRow p (
    let x := s.portAt p
    if x.gates.isEmpty || !s.awake then s
    else (s.setPort p { x with gateEntry := (gateWalk x.gates ((s.time.now - x.gateStart).toNat % gateCycle x.gates) 0).1 }).kick p)

/-- When a standby list becomes active: at GATE_BASE, or at the old list's first cycle boundary from then on, which is the
next one where GATE_BASE had passed when GATE_SET came (R332). -/
def Port.switchAt (x : Port) (base : W64) : W64 :=
  if x.gates.isEmpty then base
  else if base ≤ x.gateStart then x.gateStart
  else
    let c := gateCycle x.gates
    x.gateStart + BitVec.ofNat 64 (((base - x.gateStart).toNat + c - 1) / c * c)

/-- GATE_LIST_SWITCH (R332). -/
def execGateListSwitch (p : Nat) (s : State) : Host.Outcome State Fault Refusal :=
  portRow p (
    let x := s.portAt p
    match x.standby with
    | none => s
    | some (g, base) =>
      let at' := x.switchAt base
      if at' ≤ s.time.now ∧ s.awake then
        ((s.setPort p { x with gates := g, gateStart := at', gateEntry := 0, standby := none }).setFlag (Flag.gateSwitched p)).kick p
      else s)

/-! ## Telemetry (R334–R336) -/

def sat32 (n : Nat) : Nat := min 0xFFFFFFFF n

/-- The record of one queue at a boundary (R335). -/
def State.teleRecord (s : State) (port : Nat) (x : Port) (key : Nat) (phase : Bool) (t : W64) : List Byte :=
  let cls := key / 4096
  let tid := key % 4096
  let mine := x.queue.filter fun f => queueKey f.cls f.tid == key
  let sh := s.shaper tid cls
  let head := match x.headFrame key with
    | some f => s.time.localNow - f.queuedAt
    | none => 0
  let tag := tid + 4096 * ((tget s.tenants tid).getD {}).gen
  toLe 8 t.toNat ++ toLe 1 port ++ toLe 1 (cls + if phase then 128 else 0) ++ toLe 2 tag ++
  toLe 4 (sat32 (mine.map x.shaped).sum) ++ toLe 4 (sat32 (tnum x.framesSent key)) ++ toLe 4 (sat32 head) ++
  toLe 4 (sat32 (tnum x.maxDelay key)) ++ toLe 4 (if sh.enable then sh.milli / 1000 else 0xFFFFFFFF)

/-- Writes one record into the telemetry ring, or drops it while the ring is full (R336). -/
def State.writeTele (s : State) (port : Nat) (x : Port) (key : Nat) (t : W64) : State :=
  let y := s.flyer.tele
  if y.written ≥ y.readPos + y.records then
    (s.modFlyer fun f => { f with tele := { y with dropped := y.dropped + 1 } }).setFlag (Flag.ringOverflow port)
  else
    let b := s.teleRecord port x key (decide (y.written / y.records % 2 = 0)) t
    let s := { s with mem := s.mem.areaWrite y.area (y.written % y.records * 32) b }
    s.modFlyer fun f => { f with tele := { y with written := y.written + 1 } }

/-- The queues of a port that held a frame during the period, as settings select them. -/
def Telemetry.selects (y : Telemetry) (port : Nat) (x : Port) : List Nat :=
  if !bit port y.portMask then []
  else
    let keys := (x.queue.map (fun f => queueKey f.cls f.tid) ++ x.framesSent.map (·.1)).eraseDups
    sortBy (fun a b => decide (a < b)) (keys.filter fun k => bit (k / 4096) y.classMask && (y.tenants.isEmpty || y.tenants.contains (k % 4096)))

/-- SAMPLE_PERIOD_BOUNDARY (R334): records in ascending port, class and tenant order; the period's counts start anew. -/
def execSamplePeriodBoundary (s : State) : Host.Outcome State Fault Refusal :=
  let y := s.flyer.tele
  if y.period = 0 ∨ s.time.now < y.next ∨ !s.awake then .next s
  else
    let s := (List.range portCount).foldl (fun s p =>
      let x := s.portAt p
      (y.selects p x).foldl (fun s k => s.writeTele p x k y.next) s) s
    let s := (List.range portCount).foldl (fun s p => s.modPort p fun x => { x with framesSent := [], maxDelay := [] }) s
    .next (s.modFlyer fun f => { f with tele := { f.tele with next := y.next + BitVec.ofNat 64 (y.period * 1000) } })

end Sys2Proof.Machine
end

