-- ==== Sys2Proof/Machine/CmdFlyer.lean ====
section
/-!
DEFINITION. Flyer commands (R408, R409): connections, receive queues, regions, ports, shapers and gates.
-/
namespace Sys2Proof.Machine

/-! ## Connections -/

/-- The four PATH fields at a PARAMS offset. -/
def pathWords (x : Ctx) (off : Nat) : List Nat := (List.range 4).map fun i => x.p (off + 2 * i) 2

/-- The valid paths, which come first and of which there is at least one (R409). -/
def pathsOf (ws : List Nat) : Option (List (Nat × Nat)) :=
  let v := ws.takeWhile (bit 15)
  if v.isEmpty || (ws.drop v.length).any (bit 15) then none else some (v.map fun w => (bits 14 13 w, bits 11 0 w))

/-- CONN_CREATE (R281, R327, R409). -/
def cmdConnCreate (x : Ctx) (s : State) : CmdM := do
  let paths ← found St.invalidMode (pathsOf (pathWords x 8))
  let peer := x.p 0 2
  let sess := x.p 2 2
  let cls := x.p 16 1
  let retry := x.p 18 1
  let depth := x.p 20 2
  let rx := x.p 22 2
  let srq := x.p 24 2
  let ack := x.p 28 2
  let ses ← found St.staleHandle (tget s.flyer.sessions sess)
  req (ses.peer == peer) St.staleHandle
  req (srq == 0xFFFF || (s.srqFor x.tag srq).isSome) St.staleHandle
  let _ ← found St.staleHandle (s.cqFor x.tag (x.p 26 2))
  inRange (decide (peer ≤ 1023)) 0
  inRange (decide (cls ≤ 7)) 16
  inRange (decide (retry ≤ 15)) 18
  inRange (pow2In 16 4096 depth) 20
  inRange (decide (1 ≤ rx ∧ rx ≤ 1024)) 22
  inRange (ack == 0 || decide (10 ≤ ack ∧ ack ≤ 10000)) 28
  req (s.shaper (tidOf x.tag) cls).permitted St.notPermitted
  let n := rx + slotsFor (depth * 64)
  within 0 (need (!s.overQuota x.tag qConn 1) St.quotaExceeded)
  within n (s.dramNeed x.tag n)
  let (i, pool) ← found St.noResource (s.flyer.connPool.take 262144)
  let (a, w, s1) ← x.ring s (depth * 64)
  let (rxArea, s2) ← within n (s1.takeSlabs x.tag rx)
  let handle := rcHandle (pool.gen i) i
  let k : Conn :=
    { handle, tenant := x.tag, sess, peerNode := peer, peerConn := x.p32 4, paths, cls, stopOnError := bit 0 (x.p 17 1),
      retryLimit := if retry = 0 then 7 else retry, sqDepth := depth, rxBuffer := rx,
      srq := if srq = 0xFFFF then none else some srq, cq := x.p 26 2, ackTimeout := if ack = 0 then 50 else ack, area := a, rxArea }
  return .done ((s2.charge x.tag qConn 1).modFlyer fun f => { f with conns := tset f.conns i k, connPool := pool })
    (toLe 4 handle.toNat ++ zeros 4 ++ toLe 8 w)

/-- The connection that a command names in its first PARAMS field. -/
def Ctx.conn (x : Ctx) (s : State) : Except CmdErr (Nat × Conn) := found St.staleHandle (s.connFor x.tag (x.p32 0))

/-- CONN_MODIFY (R408). -/
def cmdConnModify (x : Ctx) (s : State) : CmdM := do
  let what := x.p 4 1
  let paths := pathsOf (pathWords x 8)
  mode (!bit 0 what || paths.isSome)
  let (i, k) ← x.conn s
  req (k.state != .error) St.wrongState
  req (!bit 1 what || k.peerConn == 0) St.wrongState
  let s := if bit 1 what then s.modConn i fun k => { k with peerConn := x.p32 16 } else s
  let s := if bit 0 what then s.modConn i fun k => { k with paths := paths.getD k.paths, nextPath := 0 } else s
  return .done s []

/-- CONN_DRAIN (R282). -/
def cmdConnDrain (x : Ctx) (s : State) : CmdM := do
  let (i, k) ← x.conn s
  req (k.state == .ready) St.wrongState
  return .wait ((s.modConn i fun k => { k with state := .draining, drainWaiters := k.drainWaiters ++ [x.c.ref] }).settle i)

/-- CONN_DESTROY (R408): what is unsent is cancelled; the connection is freed once what was sent has completed. -/
def cmdConnDestroy (x : Ctx) (s : State) : CmdM := do
  let (i, k) ← x.conn s
  req k.destroyWaiter.isNone St.wrongState
  let s := s.modConn i fun k => { k with sq := [], wait := none, cancelNext := 0, destroyWaiter := some x.c.ref }
  let s := match k.wait with
    | some w => s.endWaitSq i w St.cancelled false
    | none => s
  let s := k.sq.foldl (fun s e => s.endUnsent i k e St.cancelled) s
  return .wait (s.settle i)

/-! ## Receive queues and regions -/

/-- SRQ_CREATE (R302). -/
def cmdSrqCreate (x : Ctx) (s : State) : CmdM := do
  let n := x.p 0 4
  inRange (decide (16 ≤ n ∧ n ≤ 65536)) 0
  let (a, w, s1) ← x.ring s (n * 16)
  let (i, s1) ← found St.noResource (s1.pick s.flyer.srqs 16384)
  return .done (s1.modFlyer fun f => { f with srqs := tset f.srqs i { tenant := x.tag, entries := n, area := a } })
    (toLe 2 i ++ zeros 6 ++ toLe 8 w)

/-- SRQ_DESTROY (R408). -/
def cmdSrqDestroy (x : Ctx) (s : State) : CmdM := do
  let i := x.p 0 2
  let q ← found St.staleHandle (s.srqFor x.tag i)
  req (!s.flyer.conns.any fun c => c.2.srq == some i) St.rangeInUse
  return .done (((s.dropArea q.area).credit x.tag qDram q.area.length).modFlyer fun f => { f with srqs := tdel f.srqs i }) []

/-- Rights that a kind of region allows (R284). -/
def kindRights (kind : Nat) : Nat := if kind = 1 then 0x7 else if kind = 2 then 0x9 else 0x5

/-- REGION_REGISTER (R284). -/
def cmdRegionRegister (x : Ctx) (s : State) : CmdM := do
  let kind := x.p 0 1
  let rights := x.p 1 1
  let len := x.p 8 8
  mode (decide (1 ≤ kind ∧ kind ≤ 3) && rights ||| kindRights kind == kindRights kind)
  req (kind == 1 || (s.skeinFor x.tag (x.p32 4)).isSome) St.staleHandle
  inRange (kind != 1 || (decide (65536 ≤ len ∧ len ≤ 2 ^ 32) && len % 65536 == 0)) 8
  within 0 (need (!s.overQuota x.tag qRegion 1) St.quotaExceeded)
  let (a, w, s1) ← if kind = 1 then x.ring s len else pure ([], 0, s)
  let (i, pool) ← found St.noResource (s.flyer.regionPool.take 1048576)
  let key := regionKey (pool.gen i) i
  let r : Region := { kind, rights, tenant := x.tag, key, skein := x.p32 4, length := len, area := a }
  return .done ((s1.charge x.tag qRegion 1).modFlyer fun f => { f with regions := tset f.regions i r, regionPool := pool })
    (toLe 4 key.toNat ++ zeros 4 ++ toLe 8 w)

/-- Ends a region: its generation advances at once and its charges go back; its slabs leave the window and are freed under
R48 (R286). -/
def State.endRegion (s : State) (i : Nat) (r : Region) : State :=
  let s := { s with cxl := { s.cxl with slabs := s.cxl.slabs.filter fun b => r.area.isEmpty || b.area != r.area } }
  let s := r.area.foldl (fun s p => s.leaveSlot 1 p 4194304) s
  let s := (s.credit r.tenant qDram r.area.length).credit r.tenant qRegion 1
  s.modFlyer fun f => { f with regions := tdel f.regions i, regionPool := (f.regionPool.bump 255 i).put i }

/-- REGION_DEREGISTER (R286). -/
def cmdRegionDeregister (x : Ctx) (s : State) : CmdM := do
  let key := x.p32 0
  let r ← found St.staleKey (s.regionFor x.tag key)
  return .done (s.endRegion (keyIndex key) r) []

/-! ## Ports, shapers and gates -/

/-- LINK_SPARE (R265, R455): a planned exchange, agreed by SWITCH. -/
def cmdLinkSpare (x : Ctx) (s : State) : CmdM := do
  let p := x.p 0 1
  let wl := x.p 1 1
  inRange (decide (p < portCount)) 0
  inRange (decide (wl ≤ 8)) 1
  let y := s.portAt p
  req (y.state == .up && y.map.getLsbD wl) St.wrongState
  req (y.spare.isSome && s.budgetLeft kWavelength (p * 9 + wl)) St.noResource
  return .done (s.dropWavelength p wl) []

/-- PORT_CONFIGURE (R326, R330). -/
def cmdPortConfigure (x : Ctx) (s : State) : CmdM := do
  let p := x.p 0 1
  inRange (decide (p < portCount)) 0
  let qs := (List.range 7).map fun i => x.p (4 + 4 * i) 4
  inRange (qs.all fun q => q == 0 || decide (9472 ≤ q ∧ q ≤ 1048576)) 4
  return .done (s.modPort p fun y =>
    { y with overhead := x.p 1 1, quantum := (y.quantum.zip qs).map fun q => if q.2 = 0 then q.1 else q.2 }) []

/-- SHAPER_SET (R327, R328): the present tokens stay, capped at the new BURST. -/
def cmdShaperSet (x : Ctx) (s : State) : CmdM := do
  let cls := x.p 0 1
  let weight := x.p 2 1
  let rate := x.p 4 4
  let burst := x.p 8 4
  inRange (decide (cls ≤ 7)) 0
  inRange (decide (1 ≤ weight)) 2
  inRange (decide (1 ≤ rate ∧ rate ≤ 1600000)) 4
  inRange (decide (16 ≤ burst ∧ burst ≤ 16384)) 8
  let tid := tidOf x.tag
  let old := s.shaper tid cls
  let sh := { old with enable := bit 0 (x.p 1 1), permitted := bit 1 (x.p 1 1), rate, burst := burst * 1024, weight,
                       milli := min old.milli (burst * 1024 * 1000) }
  return .done ((s.modFlyer fun f => { f with shapers := tset f.shapers (tid * 8 + cls) sh }).kickAll) []

/-- The 32 entries of a gate list as its buffer holds them (R331). -/
def gateWords (bs : List Byte) : List Nat := (List.range 32).map fun i => field bs (8 * i) 8
/-- The entries of a gate list up to the one with DURATION 0 (R331). -/
def gateEntries (bs : List Byte) : List Nat := (gateWords bs).takeWhile fun w => bits 34 8 w != 0

/-- The shortest open run of a class in 10 ns units; none where it never closes or never opens (R333). -/
def shortestRun (g : List Gate) (c : Nat) : Option Nat :=
  if g.all (gateOpen c) then none
  else
    let starts := (List.range g.length).filter fun i => gateOpen c (g.getD i (0, 0)) && !gateOpen c (g.getD ((i + g.length - 1) % g.length) (0, 0))
    let runs := starts.map fun i => (((gateFrom g i).takeWhile (gateOpen c)).map (·.1)).sum
    runs.foldl (fun (a : Option Nat) r => match a with
      | none => some r
      | some b => some (min b r)) none

/-- From when a standby list waits for its boundary: an active list is left at a boundary still to come, by an empty list at
the next one (R332). -/
def Port.switchFrom (y : Port) (g : List Gate) (now base : W64) : W64 :=
  if g.isEmpty then now else if y.gates.isEmpty ∨ now ≤ base then base else now

/-- GATE_SET (R331–R333). -/
def cmdGateSet (x : Ctx) (s : State) : CmdM := do
  let p := x.p 0 1
  if x.c.dataLen ≠ 256 then .error (St.lengthRange, 12, 0)
  let ws := gateEntries (x.data s)
  req ((gateWords (x.data s)).all fun w => bits 63 35 w == 0) St.reservedNonzero
  inRange (decide (p < portCount)) 0
  let g : List Gate := ws.map fun w => (bits 34 8 w, BitVec.ofNat 8 w)
  req (g.all fun e => decide (e.1 ≤ 100000000)) St.lengthRange
  req (decide ((g.map (·.1)).sum ≤ 100000000)) St.lengthRange
  req ((List.range 8).all fun c => match shortestRun g c with
    | some r => decide (3 ≤ r)
    | none => true) St.lengthRange
  return .done (s.modPort p fun y => { y with standby := some (g, y.switchFrom g s.time.now (BitVec.ofNat 64 (x.p 8 8))) }) []

/-! ## Rows -/

/-- CONN_CREATE (R281, R409). -/
def execConnCreate (m slot : Nat) (s : State) : Host.Outcome State Fault Refusal := cmdRow 0x0600 cmdConnCreate m slot s
/-- CONN_MODIFY (R408). -/
def execConnModify (m slot : Nat) (s : State) : Host.Outcome State Fault Refusal := cmdRow 0x0601 cmdConnModify m slot s
/-- CONN_DRAIN (R282, R408). -/
def execConnDrain (m slot : Nat) (s : State) : Host.Outcome State Fault Refusal := cmdRow 0x0602 cmdConnDrain m slot s
/-- CONN_DESTROY (R408). -/
def execConnDestroy (m slot : Nat) (s : State) : Host.Outcome State Fault Refusal := cmdRow 0x0603 cmdConnDestroy m slot s
/-- SRQ_CREATE (R302, R408). -/
def execSrqCreate (m slot : Nat) (s : State) : Host.Outcome State Fault Refusal := cmdRow 0x0604 cmdSrqCreate m slot s
/-- SRQ_DESTROY (R408). -/
def execSrqDestroy (m slot : Nat) (s : State) : Host.Outcome State Fault Refusal := cmdRow 0x0605 cmdSrqDestroy m slot s
/-- REGION_REGISTER (R284, R408). -/
def execRegionRegister (m slot : Nat) (s : State) : Host.Outcome State Fault Refusal := cmdRow 0x0606 cmdRegionRegister m slot s
/-- REGION_DEREGISTER (R286, R408). -/
def execRegionDeregister (m slot : Nat) (s : State) : Host.Outcome State Fault Refusal := cmdRow 0x0607 cmdRegionDeregister m slot s
/-- LINK_SPARE (R265, R408). -/
def execLinkSpare (m slot : Nat) (s : State) : Host.Outcome State Fault Refusal := cmdRow 0x0608 cmdLinkSpare m slot s
/-- PORT_CONFIGURE (R408). -/
def execPortConfigure (m slot : Nat) (s : State) : Host.Outcome State Fault Refusal := cmdRow 0x0609 cmdPortConfigure m slot s
/-- SHAPER_SET (R327, R408). -/
def execShaperSet (m slot : Nat) (s : State) : Host.Outcome State Fault Refusal := cmdRow 0x060A cmdShaperSet m slot s
/-- GATE_SET (R332, R333, R408). -/
def execGateSet (m slot : Nat) (s : State) : Host.Outcome State Fault Refusal := cmdRow 0x060B cmdGateSet m slot s

end Sys2Proof.Machine
end

