-- ==== Sys2Proof/Machine/FirmwareOps.lean ====
section
/-!
DEFINITION. Marorvo images (R421), their verification (R422), the fuses that a first start burns, and the rings of
mailbox 0 after a start (R377).
-/
namespace Sys2Proof.Machine

/-- 64 MiB, and the bytes of an image outside its body (R421). -/
def imageMax : Nat := 67108864
def imageFrame : Nat := 128 + 192 + 96 + 3284

def imgKind (i : List Byte) : Nat := field i 5 1
def imgKey (i : List Byte) : Nat := field i 6 1
def imgRevoke (i : List Byte) : Nat := field i 7 1
def imgVersion (i : List Byte) : W32 := BitVec.ofNat 32 (field i 8 4)
def imgSvn (i : List Byte) : W32 := BitVec.ofNat 32 (field i 12 4)
def imgBodyLen (i : List Byte) : Nat := field i 16 4
def imgRma (i : List Byte) : Bool := bit 0 (field i 20 1)
/-- Header, key block and body: the signed message. -/
def imgSigned (i : List Byte) : List Byte := i.take (320 + imgBodyLen i)
/-- The firmware digest (R421). -/
def imgDigest (i : List Byte) : List Byte := sha384 (imgSigned i)

/-- SVN_FLOOR (R420): the last record that is not zero. -/
def Sec.floor (x : Sec) : W32 := ((x.svnRecords.filter (· != 0)).getLast?).getD 0

/-- Step 1 of R422. -/
def imgShape (kind : Nat) (i : List Byte) : Bool :=
  field i 0 4 == 0x474D564D && field i 4 1 == 1 && imgKind i == kind && decide (imgKey i ≤ 3) &&
  decide (imgRevoke i < 16) && !bit (imgKey i) (imgRevoke i) && decide (field i 20 1 < 2) &&
  (i.drop 21).take 11 == zeros 11 && (i.drop 80).take 48 == zeros 48 &&
  decide (1 ≤ imgBodyLen i ∧ imgBodyLen i ≤ 67105164) && i.length == imageFrame + imgBodyLen i

/-- The verification of R422: ST_OK, ST_SIGNATURE_INVALID or ST_ROLLBACK. -/
def verifyImage (x : Sec) (kind : Nat) (i : List Byte) : Nat :=
  let keyBlock := (i.drop 128).take 192
  let body := (i.drop 320).take (imgBodyLen i)
  let sigs := i.drop (320 + imgBodyLen i)
  if !(imgShape kind i && !x.revoked.getLsbD (imgKey i) && sha384 keyBlock == Config.vendorKeyDigest (imgKey i) &&
       sha384 body == (i.drop 32).take 48 && Config.ecdsaVerify keyBlock (imgDigest i) (sigs.take 96) &&
       Config.hssVerify keyBlock (imgSigned i) (sigs.drop 96)) then St.signatureInvalid
  else if imgSvn i < x.floor then St.rollback else St.ok

/-- The first successful start of an image burns its REVOKE_MASK and ENTER_RMA (R422, R420). -/
def Sec.burn (x : Sec) (i : List Byte) : Sec :=
  { x with revoked := x.revoked ||| BitVec.ofNat 4 (imgRevoke i), lifecycle := if imgRma i then x.lifecycle ||| 3 else x.lifecycle }

/-- The image that runs (R527). -/
def State.runImage (s : State) (i : List Byte) : State :=
  { s with boot := { s.boot with version := imgVersion i, svn := imgSvn i, digest := imgDigest i }, sec := s.sec.burn i }

/-- Mailbox 0 ACTIVE at DEPTH 64: its submission ring at queue-window offset 0 and its completion ring at 0x2000 of the
administrative LD (R374, R377). -/
def State.openBox0 (s : State) : State :=
  match s.takeSlots 1 with
  | none => s
  | some (a, s) =>
    let slab : Slab := { mb := 0, woff := 0, area := a, tenant := none }
    let s := { s with cxl := { s.cxl with slabs := s.cxl.slabs ++ [slab] } }
    let old := s.mbox 0
    s.setMbox 0 { state := .active, depth := 64, events := true, ld := some s.cfg.adminLd, sqArea := a, cqArea := a, cqBase := 0x2000,
                  ring := old.ring, evWritten := old.evWritten, evRead := old.evRead, eventHead := old.eventHead }

end Sys2Proof.Machine
end

