-- ==== Sys2Proof/Machine/Shutdown.lean ====
section
/-!
DEFINITION. What outlives a loss of DRAM (R498, R514, R519): the generation record (R515), the map checkpoint (R250),
the hold-up flush (R260), and the entry to Standby (R498).
-/
namespace Sys2Proof.Machine

/-! ## What the creel keeps -/

/-- The generations of every index, with the indices whose object is live (R515). -/
def State.genRecord (s : State) : GenRecord :=
  { skeins := s.store.skeinPool.gens, runs := s.pfx.runPool.gens, conns := s.flyer.connPool.gens,
    regions := s.flyer.regionPool.gens, trigs := s.work.trigPool.gens,
    liveSkeins := (s.store.skeins.filter fun k => k.2.state != .retiring).map (·.1), liveRuns := s.pfx.runs.map (·.1),
    liveConns := s.flyer.conns.map (·.1), liveRegions := s.flyer.regions.map (·.1), liveTrigs := s.work.entries.map (·.1) }

/-- Bytes of a generation record (R515). -/
def genRecordBytes : Nat := 8781824

/-- Bytes of a map checkpoint: the entries of logical and of physical blocks, and 8 bytes for each live page (R250; log 81). -/
def Creel.mapBytes (c : Creel) : Nat := 8 * lbCount + 8 * (dataBlocks + systemBlocks) + 8 * c.pages.length

/-- The blocks into which writes are being placed, with their first unprogrammed pages (R251). -/
def Creel.openBlocks (c : Creel) : Table Nat :=
  let dests := (c.blocks.filter fun b => match b.2 with
    | .mergeDest _ => true
    | _ => false).map (·.1)
  ((c.bufferBlocks ++ c.recordBlocks).filter fun b => decide (c.fill b < slcPages)).map (fun b => (b, c.fill b)) ++
    (c.logBlocks ++ dests).map fun b => (b, c.fill b)

/-- Writes the older copy of the generation record and of the map checkpoint anew, then the CLEAN mark as the next page (R250,
R251, R515). -/
def State.checkpoint (s : State) : State :=
  let g := s.genRecord
  s.modCreel fun c =>
    let copy := c.nextCopy
    let c := (c.writeArea (.generations copy) .system (flashPages genRecordBytes)).writeArea (.map copy) .checkpoint (flashPages c.mapBytes)
    let n := c.sequence
    { c.program (c.sysBlock ((SysArea.map copy).blocks.getD (flashPages c.mapBytes / slcPages) 0)) .checkpoint 0 0 0 with
      checkpoints := tset c.checkpoints copy { counter := n, opens := c.openBlocks }, nextCopy := 1 - copy
      genBefore := c.genRecord, genRecord := some g, cleanMark := some n }

/-- Whether the CLEAN mark is valid: it records the value of a checkpoint, and no block that the checkpoint lists has been written
since (R251). -/
def Creel.clean (c : Creel) : Bool := match c.cleanMark with
  | some n => c.checkpoints.any fun k => k.2.counter == n && k.2.opens.all fun o => decide (c.fill o.1 ≤ o.2)
  | none => false

/-- Where a page of the flush goes: the die's block of the flush area, else its neighbour in the plane where that is erased, else the
next die's, past the blocks whose program has failed (R261). -/
def Creel.flushBlock (c : Creel) (first : Creel) (failed : List Nat) (page : Nat) : Option Nat :=
  let at' := fun (i : Nat) => c.sysBlock i
  let order := (List.range 256).flatMap fun d => let die := (page + d) % 256; [4 * die, 4 * die + 1]
  (order.map at').find? fun b => !failed.contains b && decide (c.fill b < slcPages) &&
    (decide ((b - dataBlocks) % 4 ≠ 1) || decide (first.fill b = 0))

/-- Programs one page of a flush, with the blocks whose program has failed: a page whose program fails goes on elsewhere, and may be
lost to the failure (R261; log 82). -/
def Creel.flushPage (first : Creel) (n : Nat) (a : List Nat × Creel) (page : Nat) : List Nat × Creel :=
  let fate := Config.flushFate n page
  let put := fun (c : Creel) (b : Option Nat) => match b with
    | some b => c.program b .flush page 0 0
    | none => { c with flushLost := c.flushLost ++ [page] }
  match fate, a.2.flushBlock first a.1 page with
  | 0, b => (a.1, put a.2 b)
  | f + 1, some b =>
    let failed := b :: a.1
    let c := put a.2 (a.2.flushBlock first failed page)
    (failed, if f = 0 then c else { c with flushLost := c.flushLost ++ [page] })
  | _ + 1, none => (a.1, put a.2 none)

/-- The unpersisted reel tails, each behind the one before it in the flush's bytes (R260). -/
def State.flushTails (s : State) : List FlushTail :=
  let tails := s.store.skeins.filter fun k => decide (k.2.tailBytes > 0) && k.2.state != .retiring
  (tails.foldl (fun (a : Nat × List FlushTail) k =>
    (a.1 + k.2.tailBytes, a.2 ++ [{ idx := k.1, start := a.1, ids := (k.2.reel.filter fun e => decide (e.1 ≥ k.2.persisted)).map (·.1) }])) (0, [])).2

/-- The hold-up flush: the generation record, every unpersisted reel tail and a final page go to the flush area, and no
checkpoint is written (R260, R261). The next start moves the tails into reel segments. -/
def State.flush (s : State) : State :=
  let g := s.genRecord
  let tails := s.flushTails
  let pages := flashPages genRecordBytes + flashPages s.tailTotal
  let (n, s1) := s.free 65536
  s1.modCreel fun c =>
    let w := ((List.range (pages + 1)).foldl (fun a i => Creel.flushPage c n a i) ([], { c with flushLost := [] })).2
    { w with genBefore := c.genRecord, genRecord := some g, flushed := pages, flushTails := tails,
             reels := tails.foldl (fun t x => match s.skein? x.idx with
               | some k => tset t x.idx k.reel
               | none => t) c.reels,
             orphans := c.orphans ++ (s.store.skeins.filter fun k => k.2.state == SkState.active && !k.2.leaves.isEmpty &&
                (thas c.reels k.1 || tails.any fun x => x.idx == k.1)).map fun k => (k.2.handle, k.2.tenant) }

/-- A tenant as the tenant record holds it: no use but what the creel holds, and no volatile key (R514, R435). -/
def Tenant.kept (t : Tenant) : Tenant :=
  { t with use := (List.range 8).map fun k => if k = qCreel then t.use.getD qCreel 0 else 0, dramKey := false, lentKey := false,
           waiter := none, telePos := 0, lent := [] }

/-- Everything that DRAM, SRAM and the logic die held is lost; the creel, the tenants, the repair record and the island's
persistent records stay (R514, R519). -/
def State.lose (s : State) : State :=
  { pending := s.pending
    freeCount := s.freeCount
    out := s.out
    mem := s.mem.filter fun c => c.1 / 2 ^ 48 == 2
    time := s.time
    power := { s.power with inTransition := false, exiting := false, waiter := none, wakeLatched := false, portWake := false, frameCount := 0,
                            clock := 64, stackClock := List.replicate 8 64, capSet := 0, periodMs := 1, tempWake := 40, activityWake := 0 }
    boot := { image := s.boot.image, fromStandby := s.boot.fromStandby, standbyTarget := s.boot.standbyTarget, perstAsserted := s.boot.perstAsserted }
    tenants := s.tenants.map fun (t : Nat × Tenant) => (t.1, t.2.kept)
    store := { epoch := 0, creelUsed := s.store.creelUsed }
    creel := { s.creel with state := .offline }
    rel := { spindles := s.rel.spindles.map fun (p : Spindle) => { failed := p.failed }
             stackUnits := s.rel.stackUnits.map fun (k : Stack) => { vacant := k.vacant }
             chanMap := s.rel.chanMap, spareUsed := s.rel.spareUsed.filter fun p => !s.rel.copies.any fun c => c.2.1 == p
             expelled := s.rel.expelled, takenOut := s.rel.takenOut }
    sec := { s.sec with batch := none, waiting := [], lastOpen := none } }

/-! ## Stopping -/

/-- All work stops, the flush runs, and the module waits for a cold start (R260, R492, R508, R516). -/
def State.stop (s : State) : State :=
  let live := (s.boot.state == .ready || s.boot.state == .activating) && s.power.state != .standby
  let s := if live then s.flush else s
  let s := { s with boot := { s.boot with fromStandby := false, standbyTarget := .run } }
  (s.lose).modPower fun p => { p with stopped := true, state := .run, target := .run }

/-- The input is disconnected or gone (R492): cause 1 undervoltage, 2 overvoltage. -/
def State.cutPower (s : State) (cause : Nat) : State :=
  if s.power.off then s
  else ({ s.stop with side := {} }).modPower fun p =>
    { p with off := true, inBandSince := none, lossCause := if p.trip.isSome then p.lossCause else cause, inputCycled := true }

/-! ## Standby (R498) -/

/-- Every job and combine ends with ST_CANCELLED (R498 step 1). -/
def State.cancelAll (s : State) : State :=
  let s := s.work.jobs.foldl (fun s j => s.endJob j.1 j.2 St.cancelled 0 0) s
  s.work.combines.foldl (fun s c => s.releaseCombine c.1 St.cancelled) s

/-- Steps 2 and 3 for one skein: its resident bobbins become recompute-only, its reel and its record are written. -/
def State.standbySkein (s : State) (idx : Nat) : State :=
  match s.skein? idx with
  | none => s
  | some k =>
    if k.state = .retiring then s
    else
      let keys := (k.leaves.filter fun e => decide (e.2.tier ≤ 1)).map (·.1)
      let s := keys.foldl (fun s key => s.demote idx key) s
      match s.skein? idx with
      | none => s
      | some k =>
        let (s, k) := s.persistReel idx k
        let s := s.setSkein idx k
        s.writeRecord idx k

/-- Steps 1 to 3 of R498, after which DRAM may go. -/
def State.toCreel (s : State) : State :=
  let s := s.cancelAll
  ((s.store.skeins.map (·.1)).foldl State.standbySkein s).checkpoint

/-- Standby itself: mailbox 0 and the module block go on answering (R372, R498, R499). -/
def State.standby (s : State) : State :=
  let b := s.mbox 0
  let keep := s.cxl.slabs.filter fun x => x.mb == 0 && (x.area == b.sqArea || x.area == b.cqArea)
  let slots := b.sqArea ++ b.cqArea
  let mem := s.mem.filter fun c => c.1 / 2 ^ 48 == 2 || slots.any fun p => decide (slotAddr 1 p ≤ c.1 ∧ c.1 < slotAddr 1 p + slotBytes)
  let t := s.lose
  { t with
    mem
    boot := { s.boot with fetchHeld := false, live := none }
    cfg := s.cfg
    flags := s.flags
    counts := s.counts
    box := { s.box with boxes := [(0, b)], inflight := s.box.inflight.filter fun c => c.mb == 0
                        overflow := s.box.overflow.filter fun e => e.1 == 0, summaries := s.box.summaries.filter fun e => e.1 == 0 }
    store := { t.store with dramUsed := slots }
    cxl := { t.cxl with linkState := if s.cxl.flit256 ∧ 1 ≤ s.cxl.width then 3 else s.cxl.linkState,
                        width := if s.cxl.flit256 then min 1 s.cxl.width else s.cxl.width, rate := s.cxl.rate,
                        flit256 := s.cxl.flit256, ideMem := s.cxl.ideMem, trainedWidth := s.cxl.trainedWidth, trainedRate := s.cxl.trainedRate,
                        qos := s.cxl.qos, lds := s.cxl.lds, slabs := keep }
    side := s.side
    time := { s.time with holdover := true, slew := 0, exchanges := [] }
    sec := t.sec }

end Sys2Proof.Machine
end

