-- ==== Sys2Proof/Machine/CmdFw.lean ====
section
/-!
DEFINITION. Firmware (R417, R421–R423, R522–R524), attestation reports and their batches (R424–R430), the random source
(R419), and what becomes of commands when a bound passes or a control core restarts (R390, R391, R520).
-/
namespace Sys2Proof.Machine

def State.modBoot (s : State) (f : Boot → Boot) : State := { s with boot := f s.boot }
def State.modSec (s : State) (f : Sec → Sec) : State := { s with sec := f s.sec }

/-! ## Staging and activation -/

/-- FIRMWARE_STAGE (R417, R422): the last chunk verifies the image, and a failure discards the staging. -/
def cmdFirmwareStage (x : Ctx) (s : State) : CmdM := do
  let off := x.p 0 4
  let total := x.p 4 4
  let n := x.c.dataLen
  if 0 < n then .ok () else .error (St.lengthRange, 12, 0)
  inRange (decide (off = 0 ∨ off = s.boot.staging.length)) 0
  inRange (decide (n ≤ total ∧ off + n ≤ total ∧ total ≤ imageMax) && (off == 0 || total == s.boot.stagingTotal)) 4
  let bytes := (if off = 0 then [] else s.boot.staging) ++ x.data s
  let s := s.modBoot fun b => { b with staging := bytes, stagingTotal := total, staged := [], stagedValid := false }
  if bytes.length < total then return .done s (toLe 4 bytes.length)
  else
    let st := verifyImage s.sec 1 bytes
    let s := s.modBoot fun b => { b with staging := [], stagingTotal := 0 }
    if st = St.ok then
      return .done (s.modBoot fun b => { b with staged := bytes, stagedValid := true }) (toLe 4 bytes.length ++ toLe 4 (imgSvn bytes).toNat)
    else return .ended s st []

/-- The eight bytes by which an event names a digest. -/
def digestHead (d : List Byte) : Nat := ofLe (d.take 8)

/-- FIRMWARE_ACTIVATE (R512, R522, R524): the staged image replaces the single image in the creel; MODE 1 then holds
fetching until the handoff. -/
def cmdFirmwareActivate (readBackOk : Bool) (x : Ctx) (s : State) : CmdM := do
  let m := x.p 0 1
  mode (decide (m = 1 ∨ m = 2))
  req (s.boot.stagedValid && (m == 2 || s.boot.state == .ready)) St.wrongState
  let s := (s.modBoot fun b => { b with image := if readBackOk || m == 2 then b.staged else [] }).writeSystem .image s.boot.staged.length
  if m = 2 then return .done s []
  else if !readBackOk then
    return .ended (s.raise (Ev.firmwareActivated false) .module [digestHead s.boot.digest, digestHead (imgDigest s.boot.staged), St.internal])
      St.internal []
  else
    let l : Live := { waiter := x.c.ref, lastFetch := s.time.localNow, oldVersion := s.boot.version, oldSvn := s.boot.svn, oldDigest := s.boot.digest }
    return .wait (s.checkpoint.modBoot fun b => { b with live := some l, fetchHeld := true, state := .activating })

/-- Opcodes whose remaining work is done by hardware, and which a live activation does not wait for (R522). -/
def hardwareOpcodes : List Nat := [0x0700, 0x0703, 0x0800, 0x0801, 0x0802, 0x0803, 0x0902, 0x0A00]

/-- Whether the commands in flight have completed, but for those that hardware goes on with (R522). -/
def State.drained (s : State) (w : CmdRef) : Bool :=
  s.box.inflight.all fun c => c.ref == w || (c.committed && hardwareOpcodes.contains c.opcode)

/-- The end of a live activation: fetching resumes, the event is raised, and the response comes first (R522, R523). -/
def State.endLive (s : State) (l : Live) (ok : Bool) : State :=
  let s := s.modBoot fun b => { b with live := none, fetchHeld := false, state := .ready }
  let s := s.answer l.waiter (if ok then St.ok else St.internal) []
  let new := if ok then s.boot.digest else imgDigest s.boot.image
  (s.raise (Ev.firmwareActivated ok) .module [digestHead l.oldDigest, digestHead new, if ok then St.ok else St.internal]).fetchAll

/-- LIVE_ACTIVATION_HANDOFF (R522): the new firmware runs. -/
def execLiveActivationHandoff (s : State) : Host.Outcome State Fault Refusal :=
  match s.boot.live with
  | some l =>
    if s.drained l.waiter then .next (((s.runImage s.boot.image).modBoot fun b => { b with startKind := 4 }).endLive l true) else .next s
  | none => .next s

/-- LIVE_ACTIVATION_BUDGET_EXPIRY (R523): after 100 ms without fetching the old firmware runs again. -/
def execLiveActivationBudgetExpiry (s : State) : Host.Outcome State Fault Refusal :=
  match s.boot.live with
  | some l => if s.drained l.waiter ∧ l.lastFetch + 100000000 ≤ s.time.localNow then .next (s.endLive l false) else .next s
  | none => .next s

/-- FIRMWARE_INFO (R417). -/
def cmdFirmwareInfo (_ : Ctx) (s : State) : CmdM :=
  .ok (.done s (toLe 4 s.boot.version.toNat ++ toLe 4 s.boot.svn.toNat ++ padTo 8 s.boot.digest))

/-- SVN_COMMIT (R423). -/
def cmdSvnCommit (_ : Ctx) (s : State) : CmdM := do
  req (s.sec.floor != s.boot.svn) St.wrongState
  req (decide (s.sec.svnRecords.length < 64)) St.noResource
  return .done (s.modSec fun c => { c with svnRecords := c.svnRecords ++ [s.boot.svn] }) (toLe 4 s.boot.svn.toNat)

/-! ## Attestation reports (R428–R430) -/

/-- The configuration record (R429). -/
def State.configRecord (s : State) : List Byte :=
  let c := s.cfg
  let items := [c.nodeId.getD 0xFFFF, c.macPrefix.toNat, c.adminLd, c.tableSlots, c.marks, c.lentGib, c.orphanHold, c.keyRotation]
  let boxes := (List.range 1023).map fun m => BitVec.ofNat 8 ((s.mbox (m + 1)).ld.getD 0xFF)
  let lds := (List.range 16).flatMap fun d =>
    toLe 1 (if (s.ld d).tspLocked then 1 else 0) ++ (if (s.ld d).tspLocked then padTo 48 (s.ld d).lockedDigest else zeros 48)
  items.flatMap (toLe 8) ++ boxes ++ lds ++ toLe 1 c.auditK ++ toLe 1 c.suspectK ++ c.budgets.flatMap (toLe 4)

/-- A digest entry (R428). -/
def digestEntry (kind slot table version : Nat) (digest : List Byte) : List Byte :=
  toLe 1 kind ++ toLe 1 slot ++ toLe 2 table ++ toLe 4 version ++ zeros 8 ++ padTo 48 digest

/-- The entries of a view: a tenant's own slots and tables and the tier-engine image, or that image alone (R428). -/
def State.digestEntries (s : State) (tag : W16) : List (List Byte) :=
  let progs := fun (kind : Nat) (t : Table Prog) => (t.filter fun e => e.2.bound.contains tag).map fun e =>
    digestEntry kind e.1 0 e.2.version.toNat e.2.digest
  let tier := match s.images.tier with
    | some p => [digestEntry 3 0 0 p.version.toNat p.digest]
    | none => []
  let tables := fun (kind : Nat) => (s.images.tables.filter fun e => e.2.kind == kind && e.2.tenant == tag && !e.2.unloaded).map fun e =>
    digestEntry (3 + kind) 0 e.1 e.2.version.toNat e.2.digest
  if tag = 0 then tier else progs 1 s.images.score ++ progs 2 s.images.whorl ++ tier ++ tables 1 ++ tables 2

/-- A report body (R428). -/
def State.reportBody (s : State) (tag : W16) (nonce : List Byte) : List Byte :=
  let es := s.digestEntries tag
  toLe 4 0x54525441 ++ [1, if tag = 0 then 0 else 1] ++ toLe 2 es.length ++ toLe 4 (256 + 64 * es.length) ++
  toLe 2 (s.cfg.nodeId.getD 0xFFFF) ++ toLe 2 tag.toNat ++ padTo 32 nonce ++ toLe 8 s.time.now.toNat ++
  [Config.stepping, s.sec.lifecycle, 0, 0] ++ toLe 4 Config.bootRomVersion.toNat ++ toLe 4 s.boot.version.toNat ++
  toLe 4 s.boot.svn.toNat ++ toLe 4 s.sec.floor.toNat ++ zeros 4 ++ sha384 Config.certificateChains ++ padTo 48 s.boot.digest ++
  sha384 s.configRecord ++ zeros 32 ++ es.flatten

/-- Signatures that the HSS key gives (R424). -/
def hssLimit : Nat := 2 ^ 30
/-- Batches of one bottom tree (R424). -/
def bottomTree : Nat := 2 ^ 15

/-- DEPTH of R430. -/
def batchDepth (n : Nat) : Nat := if n ≤ 1 then 0 else Nat.log2 (n - 1) + 1

/-- One level up in the tree (R430). -/
def treeUp : List (List Byte) → List (List Byte)
  | a :: b :: rest => sha384 (1 :: a ++ b) :: treeUp rest
  | _ => []

/-- The root and the sibling path of a leaf. -/
def treePath : Nat → List (List Byte) → Nat → List Byte × List (List Byte)
  | 0, nodes, _ => (nodes.headD [], [])
  | d + 1, nodes, i =>
    let sib := nodes.getD (if i % 2 = 0 then i + 1 else i - 1) []
    let (root, path) := treePath d (treeUp nodes) (i / 2)
    (root, sib :: path)

/-- Signs the open batch with one index and completes its reports (R425, R426, R430); nothing while the next bottom tree
is not built. -/
def State.closeBatch (s : State) : State :=
  match s.sec.batch with
  | none => s
  | some (_, rs) =>
    let q := s.sec.hssNext
    if s.sec.hssStopped || (q % bottomTree == 0 && q != 0 && !s.sec.treeReady) then s
    else
      let n := rs.length
      let depth := batchDepth n
      let leaves := rs.map (fun r => sha384 (0 :: r.body)) ++ List.replicate (2 ^ depth - n) (sha384 [2])
      let now := s.time.now.toNat
      let root := (treePath depth leaves 0).1
      let msg := root ++ toLe 8 now ++ toLe 2 n ++ toLe 1 depth ++ zeros 5
      let sig := Config.hssSign q msg
      let left := hssLimit - (q + 1)
      let s := (s.writeLmsIndex (q + 1)).modSec fun c =>
        { c with hssNext := q + 1, batch := none, hssStopped := left == 0, lmsLow := decide (left < 2 ^ 26)
                 treeReady := if q % bottomTree = 0 && q != 0 then false else c.treeReady }
      let s := (indexed rs).foldl (fun s r =>
        let bs := r.1.body ++ r.1.sig ++ toLe 8 now ++ toLe 2 r.2 ++ toLe 2 n ++ toLe 1 depth ++ zeros 3 ++ root ++
          (treePath depth leaves r.2).2.flatten ++ sig
        let size := r.1.body.length + 3444 + 48 * depth
        if size > r.1.cap then s.answer r.1.waiter St.lengthRange []
        else (s.windowWrite r.1.ld r.1.out bs).answer r.1.waiter St.ok (toLe 4 size)) s
      let s := if left < 2 ^ 26 ∧ hssLimit - q ≥ 2 ^ 26 then s.raise Ev.lmsIndexLow .module [left] else s
      if left = 0 then s.raise Ev.attestSigningStopped .module [1] else s

/-- Reports that one batch takes (R426). -/
def batchMax : Nat := 1024

/-- Whether a window may open now: 250 ms after the last one opened (R426). -/
def State.mayOpen (s : State) : Bool :=
  s.sec.batch.isNone && match s.sec.lastOpen with
    | none => true
    | some t => decide (t + 250000000 ≤ s.time.localNow)

/-- Opens a window for the reports that wait, and closes it at once when it is full (R426). -/
def State.openBatch (s : State) : State :=
  if s.mayOpen && !s.sec.waiting.isEmpty then
    let s := s.modSec fun c => { c with batch := some (s.time.localNow, c.waiting.take batchMax), waiting := c.waiting.drop batchMax,
                                        lastOpen := some s.time.localNow }
    match s.sec.batch with
    | some (_, rs) => if rs.length ≥ batchMax then s.closeBatch else s
    | none => s
  else s

/-- ATTEST_REPORT (R426, R428): the body is formed and signed at once; the report joins a batch. -/
def cmdAttestReport (x : Ctx) (s : State) : CmdM := do
  req (x.tag == 0 || (s.tenant? x.tag).isSome) St.staleHandle
  let body := s.reportBody x.tag ((x.c.bytes.drop 24).take 32)
  if body.length + 3444 ≤ x.c.dataLen then .ok () else .error (St.lengthRange, 12, 0)
  req (!s.sec.hssStopped) St.noResource
  let r : Report := { waiter := x.c.ref, body, sig := padTo 96 (Config.ecdsaSign (sha384 body)), out := x.c.dataOff, cap := x.c.dataLen, ld := x.c.ld }
  match s.sec.batch with
  | some (t, rs) =>
    if rs.length < batchMax then
      let s := s.modSec fun c => { c with batch := some (t, rs ++ [r]) }
      return .wait (if rs.length + 1 ≥ batchMax then s.closeBatch else s)
    else return .wait (s.modSec fun c => { c with waiting := c.waiting ++ [r] })
  | none => return .wait (s.modSec fun c => { c with waiting := c.waiting ++ [r] }).openBatch

/-- BATCH_WINDOW_OPEN (R426): a window opens for reports that waited. -/
def execBatchWindowOpen (s : State) : Host.Outcome State Fault Refusal := .next s.openBatch

/-- BATCH_WINDOW_CLOSE (R426): 250 ms after it opened, or full. -/
def execBatchWindowClose (s : State) : Host.Outcome State Fault Refusal :=
  match s.sec.batch with
  | some (t, rs) => .next (if t + 250000000 ≤ s.time.localNow ∨ batchMax ≤ rs.length then s.closeBatch else s)
  | none => .next s

/-- BOTTOM_TREE_BUILT (R424). -/
def execBottomTreeBuilt (s : State) : Host.Outcome State Fault Refusal := .next (s.modSec fun c => { c with treeReady := true })

/-- RNG_HEALTH_FAILURE (R419): no further key is generated. -/
def execRngHealthFailure (test : Nat) (s : State) : Host.Outcome State Fault Refusal :=
  .next ((s.modSec fun c => { c with rngFailed := true }).raise Ev.rngFail .module [test])

/-! ## Bounds and control cores (R390, R391, R520) -/

/-- A command that leaves before its commit point withdraws what it had begun: the way to Doze (R497). -/
def State.withdraw (s : State) (c : Cmd) : State :=
  if s.power.waiter = some c.ref then s.modPower fun p => { p with waiter := none, inTransition := false, target := p.state, wakeLatched := false } else s

/-- COMMAND_BOUND_EXPIRY (R390, R398). -/
def execCommandBoundExpiry (m slot : Nat) (s : State) : Host.Outcome State Fault Refusal :=
  match s.box.inflight.find? fun c => c.mb == m && c.slot == slot && !c.committed with
  | none => .next s
  | some c => match cmdSpec? c.opcode with
    | none => .next s
    | some sp =>
      if sp.bound ≠ 0 ∧ c.fetchedAt + sp.bound * 1000000 ≤ s.time.localNow then
        .next ((s.withdraw c).completeCmd 8 c St.commandTimeout 0 0 []).fetchAll
      else .next s

/-- CONTROL_CORE_WATCHDOG (R391): the commands that the core held before their commit points end with ST_ABORTED; which
core holds a command that has begun is not stated (DESIGN CHOICE, log 3). -/
def execControlCoreWatchdog (core : Nat) (s : State) : Host.Outcome State Fault Refusal :=
  if core ≥ 4 then .fault .noSuchUnit
  else
    let s := s.modBoot fun b => { b with coresDown := if b.coresDown.contains core then b.coresDown else b.coresDown ++ [core] }
    let begun := s.box.inflight.filter fun c => !c.committed && s.power.waiter == some c.ref
    .next (begun.foldl (fun s c =>
      let (h, s) := s.free 4
      if h = core then (s.withdraw c).completeCmd 8 c St.aborted 0 0 [] else s) s)

/-- CONTROL_CORE_RESTART (R520). -/
def execControlCoreRestart (core : Nat) (s : State) : Host.Outcome State Fault Refusal :=
  if core ≥ 4 then .fault .noSuchUnit
  else .next (s.modBoot fun b => { b with coresDown := b.coresDown.filter (· != core) }).fetchAll

/-! ## Rows -/

/-- FIRMWARE_STAGE (R422). -/
def execFirmwareStage (m slot : Nat) (s : State) : Host.Outcome State Fault Refusal := cmdRow 0x0E00 cmdFirmwareStage m slot s
/-- FIRMWARE_ACTIVATE (R512, R522, R524). -/
def execFirmwareActivate (m slot : Nat) (readBackOk : Bool) (s : State) : Host.Outcome State Fault Refusal :=
  cmdRow 0x0E01 (cmdFirmwareActivate readBackOk) m slot s
/-- FIRMWARE_INFO (R417). -/
def execFirmwareInfo (m slot : Nat) (s : State) : Host.Outcome State Fault Refusal := cmdRow 0x0E02 cmdFirmwareInfo m slot s
/-- SVN_COMMIT (R423). -/
def execSvnCommit (m slot : Nat) (s : State) : Host.Outcome State Fault Refusal := cmdRow 0x0E03 cmdSvnCommit m slot s
/-- ATTEST_REPORT (R428). -/
def execAttestReport (m slot : Nat) (s : State) : Host.Outcome State Fault Refusal := cmdRow 0x0E04 cmdAttestReport m slot s

end Sys2Proof.Machine
end

