-- ==== Sys2Proof/Machine/Host.lean ====
section
/-!
DEFINITION. Host accesses: mailbox registers (R378, R379), doorbells (R345), flags and counters (R5–R7), TIME_NOW (R478),
recovery (R525, R526), the probe, lent and queue windows (R354–R366) and HDM decoders (R352).
-/
namespace Sys2Proof.Machine

/-- Logical devices and mailboxes (R337, R374). -/
def ldCount : Nat := 16
def boxCount : Nat := 1024

/-- A host access from an LD that exists. -/
def fromLd (ld : Nat) (r : Host.Outcome State Fault Refusal) : Host.Outcome State Fault Refusal :=
  if ld < ldCount then r else .fault .noSuchUnit

/-- A write to a mailbox page: only the LD that the mailbox is assigned to reaches it (R343). -/
def onPage (ld m : Nat) (s : State) (f : State → State) : Host.Outcome State Fault Refusal :=
  if ld < ldCount ∧ m < boxCount then .next (if (s.mbox m).ld = some ld then f s else s) else .fault .noSuchUnit

/-! ## Mailbox registers (R378–R380, R393) -/

def State.rejectDoorbell (s : State) : State := s.setFlag Flag.doorbellReject

/-- A write of SQ_TAIL (R379). -/
def State.writeSqTail (m : Nat) (v : W32) (s : State) : State :=
  let b := s.mbox m
  if b.state = .active ∧ v.toNat < b.depth then (s.setMbox m { b with sqTail := v.toNat }).fetchAll else s.rejectDoorbell

/-- A write of CQ_HEAD: the completions it passes are consumed (R378, R380). -/
def State.writeCqHead (m : Nat) (v : W32) (s : State) : State :=
  let b := s.mbox m
  if b.state = .active ∧ v.toNat < b.depth then
    let n := (v.toNat + b.depth - b.cqHead) % b.depth
    (s.setMbox m { b with cqHead := v.toNat, cqRead := min b.cqWritten (b.cqRead + n) }).fetchAll
  else s.rejectDoorbell

/-- A write of EVENT_HEAD: waiting records enter the freed slots (R393). -/
def State.writeEventHead (m : Nat) (v : W32) (s : State) : State :=
  let b := s.mbox m
  if b.state = .active ∧ v.toNat < eventSlots then
    let n := (v.toNat + eventSlots - b.eventHead) % eventSlots
    State.drainEvents eventSlots m (s.setMbox m { b with eventHead := v.toNat, evRead := min b.evWritten (b.evRead + n) })
  else s.rejectDoorbell

/-- SQ_TAIL_WRITE (R379). -/
def execSqTailWrite (ld m : Nat) (v : W32) (s : State) : Host.Outcome State Fault Refusal := onPage ld m s (State.writeSqTail m v)
/-- CQ_HEAD_WRITE (R378). -/
def execCqHeadWrite (ld m : Nat) (v : W32) (s : State) : Host.Outcome State Fault Refusal := onPage ld m s (State.writeCqHead m v)
/-- EVENT_HEAD_WRITE (R393). -/
def execEventHeadWrite (ld m : Nat) (v : W32) (s : State) : Host.Outcome State Fault Refusal := onPage ld m s (State.writeEventHead m v)

/-! ## Doorbells (R345) -/

/-- Slots from a tail up to a new one. -/
def newSlots (depth tail value : Nat) : List Nat := (List.range ((value + depth - tail) % depth)).map fun i => (tail + i) % depth

def ringJq (s : State) (tag : W16) (target value : Nat) : Option State :=
  match s.jqFor tag target with
  | some j =>
    let j1 := { j with tail := value, entries := j.entries ++ (newSlots j.depth j.tail value).map fun k => { slot := some k } }
    if target < 65536 ∧ value < j.depth then some (s.modWork fun w => { w with jqs := tset w.jqs target j1 })
    else none
  | none => none

def ringSq (s : State) (tag : W16) (target value : Nat) : Option State :=
  match s.connFor tag (BitVec.ofNat 32 target) with
  | some (i, c) =>
    let c1 := { c with sqTail := value, sq := c.sq ++ (newSlots c.sqDepth c.sqTail value).map fun k => { slot := some k } }
    if value < c.sqDepth then some (s.modFlyer fun f => { f with conns := tset f.conns i c1 })
    else none
  | none => none

def ringList (s : State) (tag : W16) (target value : Nat) : Option State :=
  match s.listFor tag target with
  | some l =>
    if target < 65536 ∧ value < l.ringDepth then
      some (State.postRing ((value + l.ringDepth - l.ringDone % l.ringDepth) % l.ringDepth) target s)
    else none
  | none => none

def ringSrq (s : State) (tag : W16) (target value : Nat) : Option State :=
  match s.srqFor tag target with
  | some q =>
    if target < 65536 ∧ value < q.entries then
      some (s.modFlyer fun f => { f with srqs := tset f.srqs target { q with tail := value, fifo := q.fifo ++ newSlots q.entries q.tail value } })
    else none
  | none => none

def ringCq (s : State) (tag : W16) (target value : Nat) : Option State :=
  match s.cqFor tag target with
  | some c =>
    let n := (value + c.entries - c.consumed % c.entries) % c.entries
    if target < 65536 ∧ value < c.entries ∧ c.consumed + n ≤ c.written then
      some (State.drainCq c.held.length target (s.modCq target fun c => { c with consumed := c.consumed + n }))
    else none
  | none => none

/-- Acts on a QUEUE_DOORBELL value from the page of mailbox `m`, or sets DOORBELL_REJECT (R345). -/
def State.ringDoorbell (s : State) (m : Nat) (v : W64) : State :=
  let tag := (s.mbox m).tenant
  let target := bits 47 16 v.toNat
  let value := bits 15 0 v.toNat
  let r := if bits 59 48 v.toNat ≠ 0 then none else match bits 63 60 v.toNat with
    | 1 => ringJq s tag target value
    | 2 => ringSq s tag target value
    | 3 => ringList s tag target value
    | 4 => ringSrq s tag target value
    | 5 => ringCq s tag target value
    | _ => none
  match r with
  | some s => s
  | none => s.rejectDoorbell

/-- Targets of the doorbell latch (R499). -/
def latchSlots : Nat := 4096

/-- Keeps a doorbell written in Doze: the last VALUE of each of 4,096 targets (R499). -/
def State.latchDoorbell (s : State) (ld m : Nat) (v : W64) : State :=
  let same := fun (d : Nat × Nat × W64) => d.2.2.toNat / 65536 == v.toNat / 65536
  let l := s.cxl.doorbellLatch
  if l.any same then { s with cxl := { s.cxl with doorbellLatch := l.map fun d => if same d then (ld, m, v) else d } }
  else if l.length < latchSlots then { s with cxl := { s.cxl with doorbellLatch := l ++ [(ld, m, v)] } }
  else s.rejectDoorbell

/-- A write of QUEUE_DOORBELL (R345, R499). -/
def State.writeDoorbell (ld m : Nat) (v : W64) (s : State) : State :=
  if s.power.state = .standby then s.rejectDoorbell
  else if s.power.state = .doze then s.latchDoorbell ld m v
  else s.ringDoorbell m v

/-- Latched doorbells take effect on return to Hold or Run (R499). -/
def State.applyLatch (s : State) : State :=
  s.cxl.doorbellLatch.foldl (fun s d => s.ringDoorbell d.2.1 d.2.2) { s with cxl := { s.cxl with doorbellLatch := [] } }

/-- KIND above the 60 bits of an operand. -/
def doorbellValue (kind : Nat) (v : BitVec 60) : W64 := BitVec.ofNat 64 (kind * 2 ^ 60 + v.toNat)

/-- JOB_QUEUE_DOORBELL (R345). -/
def execJobQueueDoorbell (ld m : Nat) (v : BitVec 60) (s : State) : Host.Outcome State Fault Refusal :=
  onPage ld m s (State.writeDoorbell ld m (doorbellValue 1 v))
/-- SEND_QUEUE_DOORBELL (R345). -/
def execSendQueueDoorbell (ld m : Nat) (v : BitVec 60) (s : State) : Host.Outcome State Fault Refusal :=
  onPage ld m s (State.writeDoorbell ld m (doorbellValue 2 v))
/-- TRIGGER_RING_DOORBELL (R345, R552). -/
def execTriggerRingDoorbell (ld m : Nat) (v : BitVec 60) (s : State) : Host.Outcome State Fault Refusal :=
  onPage ld m s (State.writeDoorbell ld m (doorbellValue 3 v))
/-- SRQ_DOORBELL (R302, R345). -/
def execSrqDoorbell (ld m : Nat) (v : BitVec 60) (s : State) : Host.Outcome State Fault Refusal :=
  onPage ld m s (State.writeDoorbell ld m (doorbellValue 4 v))
/-- CQ_HEAD_UPDATE (R345). -/
def execCqHeadUpdate (ld m : Nat) (v : BitVec 60) (s : State) : Host.Outcome State Fault Refusal :=
  onPage ld m s (State.writeDoorbell ld m (doorbellValue 5 v))

/-! ## Flags, counters, time (R5–R7, R343, R348, R478) -/

/-- W1C_FLAG_WRITE: only the administrative LD's write clears; a set of the same cycle wins; in Standby the unit block does not
respond (R6, R343, R372). -/
def execW1cFlagWrite (ld row : Nat) (v hwSet : W32) (s : State) : Host.Outcome State Fault Refusal :=
  if ld < ldCount ∧ row < flagRows then
    .next ((if ld = s.cfg.adminLd ∧ s.power.state ≠ .standby then s.clearFlags row v else s).setFlags row hwSet)
  else .fault .noSuchUnit

/-- RC_COUNTER_READ: the bytes read are returned and cleared; an increment of the same cycle is kept (R7, R348); in Standby the
unit block reads zero (R372). -/
def execRcCounterRead (ld row first width : Nat) (hwInc : W32) (s : State) : Host.Outcome State Fault Refusal :=
  if ld < ldCount ∧ row < flagRows then
    let bytes := (List.range (min width (32 - first))).map fun i => s.flagCount row (first + i)
    if s.power.state = .standby then .next ((s.setFlags row hwInc).emit (.readData ld (zeros bytes.length)))
    else .next (((s.clearCounts row first width).setFlags row hwInc).emit (.readData ld bytes))
  else .fault .noSuchUnit

/-- TIME_NOW_LOW_READ: the low half is returned and the high half latched for the LD (R478). -/
def execTimeNowLowRead (ld : Nat) (s : State) : Host.Outcome State Fault Refusal :=
  let hi := BitVec.ofNat 32 (s.time.now.toNat / 2 ^ 32)
  fromLd ld (.next ({ s with time := { s.time with latch := tset s.time.latch ld hi } }.emit
    (.readData ld (toLe 4 (s.time.now.toNat % 2 ^ 32)))))

/-- TIME_NOW_HIGH_READ: the latched half, which the read takes; without a latched half the present one (R478). -/
def execTimeNowHighRead (ld : Nat) (s : State) : Host.Outcome State Fault Refusal :=
  let hi := match tget s.time.latch ld with
    | some h => h.toNat
    | none => s.time.now.toNat / 2 ^ 32
  fromLd ld (.next ({ s with time := { s.time with latch := tdel s.time.latch ld } }.emit (.readData ld (toLe 4 hi))))

/-! ## Recovery (R525, R526) -/

/-- The recovery buffer and its size. -/
def recoveryBase : Nat := 0x02000000
def recoverySize : Nat := 0x00800000

/-- GO: the image in the recovery buffer is verified and runs (R525, R526). -/
def State.recoveryGo (s : State) : State :=
  let r := s.boot.recoveryResult
  if s.boot.state ≠ .recovery ∨ r = 1 ∨ r = 2 then s
  else
    let n := s.boot.recoveryLength.toNat
    let res := fun (k : Nat) => { s with boot := { s.boot with recoveryResult := k } }
    if n = 0 ∨ n > recoverySize then res 5
    else
      let img := s.boot.recoveryBuf.readN 0 n
      let st := verifyImage s.sec 2 img
      if st = St.signatureInvalid then res 3
      else if st = St.rollback then res 4
      else
        let s := (res 2).runImage img
        ({ s with boot := { s.boot with recoveryRun := true, serviceLevel := 1 }
                  store := { s.store with poolSlots := poolMax } }).openBox0

/-- RECOVERY_GO: a write of LENGTH with COMMAND GO; only LD 0 reaches RECOVERY_CTRL (R526). -/
def execRecoveryGo (ld : Nat) (length : W32) (s : State) : Host.Outcome State Fault Refusal :=
  fromLd ld (.next (if ld = 0 then ({ s with boot := { s.boot with recoveryLength := length } }).recoveryGo else s))

/-! ## Register writes (R342–R345, R347–R349) -/

/-- BAR0 is 64 MiB (R341). -/
def bar0Size : Nat := 0x04000000

/-- A write of a mailbox page register; other offsets are reserved (R344). A write of another width than the register's own is
ignored (DESIGN CHOICE, log 80). -/
def State.writePage (s : State) (ld m off : Nat) (data : List Byte) : State :=
  if (s.mbox m).ld ≠ some ld then s
  else if off = 0 ∧ data.length = 4 then s.writeSqTail m (BitVec.ofNat 32 (ofLe data))
  else if off = 4 ∧ data.length = 4 then s.writeCqHead m (BitVec.ofNat 32 (ofLe data))
  else if off = 8 ∧ data.length = 4 then s.writeEventHead m (BitVec.ofNat 32 (ofLe data))
  else if off = 16 ∧ data.length = 8 then s.writeDoorbell ld m (BitVec.ofNat 64 (ofLe data))
  else s

/-- A write of RECOVERY_CTRL from LD 0: LENGTH is RW, COMMAND 0x1 acts (R526). -/
def State.writeRecoveryCtrl (s : State) (off : Nat) (data : List Byte) : State :=
  let len := fun (s : State) (n : Nat) => { s with boot := { s.boot with recoveryLength := BitVec.ofNat 32 n } }
  let go := fun (s : State) (w : Nat) => if w % 16 = 1 then s.recoveryGo else s
  if off = 0x30 ∧ data.length = 8 then go (len s (field data 4 4)) (field data 0 4)
  else if off = 0x34 ∧ data.length = 4 then len s (ofLe data)
  else if off = 0x30 ∧ data.length = 4 then go s (ofLe data)
  else s

/-- REGISTER_WRITE: a write in BAR0 (R342); read-only and unlisted offsets ignore it, and so does a register written in another
width than its own (DESIGN CHOICE, log 80). -/
def execRegisterWrite (ld off : Nat) (data : List Byte) (s : State) : Host.Outcome State Fault Refusal :=
  if ld ≥ ldCount then .fault .noSuchUnit
  else if off + data.length > bar0Size then .fault .noSuchAddress
  else if 0x100000 ≤ off ∧ off < 0x500000 then .next (s.writePage ld ((off - 0x100000) / 0x1000) (off % 0x1000) data)
  else if 0x10200 ≤ off ∧ off < 0x10200 + 0x40 * flagRows ∧ off % 0x40 = 0 ∧ data.length = 4 then
    .next (if ld = s.cfg.adminLd ∧ s.power.state ≠ .standby then s.clearFlags ((off - 0x10200) / 0x40) (BitVec.ofNat 32 (ofLe data)) else s)
  else if ld = 0 ∧ 0x30 ≤ off ∧ off < 0x38 then .next (s.writeRecoveryCtrl off data)
  else if ld = 0 ∧ s.boot.state = .recovery ∧ recoveryBase ≤ off ∧ off + data.length ≤ recoveryBase + recoverySize then
    .next { s with boot := { s.boot with recoveryBuf := s.boot.recoveryBuf.writeN (off - recoveryBase) data } }
  else .next s

/-! ## The probe window (R356–R360) -/

/-- MOTION of R356. -/
def State.motion (s : State) (idx : Nat) (k : Skein) : Nat :=
  (if k.leaves.any fun e => e.2.pin then 4 else 0) + (if thas s.store.reloads idx then 2 else 0) + (if thas s.store.doffs idx then 1 else 0)

/-- LEASE_LEFT of R356. -/
def State.leaseLeft (s : State) (k : Skein) : Nat :=
  if leaseOwner k.lease = 0 ∨ leaseOrphaned k.lease ∨ k.expiry ≤ s.time.now then 0
  else min 0xFFFF ((k.expiry - s.time.now).toNat / 262144)

/-- The probe record of a skein; of a FREE index where there is none (R356). -/
def State.probeRecord (s : State) (idx : Nat) (k : Option Skein) : List Byte :=
  let head := match k with
    | none => zeros 16
    | some k =>
      let st := match k.state with
        | .active => 1
        | .doffed => 2
        | .retiring => 3
      toLe 4 k.handle.toNat ++ toLe 1 st ++ toLe 1 k.residency ++ toLe 1 (s.motion idx k) ++
      toLe 1 ((if leaseOrphaned k.lease then 2 else 0) + (if leaseOwner k.lease ≠ 0 then 1 else 0)) ++
      toLe 2 (leaseEpoch k.lease % 65536) ++ toLe 2 (s.leaseLeft k) ++ zeros 4
  head ++ toLe 8 s.time.now.toNat ++ zeros 40

/-- Whether a tenant owns a mailbox assigned to an LD (R357). -/
def State.ldReaches (s : State) (ld : Nat) (tag : W16) : Bool :=
  s.box.boxes.any fun b => b.2.bound && b.2.tenant == tag && b.2.ld == some ld && b.1 != 0

/-- PROBE_READ (R356, R357); zeros in Standby (R499). -/
def execProbeRead (ld idx : Nat) (s : State) : Host.Outcome State Fault Refusal :=
  if ld ≥ ldCount then .fault .noSuchUnit
  else if idx ≥ 4194304 then .fault .noSuchAddress
  else if s.power.state = .standby then .next (s.emit (.readData ld (zeros 64)))
  else
    let s := s.expireLease idx
    let k := match s.skein? idx with
      | some k => if s.ldReaches ld k.tenant then some k else none
      | none => none
    .next (s.emit (.readData ld (s.probeRecord idx k)))

/-- PROBE_WRITE: completed and discarded, and PROBE_WRITE is set (R360). -/
def execProbeWrite (ld idx : Nat) (s : State) : Host.Outcome State Fault Refusal :=
  if ld ≥ ldCount then .fault .noSuchUnit
  else if idx ≥ 4194304 then .fault .noSuchAddress
  else if s.power.state = .standby then .next s
  else .next (s.setFlag Flag.probeWrite)

/-! ## The lent window (R361–R366) -/

/-- Size of the lent window's DPA range (R352). -/
def lentSpan : Nat := 512 * 2 ^ 30

/-- The step of R362 that denies an access to a line; 0 where it is allowed. -/
def State.lentStep (s : State) (ld off : Nat) (write : Bool) : Nat :=
  if off ≥ s.cfg.lentGib * 2 ^ 30 then 1
  else
    let cover := s.cxl.hostTable.filter fun e => e.2.ld == ld && decide (e.2.base ≤ off ∧ off < e.2.base + e.2.length)
    let fresh := cover.filter fun e => e.2.hostGen == (s.ld ld).hostGen
    if cover.isEmpty then 2 else if fresh.isEmpty then 3
    else if fresh.any fun e => if write then e.2.write else e.2.read then 0 else 4

/-- The module physical address of a lent offset (R220). -/
def State.lentAddr (s : State) (off : Nat) : Nat := slotAddr 1 (s.lentBase + off / slotBytes) + off % slotBytes

/-- A denied access: counted, flagged, and reported at most once per LD per millisecond (R363). -/
def State.denyLent (s : State) (ld off step : Nat) : State :=
  let s := (s.modLd ld fun l =>
    { l with denied := l.denied + 1, deniedSince := l.deniedSince + 1,
             firstDenied := match l.firstDenied with | none => some (off, step) | some d => some d }).setFlag Flag.lentDenied
  let l := s.ld ld
  let due : Bool := match l.lastDenied with
    | none => true
    | some t => decide (t + 1000000 ≤ s.time.localNow)
  if due then
    let d := l.firstDenied.getD (off, step)
    (s.setLd ld { l with lastDenied := some s.time.localNow, deniedSince := 0, firstDenied := none }).raise
      Ev.lentAccessDenied .module [ld, d.1, d.2, l.deniedSince]
  else s

/-- A read that met an uncorrectable line, apart from its data and its event (R366, R444). -/
def State.badLine (s : State) (ld dpa addr : Nat) : State :=
  ({ s with cxl := { s.cxl with mediaLog := s.cxl.mediaLog ++ [dpa] } }.emit (.cxlError ld)).raise Ev.eccUncorrectable .module [addr]

/-- The lent key that an access through an LD's entries uses: the tenant field that KEY_SLOT names now (R361). -/
def State.lentKey (s : State) (ld off : Nat) : Nat :=
  match s.cxl.hostTable.find? fun e => e.2.ld == ld && decide (e.2.base ≤ off ∧ off < e.2.base + e.2.length) with
  | some e => ((tget s.tenants e.2.keySlot).map fun (t : Tenant) => t.gen * 4096 + e.2.keySlot).getD e.2.keySlot
  | none => 0

/-- `n` free bytes (DESIGN CHOICE, log 3). -/
def State.freeBytes (s : State) (n : Nat) : List Byte × State :=
  ((List.range n).map fun i => BitVec.ofNat 8 (Config.freeValue (s.freeCount + i)), { s with freeCount := s.freeCount + n })

/-- A read of a lent line (R362–R366). A line that a host last wrote under another key deciphers to bytes that the spec
does not give (DESIGN CHOICE, log 3). -/
def State.lentRead (s : State) (ld off : Nat) : State :=
  let step := s.lentStep ld off false
  if step ≠ 0 then (s.denyLent ld off step).emit (.readData ld (zeros 64))
  else
    let a := s.lentAddr off
    if s.cxl.badLines.contains a then
      (((s.setFlag Flag.lentUe).badLine ld (0x2000000000 + off) a).raise Ev.lentUe .module [ld, off]).emit (.readData ld (zeros 64))
    else
      let other : Bool := match tget s.cxl.lineKeys a with
        | some k => k != s.lentKey ld off
        | none => false
      if other then
        let (bs, s) := s.freeBytes 64
        s.emit (.readData ld bs)
      else s.emit (.readData ld (s.mem.readN a 64))

/-- A write of a lent line (R362–R366). -/
def State.lentWrite (s : State) (ld off : Nat) (line : List Byte) : State :=
  let step := s.lentStep ld off true
  if step ≠ 0 then s.denyLent ld off step
  else
    let a := s.lentAddr off
    { s with mem := s.mem.writeN a (line.take 64)
             cxl := { s.cxl with lineKeys := tset s.cxl.lineKeys a (s.lentKey ld off), badLines := if line.length ≥ 64 then s.cxl.badLines.filter (· != a) else s.cxl.badLines } }

/-- LENT_READ (R362): held in Doze (R502), zeros in Standby (R499). -/
def execLentRead (ld off : Nat) (s : State) : Host.Outcome State Fault Refusal :=
  let off := off / 64 * 64
  if ld ≥ ldCount then .fault .noSuchUnit
  else if off ≥ lentSpan then .fault .noSuchAddress
  else if s.power.state = .standby then .next (s.emit (.readData ld (zeros 64)))
  else if s.holdsRequests then .next (s.holdRequest { ld, lent := true, off, len := 64, data := none })
  else .next (s.lentRead ld off)

/-- LENT_WRITE (R362): held in Doze (R502), discarded in Standby (R499). -/
def execLentWrite (ld off : Nat) (line : List Byte) (s : State) : Host.Outcome State Fault Refusal :=
  let off := off / 64 * 64
  if ld ≥ ldCount then .fault .noSuchUnit
  else if off ≥ lentSpan then .fault .noSuchAddress
  else if s.power.state = .standby then .next s
  else if s.holdsRequests then .next (s.holdRequest { ld, lent := true, off, len := 64, data := some line })
  else .next (s.lentWrite ld off line)

/-! ## The queue window (R354) -/

/-- Size of the queue window (R352). -/
def queueSpan : Nat := 64 * 2 ^ 30

/-- The uncorrectable line of a window offset, where it has one. -/
def State.windowBad (s : State) (ld off : Nat) : Option Nat :=
  match s.windowAddr ld off with
  | some a => if s.cxl.badLines.contains (a / 64 * 64) then some (a / 64 * 64) else none
  | none => none

/-- An access to the queue window (R354): bytes of an uncorrectable line read zero, and the owning mailbox is told (R444). -/
def State.windowAccess (s : State) (ld off len : Nat) (data : Option (List Byte)) : State :=
  let n := match data with
    | some d => d.length
    | none => len
  let s := if (List.range n).all fun i => (s.slabAt ld (off + i)).isSome then s else s.setFlag Flag.queueUnmapped
  match data with
  | some d =>
    let full := ((List.range n).filterMap fun i => s.windowBad ld (off + i)).filter fun a =>
      ((List.range n).filter fun i => s.windowBad ld (off + i) == some a).length == 64
    let s := s.windowWrite ld off d
    { s with cxl := { s.cxl with badLines := s.cxl.badLines.filter fun a => !full.contains a } }
  | none =>
    let bad := ((List.range n).filterMap fun i => (s.windowBad ld (off + i)).map fun a => (a, off + i - (off + i) % 64)).eraseDups
    let bytes := ((s.windowRead ld off n).zip (List.range n)).map fun b => if (s.windowBad ld (off + b.2)).isSome then 0 else b.1
    let s := bad.foldl (fun s a =>
      let s := s.badLine ld (0x10000000 + a.2) a.1
      match s.slabAt ld a.2 with
      | some b => s.pushEvent b.mb { code := Ev.lentUe.code, severity := Ev.lentUe.sev, tenant := (s.mbox b.mb).tenant, count := 1,
                                     time := s.time.now, detail := [ld, a.2] }
      | none => s) s
    s.emit (.readData ld bytes)

/-- Whether a window offset lies in mailbox 0's rings, which stay served in Doze and Standby (R499). -/
def State.inRing0 (s : State) (ld off : Nat) : Bool :=
  match s.slabAt ld off with
  | some b => b.mb == 0 && (b.area == (s.mbox 0).sqArea || b.area == (s.mbox 0).cqArea)
  | none => false

/-- QUEUE_WINDOW_ACCESS (R354); held in Doze unless it reaches mailbox 0's rings (R499, R502). -/
def execQueueWindowAccess (ld off len : Nat) (data : Option (List Byte)) (s : State) : Host.Outcome State Fault Refusal :=
  if ld ≥ ldCount then .fault .noSuchUnit
  else if off + (match data with | some d => d.length | none => len) > queueSpan then .fault .noSuchAddress
  else if s.holdsRequests ∧ !(s.power.state = .doze ∧ s.inRing0 ld off) then
    .next (s.holdRequest { ld, lent := false, off, len, data })
  else .next (s.windowAccess ld off len data)

/-- Serves the held requests in order (R502, R504). -/
def State.serveHeld (s : State) : State :=
  s.cxl.held.foldl (fun s r =>
    if r.lent then (match r.data with | some d => s.lentWrite r.ld r.off d | none => s.lentRead r.ld r.off)
    else s.windowAccess r.ld r.off r.len r.data) { s with cxl := { s.cxl with held := [] } }

/-! ## HDM decoders (R352) -/

/-- The DPA range that a decoder may cover (R352). -/
def decoderRange (dec : Nat) : Nat × Nat :=
  if dec = 0 then (0, 0x10000000) else if dec = 1 then (0x10000000, 0x1010000000) else (0x2000000000, 0xA000000000)

/-- Whether decoders 2–7 stay in ascending DPA. -/
def Ld.ascending (l : Ld) (dec base size : Nat) : Bool :=
  dec < 2 || l.decoders.all fun d => d.1 < 2 || d.1 == dec || (if d.1 < dec then decide (d.2.1 + d.2.2 ≤ base) else decide (base + size ≤ d.2.1))

/-- HDM_DECODER_COMMIT: refused through the decoder's error status outside its own range (R352). -/
def execHdmDecoderCommit (ld dec base size : Nat) (s : State) : Host.Outcome State Fault Refusal :=
  if ld < ldCount ∧ dec < 8 then
    let l := s.ld ld
    let ok := decide ((decoderRange dec).1 ≤ base ∧ 0 < size ∧ base + size ≤ (decoderRange dec).2) && l.ascending dec base size
    .next (s.setLd ld (if ok then { l with decoders := tset l.decoders dec (base, size), decoderError := l.decoderError.filter (· != dec) }
                       else { l with decoderError := if l.decoderError.contains dec then l.decoderError else l.decoderError ++ [dec] }))
  else .fault .noSuchUnit

end Sys2Proof.Machine
end

