-- ==== Sys2Proof/Machine/CmdLent.lean ====
section
/-!
DEFINITION. Lent memory (R361–R364, R412): grants, revocation, host fences and publications, and the drains that end
them (R364, R369).
-/
namespace Sys2Proof.Machine

def State.modCxl (s : State) (f : Cxl → Cxl) : State := { s with cxl := f s.cxl }

/-! ## The host table -/

/-- Whether two ranges meet. -/
def meets (b1 l1 b2 l2 : Nat) : Bool := decide (b1 < b2 + l2 ∧ b2 < b1 + l1)

/-- LENT_GRANT (R361, R371). -/
def cmdLentGrant (x : Ctx) (s : State) : CmdM := do
  let ld := x.p 0 1
  let rights := x.p 1 1
  let slot := x.p 2 2 % 4096
  let base := x.p 8 8
  let len := x.p 16 8
  req (((tget s.tenants slot).map fun (t : Tenant) => t.live && !t.teardown) == some true) St.staleHandle
  inRange (decide (ld < 16)) 0
  inRange (base % 65536 == 0) 8
  inRange (len % 65536 == 0 && decide (65536 ≤ len ∧ base + len ≤ s.cfg.lentGib * 2 ^ 30)) 16
  req (!s.ldLocked (some ld)) St.notPermitted
  req (!s.cxl.hostTable.any fun e => e.2.keySlot != slot && meets e.2.base e.2.length base len) St.rangeInUse
  let (i, s) ← found St.noResource (s.pick (s.cxl.hostTable.map (fun e => (e.1, ())) ++ s.cxl.revokeWaiters.map fun e => (e.1, ())) 4096)
  let e : HostEntry := { write := bit 1 rights, read := bit 0 rights, ld, hostGen := (s.ld ld).hostGen, keySlot := slot, base, length := len }
  return .done (s.modCxl fun c => { c with hostTable := tset c.hostTable i e }) (toLe 2 i)

/-- LENT_REVOKE: VALID is cleared at once; the command ends when accesses already allowed have drained (R364, R371). -/
def cmdLentRevoke (x : Ctx) (s : State) : CmdM := do
  let i := x.p 0 2
  inRange (decide (i < 4096)) 0
  let e ← found St.staleHandle (tget s.cxl.hostTable i)
  req (!s.ldLocked (some e.ld)) St.notPermitted
  return .wait (s.modCxl fun c => { c with hostTable := tdel c.hostTable i, revokeWaiters := tset c.revokeWaiters i x.c.ref })

/-- HOST_FENCE: GENERATION + 1, 65,535 wrapping to 1 (R369). -/
def cmdHostFence (x : Ctx) (s : State) : CmdM := do
  let ld := x.p 0 1
  inRange (decide (ld < 16)) 0
  let g := nextGen 65535 (s.ld ld).hostGen.toNat
  return .wait (s.modLd ld fun l => { l with hostGen := BitVec.ofNat 16 g, fenceWaiters := l.fenceWaiters ++ [(x.c.ref, g)] })

/-! ## Publications (R367) -/

/-- PUBLICATION_CREATE (R367). -/
def cmdPublicationCreate (x : Ctx) (s : State) : CmdM := do
  let base := x.p 0 8
  let len := x.p 8 8
  inRange (decide (base < s.cfg.lentGib * 2 ^ 30)) 0
  inRange (decide (0 < len ∧ base + len ≤ s.cfg.lentGib * 2 ^ 30)) 8
  let (i, s) ← found St.noResource (s.pick s.cxl.pubs 1024)
  return .done (s.modCxl fun c => { c with pubs := tset c.pubs i { base, length := len } }) (toLe 2 i)

/-- The publication that a command names (R412). -/
def Ctx.publication (x : Ctx) (s : State) : Except CmdErr Publication := do
  inRange (decide (x.p 0 2 < 1024)) 0
  found St.staleHandle (tget s.cxl.pubs (x.p 0 2))

/-- PUBLICATION_DELETE (R412). -/
def cmdPublicationDelete (x : Ctx) (s : State) : CmdM := do
  let _ ← x.publication s
  return .done (s.modCxl fun c => { c with pubs := tdel c.pubs (x.p 0 2) }) []

/-- How far from `pos` on an LD's entries of its present generation give WRITE, entry by entry (R367). -/
def writableTo (es : List HostEntry) : Nat → Nat → Nat
  | 0, pos => pos
  | fuel + 1, pos =>
    match es.find? fun e => decide (e.base ≤ pos ∧ pos < e.base + e.length) with
    | some e => writableTo es fuel (e.base + e.length)
    | none => pos

/-- Whether an LD holds WRITE over a whole range at its present generation (R367). -/
def State.mayPublish (s : State) (ld base len : Nat) : Bool :=
  let es := (s.cxl.hostTable.map (·.2)).filter fun e => e.ld == ld && e.write && e.hostGen == (s.ld ld).hostGen
  decide (base + len ≤ writableTo es es.length base)

/-- The events of a refused publication: on the publisher's LD, and on the LD of the current version (R367). -/
def State.conflict (s : State) (i ld : Nat) (p : Publication) (version : Nat) (digest : List Byte) : State :=
  let detail := [i, p.version.toNat, version, ofLe p.digest, ofLe digest]
  let s := s.raise Ev.publicationConflict (.ld ld) detail
  if p.version = 0 then s else s.raise Ev.publicationConflict (.ld p.ld) detail

/-- LENT_PUBLISH (R367, R368). -/
def cmdLentPublish (x : Ctx) (s : State) : CmdM := do
  if x.c.dataLen < 48 then .error (St.lengthRange, 12, 0)
  let i := x.p 0 2
  let v := x.p 8 8
  let d := (x.data s).take 48
  let p ← x.publication s
  req (s.mayPublish x.c.ld p.base p.length) St.notPermitted
  if v > p.version.toNat then
    let q := { p with version := BitVec.ofNat 64 v, digest := d, ld := x.c.ld, time := s.time.now }
    return .done (s.modCxl fun c => { c with pubs := tset c.pubs i q }) []
  else if v = p.version.toNat ∧ d = p.digest then return .done s []
  else return .ended (s.conflict i x.c.ld p v d) St.versionConflict []

/-- PUBLICATION_GET (R412): version and time, and 64 bytes of digest and publishing LD. -/
def cmdPublicationGet (x : Ctx) (s : State) : CmdM := do
  if x.c.dataLen < 64 then .error (St.lengthRange, 12, 0)
  let p ← x.publication s
  return .done (x.output s (p.digest ++ toLe 1 p.ld ++ zeros 15)) (toLe 8 p.version.toNat ++ toLe 8 p.time.toNat)

/-! ## Rows -/

/-- LENT_GRANT (R361). -/
def execLentGrant (m slot : Nat) (s : State) : Host.Outcome State Fault Refusal := cmdRow 0x0900 cmdLentGrant m slot s
/-- LENT_REVOKE (R364). -/
def execLentRevoke (m slot : Nat) (s : State) : Host.Outcome State Fault Refusal := cmdRow 0x0901 cmdLentRevoke m slot s
/-- HOST_FENCE (R369). -/
def execHostFence (m slot : Nat) (s : State) : Host.Outcome State Fault Refusal := cmdRow 0x0902 cmdHostFence m slot s
/-- PUBLICATION_CREATE (R367). -/
def execPublicationCreate (m slot : Nat) (s : State) : Host.Outcome State Fault Refusal := cmdRow 0x0903 cmdPublicationCreate m slot s
/-- PUBLICATION_DELETE (R412). -/
def execPublicationDelete (m slot : Nat) (s : State) : Host.Outcome State Fault Refusal := cmdRow 0x0904 cmdPublicationDelete m slot s
/-- LENT_PUBLISH (R367). -/
def execLentPublish (m slot : Nat) (s : State) : Host.Outcome State Fault Refusal := cmdRow 0x0905 cmdLentPublish m slot s
/-- PUBLICATION_GET (R412). -/
def execPublicationGet (m slot : Nat) (s : State) : Host.Outcome State Fault Refusal := cmdRow 0x0906 cmdPublicationGet m slot s

/-- HOST_FENCE_DRAIN (R369): the accesses that passed before the fences have completed. -/
def execHostFenceDrain (ld : Nat) (s : State) : Host.Outcome State Fault Refusal :=
  if ld ≥ ldCount then .fault .noSuchUnit
  else
    let ws := (s.ld ld).fenceWaiters
    .next (ws.foldl (fun s w => s.answer w.1 St.ok (toLe 2 w.2)) (s.modLd ld fun l => { l with fenceWaiters := [] }))

/-- LENT_REVOKE_DRAIN (R364): the accesses that the entry had allowed have completed. -/
def execLentRevokeDrain (entry : Nat) (s : State) : Host.Outcome State Fault Refusal :=
  match tget s.cxl.revokeWaiters entry with
  | some w => .next ((s.modCxl fun c => { c with revokeWaiters := tdel c.revokeWaiters entry }).answer w St.ok [])
  | none => .next s

end Sys2Proof.Machine
end

