-- ==== Sys2Proof/Machine/CmdPrefix.lean ====
section
/-!
DEFINITION. Runs and the prefix table (08, R410): making and attaching runs, insertion with its shifts (R210), removal
and probing.
-/
namespace Sys2Proof.Machine

/-! ## Runs -/

/-- RUN_CREATE (R199, R410); ST_RECOMPUTE_NEEDED comes before ST_NOT_RESIDENT (DESIGN CHOICE, log 86). -/
def cmdRunCreate (x : Ctx) (s : State) : CmdM := do
  let b := x.p 4 4
  let tier := x.p 8 1
  mode (decide (tier ≤ 1))
  let (idx, k) ← x.skein s 0
  mode k.prefixHash
  inRange (decide (64 ≤ b * k.cap ∧ b ≤ 65536)) 4
  let keys := k.rows.flatMap fun r => (List.range b).map fun i => r * 65536 + i
  let leaves := keys.map (tget k.leaves)
  req (leaves.all Option.isSome) St.lengthRange
  let ls := leaves.filterMap id
  req (!ls.any fun l => l.tier == 3 || l.check == .damaged) St.recomputeNeeded
  req (!ls.any fun l => l.tier == 2) St.notResident
  req (!ls.any fun l => l.check == .opened) St.lengthRange
  req (!ls.any fun l => l.lock && decide (l.tier ≠ 0) && tier == 0) St.bobbinLocked
  req (!s.overQuota x.tag qRun 1) St.quotaExceeded
  let move := if tier = 0 then (keys.zip ls).filter fun e => e.2.tier != 0 && !e.2.pin else []
  req (!s.overQuota x.tag qSram (4 * move.length)) St.quotaExceeded
  let (i, pool) ← found St.noResource (s.pfx.runPool.take 262144)
  req (decide (move.length ≤ s.residenceFree)) St.noResource
  let s := (s.charge x.tag qRun 1).modPfx fun p => { p with runPool := pool }
  if tier = 1 then return .done (s.makeRun i idx b) (toLe 4 (rcHandle (pool.gen i) i).toNat ++ toLe 4 (b * k.cap))
  else
    let w : PinWork := { order := s.store.nextTask, waiter := some x.c.ref, skein := idx, keys, tier := 0, kind := 2, count := b, run := i }
    return .wait (((s.modStore fun t => { t with pins := t.pins ++ [w], nextTask := t.nextTask + 1 }).runTier).endPins)

/-- The leaf entries that an attachment writes (R202). -/
def Run.attached (r : Run) (n : Nat) : Table Leaf :=
  (r.leaves.filter fun e => decide (keyBob e.1 < n)).map fun e => (e.1, { e.2 with pin := false, lock := true, check := .good, move := false })

/-- RUN_ATTACH (R202, R204, R214, R410). -/
def cmdRunAttach (x : Ctx) (s : State) : CmdM := do
  let len := x.p 8 4
  let block := x.p 12 4
  let hash := x.p 16 12
  let r ← found St.staleHandle (s.runFor x.tag (x.p32 0))
  let (idx, k) ← x.skein s 4
  req (r.hashes[block]? == some hash) St.staleHandle
  mode (k.layers == r.layers && k.heads == r.heads && k.elements == r.elements && k.format == r.format && k.modelId == r.modelId &&
    k.leaves.isEmpty)
  inRange (decide (1 ≤ len ∧ len ≤ r.length ∧ len % r.cap = 0)) 8
  req (!r.damaged) St.recomputeNeeded
  let leaves := r.attached (len / r.cap)
  let g := k.growth (leaves.map (·.1)) (List.range len) k.rows
  within (g.slots k) (s.dramNeed x.tag (g.slots k))
  let ids := r.reel.filter fun e => decide (e.1 < len)
  within 0 (need (s.tailRoom k (k.addReel ids)) St.backpressure)
  let s ← found St.noResource ((s.shedFor k (k.addReel ids)).grow idx g)
  let add := fun (k : Skein) =>
    (((({ k with leaves, run := some (rcIndex r.handle) }).addReel ids).takeHistory
      (r.history.filter fun e => decide (e.2.1 < len))).restate)
  let s := (s.modSkein idx add).checkTails
  return .done (s.modPfx fun p => { p with runs := tmod p.runs (rcIndex r.handle) fun r => { r with skeins := r.skeins ++ [idx] } }) []

/-- RUN_RELEASE (R203, R410). -/
def cmdRunRelease (x : Ctx) (s : State) : CmdM := do
  let r ← found St.staleHandle (s.runFor x.tag (x.p32 0))
  req r.creator St.wrongState
  let i := rcIndex r.handle
  let s := (s.credit x.tag qRun 1).modPfx fun p => { p with runs := tmod p.runs i fun r => { r with creator := false } }
  return .done (s.settleRun i) []

/-! ## Insertion (R209–R211) -/

/-- Positions of the prefix table (R206). -/
def prefixSlots : Nat := 262144

/-- Where an entry goes: just after the last valid entry of at least its priority (R210). -/
def insertAt (t : Table PEntry) (priority : Nat) : Nat :=
  t.foldl (fun n e => if e.2.priority ≥ priority then max n (e.1 + 1) else n) 0

/-- The nearest free position at or beyond one. -/
def freeBeyond (t : Table PEntry) (k : Nat) : Option Nat :=
  let f := t.foldl (fun f e => if e.1 = f then f + 1 else f) k
  if f < prefixSlots then some f else none

/-- The nearest free position before one. -/
def freeBefore (t : Table PEntry) (k : Nat) : Option Nat :=
  let run := t.foldr (fun e f => if e.1 + 1 = f then f - 1 else f) k
  if run = 0 then none else some (run - 1)

/-- Entries of [lo, hi) one position up or down. -/
def shiftUp (t : Table PEntry) (lo hi : Nat) : Table PEntry := t.map fun e => if lo ≤ e.1 ∧ e.1 < hi then (e.1 + 1, e.2) else e
def shiftDown (t : Table PEntry) (lo hi : Nat) : Table PEntry := t.map fun e => if lo ≤ e.1 ∧ e.1 < hi then (e.1 - 1, e.2) else e

/-- The table with an entry inserted, its shift done (R207, R210); unchanged where no position is free. -/
def insertEntry (t : Table PEntry) (e : PEntry) : Table PEntry :=
  let k := insertAt t e.priority
  match freeBeyond t k with
  | some f => tset (shiftUp t k f) k e
  | none =>
    match freeBefore t k with
    | some f => tset (shiftDown t (f + 1) k) (k - 1) e
    | none => t

/-- Whether an insertion needs no shift. -/
def noShift (t : Table PEntry) (e : PEntry) : Bool := decide (insertAt t e.priority < prefixSlots) && !thas t (insertAt t e.priority)

/-- Carries out the oldest insertion, and completes PREFIX_INSERT with its last one. -/
def State.insertOne (s : State) : State :=
  match s.pfx.inserts with
  | [] => s
  | i :: rest =>
    let live := fun (e : PEntry) => match tget s.pfx.runs (rcIndex e.run) with
      | some r => r.handle == e.run
      | none => false
    let put := fun (t : Table PEntry) => match i.entry with
      | some e => if live e then insertEntry t e else t
      | none => t
    let s := s.modPfx fun p => { p with inserts := rest, entries := put p.entries, shadow := put p.shadow }
    if i.last then s.answer i.waiter St.ok (toLe 4 i.inserted) else s

/-- Insertions that need no shift are carried out at once, until one that does stands first. -/
def State.insertAhead : Nat → State → State
  | 0, s => s
  | fuel + 1, s =>
    match s.pfx.inserts with
    | [] => s
    | i :: _ => if i.entry.all (noShift s.pfx.entries) then insertAhead fuel s.insertOne else s

/-- PREFIX_INSERT (R208–R211, R410). -/
def cmdPrefixInsert (x : Ctx) (s : State) : CmdM := do
  let first := x.p 4 4
  let count := x.p 8 4
  let priority := x.p 12 1
  let r ← found St.staleHandle (s.runFor x.tag (x.p32 0))
  inRange (decide (1 ≤ count ∧ count ≤ 1024)) 8
  inRange (decide (first + count ≤ r.hashes.length)) 4
  let es : List PEntry := (List.range count).map fun i =>
    { priority, run := r.handle, tenant := x.tag, modelId := r.modelId, hash := r.hashes.getD (first + i) 0 }
  let waits := fun (e : PEntry) => s.pfx.inserts.any fun i => i.entry == some e
  let new := es.eraseDups.filter fun e => !(s.pfx.entries.any (fun t => t.2 == e) || waits e)
  let n := new.length
  req (!s.overQuota x.tag qPrefix n) St.quotaExceeded
  req (decide (s.pfx.entries.length + (s.pfx.inserts.filter (·.entry.isSome)).length + n ≤ prefixSlots)) St.noResource
  if n = 0 ∧ !es.any waits then return .done s (toLe 4 0)
  else
    let items := if n = 0 then [none] else new.map some
    let ins : List PInsert := (indexed items).map fun e => { entry := e.1, tenant := x.tag, waiter := x.c.ref, inserted := n, last := e.2 + 1 == items.length }
    let s := (s.charge x.tag qPrefix n).modPfx fun p =>
      { p with inserts := p.inserts ++ ins, runs := tmod p.runs (rcIndex r.handle) fun r => { r with entries := r.entries + n } }
    return .wait (State.insertAhead s.pfx.inserts.length s)

/-- PREFIX_REMOVE (R212, R410). -/
def cmdPrefixRemove (x : Ctx) (s : State) : CmdM := do
  let first := x.p 4 4
  let count := x.p 8 4
  let r ← found St.staleHandle (s.runFor x.tag (x.p32 0))
  inRange (decide (count ≤ 1024) && (count != 0 || first == 0)) 8
  inRange (count == 0 || decide (first + count ≤ r.hashes.length)) 4
  let hs := (r.hashes.drop first).take count
  let (n, s) := s.removeEntries (rcIndex r.handle) fun e => count == 0 || hs.contains e.hash
  return .done s (toLe 4 n)

/-- The first valid entry for a key (R206, R208). -/
def State.searchPrefix (s : State) (tag modelId : W16) (hash : Nat) : Option PEntry :=
  (s.pfx.entries.find? fun e => e.2.tenant == tag && e.2.modelId == modelId && e.2.hash == hash).map (·.2)

/-- PREFIX_PROBE (R213, R410). -/
def cmdPrefixProbe (x : Ctx) (s : State) : CmdM := do
  let n := x.p 2 1
  inRange (decide (1 ≤ n ∧ n ≤ 64)) 2
  if x.c.dataLen < 12 * n then .error (St.lengthRange, 12, 0)
  let hs := (List.range n).map fun i => field (x.data s) (12 * i) 12
  let hits := (hs.map (s.searchPrefix x.tag (BitVec.ofNat 16 (x.p 0 2)))).takeWhile (·.isSome) |>.filterMap id
  match hits.getLast? with
  | none => return .done s (zeros 12)
  | some e =>
    let len := ((tget s.pfx.runs (rcIndex e.run)).map fun (r : Run) => r.length).getD 0
    return .done s (toLe 1 hits.length ++ toLe 1 e.priority ++ zeros 2 ++ toLe 4 e.run.toNat ++ toLe 4 len)

/-! ## Rows -/

/-- RUN_CREATE (R199). -/
def execRunCreate (m slot : Nat) (s : State) : Host.Outcome State Fault Refusal := cmdRow 0x0700 cmdRunCreate m slot s
/-- RUN_ATTACH (R202). -/
def execRunAttach (m slot : Nat) (s : State) : Host.Outcome State Fault Refusal := cmdRow 0x0701 cmdRunAttach m slot s
/-- RUN_RELEASE (R203). -/
def execRunRelease (m slot : Nat) (s : State) : Host.Outcome State Fault Refusal := cmdRow 0x0702 cmdRunRelease m slot s
/-- PREFIX_INSERT (R209). -/
def execPrefixInsert (m slot : Nat) (s : State) : Host.Outcome State Fault Refusal := cmdRow 0x0703 cmdPrefixInsert m slot s
/-- PREFIX_REMOVE (R212). -/
def execPrefixRemove (m slot : Nat) (s : State) : Host.Outcome State Fault Refusal := cmdRow 0x0704 cmdPrefixRemove m slot s
/-- PREFIX_PROBE (R213). -/
def execPrefixProbe (m slot : Nat) (s : State) : Host.Outcome State Fault Refusal := cmdRow 0x0705 cmdPrefixProbe m slot s

/-- PREFIX_SHIFT_COMPLETE (R210): the oldest insertion is carried out, and those behind it that need no shift. -/
def execPrefixShiftComplete (s : State) : Host.Outcome State Fault Refusal :=
  let s := s.insertOne
  .next (State.insertAhead s.pfx.inserts.length s)

/-! ## The shadow (R215) -/

/-- Drops the entry at a position, with its run reference (R215). -/
def State.loseEntry (s : State) (pos : Nat) : State :=
  let e := tget s.pfx.shadow pos
  let s := s.modPfx fun p => { p with entries := tdel p.entries pos, shadow := tdel p.shadow pos }
  match e with
  | none => s
  | some e =>
    let i := rcIndex e.run
    let s := s.modPfx fun p => { p with runs := tmod p.runs i fun r => { r with entries := r.entries - 1 } }
    (s.credit e.tenant qPrefix 1).settleRun i

/-- What the comparison does about one fault it met (R215). -/
def State.healEntry (s : State) (f : PrefixFault) : State :=
  let count := fun (s : State) => s.modPfx fun p => { p with softErrors := p.softErrors + 1 }
  match f with
  | .mismatch pos =>
    if pos ≥ prefixSlots then s
    else
      let s := s.modPfx fun p => { p with entries := match tget p.shadow pos with
        | some e => tset p.entries pos e
        | none => tdel p.entries pos }
      (count s).raise Ev.prefixSoftError .module [pos]
  | .shadowLost covered =>
    let ps := covered.filter fun p => decide (p < prefixSlots)
    if ps.isEmpty then s else (count (ps.foldl State.loseEntry s)).raise Ev.prefixSoftError .module ps

/-- PREFIX_SHADOW_COMPARE (R215): every 10 s. -/
def execPrefixShadowCompare (faults : List PrefixFault) (s : State) : Host.Outcome State Fault Refusal :=
  if s.pfx.lastCompare + 10000000000 ≤ s.time.localNow then
    .next (faults.foldl State.healEntry (s.modPfx fun p => { p with lastCompare := s.time.localNow }))
  else .next s

end Sys2Proof.Machine
end

