-- ==== Sys2Proof/Machine/CmdTele.lean ====
section
/-!
DEFINITION. Telemetry commands (R334–R336, R414, R475, R547).
-/
namespace Sys2Proof.Machine

/-- SAMPLE_SET (R334, R414): a new ring in place of the old one; the first period starts at its next boundary. -/
def cmdSampleSet (x : Ctx) (s : State) : CmdM := do
  let period := x.p 0 4
  let n := x.p 6 1
  let records := x.p 8 4
  if n > 0 ∧ x.c.dataLen < 2 * n then .error (St.lengthRange, 12, 0)
  let tags := (List.range n).map fun i => BitVec.ofNat 16 (field (x.data s) (2 * i) 2)
  req (tags.all fun t => (s.tenant? t).isSome) St.staleHandle
  inRange (decide (period ≤ 1000000)) 0
  inRange (decide (x.p 4 1 < 16)) 4
  inRange (decide (n ≤ 64)) 6
  inRange (decide (4096 ≤ records ∧ records ≤ 1048576)) 8
  let s := s.dropArea s.flyer.tele.area
  let (a, s) ← found St.noResource (s.takeSlots (slotsFor (records * 32)))
  let (w, s) ← found St.noResource (s.mapArea x.c.mb none a)
  let ns := period * 1000
  let tele : Telemetry :=
    { period, portMask := x.p 4 1, classMask := x.p 5 1, tenants := tags.map tidOf, records, area := a,
      next := if period = 0 then 0 else BitVec.ofNat 64 ((s.time.now.toNat / ns + 1) * ns) }
  let s := (List.range portCount).foldl (fun s p => s.modPort p fun y => { y with framesSent := [], maxDelay := [] }) s
  let s := { s with tenants := s.tenants.map fun (t : Nat × Tenant) => (t.1, { t.2 with telePos := 0 }) }
  return .done (s.modFlyer fun f => { f with tele }) (zeros 8 ++ toLe 8 w)

/-- A record of the telemetry ring by its number since the ring was made. -/
def State.teleAt (s : State) (i : Nat) : List Byte := s.mem.areaRead s.flyer.tele.area (i % max 1 s.flyer.tele.records * 32) 32

/-- Whether a record has been read by mailbox 0 or by its tenant. -/
def State.teleConsumed (s : State) (i : Nat) : Bool :=
  decide (i < s.flyer.tele.allPos) ||
    (match tget s.tenants (field (s.teleAt i) 10 2 % 4096) with
     | some t => decide (i < t.telePos)
     | none => false)

/-- Space is freed from the oldest record on, as far as records have been read. -/
def State.teleFree : Nat → State → State
  | 0, s => s
  | fuel + 1, s =>
    let y := s.flyer.tele
    if y.readPos < y.written ∧ s.teleConsumed y.readPos then
      teleFree fuel (s.modFlyer fun f => { f with tele := { y with readPos := y.readPos + 1 } })
    else s

/-- TELEMETRY_READ (R334–R336, R414). -/
def cmdTelemetryRead (x : Ctx) (s : State) : CmdM := do
  let all := x.c.mb == 0 && x.tag == 0
  req (all || (s.tenant? x.tag).isSome) St.staleHandle
  inRange (decide (1 ≤ x.p 0 4 ∧ x.p 0 4 ≤ x.c.dataLen / 32)) 0
  let y := s.flyer.tele
  let from' := if all then y.allPos else ((tget s.tenants (tidOf x.tag)).getD {}).telePos
  let first := max from' (y.written - y.records)
  let mine := (List.range (y.written - first)).filterMap fun i =>
    let b := s.teleAt (first + i)
    if all || field b 10 2 % 4096 == tidOf x.tag then some (first + i, b) else none
  let got := mine.take (x.p 0 4)
  let stop := match mine[got.length]? with
    | some r => r.1
    | none => y.written
  let s := x.output s (got.map (·.2)).flatten
  let s := if all then s.modFlyer fun f => { f with tele := { f.tele with allPos := stop } }
           else s.modTenant x.tag fun t => { t with telePos := stop }
  return .done (s.teleFree y.records) (toLe 4 got.length ++ toLe 4 (sat32 y.dropped))

/-- A counter record of STATS_READ. -/
def statRecord (counter inst value : Nat) : List Byte := toLe 4 counter ++ toLe 4 inst ++ toLe 8 value

/-- The counters of SCOPE 0x4 (R475). -/
def State.relStats (s : State) : List (List Byte) :=
  let one := fun (code : Nat) (i : Nat) => statRecord (0x0400 + code) i (tnum s.rel.counters (relCounter code i))
  (List.range 1088).flatMap (fun i => [one 1 i, one 2 i, statRecord 0x0403 i (tnum s.rel.margins i)]) ++
  (List.range 8).flatMap (fun i => [one 4 i, one 5 i, one 6 i]) ++ (List.range 36).map (one 7) ++
  ([1, 2, 3, 4, 5].map (one 8)) ++ [one 9 1, one 9 5]

/-- The sensors of R547 by ID. -/
def sensorIds : List Nat := (List.range 27).map (· + 1)

/-- Readings of the sensors: what a sensor measures is not the module's state (DESIGN CHOICE, log 3). -/
def State.sensorStats (s : State) : List (List Byte) × State :=
  sensorIds.foldl (fun (acc : List (List Byte) × State) i =>
    let (v, s) := acc.2.free (2 ^ 64)
    (acc.1 ++ [statRecord i 0 v], s)) ([], s)

/-- STATS_READ (R414, R475, R547); the spec lists no counters of the other scopes, and none of these is a tenant's. -/
def cmdStatsRead (x : Ctx) (s : State) : CmdM := do
  let scope := x.p 0 2
  mode (decide (1 ≤ scope ∧ scope ≤ 5))
  req (x.c.mb == 0 && x.tag == 0 || (s.tenant? x.tag).isSome) St.staleHandle
  let (rs, s) := if x.c.mb ≠ 0 then ([], s) else if scope = 1 then s.sensorStats else if scope = 4 then (s.relStats, s) else ([], s)
  if x.c.dataLen < 16 * rs.length then .error (St.lengthRange, 12, 0)
  return .done (x.output s rs.flatten) (toLe 4 rs.length)

/-- SAMPLE_SET (R334, R414). -/
def execSampleSet (m slot : Nat) (s : State) : Host.Outcome State Fault Refusal := cmdRow 0x0B00 cmdSampleSet m slot s
/-- TELEMETRY_READ (R414). -/
def execTelemetryRead (m slot : Nat) (s : State) : Host.Outcome State Fault Refusal := cmdRow 0x0B01 cmdTelemetryRead m slot s
/-- STATS_READ (R414, R475). -/
def execStatsRead (m slot : Nat) (s : State) : Host.Outcome State Fault Refusal := cmdRow 0x0B02 cmdStatsRead m slot s

end Sys2Proof.Machine
end

