-- ==== Sys2Proof/Machine/Streaming.lean ====
section
/-!
DEFINITION. Streaming of admitted jobs: leas at the spindles (R88, R101), items and dealing (R94, R106, R107, R109), the
barrier (R118), whorl jobs (R165, R166), the end of streaming (R77, R105, R130–R133) and late jobs (R469).
-/
namespace Sys2Proof.Machine

/-! ## Rows of an item -/

/-- The rows of an entry that the work items of one pass take (R93, R111). -/
def JobEntry.passRows (e : JobEntry) (p : Nat) : List Nat := e.groups.getD p []

/-- What the score path knows of a row (R97, R189). -/
def State.scoreCtx (s : State) (j : Job) (n : Nat) (e : JobEntry) (row : Nat) : ScoreCtx :=
  let b := j.bytes
  let shift := if jdIsPadded b then jdPadded b - e.len else 0
  { q := ((j.queryRow e.elements row).drop (jdKeyFirst b)).take (jdDk b), scale := jdScale b, first := e.first, last := e.last, shift,
    stop := if jdIsPadded b then jdPadded b else e.last,
    prog := match jdProgram b with
      | some i => (tget s.images.score i).map fun p => (i, p)
      | none => none
    arg0 := jdArg b 0, arg1 := jdArg b 1, row, index := jdQueryBase b + row, layer := jdLayer b, hg := jdHg b, entry := n,
    tag := entryTag b, weightBf16 := jdWeightBf16 b }

/-- A token as one row sees it (R110, R111). -/
def rowToken (b up : List Byte) (row : Nat) (v : List W32) : Token :=
  if jdExpanded b then expandToken up (jdLayer b) (headOf (jdQ b) (upHeads up) row) v
  else ((v.drop (jdKeyFirst b)).take (jdDk b), (v.drop (jdValueFirst b)).take (jdDv b))

/-- The decoded tokens of a lea below TOKEN_COUNT, or none where the lea fails its check (R57, R74, R88). -/
def State.leaTokens (s : State) (j : Job) (e : JobEntry) (l : Leaf) (bob lea : Nat) : Option (Table (List W32)) :=
  let m := s.memFor j.tenant
  let addr := slotAddr l.tier l.pbn
  let slots := (leaSlots e.cap lea).filter fun i => decide (i < l.count)
  if s.lineBad (addr + 16384 * lea) 16384 then none
  else if lea < sealedLeas e.cap l && !leaOk m addr (jdLayer j.bytes) (jdHg j.bytes) bob lea then none
  else slots.mapM fun i => (tokenValues m addr e.elements l.format e.cap (slubList m addr) i).map fun v => (i, v)

/-- A bobbin of a job that failed a check (R42, R75). -/
def State.damageFor (s : State) (e : JobEntry) (j : Job) (bob : Nat) : State :=
  match s.skein? (skIndex e.skein) with
  | some k => if k.handle = e.skein then s.damage (skIndex e.skein) (leafKey (jdLayer j.bytes) (jdHg j.bytes) bob) else s
  | none => s

/-! ## Partial states (R106, R107) -/

/-- The key of a row's partial state: order class, or sub-array. -/
def partKey (j : Job) (row bob sub : Nat) : Nat := row * 4096 + if jdDet j.bytes then bob % 256 else sub

def Job.part (j : Job) (key : Nat) : RowState := (tget j.states key).getD (RowState.empty (jdDv j.bytes))

/-- The states of some rows after one block each, or the trap of the score program. -/
def State.blockRows (s : State) (j : Job) (n : Nat) (e : JobEntry) (bob count : Nat) (toks : Table (List W32)) (slots : List Nat)
    (rows : List Nat) (get : Nat → RowState) : Except Trap (Table RowState) :=
  let up := s.upImage j
  rows.mapM fun r => do
    let tok := fun (i : Nat) => rowToken j.bytes up r ((tget toks i).getD [])
    let st ← (s.scoreCtx j n e r).block bob (bob * e.cap) count tok slots (get r)
    return (r, st)

/-! ## LEA_ARRIVAL (R88, R94, R101, R106, R107, R118) -/

/-- Whether an item may start on a sub-array: in deterministic mode its unit is dealt there, and the bobbins before it in its
order class are done (R107). -/
def Job.inOrder (j : Job) (i : Item) (u : Nat) : Bool :=
  !jdDet j.bytes || (i.dealt == some u && j.items.all fun o => !(o.unit == i.unit && decide (o.bobbin < i.bobbin)) || o.done)

/-- Whether a sub-array takes a new item: the clocks run, the spindle serves the job and no barrier awaits it, its fold is free
to change or equal, and the sub-array is free (R94, R106, R107, R118, R496). -/
def State.takesItem (s : State) (j : Job) (i : Item) (sp sub : Nat) : Bool :=
  let flying := s.flying
  let mine := match s.rel.spindles[sp]? with
    | some p => p.foldDepth == j.fold.1 && p.foldWidth == j.fold.2
    | none => false
  decide (s.power.state = .run) && (!s.power.inTransition || s.power.target == .run) && s.spindleServes sp &&
  (jdBarrier j.bytes == 0 || bit sp (jdBarrier j.bytes)) && decide (sub < foldSubs j.fold) && !flying.contains (sp * 64 + sub) &&
  (mine || !(flying.any fun f => f / 64 == sp)) && !s.awaited sp && j.inOrder i (sp * 64 + sub)

def State.modSpindle (s : State) (sp : Nat) (f : Spindle → Spindle) : State := s.modRel fun r => { r with spindles := r.spindles.modify sp f }

/-- A spindle set to a job's fold (R94, R116). -/
def State.setFold (s : State) (sp : Nat) (j : Job) : State :=
  s.modSpindle sp fun p => { p with foldDepth := j.fold.1, foldWidth := j.fold.2, deterministic := jdDet j.bytes, expanded := jdExpanded j.bytes }

/-- One lea of an item at a sub-array: checked, decoded, and its block taken into every row's state. -/
def State.streamLea (s : State) (id : Nat) (j : Job) (n : Nat) (i : Item) (e : JobEntry) (lea u : Nat) : State :=
  let rows := e.passRows i.pass
  let key := fun (r : Nat) => partKey j r i.bobbin u
  let saved := if i.sub.isNone then rows.map fun r => (key r, j.part (key r)) else i.saved
  let i1 := { i with leas := i.leas + 1, sub := some u, saved }
  let s := (if i.sub.isNone then s.setFold (u / 64) j else s).checkTag j.tenant (u / 64) (slotAddr i.leaf.tier i.leaf.pbn + 16384 * lea)
  match s.leaTokens j e i.leaf i.bobbin lea with
  | none =>
    let i2 := { i1 with lost := i1.lost ++ [lea] }
    ((s.setJob id { j with items := j.items.set n i2 }).damageFor e j i.bobbin).restSpindles
  | some toks =>
    match s.blockRows j i.entry e i.bobbin i.leaf.count toks (leaSlots e.cap lea) rows fun r => j.part (key r) with
    | .error t => s.trapJob id j 1 ((jdProgram j.bytes).getD 0) t
    | .ok out =>
      let states := out.foldl (fun t x => tset t (key x.1) x.2) j.states
      (s.setJob id { j with items := j.items.set n i1, states }).restSpindles

/-- LEA_ARRIVAL (R101): nothing happens where the lea is not the item's next, or the sub-array may not take it (DEDUCED, log 2). -/
def execLeaArrival (id item lea sp sub : Nat) (s : State) : Host.Outcome State Fault Refusal :=
  if sp ≥ 8 then .fault .noSuchUnit else
  match s.job? id with
  | none => .next s
  | some j =>
    match j.items[item]? with
    | none => .next s
    | some i =>
      match j.entries[i.entry]? with
      | none => .next s
      | some e =>
        let u := sp * 64 + sub
        let ready := !j.whorls && j.phase == .streaming && !i.done && lea == i.leas && decide (lea < leasOf e.cap i.leaf.count)
        let placed := match i.sub with
          | some x => x == u && decide (s.power.state = .run ∨ s.power.state = .hold)
          | none => s.takesItem j i sp sub
        if ready && placed then .next (s.streamLea id j item i e lea u) else .next s

/-- SPINDLE_ITEM_COMPLETE (R106): every lea of the item has been handled; its sub-array is free, and is the latest whose
partial completed. -/
def execSpindleItemComplete (id item : Nat) (s : State) : Host.Outcome State Fault Refusal :=
  match s.job? id with
  | none => .next s
  | some j =>
    match j.items[item]? with
    | none => .next s
    | some i =>
      match i.sub, j.entries[i.entry]? with
      | some u, some e =>
        if i.done || decide (i.leas < leasOf e.cap i.leaf.count) then .next s
        else .next (s.setJob id { j with items := j.items.set item { i with done := true }, order := (j.order.filter (· != u)) ++ [u] }).restSpindles
      | _, _ => .next s

/-! ## Launch and barrier (R118, R127) -/

/-- A job whose launch count and barrier have been met starts streaming. -/
def State.release (s : State) (id : Nat) (j : Job) : State :=
  let named := maskSpindles (jdBarrier j.bytes)
  if s.time.now < j.launch then s.setJob id { j with phase := .launchWait }
  else if named.all j.barrier.contains then s.setJob id { j with phase := .streaming }
  else s.setJob id { j with phase := .barrier }

/-- LAUNCH_COUNT_REACHED (R127). -/
def execLaunchCountReached (id : Nat) (s : State) : Host.Outcome State Fault Refusal :=
  match s.job? id with
  | none => .next s
  | some j =>
    if j.phase ≠ .launchWait ∨ s.time.now < j.launch then .next s
    else .next (s.release id { j with startAt := s.time.localNow })

/-- SPINDLE_BARRIER_ARRIVE (R118): a named spindle with nothing in flight takes the job's fold and its first queries. -/
def execSpindleBarrierArrive (id sp : Nat) (s : State) : Host.Outcome State Fault Refusal :=
  if sp ≥ 8 then .fault .noSuchUnit else
  match s.job? id with
  | none => .next s
  | some j =>
    let may := s.barrierOf sp == some id && !j.barrier.contains sp && !(s.flying.any fun f => f / 64 == sp) && s.spindleServes sp && s.awake
    if may then .next ((s.setFold sp j).release id { j with barrier := j.barrier ++ [sp] }) else .next s

/-! ## Whorl jobs (R165, R166) -/

/-- The states of an item's rows on a group's whorls, or on a spindle where it lies at tier 0: each lost lea with it. -/
def State.whorlItem (s : State) (j : Job) (i : Item) (e : JobEntry) : Except Trap (List Nat × Table RowState) :=
  let rows := e.passRows 0
  let start : List Nat × Table RowState := ([], rows.map fun r => (r, RowState.empty (jdDv j.bytes)))
  (List.range (leasOf e.cap i.leaf.count)).foldl (fun acc lea => do
    let (lost, states) ← acc
    match s.leaTokens j e i.leaf i.bobbin lea with
    | none => return (lost ++ [lea], states)
    | some toks =>
      let get := fun (r : Nat) => (tget states r).getD (RowState.empty (jdDv j.bytes))
      if i.leaf.tier = 0 then
        let out ← s.blockRows j i.entry e i.bobbin i.leaf.count toks (leaSlots e.cap lea) rows get
        return (lost, out)
      else
        let out ← (List.range 4).foldl (fun acc k => do
          let st ← acc
          let slots := whorlSlots e.elements i.leaf.format e.cap lea k
          let one ← s.blockRows j i.entry e i.bobbin i.leaf.count toks slots rows fun _ => RowState.empty (jdDv j.bytes)
          return (one.zip st).map fun (x : (Nat × RowState) × (Nat × RowState)) => (x.1.1, RowState.merge x.2.2 x.1.2)) (.ok states)
        return (lost, out)) (.ok start)

/-- The order in which a whorl job's bobbins completed: the items named, each once, then the rest (R106, R166). -/
def itemOrder (n : Nat) (order : List Nat) : List Nat :=
  let named := (order.filter fun i => decide (i < n)).eraseDups
  named ++ (List.range n).filter fun i => !named.contains i

/-- All items of a whorl job: its items with their lost leas, and the row states under the keys of R107, or merged in
completion order under key 0 (R166). -/
def State.whorlItems (s : State) (j : Job) (order : List Nat) : Except Trap Job :=
  let turn := if jdDet j.bytes then List.range j.items.length else itemOrder j.items.length order
  turn.foldl (fun acc n => do
    let j ← acc
    match j.items[n]? with
    | none => return j
    | some i =>
      match j.entries[i.entry]? with
      | none => return j
      | some e =>
        let (lost, out) ← s.whorlItem j i e
        let states := out.foldl (fun t (x : Nat × RowState) =>
          let key := partKey j x.1 i.bobbin 0
          tset t key ((j.part key).merge x.2)) j.states
        return { j with items := j.items.set n { i with lost, done := true }, states }) (.ok j)

/-! ## The end of streaming (R105, R107, R130–R133) -/

/-- A spindle's state of a row: the partials of its sub-arrays, in the order they completed, merged in the tree of the array
(R105, R106; DEDUCED, log 76). -/
def Job.spindleState (j : Job) (row sp : Nat) : RowState :=
  mergeTree (jdDv j.bytes) ((j.order.filter fun u => u / 64 == sp).map fun u => j.part (row * 4096 + u))

/-- The spindles of a job in the order in which the last of their partials completed. -/
def Job.spindleOrder (j : Job) : List Nat := ((j.order.map (· / 64)).reverse.eraseDups).reverse

/-- The final state of a row: the tree over 256 classes, or the spindles' states merged in the order they completed (R105–R107). -/
def Job.rowState (j : Job) (row : Nat) : RowState :=
  let dv := jdDv j.bytes
  if jdDet j.bytes then mergeTree dv ((List.range 256).map fun c => j.part (row * 4096 + c))
  else if j.whorls then j.part (row * 4096)
  else mergeAll dv (j.spindleOrder.map (j.spindleState row))

/-- The rescale table's factors applied (R77). -/
def State.rescale (s : State) (j : Job) (st : RowState) : RowState :=
  match jdRescale j.bytes with
  | none => st
  | some n => match tget s.images.tables n with
    | none => st
    | some t =>
      let at0 := 64 + jdLayer j.bytes * field t.image 2 2 * 4
      { st with acc := (indexed st.acc).map fun a => fmul a.1 (BitVec.ofNat 32 (field t.image (at0 + 4 * a.2) 4)) }

/-- Tokens of the range that one item covers, and those that it lost (R75, R132). -/
def itemTokens (e : JobEntry) (i : Item) : Nat × Nat :=
  let t := e.cap / 4
  let part := fun (lea : Nat) =>
    let lo := max (i.bobbin * e.cap + lea * t) e.first
    let hi := min (min (i.bobbin * e.cap + (lea + 1) * t) (i.bobbin * e.cap + i.leaf.count)) e.last
    hi - lo
  let (bad, good) := (List.range 4).partition i.lost.contains
  ((good.map part).sum, (bad.map part).sum)

/-- COVERAGE and MISSING of the rows of one pass of an entry (R132). -/
def Job.coverage (j : Job) (n : Nat) (e : JobEntry) (p : Nat) : Nat × Nat :=
  let mine := (j.items.filter fun i => i.entry == n && i.pass == p).map (itemTokens e)
  let pad := if jdIsPadded j.bytes then jdPadded j.bytes - e.len else 0
  ((mine.map (·.1)).sum + pad, (mine.map (·.2)).sum + e.missing)

/-- The ply rows of one entry, ascending (R130, R131). -/
def State.entryRows (s : State) (j : Job) (n : Nat) (e : JobEntry) : List Byte :=
  let b := j.bytes
  (List.range e.rowCount).flatMap fun i =>
    let r := e.rowFirst + i
    let (coverage, missing) := j.coverage n e ((e.groups.findIdx? fun g => g.contains r).getD 0)
    plyRow s.sourceNode
        { skein := e.skein.toNat, layer := jdLayer b, hg := jdHg b,
          flags := (if jdDet b then Ply.deterministic else 0) + (if jdSelective b then Ply.selective else 0),
          step := jdStep b, qi := jdQueryBase b + r, coverage, missing, combine := jdCombine b, rank := jdRank b }
        (s.rescale j (j.rowState r)) (jdPlySlub b) (jdPlyBf16 b)

/-- All rows of a job in ascending QUERY_INDEX within list order (R133). -/
def State.jobRows (s : State) (j : Job) : List Byte := (indexed j.entries).flatMap fun e => s.entryRows j e.2 e.1

/-! ## Late jobs (R469) -/

/-- Leas and multiply-accumulates of a spindle job. -/
def Job.leaCount (j : Job) : Nat := (j.items.map fun i => match j.entries[i.entry]? with
  | some e => leasOf e.cap i.leaf.count
  | none => 0).sum
def Job.macs (j : Job) : Nat := (j.items.map fun i => match j.entries[i.entry]? with
  | some e => i.leaf.count * (e.passRows i.pass).length * (jdDk j.bytes + jdDv j.bytes)
  | none => 0).sum

/-- Whether a spindle job's streaming exceeded 2P + 2 µs: P from 22,940 bytes and 3,565,000 MAC × u per nanosecond. -/
def Job.late (j : Job) (now : Nat) : Bool :=
  let above := now - j.startAt - 2000
  let q := mostRows j.entries
  let d := foldDepthOf j.fold.1
  let w := foldWidthOf j.fold.2
  decide (j.startAt + 2000 < now ∧ 2 * j.leaCount * 16384 < above * 22940 ∧
    2 * j.macs * (2 * d * passes q w * w) < above * 3565000 * ((jdDk j.bytes + jdDv j.bytes) * q))

/-- Counts a late job on its skeins; sixteen within 1 s raise STRAGGLER, at most once per skein per second. Which cause
accounted for most of the lateness is a free value (DESIGN CHOICE, log 3). -/
def State.countLate (s : State) (j : Job) : State :=
  if j.whorls || !j.late s.time.localNow then s else
  j.entries.foldl (fun s e =>
    match s.skein? (skIndex e.skein) with
    | none => s
    | some k =>
      if k.handle ≠ e.skein then s else
      let now := s.time.localNow
      let recent := (k.lateJobs.filter fun t => decide (now < t + 1000000000)) ++ [now]
      let quiet := match k.lastStraggler with
        | some t => decide (now < t + 1000000000)
        | none => false
      if recent.length ≥ 16 ∧ !quiet then
        let (c, s) := s.free 5
        (s.setSkein (skIndex e.skein) { k with lateJobs := recent, lastStraggler := some now }).raise Ev.straggler (.tenant k.tenant)
          [k.handle.toNat, c + 1]
      else s.setSkein (skIndex e.skein) { k with lateJobs := recent }) s

/-- The bobbins that a whorl job found damaged (R42, R165). -/
def State.damageLost (s : State) (j : Job) : State :=
  j.items.foldl (fun s i => match j.entries[i.entry]? with
    | some e => if i.lost.isEmpty then s else s.damageFor e j i.bobbin
    | none => s) s

/-- A whorl job's accesses present its tenant's tag (R438). -/
def State.whorlTag (s : State) (j : Job) : State := match j.items.head? with
  | some i => s.checkTag j.tenant (8 + stackOf i.leaf.pbn) (slotAddr i.leaf.tier i.leaf.pbn)
  | none => s

/-- JOB_STREAM_COMPLETE (R105, R165): merged, rescaled, narrowed and delivered. -/
def execJobStreamComplete (id : Nat) (order : List Nat) (s : State) : Host.Outcome State Fault Refusal :=
  match s.job? id with
  | none => .next s
  | some j =>
    if j.phase ≠ .streaming ∨ !s.awake then .next s
    else if j.whorls then
      if s.power.state ≠ .run then .next s
      else if (j.items.any fun i => i.leaf.tier == 0) && s.spindlesInService == 0 then .next (s.endJob id j St.noResource 0 0)
      else match s.whorlItems j order with
        | .error t => .next (s.trapJob id j 1 ((jdProgram j.bytes).getD 0) t)
        | .ok j => .next (((s.whorlTag j).damageLost j).deliverJob id j (s.jobRows j) false)
    else if j.items.all (·.done) then .next ((s.countLate j).deliverJob id j (s.jobRows j) false)
    else .next s

/-! ## A spindle that leaves service (R109, R118) -/

/-- A job's items of a lost spindle dealt again from their start: in deterministic mode those not done, with the state of
their class as it was; otherwise every item of its sub-arrays, whose states are lost (R109). -/
def Job.redeal (j : Job) (subs : List Nat) (sp : Nat) : Job :=
  let at' := fun (u : Option Nat) => match u with
    | some u => u / 64 == sp
    | none => false
  let on := fun (i : Item) => at' i.sub
  let fresh := fun (i : Item) => { i with leas := 0, lost := [], done := false, sub := none, saved := [] }
  if jdDet j.bytes then
    let hit := j.items.filter fun i => on i && !i.done
    let k : Job :=
      { j with states := hit.foldl (fun t (i : Item) => i.saved.foldl (fun t x => tset t x.1 x.2) t) j.states
               items := j.items.map fun i => if on i && !i.done then fresh i else i }
    k.deal subs fun i => at' i.dealt && !i.done
  else
    { j with states := j.states.filter fun x => x.1 % 4096 / 64 != sp
             order := j.order.filter fun u => u / 64 != sp
             items := j.items.map fun i => if on i then fresh i else i }

/-- Whether a job can go on: no barrier still waits for a lost spindle, and a spindle that may take its items is left
(R109, R118). -/
def State.canGoOn (s : State) (j : Job) (sp : Nat) : Bool :=
  let waits := j.phase == .barrier || j.phase == .launchWait
  let mask := jdBarrier j.bytes
  !(waits && bit sp mask) &&
  (j.items.all (·.done) || (if mask = 0 then decide (0 < s.spindlesInService) else (maskSpindles mask).any s.spindleServes))

/-- The items of a spindle that has left service are dealt again, and jobs that cannot go on fail (R109, R118). -/
def State.redeal (s : State) (sp : Nat) : State :=
  (s.work.jobs.filter fun x => !x.2.whorls && field x.2.bytes 0 1 == 0x10 &&
      (x.2.phase == .launchWait || x.2.phase == .barrier || x.2.phase == .streaming)).foldl (fun s x =>
    let j := x.2.redeal (s.subArrays x.2) sp
    if s.canGoOn j sp then s.setJob x.1 j else (s.setJob x.1 j).endJob x.1 j St.noResource 0 0) s

/-- A spindle out of service in a STATE of R116, with what follows. -/
def State.spindleOut (s : State) (sp state : Nat) : State :=
  (((s.modSpindle sp fun p => { p with state }).redeal sp).restSpindles).refreshLevel

/-- SPINDLE_LEAVES_SERVICE (R109): an unreported fault takes the spindle OFFLINE. -/
def execSpindleLeavesService (sp : Nat) (s : State) : Host.Outcome State Fault Refusal :=
  if sp ≥ 8 then .fault .noSuchUnit
  else match s.rel.spindles[sp]? with
    | some p => if p.state ≤ 2 ∧ s.awake then .next (s.spindleOut sp 4) else .next s
    | none => .next s

end Sys2Proof.Machine
end

