-- ==== Sys2Proof/Machine/WhorlCmds.lean ====
section
/-!
DEFINITION. Whorl commands (R167–R170) and waits (R319, R320).
-/
namespace Sys2Proof.Machine

/-! ## Whorl commands (R167) -/

def wcOp (b : List Byte) : Nat := bits 3 0 (field b 4 4)
def wcSkein (b : List Byte) : W32 := BitVec.ofNat 32 (field b 16 4)
def wcDest (b : List Byte) : W32 := BitVec.ofNat 32 (field b 20 4)
def wcLayer (b : List Byte) : Nat := field b 24 2
def wcLayers (b : List Byte) : Nat := field b 26 2
def wcHg (b : List Byte) : Nat := field b 28 2
def wcHgs (b : List Byte) : Nat := field b 30 2
def wcBob (b : List Byte) : Nat := field b 32 4
def wcBobs (b : List Byte) : Nat := field b 36 4
def wcFormat (b : List Byte) : Nat := field b 40 1

/-- The rows that a command names, ascending layer and then head group. -/
def wcRows (b : List Byte) : List Nat :=
  (List.range (wcLayers b)).flatMap fun l => (List.range (wcHgs b)).map fun h => rowKey (wcLayer b + l) (wcHg b + h)
/-- The bobbin indices that a command names, ascending. -/
def wcBobbins (b : List Byte) : List Nat := (List.range (wcBobs b)).map (wcBob b + ·)
/-- The leaf keys that a command names. -/
def wcKeys (b : List Byte) : List Nat := (wcRows b).flatMap fun r => (wcBobbins b).map (r * 65536 + ·)

/-- Whether the named layers and head groups lie in a skein's geometry. -/
def wcInside (b : List Byte) (k : Skein) : Bool := decide (wcLayer b + wcLayers b ≤ k.layers ∧ wcHg b + wcHgs b ≤ k.heads)

/-- The checks of R12 and R167: the source, and the destination of a COPY. -/
def State.whorlChecks (s : State) (tag : W16) (b : List Byte) : Res (Skein × Option Skein) := do
  let op := wcOp b
  checkHeader b 0x12 1 (field b 3 1 == 0 && bits 31 4 (field b 4 4) == 0 && (op == 1 || field b 20 4 == 0) &&
    bits 7 4 (wcFormat b) == 0 && (op == 2 || wcFormat b == 0) && zeroIn b 41 23)
  need (decide (1 ≤ op ∧ op ≤ 3)) St.invalidMode
  let k ← s.skeinOf tag (wcSkein b)
  let d ← if op = 1 then (s.skeinOf tag (wcDest b)).map some else .ok none
  need (decide (1 ≤ wcLayers b ∧ wcLayers b ≤ 256 ∧ 1 ≤ wcHgs b ∧ wcHgs b ≤ 256 ∧ 1 ≤ wcBobs b ∧ wcBobs b ≤ 65536) && wcInside b k &&
    (match d with | some d => wcInside b d | none => true)) St.lengthRange
  need ((wcRows b).all fun r => decide ((wcBob b + wcBobs b) ≤ (k.rowLength r + k.cap - 1) / k.cap)) St.lengthRange
  return (k, d)

/-! ## COPY (R168, R171) -/

/-- The checks of R168 before anything is written. -/
def State.copyChecks (s : State) (b : List Byte) (k d : Skein) : Res Unit := do
  need (k.elements == d.elements && k.format == d.format) St.invalidMode
  need ((wcRows b).all fun r => d.rowLength r == wcBob b * d.cap) St.lengthRange
  let leaves := (wcKeys b).map (tget k.leaves)
  need (leaves.all fun l => match l with | some l => l.tier != 2 | none => false) St.notResident
  need (leaves.all fun l => match l with | some l => l.tier != 3 && l.check != .damaged | none => false) St.recomputeNeeded
  let tokens := fun (bob : Nat) => ((wcRows b).map fun r => ((tget k.leaves (r * 65536 + bob)).map fun (l : Leaf) => l.count).getD 0).foldl max 0
  let indices := (wcBobbins b).flatMap fun bob => (List.range (tokens bob)).map (bob * k.cap + ·)
  let held := indices.filter (thas k.reel)
  let n := (wcKeys b).length + (d.growth (wcKeys b) held (wcRows b)).slots d
  s.dramNeed d.tenant n
  need (held.all fun i => match tget d.reel i, tget k.reel i with
    | some x, some y => x == y
    | _, _ => true) St.appendConflict

/-- The bytes, the sketch, the reel entries and the history of one copied bobbin. -/
def State.copyInto (s : State) (src dst key : Nat) (k : Skein) (l : Leaf) (pbn : Nat) : State :=
  match s.skein? dst with
  | none => s
  | some d =>
    let mem := s.mem.copy (slotAddr l.tier l.pbn) (slotAddr 1 pbn) slotBytes
    let base := keyBob key * k.cap
    let ids := (k.reel.filter fun e => decide (base ≤ e.1 ∧ e.1 < base + l.count))
    let hist := (k.history.filter fun e => e.1 / 64 == keyRow key && decide (base ≤ e.2.1 ∧ e.2.1 < base + l.count))
    let leaf := { l with pin := false, lock := false, move := false, tier := 1, pbn := pbn }
    let d := ((d.addReel ids).takeHistory (hist.map fun e => (e.1, e.2.1, e.2.2)))
    let d := ({ d with leaves := tset d.leaves key leaf }).restate
    let own := (List.range 16).filterMap fun w => (tget k.sketches (sketchKey key w)).map fun r => (w, r)
    let d := if !d.sketch then d
      else if k.sketch ∧ l.tier = 1 ∧ src ≠ dst then
        { d with sketches := own.foldl (fun t x => tset t (sketchKey key x.1) x.2) d.sketches }
      else d.rebuildSketch mem key
    (({ s with mem }).setSkein dst d).checkTails

/-- Copies one bobbin: the status that ends the command, 0 to go on (R168). -/
def State.copyOne (s : State) (src dst key : Nat) : Nat × State :=
  match s.skein? src, s.skein? dst with
  | some k, some d =>
    match tget k.leaves key with
    | none => (St.recomputeNeeded, s)
    | some l =>
      if !bobbinOk s.mem k.cap l (slotAddr l.tier l.pbn) (keyLayer key) (keyHg key) (keyBob key) then
        (St.recomputeNeeded, s.damage src key)
      else
        let indices := ((List.range l.count).map (keyBob key * k.cap + ·)).filter (thas k.reel)
        let grown := d.addReel (k.reel.filter fun e => indices.contains e.1)
        if !s.tailRoom d grown then (St.backpressure, s) else
        match (s.shedFor d grown).grow dst (d.growth [key] indices [keyRow key]) with
        | none => (St.backpressure, s)
        | some s =>
          match (if l.tier = 1 then s.takeSlotNear (groupOf l.pbn) else s.takeSlot) with
          | none => (St.backpressure, s)
          | some (pbn, s) => (St.ok, (s.chargeTier d.tenant 1).copyInto src dst key k l pbn)
  | _, _ => (St.staleHandle, s)

/-- Copies bobbins in order until one fails. -/
def State.copyKeys (s : State) (src dst : Nat) : List Nat → Nat × State
  | [] => (St.ok, s)
  | key :: keys => match s.copyOne src dst key with
    | (0, s) => copyKeys s src dst keys
    | x => x

/-- A whorl command that ends in the step that takes it. -/
def whorlRow (ops : Nat → Bool) (q : Nat) (s : State) (f : W16 → QEntry → List Byte → State → Nat × State) :
    Host.Outcome State Fault Refusal :=
  if s.power.state ≠ .run then .next s
  else headRow (fun b => field b 0 1 == 0x12 && ops (wcOp b)) q s fun j e b s =>
    let (st, s) := f j.tenant e b s
    s.completeEntry q e b st (s.retryFor st (wcKeys b).length)

/-- COPY (R168); a descriptor with a reserved OP is refused here as well (R167). -/
def execCopy (q : Nat) (s : State) : Host.Outcome State Fault Refusal :=
  whorlRow (fun op => op != 2 && op != 3) q s fun tag _ b s =>
    match s.whorlChecks tag b with
    | .error st => (st, s)
    | .ok (k, some d) =>
      (match s.copyChecks b k d with
      | .error st => (st, s)
      | .ok () => s.copyKeys (skIndex (wcSkein b)) (skIndex (wcDest b)) (wcKeys b))
    | .ok (_, none) => (St.invalidMode, s)

/-! ## VERIFY (R170) -/

/-- VERIFY: each failure is handled under R42. -/
def execVerify (q : Nat) (s : State) : Host.Outcome State Fault Refusal :=
  whorlRow (fun op => op == 3) q s fun tag _ b s =>
    match s.whorlChecks tag b with
    | .error st => (st, s)
    | .ok (k, _) =>
      let idx := skIndex (wcSkein b)
      let bad := (wcKeys b).filter fun key => match tget k.leaves key with
        | some l => l.tier == 1 && l.check != .damaged &&
            !bobbinOk s.mem k.cap l (slotAddr 1 l.pbn) (keyLayer key) (keyHg key) (keyBob key)
        | none => false
      let s := bad.foldl (fun s key => s.damage idx key) s
      let damaged := (wcKeys b).any fun key => match (s.skein? idx).bind fun k => tget k.leaves key with
        | some l => l.check == .damaged
        | none => false
      (if damaged then St.recomputeNeeded else St.ok, s)

/-! ## COMPACT (R169) -/

/-- COMPACT: the moves follow, one bobbin at a time. -/
def execCompact (q : Nat) (s : State) : Host.Outcome State Fault Refusal :=
  headRow (fun b => field b 0 1 == 0x12 && wcOp b == 2) q s fun jq e b s =>
    match s.whorlChecks jq.tenant b with
    | .error st => s.completeEntry q e b st 0
    | .ok (k, _) =>
      if !reencodable k.format (wcFormat b) then s.completeEntry q e b St.invalidMode 0
      else
        let id := s.work.nextJob
        let entry : JobEntry := { skein := wcSkein b, first := 0, last := 0, rowFirst := 0, rowCount := 0, len := 0 }
        let j : Job := { queue := q, tenant := jq.tenant, bytes := b, phase := .compacting, query := [], querySlub := 0, trig := e.trig,
                         staging := none, entries := [entry], keys := wcKeys b }
        (s.modWork fun w => { w with nextJob := id + 1, jobs := tset w.jobs id j }).runTier

/-! ## Waits (R319, R320) -/

/-- A test of a wait: none while it goes on (R320). -/
def State.testWait (s : State) (tag : W16) (w : Wait) : Option Nat :=
  let judge := fun (completed failed : Nat) =>
    if failed > w.failLimit then some St.chainError else if completed ≥ w.threshold then some St.ok else none
  if w.sourceKind = 0 then
    match s.jqFor tag w.source.toNat with
    | some j => judge j.completed j.failed
    | none => some St.staleHandle
  else match s.connFor tag w.source with
    | some (_, k) => judge k.completed k.failed
    | none => some St.staleHandle

/-- The wait that a descriptor asks for, or the status that refuses it (R12, R319). -/
def State.parseWait (s : State) (tag : W16) (e : QEntry) (b : List Byte) : Res Wait := do
  let c := field b 4 4
  let kind := bits 0 0 c
  checkHeader b 0x13 1 (field b 3 1 == 0 && bits 31 9 c == 0 && (kind == 1 || field b 18 2 == 0) && zeroIn b 40 24)
  let source : W32 := BitVec.ofNat 32 (field b 16 4)
  need (if kind = 0 then (s.jqFor tag source.toNat).isSome else (s.connFor tag source).isSome) St.staleHandle
  let us := field b 20 4
  need (decide (us ≤ 10000000)) St.lengthRange
  return { tag := entryTag b, sourceKind := kind, source, threshold := field b 24 8, failLimit := field b 32 8, cancelNext := bits 8 1 c,
           deadline := if us = 0 then none else some (s.time.localNow + us * 1000), trig := e.trig }

/-- A wait taken from the head of a job queue. -/
def State.waitJq (s : State) (q : Nat) (tag : W16) (e : QEntry) (b : List Byte) : State :=
  match s.parseWait tag e b with
  | .error st => s.completeEntry q e b st 0
  | .ok w =>
    let s := s.modJq q fun j => { j with wait := some w }
    match s.testWait tag w with
    | some st => s.endWaitJq q w st (st != 0)
    | none => s

/-- A wait at the head of a send queue. -/
def State.waitSq (s : State) (c : Nat) (k : Conn) (e : QEntry) (rest : List QEntry) : State :=
  let b := s.sqBytes k e
  let pop := fun (s : State) => s.modConn c fun k => { k with sq := rest, cancelNext := k.cancelNext - 1 }
  let refused := fun (st : Nat) => ((pop s).endUnsent c k e st).pumpNotices
  if k.state = .error then refused St.connError
  else if k.cancelNext > 0 then refused St.chainError
  else if k.destroyWaiter.isSome then refused St.cancelled
  else if k.state = .draining then s
  else match s.parseWait k.tenant e b with
    | .error st => refused st
    | .ok w =>
      let s := (pop s).modConn c fun k => { k with wait := some w }
      (match s.testWait k.tenant w with
      | some st => s.endWaitSq c w st (st != 0)
      | none => s).pumpNotices

/-- WAIT_DESCRIPTOR (R319, R320): kind 0 a job queue, any other a send queue. -/
def execWaitDescriptor (kind q : Nat) (s : State) : Host.Outcome State Fault Refusal :=
  if kind = 0 then headRow (fun b => field b 0 1 == 0x13) q s fun j e b s => s.waitJq q j.tenant e b
  else match s.conn? q with
    | none => .next s
    | some k =>
      match k.sq with
      | [] => .next s
      | e :: rest =>
        if k.wait.isSome || !s.awake || e.source.isSome || s.sqBad k e || field (s.sqBytes k e) 0 1 != 0x13 then .next s
        else .next (s.waitSq q k e rest)

/-- The wait that stands at the head of a queue, its tenant, and how it ends. -/
def State.standingWait (s : State) (kind q : Nat) : Option (Wait × W16 × (Nat → State)) :=
  if kind = 0 then do
    let j ← tget s.work.jqs q
    let w ← j.wait
    return (w, j.tenant, fun st => s.endWaitJq q w st (st != 0))
  else do
    let k ← s.conn? q
    let w ← k.wait
    return (w, k.tenant, fun st => s.endWaitSq q w st (st != 0))

/-- WAIT_COUNTER_CHANGE (R320): the standing wait tests again. -/
def execWaitCounterChange (kind q : Nat) (s : State) : Host.Outcome State Fault Refusal :=
  match s.standingWait kind q with
  | none => .next s
  | some (w, tag, endW) =>
    if !s.awake then .next s
    else match s.testWait tag w with
      | some st => .next (endW st)
      | none => .next s

/-- WAIT_TIMEOUT_EXPIRY (R320): the counters are tested once more, then the wait ends with ST_WAIT_TIMEOUT. -/
def execWaitTimeoutExpiry (kind q : Nat) (s : State) : Host.Outcome State Fault Refusal :=
  match s.standingWait kind q with
  | none => .next s
  | some (w, tag, endW) =>
    match w.deadline with
    | none => .next s
    | some t =>
      if s.time.localNow < t ∨ !s.awake then .next s
      else .next (endW ((s.testWait tag w).getD St.waitTimeout))

end Sys2Proof.Machine
end

