-- ==== Sys2Proof/Machine/Reliability.lean ====
section
/-!
DEFINITION. Line errors and what they cost (R443, R444), channels and their spares (R450–R452, R175, R176), column sparing
(R453), health scores and expulsion (R454–R457), shadow audits (R458–R461), patrol scrub (R447) and calibration (R448).
-/
namespace Sys2Proof.Machine

/-! ## Channels (R151, R450) -/

/-- The module logical channel of a DRAM address (R151). -/
def chanOf (a : Nat) : Nat := (a / slotBytes * 16 + a % slotBytes / 4096) % 1024

/-- The physical channel (stack × 136 + physical) of a module logical channel (R450). -/
def State.physOf (s : State) (c : Nat) : Nat :=
  c / 128 * 136 + (tget s.rel.chanMap c).getD (17 * (c % 128 / 16) + c % 16)

/-- Free spares of a stack: the last channel of each run, neither in use nor gone (R450). -/
def State.freeSpares (s : State) (stack : Nat) : List Nat :=
  ((List.range 8).map fun r => stack * 136 + 17 * r + 16).filter fun p => !s.rel.spareUsed.contains p && !s.rel.expelled.contains (kChannel, p)

/-- The distance of two channels along the bank chain. -/
def chainDist (a b : Nat) : Nat := if a ≤ b then b - a else a - b

/-- The spare for a logical channel: its own run's where it is free, else the nearest along the chain, the lower on a tie
(R451). -/
def State.spareFor (s : State) (c : Nat) : Option Nat :=
  let own := c / 128 * 136 + 17 * (c % 128 / 16) + 16
  let free := s.freeSpares (c / 128)
  if free.contains own then some own
  else (sortBy (fun a b => decide (chainDist (s.physOf c) a < chainDist (s.physOf c) b)) free).head?

/-- Takes a spare into use; SPARES_EXHAUSTED with a stack's last one (R474). -/
def State.useSpare (s : State) (p : Nat) : State :=
  let s := s.modRel fun r => { r with spareUsed := r.spareUsed ++ [p] }
  if (s.freeSpares (p / 136)).isEmpty then s.raise Ev.sparesExhausted .module [kChannel, p / 136] else s

/-! ## Uncorrectable lines (R444) -/

/-- The leaves whose bobbin lies in a slot of DRAM. -/
def State.leavesAt (s : State) (pbn : Nat) : List (Nat × Nat) :=
  s.store.skeins.flatMap fun k => (k.2.leaves.filter fun e => e.2.tier == 1 && e.2.pbn == pbn).map fun e => (k.1, e.1)

/-- Whether a page table covers a leaf from one of the eight entries of a line (R33, R444). -/
def tableLineHas (table line key : Nat) : Bool :=
  let level := table / 2 ^ 32
  let first := table % 2 ^ 32
  let hit := fun (e : Nat) => e / 8 == line
  if level = 0 then hit (keyLayer key)
  else if level = 2 then keyLayer key == first && hit (keyHg key)
  else if level = 3 then keyRow key == first && hit (keyBob key / 256)
  else key / 256 == first && hit (key % 256)

/-- Losses of a skein's reel: the indices that the creel does not hold go, and REEL_LOST names their range (R466, R467). -/
def State.loseReel (s : State) (idx : Nat) (k : Skein) (first last : Nat) : State :=
  let gone := k.reel.filter fun e => decide (first ≤ e.1 ∧ e.1 < last ∧ k.persisted ≤ e.1)
  match gone.head?, gone.getLast? with
  | some a, some b =>
    (s.setSkein idx { k with reel := k.reel.filter fun e => !decide (first ≤ e.1 ∧ e.1 < last ∧ k.persisted ≤ e.1) }).raise
      Ev.reelLost (.tenant k.tenant) [k.handle.toNat, a.1, b.1 + 1]
  | _, _ => s

/-- The effect of an uncorrectable line of a skein's slab: page tables, which lie in it 32 by 32 in the order made (DESIGN CHOICE, log
73), reel or append history (R142, R444, R464). -/
def State.slabLineLost (s : State) (idx : Nat) (k : Skein) (pbn off : Nat) : State :=
  match (indexed k.tableSlabs).find? fun x => x.1 == pbn with
  | some x => match k.tables[x.2 * 32 + off / 2048]? with
    | some t => s.losePages idx k ((k.leaves.filter fun e => tableLineHas t (off % 2048 / 64) e.1).map (·.1))
    | none => s
  | none =>
    match k.reelSlabs.find? fun e => e.2 == pbn with
    | some e =>
      if 64 ≤ off ∧ off < 61504 then s.loseReel idx k (e.1 * reelSlabTokens + (off - 64) / 4) (e.1 * reelSlabTokens + (off - 64) / 4 + 16)
      else if 61504 ≤ off ∧ off < 64384 then
        let b := fun (o : Nat) => e.1 * 240 + (o - 61504) / 12
        s.setSkein idx { k with blockHash := k.blockHash.filter fun h => !decide (b off ≤ h.1 ∧ h.1 ≤ b (off + 63)) }
      else s
    | none =>
      match k.historySlabs.find? fun e => e.2 == pbn with
      | some e =>
        let place := e.1 * 128 + off / 512
        let w := off % 256 / 4
        let lost := fun (key : Nat) => k.histSlab (key / 64) == e.1 &&
          (key / 64 / 256 * k.heads + key / 64 % 256) == place && decide (w ≤ key % 64 ∧ key % 64 < w + 16)
        s.setSkein idx { k with history := k.history.filter fun h => !lost h.1 }
      | none => s

/-- A control core that read a bad line of its working area restarts (R391, R444). -/
def State.coreLost (s : State) (core : Nat) : State :=
  match execControlCoreWatchdog (core % 4) s with
  | .next t => t
  | _ => s

/-- The effect of an uncorrectable line of the fixed metadata region (R215, R444). -/
def State.fixedLineLost (s : State) (line : Nat) : State :=
  let (kind, is) := Config.fixedLine line
  if kind = 0 then
    is.foldl (fun s i => match s.skein? (i % 4194304) with
      | some k =>
        if k.state = .retiring then s
        else ((s.raise Ev.skeinLost (.tenant k.tenant) [k.handle.toNat]).killSkein (i % 4194304)).releaseHeld.runTier
      | none => s) s
  else if kind = 1 then s.modWork fun w => { w with cache := ((indexed w.cache).filter fun x => !is.contains x.2).map (·.1) }
  else if kind = 2 then s.healEntry (.shadowLost (is.map (· % prefixSlots)))
  else if kind = 3 then
    if s.creelServes then s.modCreel fun c => { c with state := .rebuilding } else s
  else if kind = 4 then is.foldl State.coreLost s
  else s

/-- An uncorrectable line of DRAM (R444): its effect by what the line holds; a run bobbin is DAMAGED in every skein that maps it
(R204; DESIGN CHOICE, log 86). -/
def State.lineLost (s : State) (a : Nat) : State :=
  let a := a / 64 * 64
  let pbn := (a - slotAddr 1 0) / slotBytes
  let off := a % slotBytes
  let bad := fun (s : State) => if s.cxl.badLines.contains a then s else { s with cxl := { s.cxl with badLines := s.cxl.badLines ++ [a] } }
  let told := fun (s : State) => s.raise Ev.eccUncorrectable .module [a]
  if pbn < poolBase then told (s.fixedLineLost ((a - slotAddr 1 0) / 64))
  else if 12189696 ≤ pbn then
    -- a sketch record: of the bobbin whose block shares the channel (R152)
    let at' := 4096 * (pbn / 64) + off % 4096
    let owner := (at' - 780140544) / 128 * 64 + pbn % 64
    told ((s.leavesAt owner).foldl (fun s e => s.modSkein e.1 fun k => k.rebuildSketch s.mem e.2) s)
  else
    let mine := s.leavesAt pbn
    let inRun := s.pfx.runs.any fun r => r.2.leaves.any fun e => e.2.tier == 1 && e.2.pbn == pbn
    if !mine.isEmpty ∨ inRun then (mine.foldl (fun s e => s.damage e.1 e.2) (bad s)).damageRuns 1 pbn
    else match s.store.skeins.find? fun k => k.2.tableSlabs.contains pbn || (k.2.reelSlabs ++ k.2.historySlabs).any fun e => e.2 == pbn with
      | some k => told (s.slabLineLost k.1 k.2 pbn off)
      | none => if s.lentBase ≤ pbn ∨ s.store.dramUsed.contains pbn then told (bad s) else s

/-- A line error (R443): one symbol is corrected, more are not; counted on the physical channel (R454, R475). -/
def State.lineError (s : State) (e : LineError) : State :=
  if e.addr < slotAddr 1 0 ∨ slotAddr 1 12582912 ≤ e.addr ∨ e.symbols = 0 then s
  else
    let p := s.physOf (chanOf (e.addr - slotAddr 1 0))
    let s := s.modRel fun r => { r with ecc := r.ecc ++ [(p, s.time.localNow, decide (1 < e.symbols))] }
    if e.symbols = 1 then s.countRel 1 p else (s.countRel 2 p).lineLost e.addr

/-! ## Patrol scrub (R446, R447) -/

/-- Bytes of a pass: 768 GiB; and 24 h. -/
def patrolBytes : Nat := 768 * 2 ^ 30
def dayNs : Nat := 86400000000000

/-- Bytes that the share allows in a period of 1 ms: bank time of the in-service channels at 44.8 GB/s (R153, R445). -/
def State.patrolCap (s : State) : Nat :=
  (s.rel.stackUnits.map Stack.channels).sum * 44800000 * s.cfg.budgets.getD 0 0 / 2 ^ 20

/-- The budget period of 1 ms (R446). -/
def State.msPeriod (s : State) : Nat := s.time.localNow / 1000000

/-- Bytes that the patrol has still to read in a period to finish in time: the remaining bytes over the remaining time
(R447). -/
def State.patrolWant (s : State) : Nat :=
  let left := patrolBytes - s.rel.patrolDone
  let time := s.rel.patrolStart + dayNs - s.time.localNow
  if time ≤ 1000000 then left else (left * 1000000 + time - 1) / time

/-- The pace of a period: what is wanted, capped by what the present period's share still allows (R446, R447). -/
def State.patrolPace (s : State) : Nat := min s.patrolWant (s.patrolCap - usedIn s.msPeriod s.rel.patrolUse)

/-- Whether a leaf's bobbin lies where a pass covers it in this period and a sealed block of it fails (R74). -/
def State.patrolFails (s : State) (cap lo hi : Nat) (e : Nat × Leaf) : Bool :=
  let o := e.2.pbn * slotBytes
  e.2.tier == 1 && e.2.check != .damaged && decide (lo ≤ o ∧ o < hi) &&
    !bobbinOk s.mem cap e.2 (slotAddr 1 e.2.pbn) (keyLayer e.1) (keyHg e.1) (keyBob e.1)

/-- The check words of sealed blocks whose slots the pass covers in this period, those of bobbins that only a run holds
among them (R74, R174, R204, R447). -/
def State.patrolChecks (s : State) (lo hi : Nat) : State :=
  let s := s.store.skeins.foldl (fun s k => k.2.leaves.foldl (fun s e => if s.patrolFails k.2.cap lo hi e then s.damage k.1 e.1 else s) s) s
  s.pfx.runs.foldl (fun s r => r.2.leaves.foldl (fun s e => if s.patrolFails r.2.cap lo hi e then s.damageRuns 1 e.2.pbn else s) s) s

/-- The end of a pass, and its lateness (R446): DUTY_LATE once, and the pass continues. -/
def State.patrolEnd (s : State) : State :=
  if patrolBytes ≤ s.rel.patrolDone then s.modRel fun r => { r with patrolDone := 0, patrolStart := s.time.localNow, dutyLate := false }
  else if s.rel.patrolStart + dayNs ≤ s.time.localNow ∧ !s.rel.dutyLate then
    (s.modRel fun r => { r with dutyLate := true }).raise Ev.dutyLate .module [1]
  else s

/-- PATROL_BUDGET_PERIOD (R447): deferred outside Run (R496). -/
def execPatrolBudgetPeriod (bytes : Nat) (errors : List LineError) (s : State) : Host.Outcome State Fault Refusal :=
  if !s.awake then .next s
  else
    let run := s.power.state == .run
    let n := if run then min bytes s.patrolPace else 0
    let lo := s.rel.patrolDone
    let t := if n < min bytes s.patrolWant then s.deferDuty 1 else s
    let t := t.modRel fun r => { r with patrolDone := lo + n, patrolUse := (s.msPeriod, usedIn s.msPeriod r.patrolUse + n), counters := tset r.counters (relCounter 9 1) ((lo + n) * 1024 / patrolBytes) }
    let t := if run then (errors.foldl State.lineError t).patrolChecks lo (lo + n) else t
    .next t.patrolEnd

/-! ## Calibration (R448) -/

/-- Whether a step may start: the channel's last one lies 160 ns × 2^20 ÷ SHARE back, and no other channel of its group is
in a step (R446, R448). -/
def State.calibrationDue (s : State) (chan : Nat) : Bool :=
  let inStep := fun (p : Nat) => (tget s.rel.calAt p).any fun t => decide (s.time.localNow < t + 160)
  let mine := ((List.range 1024).filter fun c => s.physOf c == chan).flatMap fun c => (List.range 16).map fun i => s.physOf (c / 16 * 16 + i)
  ((tget s.rel.calAt chan).all fun t => decide (160 * 2 ^ 20 ≤ (s.time.localNow - t) * s.cfg.budgets.getD 1 0)) &&
    mine.all fun p => p == chan || !inStep p

/-- CALIBRATION_STEP (R448): a quarter of one of 16 lanes; the 64th step gives the channel's margin, that of the lane with
the narrowest eye. A step that the share does not allow yet is deferred and counted (R446). -/
def execCalibrationStep (chan margin : Nat) (restart : Bool) (s : State) : Host.Outcome State Fault Refusal :=
  if chan ≥ 1088 then .fault .noSuchUnit
  else if !s.awake then .next s
  else if !s.calibrationDue chan then .next (s.deferDuty 2)
  else
    let n := if restart then 0 else tnum s.rel.calStep chan
    let low := if n = 0 then margin else min margin ((tget s.rel.calMin chan).getD margin)
    .next (s.modRel fun r =>
      { r with calStep := tset r.calStep chan ((n + 1) % 64), calAt := tset r.calAt chan s.time.localNow, calMin := tset r.calMin chan low,
               margins := if n + 1 = 64 then tset r.margins chan low else r.margins })

/-! ## Sparing of channels (R451, R452, R175, R176) -/

/-- Starts a copy of a logical channel to a spare (R451). -/
def State.startCopy (s : State) (c spare : Nat) (w : Option CmdRef) : State :=
  (s.useSpare spare).modRel fun r => { r with copies := tset r.copies c (spare, w) }

/-- A spare takes a logical channel, and the old physical channel is EXPELLED (R451). -/
def State.remap (s : State) (c spare : Nat) : State :=
  let old := s.physOf c
  ((s.writeRepair.modRel fun r => { r with chanMap := tset r.chanMap c (spare % 136), copies := tdel r.copies c }).expel kChannel old).refreshLevel

/-- CHANNEL_SPARE_COPY_COMPLETE (R451, R175): whorl work runs in class 4, so copies end only in Run (R496). -/
def execChannelSpareCopyComplete (stack chan : Nat) (s : State) : Host.Outcome State Fault Refusal :=
  if stack ≥ 8 ∨ chan ≥ 128 then .fault .noSuchUnit
  else match tget s.rel.copies (stack * 128 + chan) with
    | none => .next s
    | some (spare, w) =>
      if !s.awake ∨ s.power.state ≠ .run then .next s
      else
        let s := s.remap (stack * 128 + chan) spare
        .next (match w with
          | some w => (s.answer w St.ok []).fetchAll
          | none => s)

/-- The addresses of the 64 lines of a slot that a module logical channel holds (R151). -/
def channelLines (c pbn : Nat) : List Nat := (List.range 64).map fun i => slotAddr 1 pbn + c % 16 * 4096 + i * 64

/-- Slots of a channel group that hold something: the fixed region's, allocated slots, and the lent window's. -/
def State.groupSlots (s : State) (g : Nat) : List Nat :=
  (((List.range 512).map fun i => 64 * i + g) ++ (s.store.dramUsed.filter fun p => groupOf p == g)) ++
    (List.range (s.lentSlots / 64)).map fun i => s.lentBase + 64 * i + g

/-- Everything that a channel held is lost (R444, R452); the sketch records of its bobbins are rebuilt (R161). -/
def State.loseChannel (s : State) (c : Nat) : State :=
  ((s.groupSlots (c / 16)).flatMap (channelLines c)).foldl State.lineLost s

/-- A stack's status after a change of its vacant channels (R176, R177, R452). -/
def State.restack (s : State) (stack : Nat) : State :=
  s.modRel fun r => { r with stackUnits := r.stackUnits.modify stack fun k =>
    if 128 - k.vacant.length < 64 then { k with state := 2, whorls := 0 }
    else { k with state := if k.vacant.isEmpty then k.state else 1, whorls := 128 - k.vacant.length } }

/-- Every bobbin with a block in a channel group is DAMAGED, in the skeins and in the runs that hold it, and the group is
withdrawn (R176, R204, R229). -/
def State.withdrawGroup (s : State) (g : Nat) : State :=
  let inGroup := fun (l : Leaf) => l.tier == 1 && groupOf l.pbn == g
  let was := s.belowLow
  let s := (s.store.skeins.flatMap fun k => (k.2.leaves.filter fun e => inGroup e.2).map fun e => (k.1, e.1)).foldl
    (fun s e => s.damage e.1 e.2) s
  let s := (s.pfx.runs.flatMap fun r => (r.2.leaves.filter fun e => inGroup e.2).map fun e => e.2.pbn).foldl (fun s p => s.damageRuns 1 p) s
  (s.modStore fun t => { t with withdrawn := if t.withdrawn.contains g then t.withdrawn else t.withdrawn ++ [g] }).noteLow was

/-- A logical channel becomes vacant (R176); a stack with fewer than 64 left goes OFFLINE with all its groups (R452). -/
def State.vacate (s : State) (c : Nat) : State :=
  let stack := c / 128
  let s := s.modRel fun r =>
    { r with stackUnits := r.stackUnits.modify stack fun k => { k with vacant := k.vacant ++ [c % 128] }, copies := tdel r.copies c }
  let s := s.restack stack
  let gone := match s.rel.stackUnits[stack]? with
    | some k => decide (k.state = 2)
    | none => false
  let groups := if gone then (List.range 8).map (stack * 8 + ·) else [c / 16]
  (groups.foldl State.withdrawGroup s).raise Ev.channelVacant .module ([stack, c % 128] ++ groups)

/-- CHANNEL_FAILURE (R452): expelled at once, to a spare or to vacancy. -/
def execChannelFailure (stack chan : Nat) (s : State) : Host.Outcome State Fault Refusal :=
  if stack ≥ 8 ∨ chan ≥ 128 then .fault .noSuchUnit
  else
    let c := stack * 128 + chan
    match s.rel.stackUnits[stack]? with
    | none => .next s
    | some k =>
      if k.state = 2 ∨ k.vacant.contains chan ∨ s.power.stopped ∨ s.power.off then .next s
      else
        let copy := tget s.rel.copies c
        let t := match copy with
          | some (spare, _) => s.remap c spare
          | none => match s.spareFor c with
            | some p => (s.useSpare p).remap c p
            | none => (s.expel kChannel (s.physOf c)).vacate c
        let t := (t.loseChannel c).refreshLevel
        .next (match copy with
          | some (_, some w) => (t.answer w St.ok []).fetchAll
          | _ => t)

/-! ## Sparing of columns (R453, R117) -/

/-- A column is mapped out: the items are dealt again, the spindle goes OFFLINE and runs its self-test. A fifth failed
column takes it out of service (R117, R453). -/
def State.spareColumn (s : State) (sp col : Nat) : State :=
  let s := (s.spindleOut sp 2).writeRepair.modSpindle sp fun p => { p with state := 4, failed := p.failed ++ [col], selfTest := decide (p.failed.length < 4) }
  s.expel kColumn (sp * 516 + col)

/-- COLUMN_SELF_TEST_COMPLETE (R453): a spindle whose self-test fails any logical column stays OFFLINE. -/
def execColumnSelfTestComplete (sp : Nat) (failed : List Nat) (s : State) : Host.Outcome State Fault Refusal :=
  if sp ≥ 8 then .fault .noSuchUnit
  else match s.rel.spindles[sp]? with
    | none => .next s
    | some p =>
      if p.state ≠ 4 ∨ !p.selfTest then .next s
      else
        let bad := failed.filter fun c => decide (c < 516) && !p.failed.contains c
        if bad.isEmpty then .next (s.modSpindle sp fun p => { p with state := 0, selfTest := false }).refreshLevel
        else
          let s := s.modSpindle sp fun p => { p with selfTest := false }
          .next ((s.modRel fun r => { r with failedTest := r.failedTest ++ bad.map (sp * 516 + ·) }).expel kSpindle sp).refreshLevel

/-! ## Health (R454–R457) -/

/-- Nanoseconds of an hour. -/
def hourNs : Nat := 3600000000000

/-- The penalty of a physical channel (R454). -/
def State.chanPenalty (s : State) (p : Nat) : Nat :=
  let mine := s.rel.ecc.filter fun e => e.1 == p
  let corrected := (mine.filter fun e => !e.2.2 && decide (s.time.localNow < e.2.1 + hourNs)).length
  let lost := (mine.filter fun e => e.2.2 && decide (s.time.localNow < e.2.1 + dayNs)).length
  let margin := match tget s.rel.margins p with
    | some m => 8 * ((300 - m) / 10)
    | none => 0
  min 128 (corrected / 16) + 64 * lost + margin

/-- The penalty of a column, and of a spindle (R454). -/
def State.columnPenalty (s : State) (i : Nat) : Nat :=
  128 * (s.rel.columnCharges.filter fun c => c.1 == i && decide (s.time.localNow < c.2 + hourNs)).length +
    if s.rel.failedTest.contains i then 255 else 0
def State.spindlePenalty (s : State) (i : Nat) : Nat := match s.rel.spindles[i]? with
  | some p => 64 * (p.mismatches.filter fun t => decide (s.time.localNow < t + hourNs)).length
  | none => 0

/-- The key of a component's score. -/
def healthKey (kind idx : Nat) : Nat := kind * 65536 + idx

/-- What the receivers measured of the wavelengths since the last time: corrected symbols are counted, and uncorrectable
codewords are kept for an hour (R272, R454, R475). -/
def State.waveNews (s : State) (measured : List WaveHealth) : State :=
  let ms := measured.filter fun m => decide (m.wave < 36)
  let now := s.time.localNow
  s.modRel fun r =>
    { r with counters := ms.foldl (fun t m => tadd t (relCounter 7 m.wave) m.symbols) r.counters
             codewords := (r.codewords.filter fun c => decide (now < c.2.1 + hourNs)) ++
               (ms.filter fun m => m.codewords != 0).map fun m => (m.wave, now, m.codewords) }

/-- The penalty of a wavelength (R454). -/
def State.wavePenalty (s : State) (measured : List WaveHealth) (w : Nat) : Nat :=
  let bad := ((s.rel.codewords.filter fun c => c.1 == w && decide (s.time.localNow < c.2.1 + hourNs)).map (·.2.2)).sum
  32 * bad + (match measured.find? fun m => m.wave == w with
    | some m => 16 * m.decades + 4 * m.bias
    | none => 0)

/-- The scores below 255 (R454). -/
def State.scoresNow (s : State) (measured : List WaveHealth) : Table Nat :=
  let put := fun (t : Table Nat) (kind idx pen : Nat) => if pen = 0 then t else tset t (healthKey kind idx) (255 - pen)
  let t := (List.range 8).foldl (fun t i => put t kSpindle i (s.spindlePenalty i)) []
  let t := (((s.rel.ecc.map (·.1)) ++ s.rel.margins.map (·.1)).eraseDups).foldl (fun t i => put t kChannel i (s.chanPenalty i)) t
  let t := ((s.rel.columnCharges.map (·.1) ++ s.rel.failedTest).eraseDups).foldl (fun t i => put t kColumn i (s.columnPenalty i)) t
  (List.range 36).foldl (fun t w => put t kWavelength w (s.wavePenalty measured w)) t

/-- The logical channel that a physical channel serves now, where there is one. -/
def State.logicalOf (s : State) (p : Nat) : Option Nat :=
  (List.range 128).findSome? fun i =>
    let c := p / 136 * 128 + i
    if s.physOf c == p && !((s.rel.stackUnits[p / 136]?).map fun (k : Stack) => k.vacant.contains i || k.state == 2).getD true then some c else none

/-- Whether a component is in service, so that it can be a candidate (R455). -/
def State.serving (s : State) (kind idx : Nat) : Bool :=
  if kind = kSpindle then decide (((s.rel.spindles[idx]?).map (·.state)).getD 4 ≤ 1)
  else if kind = kChannel then match s.logicalOf idx with
    | some c => !thas s.rel.copies c
    | none => false
  else if kind = kWavelength then (s.portAt (idx / 9)).map.getLsbD (idx % 9)
  else match s.rel.spindles[idx / 516]? with
    | some p => decide (p.state ≤ 1) && !p.failed.contains (idx % 516)
    | none => false

/-- The expulsion of a candidate that its spare can replace: none where it has no spare or its budget is spent
(R451, R453, R455, R456). -/
def State.expulsion (s : State) (kind idx : Nat) : Option State :=
  if kind = kSpindle ∨ !s.budgetLeft kind idx then none
  else if kind = kChannel then do
    let c ← s.logicalOf idx
    let p ← s.spareFor c
    return s.startCopy c p none
  else if kind = kWavelength then
    if (s.portAt (idx / 9)).spare.isSome then some (s.dropWavelength (idx / 9) (idx % 9)) else none
  else match s.rel.spindles[idx / 516]? with
    | some p => if p.failed.length < 4 then some (s.spareColumn (idx / 516) (idx % 516)) else none
    | none => none

/-- Whether a change keeps the attention set while the module holds it (R457). -/
def State.keeps (s t : State) : Bool := t.attentionSet || !s.attentionSet

/-- One candidate: expelled, or SUSPECT (R455–R457). -/
def State.judge (s : State) (kind idx : Nat) : State :=
  if !s.serving kind idx then s
  else match s.expulsion kind idx with
    | some t => if s.keeps t then t else s.makeSuspect kind idx
    | none => s.makeSuspect kind idx

/-- HEALTH_RECOMPUTE (R454–R456): every second; candidates in order of score, SUSPECT components back at 160. -/
def execHealthRecompute (measured : List WaveHealth) (s : State) : Host.Outcome State Fault Refusal :=
  if !s.awake ∨ s.time.localNow < s.rel.lastHealth + 1000000000 then .next s
  else
    let s := s.waveNews measured
    let scores := s.scoresNow measured
    let score := fun (kind idx : Nat) => (tget scores (healthKey kind idx)).getD 255
    let s := s.modRel fun r => { r with lastHealth := s.time.localNow, scores, suspect := r.suspect.filter fun c => decide (score c.1 c.2 < 160) }
    let low := (scores.filter fun e => decide (e.2 < 96)).map fun e => (e.1 / 65536, e.1 % 65536)
    let cands := low ++ s.rel.suspect.filter fun c => !low.contains c
    let order := sortBy (fun (a b : Nat × Nat) => decide (score a.1 a.2 < score b.1 b.2)) cands
    .next (order.foldl (fun s c => s.judge c.1 c.2) s)

/-! ## Shadow audits (R458–R461) -/

/-- Leas that a share of 1 ms, in parts of 2²⁰, lets an auditor read at 2,867.5 bytes in 1 ns (R446, R469). -/
def auditLimit (share : Nat) : Nat := share * 28675000000 / (163840 * 2 ^ 20)

/-- Counts an audit in its budget period of 1 ms: none where the auditor's share is spent (R445, R446). One audit reads a
lea at the spindle's streaming rate of R469, 2,867.5 bytes in 1 ns. -/
def State.auditShare (s : State) (auditor : Nat) : Option State :=
  let period := s.time.localNow / 1000000
  let old := tnum s.rel.auditUse auditor
  let n := (if old / 2 ^ 32 = period then old % 2 ^ 32 else 0) + 1
  if n ≤ auditLimit (s.cfg.budgets.getD 2 0) then
    some (s.modRel fun r => { r with auditUse := tset r.auditUse auditor (period * 2 ^ 32 + n) })
  else none

/-- Charges a column in place of its spindle: it is spared within its budget, else SUSPECT (R453, R456, R460). -/
def State.chargeColumn (s : State) (i : Nat) : State :=
  (s.modRel fun r => { r with columnCharges := r.columnCharges ++ [(i, s.time.localNow)] }).judge kColumn i

/-- A mismatch charged to a spindle (R460, R461): to one of its columns where two of its last three mismatches lie wholly in
that column; the third within 3,600 s quarantines it. -/
def State.chargeSpindle (s : State) (sp : Nat) (column : Option Nat) : State :=
  match s.rel.spindles[sp]? with
  | none => s
  | some p =>
    let last := (p.lastColumns ++ [column]).drop (p.lastColumns.length - 2)
    let s := s.modSpindle sp fun p => { p with lastColumns := last }
    let inColumn : Bool := column.isSome && decide (2 ≤ (last.filter (· == column)).length)
    if inColumn then s.chargeColumn (sp * 516 + column.getD 0)
    else
      let recent := (p.mismatches.filter fun t => decide (s.time.localNow < t + hourNs)) ++ [s.time.localNow]
      let s := (s.modSpindle sp fun p => { p with mismatches := recent }).countRel 6 sp
      let t := (s.spindleOut sp 3).raise Ev.spindleQuarantined .module [sp]
      if recent.length ≥ 3 ∧ p.state ≤ 1 ∧ s.keeps t then t else s

/-- The one column in which all differing rows lie, where there is one (R460). -/
def oneColumn (rows : List (Nat × Nat)) : Option Nat := match rows with
  | [] => none
  | r :: rs => if rs.all fun x => x.2 == r.2 then some r.2 else none

/-- The end of a mismatch: what is charged, the ply cache, the event and the log (R459). Temperatures, voltages, clocks and
power are measurements (DESIGN CHOICE, log 3). -/
def State.settleAudit (s : State) (a : AuditRec) : State :=
  let s := s.modRel fun r => { r with audits := r.audits.map fun x => if x.index = a.index then { a with settled := true } else x }
  let s := if a.charged.contains a.original then
      s.modWork fun w => { w with cache := w.cache.filter fun c => c.key != a.key,
                                  jobs := tmod w.jobs a.job fun j => if j.key == a.key then { j with uncached := true } else j }
    else s
  let mask := (a.charged.map fun i => 2 ^ i).sum
  let m := (List.range 7).map fun i => Config.freeValue (s.freeCount + i)
  let s := ({ s with freeCount := s.freeCount + 7 }).raise Ev.auditMismatch .module
    ([a.index, a.original, a.auditor, a.arbiter.getD 0xFF, mask, a.fold] ++ m ++
     [a.rows.length, (a.rows.headD (0, 0)).1, (a.rows.headD (0, 0)).2, a.jobTag.toNat, a.step.toNat, a.skein.toNat,
      a.layer, a.busy])
  a.charged.foldl (fun s sp => s.chargeSpindle sp (oneColumn a.rows)) s

/-- Spindles in service besides some. -/
def State.thirdSpindle (s : State) (not : List Nat) : Bool :=
  (List.range 8).any fun i => !not.contains i && decide (((s.rel.spindles[i]?).map (·.state)).getD 4 ≤ 1)

/-- Records of the mismatch log (R459). -/
def auditLog : Nat := 256

/-- SHADOW_AUDIT (R458): another spindle recomputes the block of a lea that a job has streamed. -/
def execShadowAudit (id item lea auditor : Nat) (differing : List (Nat × Nat)) (s : State) : Host.Outcome State Fault Refusal :=
  if auditor ≥ 8 then .fault .noSuchUnit
  else match s.job? id with
    | none => .next s
    | some j =>
      match j.items[item]? with
      | none => .next s
      | some i =>
        match i.sub with
        | none => .next s
        | some u =>
          let fits := !j.whorls && j.phase == .streaming && decide (lea < i.leas) && !i.lost.contains lea && u / 64 != auditor &&
            s.spindleServes auditor && s.awake
          if !fits then .next s
          else match s.auditShare auditor with
            | none => .next ((s.countRel 5 auditor).deferDuty 3)
            | some s =>
              let s := s.countRel 4 auditor
              if differing.isEmpty then .next s
              else
                let e := j.entries[i.entry]?
                let a : AuditRec :=
                  { original := u / 64, auditor, index := s.rel.auditCount + 1, rows := differing, fold := j.fold.1 * 4 + j.fold.2,
                    busy := (s.flying.filter fun f => f / 64 == u / 64).length, job := id, key := j.key, jobTag := entryTag j.bytes,
                    step := jdStep j.bytes, skein := (e.map (·.skein)).getD 0, layer := jdLayer j.bytes }
                let s := s.modRel fun r =>
                  { r with auditCount := r.auditCount + 1, audits := (r.audits ++ [a]).drop (r.audits.length + 1 - auditLog) }
                if s.thirdSpindle [u / 64, auditor] then .next s
                else .next (s.settleAudit { a with charged := [u / 64, auditor] })

/-- AUDIT_ARBITER_COMPLETE (R459): the spindle that differs from the other two is charged, both where all three differ or no
third spindle is in service. -/
def execAuditArbiterComplete (log : Nat) (arbiter : Option Nat) (withOriginal withAuditor : Bool) (s : State) :
    Host.Outcome State Fault Refusal :=
  match s.rel.audits.find? fun a => a.index == log && !a.settled with
  | none => .next s
  | some a =>
    match arbiter with
    | none => if s.thirdSpindle [a.original, a.auditor] then .next s else .next (s.settleAudit { a with charged := [a.original, a.auditor] })
    | some k =>
      if k ≥ 8 then .fault .noSuchUnit
      else if k = a.original ∨ k = a.auditor ∨ !s.spindleServes k ∨ (withOriginal && withAuditor) then .next s
      else
        let charged := if withOriginal then [a.auditor] else if withAuditor then [a.original] else [a.original, a.auditor]
        .next (s.settleAudit { a with arbiter := some k, charged })

end Sys2Proof.Machine
end

