-- ==== Sys2Proof/Machine/CmdRel.lean ====
section
/-!
DEFINITION. The reliability commands (R413): UNIT_SERVICE, MARGIN_SWEEP, AUDIT_SET, BUDGET_SET, HEALTH_READ.
-/
namespace Sys2Proof.Machine

/-! ## UNIT_SERVICE -/

/-- A spindle taken out, returned, or no longer SUSPECT (R109, R413, R457, R461). -/
def State.serveSpindle (s : State) (action sp : Nat) : Except CmdErr State :=
  match s.rel.spindles[sp]? with
  | none => refuse St.wrongState
  | some p =>
    if action = 1 then
      let t := s.spindleOut sp 4
      if p.state > 1 then refuse St.wrongState
      else if !s.keeps t then refuse St.noResource
      else .ok t
    else if (p.state = 3 ∨ p.state = 4) ∧ !p.selfTest ∧ p.failed.length ≤ 4 then
      .ok ((s.modSpindle sp fun p => { p with state := 0, mismatches := if p.state = 3 then [] else p.mismatches }).modRel
        fun r => { r with expelled := r.expelled.filter (· != (kSpindle, sp)) }).refreshLevel
    else refuse St.wrongState

/-- A logical channel taken out: its physical channel is spared, and the command ends with the copy (R175, R413, R451). -/
def State.serveChannel (s : State) (c : Nat) (w : CmdRef) : Except CmdErr State :=
  match s.rel.stackUnits[c / 128]? with
  | none => refuse St.wrongState
  | some k =>
    if k.state = 2 ∨ k.vacant.contains (c % 128) ∨ thas s.rel.copies c then refuse St.wrongState
    else match s.spareFor c with
      | none => refuse St.noResource
      | some p =>
        if s.budgetLeft kChannel (s.physOf c) then
          .ok ((s.startCopy c p (some w)).modRel fun r => { r with takenOut := r.takenOut.filter (· != c) ++ [c] })
        else refuse St.noResource

/-- A wavelength taken out, its spare in its place where there is one, or returned as the spare or into the map (R265). -/
def State.serveWavelength (s : State) (action w : Nat) : Except CmdErr State :=
  let p := w / 9
  let x := s.portAt p
  if action = 1 then
    let t := s.dropWavelength p (w % 9)
    if !x.map.getLsbD (w % 9) then refuse St.wrongState
    else if !s.budgetLeft kWavelength w || !s.keeps t then refuse St.noResource
    else .ok t
  else if x.failedWl.contains (w % 9) then
    let map := if wlCount x.map < 8 ∧ x.map ≠ 0 then x.map ||| (1#9 <<< (w % 9)) else x.map
    .ok ((s.setPort p ({ x with failedWl := x.failedWl.filter (· != w % 9) }.setMap map)).modRel
      fun r => { r with expelled := r.expelled.filter (· != (kWavelength, w)) }).refreshLevel
  else refuse St.wrongState

/-- UNIT_SERVICE (R413). -/
def cmdUnitService (x : Ctx) (s : State) : CmdM := do
  let kind := x.p 0 1
  let action := x.p 1 1
  let u := x.p 2 2
  mode (decide (1 ≤ kind ∧ kind ≤ 3 ∧ 1 ≤ action ∧ action ≤ 3 ∧ ¬ (kind = 2 ∧ action = 2)))
  inRange (decide (u < if kind = 1 then 8 else if kind = 2 then 1024 else 36)) 2
  if action = 3 then
    let c := (kind, if kind = 2 then s.physOf u else u)
    req (s.rel.suspect.contains c) St.wrongState
    return .done (s.modRel fun r => { r with suspect := r.suspect.filter (· != c) }) []
  else if kind = 1 then return .done (← s.serveSpindle action u) []
  else if kind = 2 then return .wait (← s.serveChannel u x.c.ref)
  else return .done (← s.serveWavelength action u) []

/-! ## MARGIN_SWEEP (R462) -/

/-- A signed 16-bit parameter. -/
def Ctx.signed (x : Ctx) (off : Nat) : Int := (BitVec.ofNat 16 (x.p off 2)).toInt

/-- Point `i` of `n` along a line; where the spec gives no rounding, the rounding is a free value (DESIGN CHOICE, log 3). -/
def sweepAt (s : State) (low high : Int) (n i : Nat) : Int × State :=
  if i + 1 = n then (high, s)
  else
    let num := (high - low) * i
    let q := low + num.fdiv (n - 1)
    if num.fmod (n - 1) = 0 then (q, s)
    else
      let (up, s) := s.free 2
      (q + up, s)

/-- Whether a MARGIN_SWEEP can run on a unit: a spindle out of service; a stack with a free spare or a channel that
UNIT_SERVICE took out (R413, R462). -/
def State.sweepable (s : State) (kind u : Nat) : Bool :=
  if kind = 1 then decide (2 < ((s.rel.spindles[u]?).map (·.state)).getD 4)
  else !(s.freeSpares u).isEmpty || s.rel.takenOut.any fun c => c / 128 == u

/-- MARGIN_SWEEP (R413, R462); a point that the row gives no counts for shows free ones (DESIGN CHOICE, log 3). -/
def cmdMarginSweep (points : List (Nat × Nat)) (x : Ctx) (s : State) : CmdM := do
  let kind := x.p 0 1
  let u := x.p 1 1
  let n := x.p 2 2
  let vl := x.signed 4
  let vh := x.signed 6
  let fl := x.signed 8
  let fh := x.signed 10
  let pat := x.p 12 2
  let cap := x.p 16 4
  mode (decide (kind = 1 ∨ kind = 2))
  mode (decide (if kind = 1 then 1 ≤ pat ∧ pat ≤ 3 else pat = 0x0101 ∨ pat = 0x0102))
  inRange (decide (u < 8)) 1
  inRange (decide (1 ≤ n ∧ n ≤ 256)) 2
  inRange (decide (-100 ≤ vl ∧ vl ≤ 100)) 4
  inRange (decide (-100 ≤ vh ∧ vh ≤ 100)) 6
  inRange (decide (-200 ≤ fl ∧ fl ≤ 100)) 8
  inRange (decide (-200 ≤ fh ∧ fh ≤ 100)) 10
  inRange (cap == 0 || s.rel.audits.any fun a => a.index == cap) 16
  if x.c.dataLen < 16 * n then .error (St.lengthRange, 12, 0)
  req (s.sweepable kind u) St.wrongState
  let one := fun (acc : List (List Byte) × Nat × State) (i : Nat) =>
    let (v, s) := sweepAt acc.2.2 vl vh n i
    let (f, s) := sweepAt s fl fh n i
    let (e, o, s) := match points[i]? with
      | some p => (p.1 % 2 ^ 32, p.2 % 2 ^ 64, s)
      | none =>
        let (e, s) := s.free (2 ^ 32)
        let (o, s) := s.free (2 ^ 64)
        (e, o, s)
    (acc.1 ++ [toLe 2 (BitVec.ofInt 16 v).toNat ++ toLe 2 (BitVec.ofInt 16 f).toNat ++ toLe 4 e ++ toLe 8 o],
      acc.2.1 + (if e = 0 then 0 else 1), s)
  let (rows, failing, s) := (List.range n).foldl one ([], 0, s)
  return .done (x.output s rows.flatten) (toLe 2 n ++ toLe 2 failing)

/-! ## Settings and records -/

/-- AUDIT_SET (R413). -/
def cmdAuditSet (x : Ctx) (s : State) : CmdM := do
  inRange (decide (x.p 0 1 ≤ 24)) 0
  inRange (decide (x.p 1 1 ≤ 24)) 1
  return .done { s with cfg := { s.cfg with auditK := x.p 0 1, suspectK := x.p 1 1 } } (toLe 1 s.cfg.auditK ++ toLe 1 s.cfg.suspectK)

/-- The floors of R445. -/
def dutyFloors : List Nat := [16, 5243, 32, 1049, 1100]

/-- BUDGET_SET (R445). -/
def cmdBudgetSet (x : Ctx) (s : State) : CmdM := do
  let d := x.p 0 1
  let v := x.p 4 4
  mode (decide (1 ≤ d ∧ d ≤ 5))
  inRange (decide (dutyFloors.getD (d - 1) 0 ≤ v ∧ v ≤ 2 ^ 20)) 4
  return .done { s with cfg := { s.cfg with budgets := s.cfg.budgets.set (d - 1) v } } (toLe 4 (s.cfg.budgets.getD (d - 1) 0))

/-- STATE of a health record: 3 expelled, 2 a free spare, 1 SUSPECT, 0 in service (R413). -/
def State.healthState (s : State) (kind idx : Nat) : Nat :=
  let spare : Bool :=
    if kind = kChannel then (s.freeSpares (idx / 136)).contains idx
    else if kind = kWavelength then (s.portAt (idx / 9)).spare == some (idx % 9)
    else if kind = kColumn then match s.rel.spindles[idx / 516]? with
      | some p => decide (512 ≤ idx % 516 - (p.failed.filter fun c => decide (c < idx % 516)).length)
      | none => false
    else false
  let out : Bool := kind == kSpindle && decide (2 < ((s.rel.spindles[idx]?).map (·.state)).getD 4)
  if s.rel.expelled.contains (kind, idx) || out then 3 else if spare then 2 else if s.rel.suspect.contains (kind, idx) then 1 else 0

/-- HEALTH_READ (R413, R454): one record per spare-able component. -/
def cmdHealthRead (x : Ctx) (s : State) : CmdM := do
  let all := (List.range 8).map (fun i => (kSpindle, i)) ++ (List.range 1088).map (fun i => (kChannel, i)) ++
    (List.range 36).map (fun i => (kWavelength, i)) ++ (List.range 4128).map fun i => (kColumn, i)
  if x.c.dataLen < 8 * all.length then .error (St.lengthRange, 12, 0)
  let out := all.flatMap fun c =>
    toLe 1 c.1 ++ toLe 1 ((tget s.rel.scores (healthKey c.1 c.2)).getD 255) ++ toLe 1 (s.healthState c.1 c.2) ++ [0] ++ toLe 4 c.2
  return .done (x.output s out) (toLe 4 all.length)

/-- UNIT_SERVICE (R413). -/
def execUnitService (m slot : Nat) (s : State) : Host.Outcome State Fault Refusal := cmdRow 0x0A00 cmdUnitService m slot s
/-- MARGIN_SWEEP (R462). -/
def execMarginSweep (m slot : Nat) (points : List (Nat × Nat)) (s : State) : Host.Outcome State Fault Refusal :=
  cmdRow 0x0A01 (cmdMarginSweep points) m slot s
/-- AUDIT_SET (R413). -/
def execAuditSet (m slot : Nat) (s : State) : Host.Outcome State Fault Refusal := cmdRow 0x0A02 cmdAuditSet m slot s
/-- BUDGET_SET (R445). -/
def execBudgetSet (m slot : Nat) (s : State) : Host.Outcome State Fault Refusal := cmdRow 0x0A03 cmdBudgetSet m slot s
/-- HEALTH_READ (R454). -/
def execHealthRead (m slot : Nat) (s : State) : Host.Outcome State Fault Refusal := cmdRow 0x0A04 cmdHealthRead m slot s

end Sys2Proof.Machine
end

