-- ==== Sys2Proof/Machine/CmdTier.lean ====
section
/-!
DEFINITION. Tier commands (R411): SKEIN_DOFF (R233), SKEIN_RELOAD (R234), TIER_PIN and TIER_UNPIN (R230).
-/
namespace Sys2Proof.Machine

/-- SKEIN_DOFF (R233, R235, R252, R411). -/
def cmdSkeinDoff (x : Ctx) (s : State) : CmdM := do
  let (idx, _) ← x.skein s 0
  req s.creelServes St.creelOffline
  req (!thas s.store.reloads idx) St.rangeInUse
  return .wait ((s.askDoff idx (some x.c.ref) false).runTier)

/-- SKEIN_RELOAD (R227, R234, R235, R252, R411): a skein with nothing at tier 2 completes at once. -/
def cmdSkeinReload (x : Ctx) (s : State) : CmdM := do
  let (idx, k) ← x.skein s 0
  req s.creelServes St.creelOffline
  let n := k.toReload
  let busy := thas s.store.doffs idx || s.store.moves.any fun m => m.2.skein == idx && m.2.dstTier == 2
  if n = 0 ∧ !busy ∧ !thas s.store.reloads idx then return .done s (zeros 8)
  else
    within n (s.dramNeed x.tag n)
    return .wait ((s.askReload idx (some x.c.ref) [] true false).runTier)

/-- The leaf keys of the ranges at PARAMS +4, each within its row (R32, R167, R230). -/
def tierRange (x : Ctx) (k : Skein) : Except CmdErr (List Nat) := do
  let l0 := x.p 4 2
  let ln := x.p 6 2
  let h0 := x.p 8 2
  let hn := x.p 10 2
  let b0 := x.p 12 4
  let bn := x.p 16 4
  inRange (decide (1 ≤ ln ∧ l0 + ln ≤ k.layers)) 4
  inRange (decide (1 ≤ hn ∧ h0 + hn ≤ k.heads)) 8
  inRange (decide (1 ≤ bn ∧ b0 + bn ≤ 65536)) 12
  let rows := (List.range ln).flatMap fun l => (List.range hn).map fun h => rowKey (l0 + l) (h0 + h)
  inRange (rows.all fun r => match k.tail r with
    | some t => decide (b0 + bn ≤ t.1 + 1)
    | none => false) 12
  return rows.flatMap fun r => (List.range bn).map fun i => r * 65536 + b0 + i

/-- TIER_PIN (R230, R411). -/
def cmdTierPin (x : Ctx) (s : State) : CmdM := do
  let tier := x.p 20 1
  mode (decide (tier ≤ 1))
  let (idx, k) ← x.skein s 0
  let keys ← tierRange x k
  let ls := keys.filterMap (tget k.leaves)
  req (!ls.any fun l => l.tier == 3 || l.check == .damaged) St.recomputeNeeded
  req (!ls.any fun l => l.lock && l.tier != tier) St.bobbinLocked
  let move := ls.filter fun l => l.tier != tier && !l.pin
  let creel := move.any fun l => l.tier == 2
  req (!creel || s.creelServes) St.creelOffline
  if tier = 0 then
    req (!s.overQuota x.tag qSram (4 * move.length)) St.quotaExceeded
    req (decide (move.length ≤ s.residenceFree)) St.noResource
    within 0 (need (!(creel && s.belowLow)) St.backpressure)
  else within move.length (s.dramNeed x.tag move.length)
  let w : PinWork := { order := s.store.nextTask, waiter := some x.c.ref, skein := idx, keys, tier, kind := 0, count := keys.length }
  return .wait (((s.modStore fun t => { t with pins := t.pins ++ [w], nextTask := t.nextTask + 1 }).runTier).endPins)

/-- TIER_UNPIN (R230, R411): PIN is cleared at once, and tier-0 bobbins that it unpins move to tier 1. -/
def cmdTierUnpin (x : Ctx) (s : State) : CmdM := do
  let (idx, k) ← x.skein s 0
  let keys ← tierRange x k
  let pinned := keys.filter fun key => match tget k.leaves key with
    | some l => l.pin
    | none => false
  let down := pinned.filter fun key => match tget k.leaves key with
    | some l => l.tier == 0 && !l.lock
    | none => false
  within down.length (s.dramNeed x.tag down.length)
  let clear := fun (e : Nat × Leaf) => if pinned.contains e.1 then (e.1, { e.2 with pin := false }) else e
  let s := s.setSkein idx { k with leaves := k.leaves.map clear }
  let w : PinWork := { order := s.store.nextTask, waiter := some x.c.ref, skein := idx, keys := down, tier := 1, kind := 1, count := pinned.length }
  return .wait (((s.modStore fun t => { t with pins := t.pins ++ [w], nextTask := t.nextTask + 1 }).runTier).endPins)

/-- SKEIN_DOFF (R233). -/
def execSkeinDoff (m slot : Nat) (s : State) : Host.Outcome State Fault Refusal := cmdRow 0x0800 cmdSkeinDoff m slot s
/-- SKEIN_RELOAD (R234). -/
def execSkeinReload (m slot : Nat) (s : State) : Host.Outcome State Fault Refusal := cmdRow 0x0801 cmdSkeinReload m slot s
/-- TIER_PIN (R230). -/
def execTierPin (m slot : Nat) (s : State) : Host.Outcome State Fault Refusal := cmdRow 0x0802 cmdTierPin m slot s
/-- TIER_UNPIN (R230). -/
def execTierUnpin (m slot : Nat) (s : State) : Host.Outcome State Fault Refusal := cmdRow 0x0803 cmdTierUnpin m slot s

end Sys2Proof.Machine
end

