-- ==== Sys2Proof/Machine/CreelEvents.lean ====
section
/-!
DEFINITION. Creel events: merges (R243, R244, R255), failed programs and erases (R253, R254, R256), wear levelling (R258),
the full scan (R251, R252) and the creel patrol (R259).
-/
namespace Sys2Proof.Machine

/-! ## Merges (R243) -/

/-- The block into which a logical block is being merged. -/
def Creel.destOf (c : Creel) (lb : Nat) : Option Nat := (c.blocks.find? fun b => b.2 == .mergeDest lb).map (·.1)

/-- Whether a logical block may be merged now (R243, R244): the buffer is three quarters full or above S, all log blocks
are open, every slot was written since the last merge, or patrol or wear levelling asks. -/
def Creel.mergeDue (c : Creel) (lb : Nat) : Bool :=
  let cap := c.bufferSize * slcPages
  decide (3 * cap ≤ 4 * c.bufferPages) || decide (cap < c.bufferPages) || decide (256 ≤ c.logBlocks.length) ||
    decide (lbSlots ≤ ((tget c.merges lb).getD []).length) || c.asked.contains lb || c.level.contains lb

/-- The free block for a merge: the most worn for wear levelling, else the least worn (R258). -/
def State.mergeBlock (s : State) (lb : Nat) : Option (Nat × State) :=
  let c := s.creel
  let worn := ((c.tlcErases ++ c.slcErases).map (·.1)).foldl (fun (a : Option Nat) b => match a with
    | none => if thas c.blocks b then none else some b
    | some x => if !thas c.blocks b && decide (c.wear x < c.wear b) then some b else a) none
  match worn with
  | some b => if c.level.contains lb && c.freeBlocks != 0 then some (b, s.useBlock b (.mergeDest lb)) else s.takeBlock (.mergeDest lb)
  | none => s.takeBlock (.mergeDest lb)

/-- Whether the creel works now: power on and not in Doze or Standby (R260, R497). -/
def State.creelAwake (s : State) : Bool := s.awake && s.creelServes

/-- MERGE_START (R243): no merge starts in READ_ONLY (R257). -/
def execMergeStart (lb : Nat) (s : State) : Host.Outcome State Fault Refusal :=
  if !s.awake || s.creel.state != .online || !s.lbMapped lb || (s.creel.destOf lb).isSome || !s.creel.mergeDue lb then .next s
  else match s.mergeBlock lb with
    | some (_, s) => .next s
    | none => .next s

/-- Asks for a merge of the logical block in the least-worn data block where some data block has worn more than 300 further (R258). -/
def State.levelWear (s : State) : State :=
  let c := s.creel
  let kept := ((c.tlcErases ++ c.slcErases).map (·.1)).filter fun b => tget c.blocks b != some .retired
  let top := (kept.map c.wear).foldl max 0
  let holding := c.blocks.filterMap fun b => match b.2 with
    | .data lb => some (b.1, lb)
    | _ => none
  let least := holding.foldl (fun (a : Option (Nat × Nat)) x => match a with
    | none => some x
    | some y => if c.wear x.1 < c.wear y.1 then some x else a) none
  match least with
  | some (b, lb) => if c.wear b + 3000 < top ∧ !c.level.contains lb then s.modCreel fun c => { c with level := c.level ++ [lb] } else s
  | none => s

/-- The live logical pages of a logical block, ascending (R241). -/
def Creel.livePages (c : Creel) (lb : Nat) : List Nat := (c.pages.filter fun e => e.1 / tlcPages == lb).map (·.1)

/-- Copies the live pages of a logical block into a merge destination in page order, each marked MERGE_COPY and the last also
MERGE_SEAL (R243, R245). -/
def Creel.mergePages (c : Creel) (lb b : Nat) : Creel :=
  let live := c.livePages lb
  (indexed live).foldl (fun (c : Creel) p =>
    let flags : BitVec 2 := if p.2 + 1 = live.length then 3 else 1
    { c.program b .lea (p.1 % tlcPages) lb flags with pages := tset c.pages p.1 (b, c.fill b) }) c

/-- MERGE_COMPLETE (R243): every live page is in the new block, the last with MERGE_SEAL, and the logical block is mapped
to it; only then are the sources invalid. -/
def execMergeComplete (lb : Nat) (s : State) : Host.Outcome State Fault Refusal :=
  match s.creel.destOf lb with
  | none => .next s
  | some b =>
    if !s.creelAwake then .next s
    else
      let s := s.modCreel fun c =>
        { c.mergePages lb b with
          blocks := tset c.blocks b (.data lb), map := tset c.map lb b, merges := tdel c.merges lb
          asked := c.asked.filter (· != lb), level := c.level.filter (· != lb) }
      .next s.reclaim.levelWear.runTier

/-- MERGE_DEST_FAIL (R255): the destination is retired and the merge starts again in a fresh block. -/
def execMergeDestFail (lb : Nat) (s : State) : Host.Outcome State Fault Refusal :=
  match s.creel.destOf lb with
  | none => .next s
  | some b =>
    if !s.creelAwake then .next s
    else
      let s := (s.retireBlock b 3).setFlag Flag.creelProgramFail
      .next (if s.creel.state == .online then (match s.takeBlock (.mergeDest lb) with
        | some (_, s) => s
        | none => s) else s)

/-! ## Programs and erases (R253, R254, R258) -/

/-- Names another place for a live page: of a lea, of a record or of reel segments. -/
def Creel.moveLive (c : Creel) (p q : PageAt) : Creel :=
  { c with
    pages := c.pages.map fun (e : Nat × PageAt) => if e.2 = p then (e.1, q) else e
    metas := c.metas.map fun m => { m with places := m.places.map fun (x : PageAt) => if x = p then q else x }
    reelPages := c.reelPages.map fun (r : ReelPage) => if r.place = p then { r with place := q } else r }

/-- Whether a page is live. -/
def Creel.pageLive (c : Creel) (p : PageAt) : Bool :=
  (c.pages.any fun e => e.2 == p) || (c.metas.any fun m => c.metaLive m && m.places.contains p) || c.reelPages.any fun r => r.place == p

/-- Programs a live page of a failing block again, a lea in the open unit and a record page among the records (R253). -/
def State.relocatePage (s : State) (blk page : Nat) (f : FlashPage) : Option State :=
  if !s.creel.pageLive (blk, page) then some s
  else do
    let (b, s) ← if f.record.kind = .lea then s.openUnit else s.openRecord 0
    return s.modCreel fun c =>
      (c.program b f.record.kind f.record.pageIndex.toNat f.record.logicalBlock.toNat 0).moveLive (blk, page) (b, c.fill b)

/-- Relocates the live pages of a block to other units; none while a page must wait for one (R242, R253). -/
def State.relocate (s : State) (blk : Nat) : Option State :=
  let s := s.modCreel fun c => { c with bufferBlocks := c.bufferBlocks.filter (· != blk), logBlocks := c.logBlocks.filter (· != blk)
                                        recordBlocks := c.recordBlocks.filter (· != blk) }
  (indexed (s.creel.pagesIn blk)).foldlM (fun s f => s.relocatePage blk f.2 f.1) s

/-- Whether a block is one of the system blocks that serve an area, and the creel is not OFFLINE. -/
def State.systemBlock (s : State) (blk : Nat) : Bool := s.awake && s.creel.state != .offline && decide (dataBlocks ≤ blk)

/-- CREEL_PROGRAM_FAIL (R253, R256): the block's live pages go to other units, then it is retired; a spare system block takes a
system block's place. -/
def execCreelProgramFail (blk : Nat) (s : State) : Host.Outcome State Fault Refusal :=
  let inUse : Bool := match tget s.creel.blocks blk with
    | some .buffer | some .log => true
    | _ => false
  if s.systemBlock blk then .next ((s.replaceSystem blk 1).setFlag Flag.creelProgramFail)
  else if !s.creelAwake || !inUse then .next s
  else match s.relocate blk with
    | some s => .next ((s.retireBlock blk 1).setFlag Flag.creelProgramFail)
    | none => .next s

/-- CREEL_ERASE_FAIL (R254, R256). -/
def execCreelEraseFail (blk : Nat) (s : State) : Host.Outcome State Fault Refusal :=
  if s.systemBlock blk then .next ((s.replaceSystem blk 2).setFlag Flag.creelEraseFail)
  else match tget s.creel.blocks blk with
  | some (.erasing _) => if s.creelAwake then .next ((s.retireBlock blk 2).setFlag Flag.creelEraseFail) else .next s
  | _ => .next s

/-- One erase more of a block: it is free and holds no page (R241, R258). -/
def Creel.erased (c : Creel) (blk : Nat) (slc : Bool) : Creel :=
  let c := { c with tlcErases := if slc then c.tlcErases else tadd c.tlcErases blk 1, slcErases := if slc then tadd c.slcErases blk 1 else c.slcErases }
  { c with maxWear := max c.maxWear (c.wear blk / 10), blocks := tdel c.blocks blk, freeBlocks := c.freeBlocks + 1, flash := tdel c.flash blk
           metas := c.metas.filter fun m => !m.places.any fun p => p.1 == blk }

/-- CREEL_ERASE_COMPLETE (R241, R258): the block is free, or, where its wear had reached 3,000, retired; 4,096 free blocks end
READ_ONLY (R257). -/
def execCreelEraseComplete (blk : Nat) (s : State) : Host.Outcome State Fault Refusal :=
  match tget s.creel.blocks blk with
  | some (.erasing slc) =>
    if !s.creelAwake then .next s
    else if 30000 ≤ s.creel.wear blk then .next (s.retireBlock blk 4)
    else .next (s.modCreel fun c => c.erased blk slc).leaveReadOnly.levelWear.runTier
  | _ => .next s

/-! ## The full scan (R251, R252) -/

/-- A lost creel copy: the bobbins of live skeins are DAMAGED now, those of records when their skein is restored (R42, R251). -/
def State.loseCreel (s : State) (pbn : Nat) : State :=
  let s := (s.store.skeins.flatMap fun k => (k.2.leaves.filter fun e => e.2.tier == 2 && e.2.pbn == pbn).map fun e => (k.1, e.1)).foldl
    (fun s e => s.damage e.1 e.2) s
  let mark := fun (t : Table SkRecord) => t.map fun (r : Nat × SkRecord) =>
    (r.1, { r.2 with skein := { r.2.skein with leaves := r.2.skein.leaves.map fun (e : Nat × Leaf) =>
      if e.2.tier == 2 && e.2.pbn == pbn then (e.1, { e.2 with check := .damaged }) else e } })
  s.modCreel fun c => { c with records := mark c.records, toRestore := mark c.toRestore }

/-- The creel bobbin that a logical page belongs to (R240). -/
def bobbinOf (page : Nat) : Nat := page / tlcPages * lbSlots + page % tlcPages / 4

/-- Reel indices that only a lost page of segments held: neither a slab in DRAM nor another page has them (R466). -/
def Creel.reelHole (c : Creel) (k : Skein) (lost : ReelPage) : List Nat :=
  let other := fun (t : Nat) => c.reelPages.any fun (r : ReelPage) => r.idx == lost.idx && r != lost && decide (r.first ≤ t / 64 ∧ t / 64 < r.last)
  (k.reel.map (·.1)).filter fun t =>
    decide (lost.first ≤ t / 64 ∧ t / 64 < lost.last) && !(k.reelSlabs.any fun x => x.1 == t / reelSlabTokens) && !other t

/-- A lost page of reel segments: the reel no longer covers what only it held, and REEL_LOST says so (R466, R467). -/
def State.loseReelPage (s : State) (lost : ReelPage) : State :=
  let gone := s.modCreel fun c => { c with reelPages := c.reelPages.filter (· != lost) }
  let cut := fun (k : Skein) (hole : List Nat) => { k with reel := k.reel.filter fun e => !hole.contains e.1 }
  let tell := fun (s : State) (k : Skein) (hole : List Nat) => match hole.head?, hole.getLast? with
    | some a, some b => s.raise Ev.reelLost (.tenant k.tenant) [k.handle.toNat, a, b + 1]
    | _, _ => s
  match s.skein? lost.idx, tget s.creel.toRestore lost.idx with
  | some k, _ =>
    let hole := s.creel.reelHole k lost
    tell ((gone.setSkein lost.idx (cut k hole)).modCreel fun c => { c with reels := tmod c.reels lost.idx fun r => r.filter fun e => !hole.contains e.1 }) k hole
  | none, some r =>
    let hole := s.creel.reelHole { r.skein with reelSlabs := [] } lost
    tell (gone.modCreel fun c => { c with toRestore := tset c.toRestore lost.idx { r with skein := cut r.skein hole } }) r.skein hole
  | none, none => gone

/-- An uncorrectable page: a live lea's bobbin is DAMAGED, reel coverage goes, a system block is replaced (R256, R466). -/
def State.losePage (s : State) (p : PageAt) : State :=
  let s := (s.creel.pages.filter fun e => e.2 == p).foldl (fun s e => s.loseCreel (bobbinOf e.1)) s
  let s := (s.creel.reelPages.filter fun r => r.place == p).foldl State.loseReelPage s
  if dataBlocks ≤ p.1 then s.replaceSystem p.1 1 else s

/-- Creel slots that a live skein, a move or a surviving record claims (R251 rule 6). -/
def State.claimed (s : State) : List Nat :=
  let tier2 := fun (k : Skein) => (k.leaves.filter fun e => e.2.tier == 2).map fun e => e.2.pbn
  s.store.skeins.flatMap (fun k => tier2 k.2) ++ (s.creel.records ++ s.creel.toRestore).flatMap (fun r => tier2 r.2.skein) ++
    s.store.moves.flatMap fun m => (if m.2.srcTier = 2 then [m.2.srcPbn] else []) ++ if m.2.dstTier = 2 then [m.2.dstPbn] else []

/-- Lea pages that the scan reads, with their logical page and SEQUENCE: none of a retired block, of a merge destination without
its seal, nor with a bad record (R251 rules 1 to 3). -/
def Creel.scanned (c : Creel) (bad : List PageAt) : List (Nat × Nat × PageAt) :=
  let skip := fun (b : Nat) => match tget c.blocks b with
    | some .retired | some (.mergeDest _) => true
    | _ => false
  (c.flash.filter fun e => !skip e.1).flatMap fun e => (indexed e.2).filterMap fun f =>
    if f.1.record.kind = .lea ∧ !bad.contains (e.1, f.2) then
      some (f.1.record.logicalBlock.toNat * tlcPages + f.1.record.pageIndex.toNat, f.1.record.sequence.toNat, (e.1, f.2))
    else none

/-- For each logical page the copy with the largest SEQUENCE (R251 rule 4). -/
def newest (found : List (Nat × Nat × PageAt)) : Table PageAt :=
  (found.foldl (fun (t : Table (Nat × PageAt)) f => match tget t f.1 with
    | some o => if o.1 < f.2.1 then tset t f.1 f.2 else t
    | none => tset t f.1 f.2) []).map fun (e : Nat × Nat × PageAt) => (e.1, e.2.2)

/-- Whether a bad page's lea survives in an older copy: the page was written by a merge, whose source is not yet erased (R243, R245). -/
def Creel.olderCopy (c : Creel) (bad : List PageAt) (page : Nat) (p : PageAt) : Bool :=
  match (c.pagesIn p.1)[p.2]? with
  | some f => f.record.flags.getLsbD 0 && (c.scanned bad).any fun x => x.1 == page
  | none => false

/-- Rule 2 for leas: a bobbin with a bad page and no older copy of it is DAMAGED (R251). -/
def State.scanLeas (s : State) (bad : List PageAt) : State :=
  let c := s.creel
  let lost := c.pages.filter fun e => bad.contains e.2 && !c.olderCopy bad e.1 e.2
  ((lost.map fun e => bobbinOf e.1).eraseDups.foldl State.loseCreel s).modCreel fun c => { c with pages := newest (c.scanned bad) }

/-- Rules 2 and 5 for records: for an index with a bad record page the latest readable record or tombstone decides (R251). -/
def State.scanRecord (s : State) (bad : List PageAt) (idx : Nat) : State :=
  let old := tget s.creel.toRestore idx
  let best := (s.creel.metas.filter fun m => m.idx == idx && !m.places.any bad.contains).getLast?
  let new := best.bind fun m => m.body
  let s := match old with
    | some r => s.credit r.skein.tenant qCreel (r.skein.atTier 2 + recordBobbinsFor r.skein.leaves.length + r.skein.reelCreelBobbins)
    | none => s
  let s := match new with
    | some r => s.charge r.skein.tenant qCreel (r.skein.atTier 2 + recordBobbinsFor r.skein.leaves.length + r.skein.reelCreelBobbins)
    | none => s
  s.modCreel fun c => { c with
    toRestore := (match new with
      | some r => tset c.toRestore idx { r with skein := { r.skein with reel := (old.map fun o => o.skein.reel).getD r.skein.reel } }
      | none => tdel c.toRestore idx)
    metas := c.metas.filter fun m => m.idx != idx || !m.places.any bad.contains }

/-- The records of every index with a bad record page, then the reels with a bad page (R251, R466). -/
def State.scanRecords (s : State) (bad : List PageAt) : State :=
  let hit := ((s.creel.metas.filter fun m => m.places.any bad.contains).map (·.idx)).eraseDups
  let s := hit.foldl (fun s i => s.scanRecord bad i) s
  (s.creel.reelPages.filter fun r => bad.contains r.place).foldl State.loseReelPage s

/-- The map as the scan rebuilds it: unsealed merges are erased, unclaimed slots are freed (R251 rules 3 and 6). -/
def State.rebuildMap (s : State) : State :=
  let keep := s.claimed
  let gone := s.store.creelUsed.filter fun p => !keep.contains p
  let s := (s.modCreel fun c => { c with
    pages := c.pages.filter fun e => keep.contains (bobbinOf e.1)
    blocks := c.blocks.map fun (b : Nat × BlkUse) => match b.2 with
      | .mergeDest _ => (b.1, .erasing false)
      | _ => b })
  (gone.foldl State.giveCreel s).reclaim

/-- CREEL_SCAN_COMPLETE (R251, R252, R262): the pages with a bad record or uncorrectable. -/
def execCreelScanComplete (bad : List PageAt) (s : State) : Host.Outcome State Fault Refusal :=
  if s.creel.state ≠ .rebuilding ∨ !s.awake then .next s
  else
    let s := ((s.scanLeas bad).scanRecords bad).rebuildMap
    let s := (s.modCreel fun c => { c with state := .online }).setFlag Flag.creelRebuilt
    .next s.checkReadOnly.checkTails.runTier

/-! ## The creel patrol (R259, R446) -/

/-- Nanoseconds of a pass. -/
def weekNs : Nat := 604800000000000
/-- The programmed pages of every data and system block, in the order of the patrol (R259). -/
def Creel.programmed (c : Creel) : List PageAt := c.flash.flatMap fun e => (List.range e.2.length).map fun i => (e.1, i)
/-- Programmed pages that a pass reads. -/
def State.patrolTotal (s : State) : Nat := (s.creel.flash.map fun e => e.2.length).sum
/-- Pages that the share allows in a period of 1 s, of 56 GB/s (R239, R445). -/
def State.creelCap (s : State) : Nat := 56000000000 * s.cfg.budgets.getD 4 0 / 2 ^ 20 / 16384
/-- Pages that this period should read to end the pass in time. -/
def State.creelWant (s : State) : Nat :=
  let left := s.patrolTotal - s.creel.patrolPage
  let time := s.creel.patrolStart + weekNs - s.time.localNow
  if time ≤ 1000000000 then left else (left * 1000000000 + time - 1) / time

/-- The check words of the leas whose live pages the period reads (R71, R259). -/
def State.creelChecks (s : State) (read : List PageAt) : State :=
  let bad := (s.store.skeins.flatMap fun k => (k.2.leaves.filter fun e => e.2.tier == 2 && e.2.check != .damaged &&
    ((indexed (bobbinPages e.2.pbn)).any fun p =>
      ((tget s.creel.pages p.1).map read.contains).getD false &&
        !leaOk s.mem (slotAddr 2 e.2.pbn) (keyLayer e.1) (keyHg e.1) (keyBob e.1) p.2)).map fun e => (k.1, e.1))
  bad.foldl (fun s e => s.damage e.1 e.2) s

/-- Records the bits corrected in a page (R259). -/
def Creel.noteBits (c : Creel) (x : PageBits) : Creel :=
  { c with flash := tmod c.flash x.blk fun ps => (indexed ps).map fun f => if f.2 = x.page then { f.1 with corrected := x.bits } else f.1 }

/-- Logical blocks with a page in a block that corrected too much: they are to be merged (R259). -/
def Creel.wornBlocks (c : Creel) (blk : Nat) : List Nat := match tget c.blocks blk with
  | some (.data lb) => [lb]
  | some .buffer | some .log => ((c.pages.filter fun e => e.2.1 == blk).map fun e => e.1 / tlcPages).eraseDups
  | _ => []

/-- Rewrites a system block in place: its pages are programmed again (R259). -/
def Creel.rewriteSystem (c : Creel) (blk : Nat) : Creel :=
  (c.pagesIn blk).foldl (fun (c : Creel) p => c.program blk p.record.kind p.record.pageIndex.toNat 0 0) { c with flash := tdel c.flash blk }

/-- What the patrol does about a page corrected beyond 60 % of the decoder's capability (R259). -/
def Creel.refresh (c : Creel) (x : PageBits) : Creel :=
  if 10 * x.bits ≤ 6 * Config.ldpcBits then c
  else if dataBlocks ≤ x.blk then c.rewriteSystem x.blk
  else { c with asked := (c.asked ++ c.wornBlocks x.blk).eraseDups }

/-- The end of a pass, and its lateness: PATROL_LATE once (R262, R446). -/
def State.creelPassEnd (s : State) : State :=
  if s.patrolTotal ≤ s.creel.patrolPage then
    s.modCreel fun c => { c with patrolPage := 0, patrolStart := s.time.localNow, patrolLate := false }
  else if s.creel.patrolStart + weekNs ≤ s.time.localNow ∧ !s.creel.patrolLate then
    (s.modCreel fun c => { c with patrolLate := true }).setFlag Flag.creelPatrolLate
  else s

/-- CREEL_PATROL_PERIOD (R259): one budget period of 1 s; deferred outside Run (R496). Findings count for pages that the period
reads. -/
def execCreelPatrolPeriod (pages : Nat) (corrected : List PageBits) (bad : List PageAt) (s : State) : Host.Outcome State Fault Refusal :=
  if !s.creelAwake then .next s
  else
    let run := s.power.state == .run
    let period := s.time.localNow / 1000000000
    let used := usedIn period s.rel.creelPatrolUse
    let n := if run then min pages (min s.creelWant (s.creelCap - used)) else 0
    let lo := s.creel.patrolPage
    let read := (s.creel.programmed.drop lo).take n
    let t := if n < min pages s.creelWant then s.deferDuty 5 else s
    let t := (t.modCreel fun c => { c with patrolPage := lo + n }).modRel fun r =>
      { r with creelPatrolUse := (period, used + n), counters := tset r.counters (relCounter 9 5) ((lo + n) * 1024 / max 1 s.patrolTotal) }
    let mine := corrected.filter fun x => read.contains (x.blk, x.page)
    let t := t.modCreel fun c => mine.foldl Creel.refresh (mine.foldl Creel.noteBits c)
    .next ((bad.filter read.contains).foldl State.losePage (t.creelChecks read)).creelPassEnd

end Sys2Proof.Machine
end

