-- ==== Sys2Proof/Machine/Registers.lean ====
section
/-!
DEFINITION. What the read-only registers read as (R116, R117, R177, R229, R262, R268, R336, R349, R509, R526, R527): each
is a view of the state, placed in BAR0 by R342, R347 and R349.
-/
namespace Sys2Proof.Machine

/-- A register field: a value shifted to its lowest bit. -/
def fieldAt (lo v : Nat) : Nat := v * 2 ^ lo
/-- One bit. -/
def flagAt (lo : Nat) (b : Bool) : Nat := if b then 2 ^ lo else 0

/-- STATE code of MODULE_STATUS (R527). -/
def BootState.code : BootState → Nat
  | .booting => 0 | .ready => 1 | .activating => 2 | .recovery => 3 | .halted => 4

/-- MODULE_STATUS (R527). -/
def State.moduleStatus (s : State) : Nat :=
  let b := s.boot
  fieldAt 32 b.version.toNat + fieldAt 20 b.bootError + flagAt 19 b.restorePending + flagAt 18 b.stagedValid + fieldAt 12 b.startKind +
    fieldAt 8 b.serviceLevel + b.state.code

/-- POWER_STATUS (R509). -/
def State.powerStatus (s : State) : Nat :=
  let p := s.power
  fieldAt 48 p.cap + fieldAt 32 (min 65535 p.inputW) + flagAt 18 p.inputLimit + flagAt 17 (!p.throttling.isEmpty) + flagAt 16 (decide (p.clock < 64)) +
    flagAt 11 p.wakeDuringEntry + fieldAt 8 p.wakeSource + flagAt 4 p.inTransition + fieldAt 2 p.target.code + p.state.code

/-- CXL_LINK_STATUS (R349). -/
def State.cxlLinkStatus (s : State) : Nat :=
  let c := s.cxl
  fieldAt 29 c.linkState + fieldAt 24 c.width + fieldAt 20 c.rate + flagAt 19 c.flit256 + flagAt 18 c.ideMem +
    ((List.range 16).map fun d => flagAt d (s.ld d).bound).sum

/-- HOST_GENERATION of an LD (R349). -/
def State.hostGeneration (s : State) (d : Nat) : Nat := (s.ld d).hostGen.toNat

/-- RECOVERY_CTRL (R526). -/
def State.recoveryCtrl (s : State) : Nat := fieldAt 32 s.boot.recoveryLength.toNat + fieldAt 4 s.boot.recoveryResult

/-- Whether a job that still streams has items dealt to a spindle (R107, R116). -/
def Job.dealtTo (j : Job) (i : Nat) : Bool :=
  (j.phase == .streaming || j.phase == .barrier || j.phase == .launchWait) && j.items.any fun x => match x.sub.or x.dealt with
    | some u => u / 64 == i
    | none => false

/-- SPINDLE_STATUS (R116): a spindle in service that a barrier awaits takes no new items, and is DRAINING (R118). -/
def State.spindleStatus (s : State) (i : Nat) : Nat :=
  let p := s.rel.spindles.getD i {}
  let jobs := (s.work.jobs.filter fun j => j.2.dealtTo i).length
  fieldAt 28 (if p.state ≤ 1 ∧ s.awaited i then 2 else p.state) + fieldAt 26 p.foldDepth + fieldAt 24 p.foldWidth + flagAt 23 p.deterministic + flagAt 22 p.expanded +
    fieldAt 19 (min 4 p.failed.length) + min 65535 jobs

/-- COLUMN_MAP (R117): the four entries in use. -/
def State.columnMap (s : State) (i : Nat) : Nat :=
  let f := (s.rel.spindles.getD i {}).failed.take 4
  fieldAt 40 (2 ^ f.length - 1) + ((indexed f).map fun x => fieldAt (10 * x.2) x.1).sum

/-- WHORL_STATUS (R177). -/
def State.whorlStatus (s : State) (k : Nat) : Nat :=
  let x := s.rel.stackUnits.getD k {}
  fieldAt 16 x.whorls + fieldAt 8 x.vacant.length + flagAt 3 (decide (2048 < s.sketchDepth k)) + flagAt 2 (s.sketchFull k) + x.state

/-- POOL_STATUS (R229). -/
def State.poolStatus (s : State) : Nat := fieldAt 24 s.store.poolSlots + s.poolFree

/-- TIER_FLAGS (R229): the W1C flag with the bits that show the pool and the creel as they are. -/
def State.tierFlags (s : State) : Nat :=
  flagAt 4 s.belowLow + flagAt 3 s.store.evicting + flagAt 2 s.belowReserve + flagAt 1 (s.creel.state == .readOnly) +
    (s.flagWord 0).toNat % 2

/-- STATE code of CREEL_STATUS (R262). -/
def CreelState.code : CreelState → Nat
  | .offline => 0 | .rebuilding => 1 | .online => 2 | .readOnly => 3

/-- CREEL_STATUS (R262). -/
def State.creelStatus (s : State) : Nat :=
  if s.creel.state = .offline then 0
  else fieldAt 28 s.creel.state.code + fieldAt 16 (min 255 (s.creel.maxWear * 100 / 3000)) + min 65535 s.creel.spare

/-- CREEL_BUFFER (R262). -/
def State.creelBuffer (s : State) : Nat :=
  if s.creel.state = .offline then 0 else
  fieldAt 48 (min 255 s.creel.logBlocks.length) + fieldAt 24 s.creel.bufferBlocks.length + s.creel.bufferSize

/-- STATE code of PORT_STATUS (R268). -/
def PortState.code : PortState → Nat
  | .down => 0 | .training => 1 | .up => 2 | .lowRate => 3 | .retraining => 4

/-- PORT_STATUS (R268). -/
def State.portStatus (s : State) (p : Nat) : Nat :=
  let x := s.portAt p
  fieldAt 28 x.state.code + fieldAt 24 (min 8 (wlCount x.mapNow)) + flagAt 23 (x.mapNow.getLsbD 8) + flagAt 22 x.bankB + flagAt 21 x.standbyOk + x.mapNow.toNat

/-- SCHED_STATUS (R336). -/
def State.schedStatus (s : State) (p : Nat) : Nat :=
  let x := s.portAt p
  flagAt 6 (!x.gates.isEmpty) + flagAt 5 x.standby.isSome + x.gateEntry % 32

/-! ## BAR0 as a host reads it (R342–R344, R347–R349, R392, R509, R526) -/

/-- The 64-bit slot of the module block at an offset. -/
def State.moduleSlot (s : State) (off : Nat) : Nat :=
  if off = 0x00 then s.moduleStatus
  else if off = 0x08 then s.time.now.toNat
  else if off = 0x10 then s.cxlLinkStatus
  else if off = 0x18 then s.powerStatus
  else if off = 0x20 then s.power.lastEntry.toNat
  else if off = 0x28 then s.power.lastWake.toNat
  else if off = 0x30 then s.recoveryCtrl
  else if 0x100 ≤ off ∧ off < 0x180 then s.hostGeneration ((off - 0x100) / 8)
  else 0

/-- The 64-bit slot of a flag row: the flag register, and from byte 0x20 on its counters (R348). -/
def State.flagSlot (s : State) (row off : Nat) : Nat :=
  if off = 0 then (if row = 0 then s.tierFlags else (s.flagWord row).toNat)
  else if 0x20 ≤ off then ofLe ((List.range 8).map fun i => s.flagCount row (off - 0x20 + i))
  else 0

/-- The 64-bit slot of the unit block at an offset; a 32-bit register has the low half (R347). -/
def State.unitSlot (s : State) (off : Nat) : Nat :=
  if off < 0x40 then s.spindleStatus (off / 8)
  else if off < 0x80 then s.columnMap ((off - 0x40) / 8)
  else if off < 0xC0 then s.whorlStatus ((off - 0x80) / 8)
  else if off = 0xC0 then s.poolStatus
  else if off = 0xC8 then s.creelStatus
  else if off = 0xD0 then s.creelBuffer
  else if off < 0xF8 then s.portStatus ((off - 0xD8) / 8)
  else if 0x100 ≤ off ∧ off < 0x120 then s.schedStatus ((off - 0x100) / 8)
  else if 0x200 ≤ off ∧ off < 0x200 + 0x40 * flagRows then s.flagSlot ((off - 0x200) / 0x40) (off % 0x40)
  else 0

/-- The 64-bit slot of a mailbox page; QUEUE_DOORBELL is write-only (R344). -/
def Mbox.pageSlot (b : Mbox) (off : Nat) : Nat :=
  if off = 0 then b.sqTail + b.cqHead * 2 ^ 32 else if off = 8 then b.eventHead else 0

/-- An event record as its ring holds it; DETAIL is not laid out (R392; log 12). -/
def EventRec.image (e : EventRec) : List Byte :=
  toLe 2 e.code ++ toLe 1 ((if e.phase then 1 else 0) + (if 1 < e.count then 2 else 0) + if e.summary then 4 else 0) ++ toLe 1 e.severity ++
    toLe 2 e.tenant.toNat ++ toLe 2 (min 65535 e.count) ++ toLe 8 e.time.toNat ++ padTo 48 ((Config.detailBytes e.code e.detail).take 48)

/-- Whether a mailbox's page and event ring answer an LD (R343); in Standby mailbox 0's alone (R372). -/
def State.pageAnswers (s : State) (ld m : Nat) : Bool := (s.mbox m).ld == some ld && (s.power.state != .standby || m == 0)

/-- The 64-bit slot of BAR0 at an offset that is a multiple of 8, read from an LD: offsets not listed, and in Standby the unit
block, read zero (R342, R343, R372). -/
def State.bar0Slot (s : State) (ld off : Nat) : Nat :=
  if off < 0x10000 then s.moduleSlot off
  else if off < 0x20000 then (if s.power.state = .standby then 0 else s.unitSlot (off - 0x10000))
  else if 0x100000 ≤ off ∧ off < 0x500000 then
    let m := (off - 0x100000) / 0x1000
    if s.pageAnswers ld m then (s.mbox m).pageSlot (off % 0x1000) else 0
  else if 0x500000 ≤ off ∧ off < 0x1500000 then
    let m := (off - 0x500000) / 0x4000
    match tget (s.mbox m).ring (off % 0x4000 / 64) with
    | some e => if s.pageAnswers ld m then field e.image (off % 64) 8 else 0
    | none => 0
  else 0

/-- A byte of BAR0 as an LD reads it. Reading a counter byte also clears it, which RC_COUNTER_READ does (R7). -/
def State.bar0Byte (s : State) (ld off : Nat) : Byte := BitVec.ofNat 8 (s.bar0Slot ld (off / 8 * 8) / 2 ^ (8 * (off % 8)))

/-! ## Configuration space (R337, R338, R340, R341) -/

/-- What an LD's configuration space presents (R341). -/
structure ConfigSpace where
  vendor : Nat
  device : Nat
  classCode : Nat
  revision : Byte
  bar0 : Nat
  /-- DVSECs and the component registers that the Register Locator names -/
  dvsecs : List String
  components : List String
  doeProtocols : List String
  memorySize : Nat
  msixVectors : Nat
  msixEnabled : Bool
  /-- HDM decoders committed, and those whose error status is set -/
  decoders : Table (Nat × Nat)
  decoderError : List Nat
  ioIde : Bool
deriving DecidableEq, Repr

/-- The configuration space of an LD: its identity and capabilities, and the state of its own registers (R340, R341). -/
def State.configSpace (s : State) (ld : Nat) : ConfigSpace :=
  let l := s.ld ld
  { vendor := 0x1F3B, device := 0x8096, classCode := 0x050210, revision := Config.stepping, bar0 := 0x04000000
    dvsecs := ["PCIe DVSEC for CXL devices", "Register Locator", "Flex Bus Port", "GPF for devices"]
    components := ["CXL RAS", "link", "HDM decoder", "IDE"]
    doeProtocols := ["CMA/SPDM", "secured SPDM", "CDAT table access"]
    memorySize := 640 * 2 ^ 30, msixVectors := 2048, msixEnabled := l.msixEnabled, decoders := l.decoders
    decoderError := l.decoderError, ioIde := l.ioIde }

/-- The DSMAS ranges that CDAT reports for an LD: DPA and length of the probe, queue and lent windows (R341, R352). -/
def cdatRanges : List (Nat × Nat) := [(0, 2 ^ 28), (2 ^ 28, 2 ^ 36), (2 ^ 37, 2 ^ 39)]

/-! ## STATUS_READ (R539) -/

/-- The 64 bytes of STATUS_READ (R539). -/
def State.statusBytes (s : State) : List Byte :=
  toLe 8 s.moduleStatus ++ toLe 8 s.powerStatus ++ toLe 4 s.cxlLinkStatus ++ (List.range 4).flatMap (fun p => toLe 4 (s.portStatus p)) ++
    toLe 8 s.time.now.toNat ++ (List.range 4).flatMap (fun v => toLe 4 (s.box.sevCounts.getD v 0)) ++ toLe 1 s.power.tripSensor ++ zeros 3

end Sys2Proof.Machine
end

