-- ==== Sys2Proof/Machine/CxlEvents.lean ====
section
/-!
DEFINITION. The CXL port (R337–R341): link and LD resets (R519, R521, R535), lanes (R339), IDE (R370), DOE (R431), TSP
(R371), the FM API (R340), MSI-X (R351); and the management sideband (R538, R539).
-/
namespace Sys2Proof.Machine

/-! ## Resets (R521, R535) -/

/-- Configuration space, HDM decoders and MSI-X of an LD at their reset values, and its IDE stream ended; HOST_GENERATION,
mailboxes and windows stay (R519, R521). -/
def Ld.reset (l : Ld) : Ld := { l with decoders := [], decoderError := [], msixEnabled := false, ioIde := false }

/-- The link trains at a width and rate (R339); IDE starts anew. -/
def Cxl.train (c : Cxl) (width rate : Nat) (flit256 : Bool) : Cxl :=
  { c with linkState := if width = 0 then 0 else 2, width, rate := if width = 0 then 0 else rate, flit256, trainedWidth := width,
           trainedRate := rate, ideMem := false, insecure := false }

/-- Whether the CXL controller is out of reset (R513, R535). -/
def State.cxlOut (s : State) : Bool :=
  s.boot.state != .booting && s.boot.state != .halted && !s.power.stopped && !s.power.off

/-- A CXL link reset (R519, R521): every LD, and the link down while PERST_N is asserted, otherwise trained again as it was. -/
def State.linkReset (s : State) : State :=
  (s.modCxl fun c =>
    let c := { c with lds := c.lds.map fun (d : Nat × Ld) => (d.1, d.2.reset) }
    if s.boot.perstAsserted then { c with linkState := 0, width := 0, rate := 0, ideMem := false, insecure := false }
    else c.train c.trainedWidth c.trainedRate c.flit256).refreshLevel

/-- PERST_N_ASSERT (R535): a link reset, ignored while the CXL controller is in reset. -/
def execPerstNAssert (s : State) : Host.Outcome State Fault Refusal :=
  let t := { s with boot := { s.boot with perstAsserted := true } }
  .next (if s.cxlOut && !s.boot.perstAsserted then t.linkReset else t)

/-- The widths of R337. -/
def trainWidth (w : Nat) : Nat := if 16 ≤ w then 16 else if 8 ≤ w then 8 else if 4 ≤ w then 4 else 0
/-- The rate codes of R349: 3 to 6; 68-byte flits at 32 GT/s and below (R337). -/
def trainRate (r : Nat) (flit256 : Bool) : Nat := if flit256 then min 6 (max 3 r) else min 5 (max 3 r)

/-- PERST_N_RELEASE (R535): the link is trained. -/
def execPerstNRelease (width rate : Nat) (flit256 : Bool) (s : State) : Host.Outcome State Fault Refusal :=
  let t := { s with boot := { s.boot with perstAsserted := false } }
  .next (if s.cxlOut && s.boot.perstAsserted then (t.modCxl fun c => c.train (trainWidth width) (trainRate rate flit256) flit256).refreshLevel
         else t)

/-- CXL_LINK_RESET (R521): a hot reset or link down. -/
def execCxlLinkReset (s : State) : Host.Outcome State Fault Refusal := .next (if s.cxlOut then s.linkReset else s)

/-- LD_RESET (R521). -/
def execLdReset (ld : Nat) (s : State) : Host.Outcome State Fault Refusal :=
  if ld ≥ ldCount then .fault .noSuchUnit else .next (s.modLd ld Ld.reset)

/-- CXL_LANE_FAILURE (R339): the link trains again at the widest width and highest rate that pass, never below x4. -/
def execCxlLaneFailure (width rate : Nat) (s : State) : Host.Outcome State Fault Refusal :=
  if !s.cxlUp then .next s
  else
    let c := s.cxl
    let w := min c.trainedWidth (trainWidth width)
    let r := min c.trainedRate (trainRate rate c.flit256)
    let lost := decide (w < c.trainedWidth) || decide (r < c.trainedRate)
    let t := s.modCxl fun c =>
      { c with linkState := if w = 0 then 0 else c.linkState, width := min c.width w, rate := if w = 0 then 0 else r, trainedWidth := w,
               trainedRate := r }
    .next (if lost then ((t.setFlag Flag.linkDegraded).raise Ev.cxlLinkDegraded .module [w, r]).refreshLevel else t)

/-! ## MSI-X (R351, R521) -/

/-- MSIX_ENABLE (R521): the vectors that waited are raised, those of mailboxes that are still the LD's (R351). -/
def execMsixEnable (ld : Nat) (s : State) : Host.Outcome State Fault Refusal :=
  if ld ≥ ldCount then .fault .noSuchUnit
  else
    let l := s.ld ld
    let t := s.setLd ld { l with msixEnabled := true, heldVectors := [] }
    .next ((l.heldVectors.filter fun v => (s.mbox (v % boxCount)).ld == some ld).foldl (fun s v => s.emit (.msix ld v)) t)

/-! ## IDE, DOE, TSP (R370, R371, R431) -/

/-- IDE_INTEGRITY_FAILURE (R370): the insecure state, and the event on mailbox 0. -/
def execIdeIntegrityFailure (ld : Option Nat) (s : State) : Host.Outcome State Fault Refusal :=
  match ld with
  | none => .next (if s.cxl.ideMem then (s.modCxl fun c => { c with ideMem := false, insecure := true }).raise Ev.cxlIdeFail .module [16] else s)
  | some d =>
    if d ≥ ldCount then .fault .noSuchUnit
    else .next (if (s.ld d).ioIde then (s.modLd d fun l => { l with ioIde := false }).raise Ev.cxlIdeFail .module [d] else s)

/-- The measurement blocks of R431. -/
def State.measurement (s : State) (block : Nat) : List Byte :=
  if block = 1 then toLe 4 Config.bootRomVersion.toNat else if block = 2 then s.boot.digest
  else if block = 3 then sha384 s.configRecord
  else if block = 4 then (match s.images.tier with
    | some p => p.digest
    | none => zeros 48)
  else []

/-- Whether a message can come over CXL now: the link is up, and not in Standby (R372). -/
def State.doeReaches (s : State) : Bool := s.cxlUp && s.power.state != .standby && !s.power.stopped && !s.power.off

/-- SPDM_DOE_MESSAGE (R431, R370, R419). What an answer holds beside the measurement is opaque (DESIGN CHOICE, log 9). -/
def execSpdmDoeMessage (ld : Nat) (msg : DoeMessage) (s : State) : Host.Outcome State Fault Refusal :=
  if ld ≥ ldCount then .fault .noSuchUnit
  else if !s.doeReaches then .next s
  else
    let reply := fun (s : State) (bs : List Byte) => s.emit (.reply ld (Config.spdmReply ld bs))
    match msg with
    | .other bs => .next (reply s bs)
    | .getMeasurements b => .next (reply s (s.measurement b))
    | .finish h =>
      if s.sec.rngFailed then .next (s.raise Ev.rngFail .module [0])
      else .next (reply (if h.authentic then s.modLd ld fun l => { l with doeSession := true } else s) [])
    | .ideKeySet mem skid =>
      if !(s.ld ld).doeSession then .next (reply s [])
      else .next (reply (if mem then s.modCxl fun c => { c with ideMem := true, ideSkid := skid, insecure := false }
                         else s.modLd ld fun l => { l with ioIde := true }) [])
    | .readCdat e => .next (reply s (Config.cdatEntry e cdatRanges))

/-- A host-table entry as R361 lays it out. -/
def HostEntry.image (e : HostEntry) : List Byte :=
  toLe 4 (2 ^ 31 + (if e.write then 2 ^ 30 else 0) + (if e.read then 2 ^ 29 else 0) + e.ld * 65536 + e.hostGen.toNat) ++ toLe 4 e.keySlot ++
    toLe 8 e.base ++ toLe 8 e.length ++ zeros 8

/-- The SHA-384 of an LD's mailbox assignments and host-table entries as they are locked (R371, R429). -/
def State.lockDigest (s : State) (ld : Nat) : List Byte :=
  sha384 (Config.lockedRecord ((s.box.boxes.filter fun b => b.2.ld == some ld).map (·.1))
    ((s.cxl.hostTable.filter fun e => e.2.ld == ld).map fun e => e.2.image))

/-- TSP_REQUEST (R371): within the LD's DOE session; a request about another LD's entry changes nothing. -/
def execTspRequest (ld : Nat) (req : TspRequest) (s : State) : Host.Outcome State Fault Refusal :=
  if ld ≥ ldCount then .fault .noSuchUnit
  else if !s.doeReaches || !(s.ld ld).doeSession then .next s
  else
    let mine := fun (e : Nat) => match tget s.cxl.hostTable e with
      | some x => x.ld == ld
      | none => false
    let reply := fun (s : State) (n : Nat) => s.emit (.reply ld (Config.cxlReply ld (toLe 4 n)))
    match req with
    | .lockConfiguration =>
      if (s.ld ld).tspLocked then .next (reply s 0)
      else .next (reply (s.modLd ld fun l => { l with tspLocked := true, lockedDigest := s.lockDigest ld }) 1)
    | .unlockConfiguration => .next (reply (s.modLd ld fun l => { l with tspLocked := false, lockedDigest := [] }) 2)
    | .getTargetTeState e => .next (reply s (if mine e && (s.ld ld).teState.contains e then 1 else 0))
    | .setTargetTeState e te =>
      if mine e then
        .next (reply (s.modLd ld fun l => { l with teState := (l.teState.filter (· != e)) ++ if te then [e] else [] }) 3)
      else .next (reply s 0)

/-! ## The FM API (R340) -/

/-- The message channel of the FM-owned LD. -/
def fmChannel : Nat := 21

/-- FM_API_COMMAND (R340): what an answer holds is opaque (DESIGN CHOICE, log 15). -/
def execFmApiCommand (req : FmRequest) (s : State) : Host.Outcome State Fault Refusal :=
  if !s.doeReaches then .next s
  else
    let reply := fun (s : State) (bs : List Byte) => s.emit (.reply fmChannel (Config.cxlReply fmChannel bs))
    match req with
    | .getLdInfo => .next (reply s (toLe 1 ldCount))
    | .getLdAllocations => .next (reply s ((List.range ldCount).flatMap fun d => toLe 8 (s.ld d).allocation))
    | .setLdAllocations ld bound alloc =>
      if ld ≥ ldCount then .next (reply s [])
      else .next (reply (s.modLd ld fun l => { l with bound, allocation := alloc }) (toLe 1 ld))
    | .getQosControl => .next (reply s (toLe 4 s.cxl.qos))
    | .setQosControl v => .next (reply (s.modCxl fun c => { c with qos := v }) (toLe 4 v))

/-! ## The management sideband (R538–R540) -/

/-- The message channel of the sideband. -/
def sideChannel : Nat := 20

/-- A message on the sideband is answered in every power state while the input is present (R538). -/
def State.sideReply (s : State) (bs : List Byte) : State := if s.power.off then s else s.emit (.reply sideChannel bs)

/-- STATUS_READ (R539). -/
def execStatusRead (s : State) : Host.Outcome State Fault Refusal := .next (s.sideReply s.statusBytes)

/-- The FRU data of R538: serial, stepping and the ordering code MVT-8096. -/
def fruData : List Byte := toLe 8 Config.serial.toNat ++ [Config.stepping] ++ [0x4D, 0x56, 0x54, 0x2D, 0x38, 0x30, 0x39, 0x36]

/-- PLDM_REQUEST (R538): types 0, 2 and 4; the layout of an answer is DMTF's (DESIGN CHOICE, log 15). -/
def execPldmRequest (ptype item reading : Nat) (s : State) : Host.Outcome State Fault Refusal :=
  .next (s.sideReply (Config.dmtfReply ptype
    (if ptype = 2 then (if sensorIds.contains item then toLe 1 item ++ toLe 4 reading else []) else if ptype = 4 then fruData else toLe 4 item)))

/-- MCTP_CONTROL_REQUEST (R538): the bus owner assigns the endpoint ID; 0 and 0xFF are none (DESIGN CHOICE, log 15). -/
def execMctpControlRequest (assign : Option Byte) (msg : List Byte) (s : State) : Host.Outcome State Fault Refusal :=
  if s.power.off then .next s
  else
    let s := match assign with
      | some e => if e = 0 ∨ e = 0xFF then s else { s with side := { s.side with eid := e } }
      | none => s
    .next (s.sideReply (Config.dmtfReply 0x100 (s.side.eid :: msg)))

/-- I3C_ADDRESS_ASSIGN (R538): SETDASA or ENTDAA. -/
def execI3cAddressAssign (addr : BitVec 7) (s : State) : Host.Outcome State Fault Refusal :=
  .next (if s.power.off then s else { s with side := { s.side with dynAddr := some addr } })

end Sys2Proof.Machine
end

