-- ==== Sys2Proof/Machine/PowerUnit.lean ====
section
/-!
DEFINITION. Power (20): the power commands (R416), Hold, Doze and Standby (R495–R505), the input (R492), the governor
and the thermal rules (R506–R508), the reset pin (R534) and the coolant (R546).
-/
namespace Sys2Proof.Machine

/-! ## State changes -/

/-- A work item that is streaming now. -/
def State.streaming (s : State) : Bool := s.work.jobs.any fun j => j.2.items.any fun i => decide (0 < i.leas) && !i.done

/-- Run is reached: RESUMED on every port, and WAKE_N is released (R503, R504, R536). -/
def State.reachRun (s : State) : State :=
  let s := (s.enter .run).modPower fun p => { p with wakeN := false }
  (List.range portCount).foldl (fun s p => if (s.portAt p).state = .down then s else s.control p ctlWake (wakeBlock 2 s.nodeNo)) s

/-- Hold is reached (R496, R509). -/
def State.reachHold (s : State) : State :=
  let towards := s.power.target
  let s := s.enter .hold
  s.modPower fun p => { p with lastEntry := s.time.now, inTransition := towards == .doze, target := if towards = .doze then .doze else .hold }

/-- Completes the POWER_STATE_SET that waits. -/
def State.answerPower (s : State) : State :=
  match s.power.waiter with
  | some w => (s.modPower fun p => { p with waiter := none }).answer w St.ok []
  | none => s

/-- What POWER_STATE_SET does (R495–R498, R500, R505). -/
def cmdPowerStateSet (x : Ctx) (s : State) : CmdM := do
  let towards ← found St.invalidMode (PState.ofCode (x.p 0 1))
  let from' := s.power.state
  let mine := fun (s : State) => s.modPower fun p => { p with waiter := some x.c.ref }
  let going := fun (s : State) => s.modPower fun p => { p with target := towards, inTransition := true, wakeLatched := false }
  if towards = from' ∧ !s.power.inTransition then return .done s []
  else if from' = .standby then
    return .wait { mine (going s) with boot := { s.boot with state := .booting, fromStandby := true, standbyTarget := towards } }
  else if towards = .standby then
    let t := s.toCreel.standby
    let t := t.enter .standby
    return .done (t.modPower fun p => { p with lastEntry := t.time.now }) []
  else if from' = .doze then
    if towards = .doze then return .done s []
    else return .wait (mine (s.metWake 5))
  else if towards = .doze then return .pend (mine (going s))
  else if towards = .hold then return .wait (mine (going s))
  else return .done s.reachRun []

/-- POWER_STATE_SET (R416): it starts when the commands in flight have completed. -/
def execPowerStateSet (m slot : Nat) (s : State) : Host.Outcome State Fault Refusal :=
  if m ≥ 1024 then .fault .noSuchUnit
  else match s.fetched? 0x0D00 m slot with
    | none => .next s
    | some c =>
      if s.power.waiter.isSome || s.box.inflight.any (fun d => d.seq != c.seq && (d.committed || decide (d.seq < c.seq))) then .next s
      else cmdRow 0x0D00 cmdPowerStateSet m slot s

/-- POWER_CAP_SET (R506). -/
def cmdPowerCapSet (x : Ctx) (s : State) : CmdM := do
  let w := x.p 0 2
  inRange (decide (w = 0 ∨ 500 ≤ w ∧ w ≤ 1600)) 0
  return .done (s.modPower fun p => { p with capSet := w }) (toLe 2 s.power.capSet)

/-- DOZE_CONFIGURE (R416, R501): the values apply from the next entry to Doze. -/
def cmdDozeConfigure (x : Ctx) (s : State) : CmdM := do
  let ms := x.p 0 2
  let t := x.p 2 1
  inRange (decide (1 ≤ ms ∧ ms ≤ 1000)) 0
  inRange (decide (40 ≤ t ∧ t ≤ 110)) 2
  return .done (s.modPower fun p => { p with periodMs := ms, tempWake := t, activityWake := x.p 4 4 }) []

/-- POWER_INFO (R416). -/
def cmdPowerInfo (_ : Ctx) (s : State) : CmdM :=
  let p := s.power
  .ok (.done s (toLe 1 p.state.code ++ toLe 1 p.wakeSource ++ toLe 2 p.cap ++ toLe 2 p.inputW ++ zeros 2 ++ toLe 8 p.lastWake.toNat))

/-- POWER_CAP_SET (R506). -/
def execPowerCapSet (m slot : Nat) (s : State) : Host.Outcome State Fault Refusal := cmdRow 0x0D01 cmdPowerCapSet m slot s
/-- DOZE_CONFIGURE (R501). -/
def execDozeConfigure (m slot : Nat) (s : State) : Host.Outcome State Fault Refusal := cmdRow 0x0D02 cmdDozeConfigure m slot s
/-- POWER_INFO (R416). -/
def execPowerInfo (m slot : Nat) (s : State) : Host.Outcome State Fault Refusal := cmdRow 0x0D03 cmdPowerInfo m slot s

/-- HOLD_ENTRY_COMPLETE (R496): the last item in flight has ended. -/
def execHoldEntryComplete (s : State) : Host.Outcome State Fault Refusal :=
  if s.power.state = .run ∧ s.power.inTransition ∧ (s.power.target = .hold ∨ s.power.target = .doze) ∧ !s.streaming then
    .next (if s.power.target = .hold then s.reachHold.answerPower else s.reachHold)
  else .next s

/-- What Doze waits for (R497). -/
def State.quiet (s : State) : Bool :=
  s.work.jobs.isEmpty && s.flyer.reasm.isEmpty && (s.flyer.conns.all fun c => c.2.unacked.isEmpty && c.2.rxUse == 0) &&
  s.store.moves.isEmpty && s.work.hold.isEmpty && s.work.combines.all fun c => c.2.startedAt.isNone

/-- L0p reduction, which only 256-byte flit mode has: the link goes to the width that its partner grants, and stays as it is where
the partner refuses (R337, R372). -/
def State.requestL0p (s : State) (lanes : Nat) : State :=
  if s.cxl.flit256 ∧ s.cxl.linkState = 2 ∧ [1, 2, 4, 8].contains lanes ∧ lanes < s.cxl.width then
    { s with cxl := { s.cxl with linkState := 3, width := lanes } }
  else s

/-- A port that is not DOWN tells its partner and goes to its low rate (R267, R497). -/
def State.portLow (s : State) (p : Nat) : State :=
  if (s.portAt p).state = .down then s
  else (s.control p ctlWake (wakeBlock 3 s.nodeNo)).modPort p fun x => { x with state := .lowRate }

/-- A port at its low rate goes to its full rate (R504). -/
def State.portFull (s : State) (p : Nat) : State :=
  if (s.portAt p).state = .lowRate then s.modPort p fun x => { x with state := .up } else s

/-- A CXL link in L0p goes to the width it trained at (R504). -/
def State.cxlFull (s : State) : State :=
  if s.cxl.linkState = 3 then { s with cxl := { s.cxl with linkState := 2, width := s.cxl.trainedWidth } } else s

/-- DOZE_ENTRY_READY (R497, R372, R505): the ports and the CXL link go to their low rate, the response is written, and a
latched wake source starts the exit at once. What the link partner grants is a free value: 1, 2, 4 or 8 lanes, or, at any other
value, a refusal (DESIGN CHOICE, log 29). -/
def execDozeEntryReady (s : State) : Host.Outcome State Fault Refusal :=
  if s.power.state = .hold ∧ s.power.inTransition ∧ s.power.target = .doze ∧ s.quiet then
    let (lanes, s) := ((List.range portCount).foldl State.portLow s).free 16
    let s := s.requestL0p lanes
    let late := s.power.wakeLatched
    let src := s.power.wakeSource
    let s := s.enter .doze
    let s := s.modPower fun p => { p with lastEntry := s.time.now, dozeNow := (p.periodMs, p.tempWake, p.activityWake),
                                          lastSample := s.time.localNow, portWake := false, frameCount := 0, wakeLatched := false }
    let s := s.answerPower
    .next (if late then
      s.modPower fun p => { p with exiting := true, inTransition := true, target := .run, wakeSource := src, wakeDuringEntry := true, wakeN := true }
    else s)
  else .next s

/-- DOZE_SAMPLE (R500, R501): the latches, the frame count and the hottest sensor, in code order. -/
def execDozeSample (hottest : Nat) (s : State) : Host.Outcome State Fault Refusal :=
  let p := s.power
  if p.state = .doze ∧ !p.exiting ∧ p.lastSample + p.dozeNow.1 * 1000000 ≤ s.time.localNow then
    let src := if p.portWake then 1 else if max 1 p.dozeNow.2.2 ≤ p.frameCount then 2 else if p.dozeNow.2.1 ≤ hottest then 4 else 0
    let s := s.modPower fun p => { p with lastSample := s.time.localNow, frameCount := 0, portWake := false }
    .next (if src = 0 then s else s.metWake src)
  else .next s

/-- CXL_WAKE_REQUEST (R502): a CXL.mem request in Doze, during its entry or its exit, is held and wakes the module. -/
def execCxlWakeRequest (ld : Nat) (lent : Bool) (off len : Nat) (data : Option (List Byte)) (s : State) :
    Host.Outcome State Fault Refusal :=
  if ld ≥ ldCount then .fault .noSuchUnit
  else if off + (match data with | some d => d.length | none => len) > (if lent then lentSpan else queueSpan) then .fault .noSuchAddress
  else if s.holdsRequests ∧ !(s.power.state = .doze ∧ !lent ∧ s.inRing0 ld off) then .next (s.holdRequest { ld, lent, off, len, data })
  else .next s

/-- Whether the POWER_STATE_SET that waits asks for Hold. -/
def State.holdAsked (s : State) : Bool := match s.power.waiter with
  | some w => s.box.inflight.any fun d => d.ref == w && d.param 0 1 == 1
  | none => false

/-- The end of an exit from Doze: held requests are served, Run is reached, and Hold where it was asked for, the command ends and the
latched doorbells take effect (R499, R502, R504). -/
def State.endDoze (s : State) (hold : Bool) : State :=
  let t := s.serveHeld.reachRun
  let t := (if hold then t.reachHold else t).answerPower.applyLatch
  ((List.range portCount).foldl State.kick t).fetchAll

/-- DOZE_EXIT_COMPLETE (R499, R504): full rate again, held requests served, Run, RESUMED, the latched doorbells, and Hold
where POWER_STATE_SET asked for it. -/
def execDozeExitComplete (s : State) : Host.Outcome State Fault Refusal :=
  if s.power.state = .doze ∧ s.power.exiting then
    let s := ((List.range portCount).foldl State.portFull s).cxlFull
    .next (s.endDoze s.holdAsked)
  else .next s

/-! ## Input (R492, R530) -/

/-- INPUT_MEASUREMENT (R492): the band of the input decides. -/
def execInputMeasurement (mv : Nat) (s : State) : Host.Outcome State Fault Refusal :=
  let inBand := decide (46000 ≤ mv ∧ mv ≤ 58000)
  let was := decide (46000 ≤ s.power.inputMv ∧ s.power.inputMv ≤ 58000)
  let lowWas := decide (s.power.inputMv < 46000)
  let fresh := !inBand && (was || lowWas != decide (mv < 46000))
  let s := s.modPower fun p => { p with inputMv := mv }
  if s.power.off then
    .next (s.modPower fun p => { p with inBandSince := if inBand then (match p.inBandSince with | some t => some t | none => some s.time.localNow) else none })
  else if 58500 < mv then .next (s.cutPower 2)
  else if mv < 40000 then .next (s.cutPower 1)
  else
    let s := s.modPower fun p => { p with inputLimit := decide (mv < 46000) }
    .next (if fresh then (s.setFlag Flag.inputRange).raise Ev.inputOutOfRange .module [mv] else s)

/-- INPUT_QUALIFIED (R492, R493, R530): 100 ms within 46–58 V; the power stage's output is good and a cold start may
run. -/
def execInputQualified (s : State) : Host.Outcome State Fault Refusal :=
  match s.power.inBandSince with
  | some t =>
    if s.power.off ∧ t + 100000000 ≤ s.time.localNow then
      .next (s.modPower fun p => { p with off := false, inBandSince := none, senseBroken := false, inputLimit := false,
                                          stopped := p.trip.isSome || p.resetHeld })
    else .next s
  | none => .next s

/-- SENSE_BREAK (R530): treated as an undervoltage. -/
def execSenseBreak (s : State) : Host.Outcome State Fault Refusal :=
  .next ((s.cutPower 1).modPower fun p => { p with senseBroken := true })

/-! ## Governor and temperature (R506–R508) -/

/-- Floor of the clocks in 1/64: spindles and whorls 25 % (R506), a hot stack 50 % (R507). -/
def clockFloor : Nat := 16
def stackFloor : Nat := 32

/-- POWER_CAP_GOVERNOR_STEP (R506, R507): one step of 10 µs. -/
def execPowerCapGovernorStep (watts : Nat) (s : State) : Host.Outcome State Fault Refusal :=
  if s.power.off ∨ s.power.stopped then .next s
  else
    let p := s.power
    let cap := p.cap
    let hot := p.throttling.contains 1
    let lower := decide (cap < watts) || hot
    let clock := if lower then max clockFloor (p.clock - 1) else if watts + 50 ≤ cap then min 64 (p.clock + 1) else p.clock
    let stackUnits := (indexed p.stackClock).map fun c =>
      if p.throttling.contains (2 + c.2) then max stackFloor (c.1 - 1) else min 64 (c.1 + 1)
    let slowed := decide (clock < p.clock) || (stackUnits.zip p.stackClock).any fun c => decide (c.1 < c.2)
    let floorSince := if cap < watts ∧ p.clock = clockFloor then (match p.floorSince with | some t => some t | none => some s.time.localNow) else none
    let above : Bool := match floorSince with
      | some t => decide (t + 10000000 ≤ s.time.localNow)
      | none => false
    let s := s.modPower fun p => { p with inputW := watts, clock, stackClock := stackUnits, floorSince, unmet := above }
    let s := if slowed then s.setFlag Flag.throttled else s
    .next (if above && !p.unmet then (s.setFlag Flag.capUnmet).raise Ev.powerCapUnmet .module [cap, watts] else s)

/-- Throttle threshold of a sensor (R507). -/
def throttleAt (sensor : Nat) : Option Nat :=
  if sensor = 1 then some 100 else if 2 ≤ sensor ∧ sensor ≤ 9 then some 90 else if sensor = 10 then some 75
  else if 11 ≤ sensor ∧ sensor ≤ 14 then some 80 else if sensor = 15 then some 110 else none
/-- Hard-trip figure of a sensor (R507). -/
def tripAt (sensor : Nat) : Option Nat :=
  if sensor = 1 then some 115 else if 2 ≤ sensor ∧ sensor ≤ 9 then some 105 else if sensor = 10 then some 90
  else if 11 ≤ sensor ∧ sensor ≤ 14 then some 95 else if sensor = 15 then some 125 else none

/-- SENSOR_THRESHOLD_CROSSING (R507): 200 W for each 5 °C of the power stage, 40 W a degree (DEDUCED, log 18). -/
def execSensorThresholdCrossing (sensor reading : Nat) (s : State) : Host.Outcome State Fault Refusal :=
  match throttleAt sensor with
  | none => .fault .noSuchUnit
  | some t =>
    if s.power.off ∨ s.power.stopped then .next s
    else
      let p := s.power
      let now := s.time.localNow
      let on := decide (t ≤ reading) || (p.throttling.contains sensor && decide (t < reading + 5))
      let throttling := if on then (if p.throttling.contains sensor then p.throttling else p.throttling ++ [sensor]) else p.throttling.filter (· != sensor)
      let s := s.modPower fun p =>
        { p with throttling, derate := if sensor = 15 then (if on then (reading - t) * 40 else 0) else p.derate,
                 creelHalved := if sensor = 10 then on else p.creelHalved }
      let due : Bool := match tget p.lastThrottle sensor with
        | some l => decide (l + 1000000000 ≤ now)
        | none => true
      if t ≤ reading then
        let s := if sensor ≤ 9 ∧ !p.throttling.contains sensor then s.setFlag Flag.throttled else s
        .next (if due then (s.modPower fun p => { p with lastThrottle := tset p.lastThrottle sensor now }).raise
          Ev.thermalThrottle .module [sensor, reading] else s)
      else .next s

/-- HARD_TRIP (R508): all work stops and the flush runs, in whatever state. -/
def execHardTrip (sensor reading : Nat) (s : State) : Host.Outcome State Fault Refusal :=
  match tripAt sensor with
  | none => .fault .noSuchUnit
  | some t =>
    if reading < t ∨ s.power.trip.isSome ∨ s.power.off then .next s
    else
      let side := s.side
      let now := s.time.now
      .next (({ s.stop with side }).modPower fun p =>
        { p with trip := some (sensor, reading, now), tripLocal := s.time.localNow, tripSensor := sensor, inputCycled := false, railsOff := false })

/-- HARD_TRIP_RAILS_OFF (R508): every rail but the standby rail, within 15 ms of the trip. -/
def execHardTripRailsOff (s : State) : Host.Outcome State Fault Refusal :=
  .next (if s.power.trip.isSome then s.modPower fun p => { p with railsOff := true } else s)

/-- HARD_TRIP_RESTART (R508): after the reset pin or a cycle of the input, with every sensor 20 °C below its trip figure. -/
def execHardTripRestart (readings : List Nat) (s : State) : Host.Outcome State Fault Refusal :=
  let cool := (List.range 15).all fun i => match readings[i]?, tripAt (i + 1) with
    | some r, some t => decide (r + 20 ≤ t)
    | _, _ => false
  if s.power.trip.isSome ∧ s.power.railsOff ∧ s.power.inputCycled ∧ !s.power.off ∧ !s.power.resetHeld ∧ cool then
    .next (s.modPower fun p => { p with railsOff := false, stopped := false, tripRestart := true, wakeSource := 6 })
  else .next s

/-! ## The reset pin (R534) -/

/-- MODULE_RESET_N_ASSERT (R534): 1 ms or more stops all work, runs the flush and holds the module. -/
def execModuleResetNAssert (held : Nat) (s : State) : Host.Outcome State Fault Refusal :=
  if held < 1000000 then .next s
  else if s.power.off then .next (s.modPower fun p => { p with resetHeld := true })
  else
    let s := if s.power.trip.isSome then s else s.stop
    .next (s.modPower fun p => { p with resetHeld := true, stopped := true, inputCycled := true })

/-- MODULE_RESET_N_RELEASE (R534): a cold start may begin, after a trip only under R508. -/
def execModuleResetNRelease (s : State) : Host.Outcome State Fault Refusal :=
  .next (s.modPower fun p => { p with resetHeld := false, stopped := if p.resetHeld && p.trip.isNone then false else p.stopped })

/-! ## Coolant (R546) -/

/-- COOLANT_CHECK (R546): the flow from the draw and the coolant's rise; temperatures in tenths of a degree. -/
def execCoolantCheck (inlet outlet dew : Nat) (s : State) : Host.Outcome State Fault Refusal :=
  if s.power.off ∨ s.power.stopped then .next s
  else
    let w := s.power.inputW
    let low := decide (w * 600 < 5967 * (outlet - inlet))
    let since := if low then (match s.power.lowFlowSince with | some t => some t | none => some s.time.localNow) else none
    let s := s.modPower fun p => { p with lowFlowSince := since }
    let flow : Bool := match since with
      | some t => decide (t + 10000000000 ≤ s.time.localNow)
      | none => false
    let due : Bool := match s.power.lastCoolant with
      | some t => decide (t + 60000000000 ≤ s.time.localNow)
      | none => true
    if due && (flow || decide (400 < inlet) || decide (inlet < dew + 20)) then
      .next ((s.modPower fun p => { p with lastCoolant := some s.time.localNow }).raise Ev.coolantWarning .module
        [inlet, outlet, w, w * 600000 / (3978 * (outlet - inlet))])
    else .next s

end Sys2Proof.Machine
end

