-- ==== Sys2Proof/Machine/Sessions.lean ====
section
/-!
DEFINITION. Flyer sessions (R278, R279, R431–R434): SESSION_OPEN, SESSION_CLOSE, handshake packets, and the change of
keys.
-/
namespace Sys2Proof.Machine

/-- Sessions that the module holds (R278). -/
def sessionSlots : Nat := 16384

/-- The message channel of a port's handshakes (R433). -/
def handshakeChannel (port : Nat) : Nat := 16 + port

/-- A completed session, with its event (R433, R434). -/
def State.addSession (s : State) (node port : Nat) (h : Handshake) : Option (Nat × State) :=
  match s.pick s.flyer.sessions sessionSlots with
  | none => none
  | some (i, s) =>
    let x : Session := { peer := node, port, peerIndex := h.peerIndex, hybrid := h.hybrid, keyNo := s.flyer.nextKey,
                         rekeyAt := s.time.localNow + s.cfg.keyRotation * 1000000000 }
    some (i, (s.modFlyer fun f => { f with sessions := tset f.sessions i x, nextKey := f.nextKey + 1 }).raise
      Ev.sessionEstablished .module [node, i, if h.hybrid then 1 else 0, ofLe (h.leafHead.take 16)])

/-- SESSION_OPEN (R431, R432, R434): the command's operand tells how the handshake ended. -/
def cmdSessionOpen (h : Handshake) (x : Ctx) (s : State) : CmdM := do
  let node := x.p 0 2
  let port := x.p 2 1
  inRange (decide (node < 0x3FF)) 0
  inRange (decide (port < portCount)) 2
  inRange (decide (x.p 4 2 < 4096)) 4
  req s.cfg.nodeId.isSome St.wrongState
  if s.sec.rngFailed then rngRefusal s
  else
    let s := s.emit (.reply (handshakeChannel port) (Config.spdmReply (handshakeChannel port) []))
    if !h.authentic then return .ended s St.signatureInvalid []
    else
      let (i, s) ← found St.noResource (s.addSession node port h)
      return .done s (toLe 2 i)

/-- Loses a session: its keys are destroyed and its connections enter ERROR (R282, R433). -/
def State.dropSession (s : State) (i : Nat) : State :=
  let cs := (s.flyer.conns.filter fun c => c.2.sess == i).map (·.1)
  cs.foldl (fun s c => s.connError c St.connError none) (s.modFlyer fun f => { f with sessions := tdel f.sessions i })

/-- SESSION_CLOSE (R433): END_SESSION goes out on the handshake channel. -/
def cmdSessionClose (x : Ctx) (s : State) : CmdM := do
  let i := x.p 0 2
  let k ← found St.staleHandle (tget s.flyer.sessions i)
  let s := s.emit (.reply (handshakeChannel k.port) (Config.spdmReply (handshakeChannel k.port) (toLe 2 k.peerIndex)))
  return .done (s.dropSession i) []

/-- SESSION_OPEN (R431). -/
def execSessionOpen (m slot : Nat) (h : Handshake) (s : State) : Host.Outcome State Fault Refusal := cmdRow 0x0E05 (cmdSessionOpen h) m slot s
/-- SESSION_CLOSE (R433). -/
def execSessionClose (m slot : Nat) (s : State) : Host.Outcome State Fault Refusal := cmdRow 0x0E06 cmdSessionClose m slot s

/-- HANDSHAKE_PACKET_RECEIVE (R419, R433, R434): at most 1,024 a second on a port, and none while NODE_ID is unset. -/
def execHandshakePacketReceive (port node : Nat) (msg : List Byte) (step : HandshakeStep) (s : State) : Host.Outcome State Fault Refusal :=
  portRow port (
    let x := s.portAt port
    let recent := x.handshakes.filter fun t => decide (s.time.localNow < t + 1000000000)
    if s.cfg.nodeId.isNone || !s.awake then s
    else if recent.length ≥ 1024 then (s.discard 9).setPort port { x with handshakes := recent }
    else
      let s := s.setPort port { x with handshakes := recent ++ [s.time.localNow] }
      match step with
      | .closes i => match tget s.flyer.sessions i with
        | some k => if k.peer = node then s.dropSession i else s
        | none => s
      | _ =>
        if s.sec.rngFailed then s.raise Ev.rngFail .module [0]
        else
          let s := s.emit (.reply (handshakeChannel port) (Config.spdmReply (handshakeChannel port) msg))
          match step with
          | .ends h => if h.authentic then (match s.addSession node port h with | some r => r.2 | none => s) else s
          | _ => s)

/-- SESSION_REKEY (R279): at the rotation, or when the counter reaches 2^48, the sender's key phase flips. -/
def execSessionRekey (i : Nat) (s : State) : Host.Outcome State Fault Refusal :=
  match tget s.flyer.sessions i with
  | some k =>
    if k.rekeyAt ≤ s.time.localNow ∨ 2 ^ 48 ≤ k.txCount then
      let k' := { k with txGen := k.txGen + 1, rekeyAt := s.time.localNow + s.cfg.keyRotation * 1000000000 }
      .next (s.modFlyer fun f => { f with sessions := tset f.sessions i k' })
    else .next s
  | none => .next s

/-- KEY_PHASE_OVERLAP_EXPIRY (R279): 100 ms after the first packet of a new phase the old key is destroyed. -/
def execKeyPhaseOverlapExpiry (i : Nat) (s : State) : Host.Outcome State Fault Refusal :=
  match tget s.flyer.sessions i with
  | some k => match k.oldKeyUntil with
    | some t => .next (if t ≤ s.time.localNow then s.modFlyer fun f => { f with sessions := tset f.sessions i { k with oldKeyUntil := none } } else s)
    | none => .next s
  | none => .next s

end Sys2Proof.Machine
end

