-- ==== Sys2Proof/Machine/Teardown.lean ====
section
/-!
DEFINITION. The teardown of a tenant (R403, R436, R438, R441).
-/
namespace Sys2Proof.Machine

/-! ## Steps 1 to 4 of R403 -/

/-- Step 1: the tenant's mailboxes are unbound with ABORT. -/
def State.teardownBoxes (s : State) (tag : W16) : State :=
  (s.box.boxes.filter fun b => (b.2.bound || b.2.state != .disabled) && b.1 != 0 && b.2.tenant == tag).foldl
    (fun s b => s.unbind b.1 true b.2.unbindWaiter) s

/-- Step 2: jobs, combines and trigger entries are cancelled. -/
def State.teardownWork (s : State) (tag : W16) : State :=
  let s := (s.work.jqs.filter fun q => q.2.tenant == tag).foldl
    (fun s q => (s.cancelIn q.1 (fun _ => true) (fun _ => true) true St.cancelled).2) s
  let s := (s.work.combines.filter fun c => c.2.tenant == tag).foldl (fun s c => s.releaseCombine c.1 St.cancelled) s
  (s.work.lists.filter fun l => l.2.tenant == tag).foldl (fun s l => s.destroyList l.1) s

/-- A connection enters ERROR, which ends what it still has outstanding, and is destroyed (R282). -/
def State.teardownConn (s : State) (i : Nat) (k : Conn) : State :=
  let s := (s.connError i St.connError none).freeConn i
  s.modWork fun w => { w with notices := w.notices.filter fun n => n.1 != k.handle }

/-- Skeins, runs and prefix entries; insertions still waiting end with ST_CANCELLED (step 3). -/
def State.teardownSkeins (s : State) (tag : W16) : State :=
  let s := (s.store.skeins.filter fun k => k.2.tenant == tag && k.2.state != .retiring).foldl (fun s k => s.killSkein k.1) s
  let ins := s.pfx.inserts.filter fun i => i.tenant == tag
  let s := s.modPfx fun p => { p with inserts := p.inserts.filter fun i => i.tenant != tag }
  let s := ins.foldl (fun s i =>
    let s := match i.entry with
      | some e => (s.credit tag qPrefix 1).modPfx fun p =>
          { p with runs := tmod p.runs (rcIndex e.run) fun r => { r with entries := r.entries - 1 } }
      | none => s
    if i.last then s.answer i.waiter St.cancelled [] else s) s
  (s.pfx.runs.filter fun r => r.2.tenant == tag).foldl (fun s r =>
    let s := (s.removeEntries r.1 fun _ => true).2
    (s.modPfx fun p => { p with runs := tmod p.runs r.1 fun r => { r with creator := false } }).settleRun r.1) s

/-- Connections, regions, queues, program bindings and tables (step 3). -/
def State.teardownQueues (s : State) (tag : W16) : State :=
  let s := (s.flyer.conns.filter fun k => k.2.tenant == tag).foldl (fun s k => s.teardownConn k.1 k.2) s
  let s := (s.flyer.regions.filter fun r => r.2.tenant == tag).foldl (fun s r => s.endRegion r.1 r.2) s
  let s := (s.flyer.srqs.filter fun q => q.2.tenant == tag).foldl (fun s q =>
    ((s.dropArea q.2.area).credit tag qDram q.2.area.length).modFlyer fun f => { f with srqs := tdel f.srqs q.1 }) s
  let s := (s.work.jqs.filter fun q => q.2.tenant == tag).foldl (fun s q =>
    let s := if q.2.destroyed then s else s.destroyJq q.1 none
    (s.answerQueue q.1).modWork fun w => { w with jqs := tdel w.jqs q.1 }) s
  let s := (s.work.cqs.filter fun q => q.2.tenant == tag).foldl (fun s q =>
    ((s.dropArea q.2.area).credit tag qDram q.2.area.length).dropCq q.1) s
  let s := s.images.score.foldl (fun s e => s.setStore .score (unbindProg (s.images.store .score) e.1 tag)) s
  let s := s.images.whorl.foldl (fun s e => s.setStore .whorl (unbindProg (s.images.store .whorl) e.1 tag)) s
  let ts := s.images.tables.filter fun t => t.2.tenant == tag
  let s := ts.foldl (fun s t => s.credit tag qSram t.2.leas) s
  { s with images := { s.images with tables := s.images.tables.filter fun t => t.2.tenant != tag } }

/-- Step 4: every lent entry whose KEY_SLOT names the tenant is revoked. The ranges go to the memory controller. -/
def State.teardownLent (s : State) (tid : Nat) : State :=
  let es := s.cxl.hostTable.filter fun e => e.2.keySlot == tid
  let s := s.modCxl fun c => { c with hostTable := c.hostTable.filter fun e => e.2.keySlot != tid }
  s.modTenant (BitVec.ofNat 16 tid) fun t => { t with lent := es.map fun e => (e.2.base, e.2.length) }

/-! ## R441 -/

/-- Bytes that a teardown zeroes: the tenant's shared SRAM, its DRAM, and its lent ranges. -/
def Tenant.held (t : Tenant) : Nat :=
  t.use.getD qSram 0 * 16384 + t.use.getD qDram 0 * slotBytes + (t.lent.map (·.2)).sum

/-- TENANT_DESTROY: steps 1 to 4 of R403 and step 1 of R441; the zeroing begins. -/
def cmdTenantDestroy (x : Ctx) (s : State) : CmdM := do
  let tag := x.c.tenantField
  let tid := tidOf tag
  let t ← found St.staleHandle (tget s.tenants tid)
  req (t.live && t.gen == tgenOf tag) St.staleHandle
  req (!t.teardown) St.wrongState
  let slots := t.use.getD qCreel 0
  let before := t.use
  let s := s.modTenant tag fun t => { t with teardown := true, waiter := some x.c.ref }
  let s := ((s.teardownBoxes tag).teardownWork tag).teardownSkeins tag
  let s := (s.teardownQueues tag).teardownLent tid
  let s := s.modTenant tag fun t => { t with zeroed := ({ t with use := before } : Tenant).held, creelReleased := slots }
  return .wait (s.modSec fun y => { y with destroying := y.destroying ++ [tid] }).writeKeyStore

/-- Every byte of an unallocated shared-SRAM or pool slot is zero (R440, R441). -/
def State.zeroFree (s : State) : State :=
  let freed := fun (a : Nat) =>
    let p := a % 2 ^ 48 / slotBytes
    if a / 2 ^ 48 = 0 then !s.store.sramUsed.contains p
    else a / 2 ^ 48 == 1 && decide (poolBase ≤ p ∧ p < s.lentBase) && !s.store.dramUsed.contains p
  { s with mem := s.mem.filter fun c => !freed c.1 }.heal freed

/-- Zeroes one lent range by the memory controller (R365, R441). -/
def State.zeroLent (s : State) (r : Nat × Nat) : State :=
  let a := s.lentAddr r.1
  let inside := fun x => decide (a ≤ x ∧ x < a + r.2)
  (({ s with mem := s.mem.clear a r.2 }.heal inside)).modCxl fun c => { c with lineKeys := c.lineKeys.filter fun e => !inside e.1 }

/-- Steps 2 to 5 of R441: storage zeroed, keys destroyed, the key store rewritten without the tenant's entry. -/
def State.eraseTenant (s : State) (tid : Nat) (t : Tenant) : State :=
  let s := t.lent.foldl State.zeroLent s.zeroFree
  let s := { s with tenants := tset s.tenants tid { gen := t.gen } }
  let s := s.modFlyer fun f => { f with shapers := f.shapers.filter fun e => e.1 / 8 != tid }
  (s.modSec fun y => { y with destroying := y.destroying.filter (· != tid) }).writeKeyStore.writeTenants

/-- Whether everything tagged with the tenant has drained (R33, R438). -/
def State.tenantDrained (s : State) (tag : W16) : Bool :=
  !(s.store.skeins.any fun k => k.2.tenant == tag) && !(s.box.inflight.any fun c => c.mb != 0 && (s.mbox c.mb).tenant == tag)

/-- TEARDOWN_ZEROING_COMPLETE (R441): the keys are destroyed, TENANT_ERASED is raised, and TENANT_DESTROY completes. -/
def execTeardownZeroingComplete (tid : Nat) (s : State) : Host.Outcome State Fault Refusal :=
  match tget s.tenants tid with
  | none => .next s
  | some t =>
    let tag : W16 := BitVec.ofNat 16 (t.gen * 4096 + tid)
    if t.teardown && s.tenantDrained tag then
      let s := (s.eraseTenant tid t).raise Ev.tenantErased .module [tag.toNat, t.zeroed, t.creelReleased]
      match t.waiter with
      | some w => .next (s.answer w St.ok []).fetchAll
      | none => .next s.fetchAll
    else .next s

/-- TENANT_DESTROY (R403, R441). -/
def execTenantDestroy (m slot : Nat) (s : State) : Host.Outcome State Fault Refusal := cmdRow 0x0201 cmdTenantDestroy m slot s

end Sys2Proof.Machine
end

