-- ==== Sys2Proof/Machine/Startup.lean ====
section
/-!
DEFINITION. The cold start (R513–R516, R519, R525) and the restoration of skeins (R517, R518).
-/
namespace Sys2Proof.Machine

/-! ## Generations (R515) -/

/-- A generation n steps on, in a space of `top` generations that wraps to 1. -/
def stepGen (top n g : Nat) : Nat := (g - 1 + n) % top + 1

/-- Generations of one kind after a start: each index whose object was live steps on once. -/
def resumeGens (top : Nat) (gens : Table Nat) (live : List Nat) : Pool :=
  { gens := live.foldl (fun t i => tset t i (stepGen top 1 ((tget t i).getD 1))) gens }

/-- Indices per kind and bits of each as the generation record packs them, in order from bit 0 (R515; log 82). -/
def genLayout : List (Nat × Nat) := [(4194304, 10), (262144, 14), (262144, 14), (1048576, 8), (1048576, 12)]

/-- The objects whose generations lie on a page of the generation record: kind, first and last index (R515). -/
def genPage (page : Nat) : List (Nat × Nat × Nat) :=
  let lo := page * 8 * flashPage
  let hi := lo + 8 * flashPage
  (genLayout.foldl (fun (a : Nat × Nat × List (Nat × Nat × Nat)) e =>
    let start := a.2.1
    let stop := start + e.1 * e.2
    (a.1 + 1, stop, if start < hi ∧ lo < stop then a.2.2 ++ [(a.1, (max lo start - start) / e.2, (min hi stop - start - 1) / e.2)] else a.2.2)) (0, 0, [])).2.2

/-- Generations lost with the pages that the last flush lost (R261, R515). -/
def Creel.lostGens (c : Creel) : List (Nat × Nat × Nat) := (c.flushLost.filter fun p => decide (p < flashPages genRecordBytes)).flatMap genPage

/-- The first identifier that each reel tail lost with those pages (R261, R467). -/
def Creel.lostTails (c : Creel) : List (Nat × Nat) :=
  c.flushTails.filterMap fun x => ((indexed x.ids).find? fun e =>
    c.flushLost.contains (flashPages genRecordBytes + (x.start + 64 * (e.2 / reelSlabTokens + 1) + 4 * e.2) / flashPage)).map fun e => (x.idx, e.1)

/-- Indices on a lost page step on by half the space. -/
def Pool.loseGens (p : Pool) (top first last : Nat) : Pool :=
  { p with gens := (List.range (last + 1 - first)).foldl (fun t i =>
      tset t (first + i) (stepGen top ((top + 1) / 2) ((tget t (first + i)).getD 1))) p.gens }

/-- The saved generations resume; live objects' indices step on (R515). Kinds in order: skein, run, connection, region
key, trigger entry. -/
def State.resumePools (s : State) (lost : List (Nat × Nat × Nat)) : State :=
  let g := s.creel.genRecord.getD {}
  let of := fun (kind top : Nat) (gens : Table Nat) (live : List Nat) =>
    (lost.filter fun l => l.1 == kind).foldl (fun (p : Pool) l => p.loseGens top l.2.1 l.2.2) (resumeGens top gens live)
  { s with
    store := { s.store with skeinPool := of 0 1023 g.skeins g.liveSkeins }
    pfx := { s.pfx with runPool := of 1 16383 g.runs g.liveRuns }
    flyer := { s.flyer with connPool := of 2 16383 g.conns g.liveConns, regionPool := of 3 255 g.regions g.liveRegions }
    work := { s.work with trigPool := of 4 4095 g.trigs g.liveTrigs } }

/-! ## Restoring skeins (R517, R518) -/

/-- A skein cut to the length that its reel still shows (R467). -/
def Skein.cutTo (k : Skein) (n : Nat) : Skein :=
  { k with
    leaves := (k.leaves.filter fun e => decide (keyBob e.1 * k.cap < n)).map fun (e : Nat × Leaf) =>
      let room := n - keyBob e.1 * k.cap
      if e.2.count ≤ room then e else (e.1, { e.2 with count := room, check := if e.2.check = .damaged then .damaged else .opened })
    reel := k.reel.filter fun e => decide (e.1 < n), blockHash := k.blockHash.filter fun e => decide ((e.1 + 1) * 64 ≤ n)
    persisted := min k.persisted n }

/-- The record's skein as it returns: DOFFED, its lease word zero, nothing of it in DRAM but tables and reel slabs. -/
def Skein.returned (k : Skein) (h : W32) : Skein :=
  { k with state := .doffed, handle := h, lease := 0, expiry := 0, orphanUntil := none, tableSlabs := [], history := [], historySlabs := [],
           reelSlabs := [], sketches := [], run := none, lastJob := 0, appended := [], lateJobs := [], lastStraggler := none }

/-- Creel bobbins that a record's skein takes: its own, its record and its reel segments (R247, R465). -/
def SkRecord.creelUse (r : SkRecord) : Nat := r.skein.atTier 2 + recordBobbinsFor r.skein.leaves.length + r.skein.reelCreelBobbins

/-- The index and generation under which a record is restored: its own where no object has taken it since, else the next
in the free order (R518). -/
def State.restoreUnder (s : State) (idx : Nat) (h : W32) : Option (Nat × W32 × State) :=
  let g := s.store.skeinPool.gen idx
  if !thas s.store.skeins idx && (g == skGen h || g == nextGen 1023 (skGen h)) then
    some (idx, h, s.modStore fun t => { t with skeinPool := { t.skeinPool with gens := tset t.skeinPool.gens idx (skGen h) }.leave idx })
  else
    s.takeSkeinIndex.map fun r =>
      (r.1, skHandle (r.2.store.skeinPool.gen r.1) r.1, r.2)

/-- Damaged bobbins of a restored skein are reported and demoted within their bound (R76, R517). -/
def State.reportDamage (s : State) (idx : Nat) (k : Skein) : State :=
  (k.leaves.filter fun e => e.2.check == .damaged).foldl (fun s e =>
    (s.raiseDamaged k e.1 e.2).modStore fun t => { t with damaged := t.damaged ++ [(idx, e.1, s.time.localNow + demoteBound)] }) s

/-- The record of a skein restored under another index is written anew, and a tombstone for the old one (R518). -/
def State.renameRecord (s : State) (old new : Nat) (k : Skein) : State :=
  let (places, s) := s.programRecord .skein (flashPages (recordBytes k.leaves.length)) 0
  let s := s.modCreel fun c => { c with metas := c.metas ++ [{ idx := new, body := tget c.records new, places, seq := c.sequence.toNat }] }
  let (places, s) := s.programRecord .skein 1 0
  (s.modCreel fun c => { c with metas := c.metas ++ [{ idx := old, body := none, places, seq := c.sequence.toNat }] }).reclaim

/-- One record is restored (R517). -/
def State.restoreOne (s : State) (idx : Nat) (r : SkRecord) : State :=
  let s := s.modCreel fun c => { c with toRestore := tdel c.toRestore idx }
  let tag := r.skein.tenant
  match s.tenant? tag with
  | none => s
  | some _ =>
    match s.restoreUnder idx r.skein.handle with
    | none => s
    | some (i, h, s) =>
      let k := r.skein.returned h
      let need := tableCharge k.tables.length
      match s.takeSlots (need + r.skein.reelSlabs.length) with
      | none => s
      | some (a, s) =>
        let k := { k with tableSlabs := a.take need, reelSlabs := (r.skein.reelSlabs.map (·.1)).zip (a.drop need) }
        let s := (s.setSkein i k).charge tag qDram a.length
        let s := (s.charge tag qSkein 1).modCreel fun c =>
          { c with records := tset c.records i { r with skein := k }, recordBobbins := tset c.recordBobbins i (recordBobbinsFor k.leaves.length)
                   reels := tset c.reels i k.reel, reelPages := c.reelPages.map fun (p : ReelPage) => if p.idx = idx then { p with idx := i } else p }
        let s := if i = idx then s else s.renameRecord idx i k
        let s := s.modBoot fun b =>
          { b with restored := b.restored + 1, damagedCount := b.damagedCount + (k.leaves.filter fun e => e.2.check == .damaged).length }
        let s := if i = idx then s else s.raise Ev.skeinRestored (.tenant tag) [r.skein.handle.toNat, h.toNat]
        s.reportDamage i k

/-- Every record is handled; resident skeins lost with DRAM are reported (R517, R518). -/
def State.restoreAll (s : State) : State :=
  let s := s.creel.toRestore.foldl (fun s r => s.restoreOne r.1 r.2) s
  let lost := s.creel.orphans.filter fun o => (s.tenant? o.2).isSome
  let s := lost.foldl (fun s o => s.raise Ev.skeinLost (.tenant o.2) [o.1.toNat]) s
  let s := s.modCreel fun c => { c with orphans := [], toRestore := [] }
  let s := s.modBoot fun b => { b with restorePending := false, lost := lost.length }
  (s.raise Ev.restoreComplete .module [s.boot.restored, s.boot.lost, s.boot.damagedCount]).runTier

/-- SKEIN_RESTORATION (R517, R518): once the scan has ended. -/
def execSkeinRestoration (s : State) : Host.Outcome State Fault Refusal :=
  if s.boot.restorePending ∧ s.creelServes ∧ s.boot.state = .ready ∧ s.awake then .next s.restoreAll.fetchAll else .next s

/-! ## The steps of a cold start (R513) -/

/-- Stacks train under the repair record; groups with a vacant channel, and all of an untrained stack's, are withdrawn. -/
def State.trainStacks (s : State) (ok : List Bool) : State :=
  let s := s.modRel fun r => { r with
    stackUnits := (List.range 8).map fun i =>
      let k := r.stackUnits.getD i {}
      if ok.getD i false && decide (128 - k.vacant.length ≥ 64) then
        { k with state := if k.vacant.isEmpty then 0 else 1, whorls := 128 - k.vacant.length }
      else { k with state := 2, whorls := 0 }
    patrolStart := s.time.localNow, lastHealth := s.time.localNow }
  let out := (List.range 64).filter fun g => match s.rel.stackUnits[g / 8]? with
    | some k => k.state == 2 || k.vacant.any fun c => c / 16 == g % 8
    | none => true
  s.modStore fun t => { t with withdrawn := out, poolSlots := poolMax }

/-- A port that trained is UP on its map; the wavelength left over of nine is its spare (R263, R267). -/
def startPort (m : BitVec 9) : Port :=
  if wlCount m = 0 then {}
  else { state := .up, map := m, standbyOk := true, spareUsed := m.getLsbD 8
         failedWl := if wlCount m < 8 then (List.range 9).filter fun w => !m.getLsbD w else [] }

/-- Column maps are restored and each spindle runs its self-test; one out of service stays OFFLINE (R117, R453, R513). -/
def State.startSpindles (s : State) (ok : List Bool) : State :=
  let s := s.modRel fun r => { r with spindles := (List.range 8).map fun i =>
    let p := r.spindles.getD i {}
    { p with state := if ok.getD i false && decide (p.failed.length < 5) && !r.expelled.contains (kSpindle, i) then 0 else 4 } }
  (List.range 8).foldl (fun s i =>
    if !ok.getD i false && !s.rel.expelled.contains (kSpindle, i) then s.expel kSpindle i else s) s

/-- Surviving tenants: volatile keys made anew, creel use as the records show it (R435, R514). -/
def State.startTenants (s : State) : State :=
  let use := fun (id : Nat) (t : Tenant) =>
    ((s.creel.toRestore.filter fun r => r.2.skein.tenant == BitVec.ofNat 16 (t.gen * 4096 + id)).map fun r => r.2.creelUse).sum
  { s with tenants := s.tenants.map fun (t : Nat × Tenant) =>
      (t.1, if t.2.live then { t.2 with dramKey := true, lentKey := true, use := (List.range 8).map fun k => if k = qCreel then use t.1 t.2 else 0 }
            else t.2) }

/-- Tenant entries found DESTROYING are completed (R441). -/
def State.finishTeardowns (s : State) : State :=
  s.sec.destroying.foldl (fun s tid => match tget s.tenants tid with
    | some t => (s.eraseTenant tid t).raise Ev.tenantErased .module [t.gen * 4096 + tid, t.zeroed, t.creelReleased]
    | none => s.modSec fun y => { y with destroying := y.destroying.filter (· != tid) }) s

/-- Moves the tails of a flush into reel segments, then erases the flush area (R260). -/
def State.emptyFlush (s : State) : State :=
  let s := s.creel.flushTails.foldl (fun s x => match x.ids.head?, x.ids.getLast? with
    | some a, some b => if thas s.creel.toRestore x.idx then s.programReel x.idx (a / 64) (b / 64 + 1) else s
    | _, _ => s) s
  s.modCreel fun c =>
    let area := (SysArea.flush.blocks.flatMap fun i => [i, i + 1]).map c.sysBlock
    { c with flash := area.foldl tdel c.flash, flushTails := [] }

/-- The creel: the checkpoint is loaded and its mark erased, or the scan starts; what a flush left is moved into reel segments
(R251, R260), and S is computed (R244). -/
def State.startCreel (s : State) (clean : Bool) (reelsLost : List (Nat × Nat)) (loss : Bool) : State :=
  let pend := s.creel.records.foldl (fun (t : Table SkRecord) r => tset t r.1 r.2) s.creel.toRestore
  let pend := pend.map fun (r : Nat × SkRecord) =>
    let k := { r.2.skein with reel := (tget s.creel.reels r.1).getD r.2.skein.reel }
    let k := match reelsLost.find? fun l => l.1 == r.1 with
      | some l => k.cutTo l.2
      | none => k
    (r.1, { r.2 with skein := k })
  let n := s.store.creelUsed.length
  let s := (s.modCreel fun c =>
    { c with state := if clean then .online else .rebuilding, cleanMark := none, records := [], recordBobbins := [], toRestore := pend, reels := []
             reelPages := c.reelPages.filter fun p => thas pend p.idx, bufferSize := bufferBlocksFor n, sizedAt := n }).emptyFlush
  if loss then s.setFlag Flag.creelFlushLoss else s

/-- REEL_LOST for each restored reel that a flush cut short (R467). -/
def State.reportReels (s : State) (before : Table SkRecord) (reels : Table (Table W32)) (lost : List (Nat × Nat)) : State :=
  lost.foldl (fun s l => match tget before l.1 with
    | some r =>
      let top := match ((tget reels l.1).getD r.skein.reel).getLast? with
        | some e => e.1 + 1
        | none => 0
      if l.2 < top then s.raise Ev.reelLost (.tenant r.skein.tenant) [r.skein.handle.toNat, l.2, top] else s
    | none => s) s

/-- The island's part (R419, R425, R435): the metadata key is new, and after an unclean power loss HSS indices skip
1,024. -/
def State.startIsland (s : State) (clean : Bool) : State :=
  let skip := !clean && s.power.lossCause != 0 && s.power.trip.isNone && s.sec.hssNext != 0
  s.modSec fun y => { y with metadataKey := y.metadataKey + 1, hssNext := if skip then y.hssNext + 1024 else y.hssNext
                             hssStopped := y.hssStopped || (skip && decide (y.hssNext + 1024 ≥ hssLimit)) }

/-- Time restarts at 0 as a follower; after Standby it goes on from holdover (R483, R514). -/
def State.startTime (s : State) : State :=
  if s.boot.fromStandby then { s with time := { s.time with role := 0, syncPorts := 15, locked := false, goodRun := 0, firstDone := false, exchanges := [] } }
  else { s with time := { localNow := s.time.localNow } }

/-- Mailbox 0 as it is after a start (R377, R514, R519): after Standby at DEPTH 64 its rings go on. -/
def State.startBox0 (s : State) : State :=
  if s.boot.fromStandby ∧ (s.mbox 0).depth = 64 ∧ (s.mbox 0).cqBase = 0x2000 then s.modMbox 0 fun b => { b with ld := some 0 }
  else
    let b := s.mbox 0
    ((s.dropArea b.sqArea).dropArea b.cqArea).openBox0

/-- The power state reached: Run, or what POWER_STATE_SET commanded in Standby (R498, R513). -/
def State.startPower (s : State) : State :=
  if s.boot.fromStandby then
    let towards := s.boot.standbyTarget
    let s := { s with boot := { s.boot with fromStandby := false, standbyTarget := .run } }
    if towards = .run then s.reachRun.answerPower
    else
      let s := (s.modPower fun p => { p with target := towards }).reachHold
      if towards = .hold then s.answerPower else s
  else s.modPower fun p => { p with wakeSource := if p.tripRestart then 6 else 0 }

/-- START_COMPLETE, and what the loss or trip before the start calls for (R492, R508, R528). -/
def State.startEvents (s : State) (lost : List (Nat × Nat × Nat)) : State :=
  let s := lost.foldl (fun s l => s.raise Ev.generationsLost .module [l.1, l.2.1, l.2.2]) s
  let s := s.raise Ev.startComplete .module [s.boot.startKind, s.boot.serviceLevel, if s.creel.state = .rebuilding then 1 else 0]
  let s := if s.power.lossCause ≠ 0 then s.raise Ev.powerLoss .module [s.power.lossCause, s.creel.flushed] else s
  let s := match s.power.trip with
    | some (sensor, reading, t) => if s.power.tripRestart then s.raise Ev.thermalTrip .module [sensor, reading, t.toNat] else s
    | none => s
  if s.sec.hssStopped then s.raise Ev.attestSigningStopped .module [s.sec.hssNext] else s

/-- What the start has reported is over. -/
def State.endStart (s : State) : State :=
  (s.modPower fun p => { p with lossCause := 0, trip := none, tripRestart := false }).modCreel fun c => { c with flushed := 0, flushLost := [] }

/-- The ROM enters recovery: STATE, BOOT_ERROR, and the CXL link (R525). -/
def State.enterRecovery (s : State) (why : Nat) (rep : StartReport) : State :=
  let s := { s with boot := { s.boot with state := .recovery, bootError := why, startKind := 3, serviceLevel := 0 } }
  if s.boot.perstAsserted then s else s.modCxl fun c => c.train (trainWidth rep.cxlWidth) (trainRate rep.cxlRate rep.flit256) rep.flit256

/-- Why the image of the creel does not run, as BOOT_ERROR gives it; 0 where it does (R422, R525, R527). -/
def State.bootError (s : State) (rep : StartReport) : Nat :=
  let st := verifyImage s.sec 1 s.boot.image
  if !rep.imageReadable then 3
  else if st = St.signatureInvalid then 1
  else if st = St.rollback then 2
  else if !rep.remainderOk then 4
  else 0

/-- The start of a verified image, to READY. -/
def State.startUp (s : State) (rep : StartReport) : State :=
  let clean := s.creel.clean
  let gensLost := s.creel.lostGens ++ rep.gensLost
  let reelsLost := s.creel.lostTails ++ rep.reelsLost
  let before := s.creel.records
  let reels := s.creel.reels
  let s := (s.runImage s.boot.image).startTime
  let s := { s with cfg := {}, box := { s.box with sevCounts := [0, 0, 0, 0] } }
  let s := s.startIsland clean
  let s := (s.trainStacks rep.stackUnits).modFlyer fun f =>
    { f with ports := (List.range portCount).map fun p => (p, startPort (rep.ports.getD p 0)) }
  let s := s.startSpindles rep.spindles
  let s := s.modCxl fun c => { c with lds := c.lds.map fun (l : Nat × Ld) => (l.1, l.2.reset) }
  let s := if s.boot.perstAsserted then s.modCxl fun c => c.train 0 0 rep.flit256
           else s.modCxl fun c => c.train (trainWidth rep.cxlWidth) (trainRate rep.cxlRate rep.flit256) rep.flit256
  let s := ((s.resumePools gensLost).startCreel clean reelsLost (!(gensLost.isEmpty && reelsLost.isEmpty))).startTenants
  let s := s.startBox0
  let s := s.modBoot fun b =>
    { b with state := .ready, bootError := 0, startKind := if clean then 1 else 2, serviceLevel := 0, restorePending := true, restored := 0, lost := 0
             damagedCount := 0 }
  let s := s.finishTeardowns
  let s := s.reportReels before reels reelsLost
  let s := if clean then s.checkReadOnly.restoreAll else s
  (s.refreshLevel.startEvents gensLost).startPower.endStart

/-- COLD_START (R513–R516): power is good, no reset or trip holds the module, and it is not running. -/
def execColdStart (rep : StartReport) (s : State) : Host.Outcome State Fault Refusal :=
  if s.boot.state ≠ .booting ∨ s.power.off ∨ s.power.resetHeld ∨ s.power.stopped then .next s
  else if !rep.rngOk then
    .next { s with boot := { s.boot with state := .halted }, sec := { s.sec with rngFailed := true } }
  else
    let s := s.modSec fun y => { y with rngFailed := false }
    let why := s.bootError rep
    if why ≠ 0 then .next (s.enterRecovery why rep) else .next (s.startUp rep).fetchAll

end Sys2Proof.Machine
end

