-- ==== Sys2Proof/Machine/TierEvents.lean ====
section
/-!
DEFINITION. Tier-engine events: sweeps (R231), the end of moves (R50), doffs and reloads (R233, R234), firmware demotion
(R42), freeing of slots and retirement (R48, R51), leases (R150), and the end of a change of the lent window (R238).
-/
namespace Sys2Proof.Machine

/-! ## The sweep (R231, R192) -/

/-- Candidates of one sweep (R231). -/
def sweepMax : Nat := 16384

/-- What a sweep puts in force first: a program and hints that wait for the next sweep (R196, R404). -/
def State.sweepConfig (s : State) : State :=
  let s := match s.images.tierNext with
    | some p => { s with images := { s.images with tier := p, tierNext := none } }
    | none => s
  s.modStore fun t => { t with skeins := t.skeins.map fun (e : Nat × Skein) => match e.2.nextHint with
    | some h => (e.1, { e.2 with hint := h, nextHint := none })
    | none => e }

/-- The candidates of a sweep in ascending index from where the last one stopped (R231). -/
def State.sweepTake (s : State) : List (Nat × Skein) :=
  let pool := s.poolCause
  let above := s.overTenants
  let all := s.store.skeins.filter fun k => s.candidate k.1 k.2 && (pool || above.contains (tidOf k.2.tenant))
  ((all.filter fun k => decide (s.store.sweepPos ≤ k.1)) ++ all.filter fun k => decide (k.1 < s.store.sweepPos)).take sweepMax

/-- Ranks the candidates; a trap raises POLICY_TRAP, to the candidate's tenant (DESIGN CHOICE, log 85), and leaves the built-in rank
(R192). -/
def State.rankAll (s : State) (ks : List (Nat × Skein)) : List (Nat × Nat) × State :=
  ks.foldl (fun (a : List (Nat × Nat) × State) k =>
    let (r, t) := s.rank k.1 k.2
    let s1 := match t with
      | some (code, imm, word) => a.2.raise Ev.policyTrap (.tenant k.2.tenant) [3, 0, word, code, imm, k.2.handle.toNat]
      | none => a.2
    (a.1 ++ [(k.1, r)], s1)) ([], s)

/-- Whether a doff of a skein could move its bobbins now (R237). -/
def State.couldDoff (s : State) (idx : Nat) : Bool :=
  s.creel.state == .online && (match s.skein? idx with
    | some k => !s.overQuota k.tenant qCreel 1
    | none => false)

/-- SWEEP_START (R231): FREE below EVICT_START, or a tenant over its DRAM quota. A sweep for pool pressure that finds no
candidate it can doff raises POOL_EXHAUSTED (R237); while the creel is OFFLINE or REBUILDING it doffs nothing (R252). -/
def execSweepStart (s : State) : Host.Outcome State Fault Refusal :=
  let busy := (s.store.doffs.any fun d => d.2.bySweep) || (s.power.inTransition && s.power.target == .doze)
  if busy || !s.awake then .next s
  else if !s.store.sweep.isEmpty then .next s.sweepNext.runTier
  else if !s.sweepCause then .next s
  else
    let s := s.sweepConfig
    let ks := s.sweepTake
    let (ranked, s) := s.rankAll ks
    let order := sortBy (fun (a b : Nat × Nat) => decide (b.2 < a.2) || (a.2 == b.2 && decide (a.1 < b.1))) (ranked.filter fun r => r.2 != 0)
    let s := match ks.getLast? with
      | some k => s.modStore fun t => { t with sweepPos := k.1 + 1 }
      | none => s
    let s := if s.poolCause && !order.any (fun r => s.couldDoff r.1) then s.raise Ev.poolExhausted .module [s.poolFree]
             else s
    if s.creelServes then .next ((s.modStore fun t => { t with sweep := order.map (·.1), evicting := s.poolCause }).sweepNext.runTier)
    else .next s

/-! ## Moves, doffs, reloads (R50, R233, R234) -/

/-- What follows the end of any move: held writes, pins and compactions go on, and the next moves start (R49, R50). -/
def State.afterMove (s : State) : State := s.releaseHeld.endPins.runTier

/-- BOBBIN_MOVE_COMMIT (R50). -/
def execBobbinMoveCommit (mv : Nat) (s : State) : Host.Outcome State Fault Refusal :=
  match tget s.store.moves mv with
  | none => .next s
  | some m =>
    if !s.awake then .next s
    else match s.commitMove mv m with
      | some s => .next s.afterMove
      | none => .next s

/-- BOBBIN_MOVE_ABANDON (R50): the destination failed, or a check value did (R42). -/
def execBobbinMoveAbandon (mv : Nat) (checkFailed : Bool) (s : State) : Host.Outcome State Fault Refusal :=
  match tget s.store.moves mv with
  | none => .next s
  | some m => if s.awake then .next (s.failMove mv m checkFailed).afterMove else .next s

/-- DOFF_END (R233). -/
def execDoffEnd (idx : Nat) (s : State) : Host.Outcome State Fault Refusal :=
  match tget s.store.doffs idx with
  | none => .next s
  | some d => if s.awake && s.doffDone idx d then .next ((s.endDoff idx d).afterMove) else .next s

/-- RELOAD_END (R234). -/
def execReloadEnd (idx : Nat) (s : State) : Host.Outcome State Fault Refusal :=
  match tget s.store.reloads idx with
  | none => .next s
  | some r => if s.awake && s.reloadDone idx r then .next ((s.endReload idx r).afterMove) else .next s

/-- DAMAGED_DEMOTION (R41, R42): firmware demotes a DAMAGED bobbin. -/
def execDamagedDemotion (idx layer hg bob : Nat) (s : State) : Host.Outcome State Fault Refusal :=
  let key := leafKey layer hg bob
  if (s.store.damaged.any fun d => d.1 == idx && d.2.1 == key) && s.fetching then .next ((s.demote idx key).afterMove) else .next s

/-! ## Slots and retirement (R48, R51) -/

/-- SLOT_FREE (R48): no holder names the slot any more. -/
def execSlotFree (tier pbn : Nat) (s : State) : Host.Outcome State Fault Refusal := .next (s.freePending tier pbn).runTier

/-- SKEIN_RETIREMENT_END (R51): everything of a RETIRING skein is released. -/
def execSkeinRetirementEnd (idx : Nat) (s : State) : Host.Outcome State Fault Refusal :=
  match s.skein? idx with
  | none => .next s
  | some k =>
    if k.state = .retiring ∧ !(s.store.pendingFree.any fun p => p.2.2.2 == idx) then .next (s.endRetirement idx) else .next s

/-! ## Leases (R150) -/

/-- LEASE_EXPIRY (R150). -/
def execLeaseExpiry (idx : Nat) (s : State) : Host.Outcome State Fault Refusal := .next (s.expireLease idx)

/-- ORPHAN_HOLD_END (R150 step 3). -/
def execOrphanHoldEnd (idx : Nat) (s : State) : Host.Outcome State Fault Refusal :=
  match s.skein? idx with
  | none => .next s
  | some k =>
    match k.orphanUntil with
    | none => .next s
    | some t =>
      if s.time.localNow < t ∨ k.state = .retiring then .next s
      else
        let s := ((s.cancelSkeinJobs k.handle St.orphaned).removeSkeinEntries k.handle St.orphaned).dropCache k.handle
        let s := s.modSkein idx fun k => { k with lease := leaseWord (leaseEpoch k.lease + 1) false 0, orphanUntil := none }
        .next (if k.orphanRelease then (s.killSkein idx).releaseHeld else s)

/-! ## The lent window (R238) -/

/-- A slot under its new number. -/
def renamed (r : Table Nat) (p : Nat) : Nat := (tget r p).getD p

/-- Every area that the module holds, under new slot numbers. -/
def State.renameSlots (s : State) (r : Table Nat) : State :=
  let f := fun (a : Area) => a.map (renamed r)
  let t := fun (x : Table Nat) => x.map fun e => (e.1, renamed r e.2)
  { s with
    box := { s.box with boxes := s.box.boxes.map fun (e : Nat × Mbox) => (e.1, { e.2 with sqArea := f e.2.sqArea, cqArea := f e.2.cqArea }) }
    cxl := { s.cxl with slabs := s.cxl.slabs.map fun b => { b with area := f b.area } }
    work := { s.work with
      cqs := s.work.cqs.map fun (e : Nat × Cq) => (e.1, { e.2 with area := f e.2.area })
      jqs := s.work.jqs.map fun (e : Nat × Jq) => (e.1, { e.2 with area := f e.2.area })
      combines := s.work.combines.map fun (e : Nat × Combine) => (e.1, { e.2 with area := f e.2.area })
      lists := s.work.lists.map fun (e : Nat × TrigList) =>
        (e.1, { e.2 with area := f e.2.area, storeSlabs := f e.2.storeSlabs, stagingSlabs := f e.2.stagingSlabs }) }
    flyer := { s.flyer with
      conns := s.flyer.conns.map fun (e : Nat × Conn) => (e.1, { e.2 with area := f e.2.area, rxArea := f e.2.rxArea })
      srqs := s.flyer.srqs.map fun (e : Nat × Srq) => (e.1, { e.2 with area := f e.2.area })
      regions := s.flyer.regions.map fun (e : Nat × Region) => (e.1, { e.2 with area := f e.2.area })
      tele := { s.flyer.tele with area := f s.flyer.tele.area } }
    store := { s.store with skeins := s.store.skeins.map fun (e : Nat × Skein) =>
      (e.1, { e.2 with tableSlabs := f e.2.tableSlabs, reelSlabs := t e.2.reelSlabs, historySlabs := t e.2.historySlabs }) } }

/-- Moves one slab out of the band: its bytes, its bad lines and its name (R50, R171, R238). -/
def State.moveSlab (s : State) (p : Nat) : Option State := do
  let (q, s) ← s.takeSlotNear (groupOf p)
  let line := fun a => if slotAddr 1 p ≤ a ∧ a < slotAddr 1 p + slotBytes then a - slotAddr 1 p + slotAddr 1 q else a
  let s := { s with mem := s.mem.copy (slotAddr 1 p) (slotAddr 1 q) slotBytes
                    cxl := { s.cxl with badLines := s.cxl.badLines.map line } }
  return (s.renameSlots [(p, q)]).giveSlots [p]

/-- Slots of the band that bobbins hold: leaves, moves, runs, and slots that still wait for their readers. -/
def State.bandBobbins (s : State) (first : Nat) : List Nat :=
  let ls := s.store.skeins.flatMap (fun k => k.2.leaves.map (·.2)) ++ s.pfx.runs.flatMap fun r => r.2.leaves.map (·.2)
  (((ls.filter fun l => l.tier == 1).map fun l => l.pbn) ++ (s.store.pendingFree.filter fun p => p.1 == 1).map (fun p => p.2.1) ++
    s.store.moves.flatMap fun m => [if m.2.srcTier = 1 then m.2.srcPbn else 0, if m.2.dstTier = 1 then m.2.dstPbn else 0]).filter
    fun p => decide (first ≤ p)

/-- Zeroes a band of slots (R238, R365): its bytes, its bad lines and the keys of its lines. -/
def State.zeroBand (s : State) (a b : Nat) : State :=
  let out := fun x => decide (x < slotAddr 1 a ∨ slotAddr 1 b ≤ x)
  { s with mem := s.mem.clear (slotAddr 1 a) ((b - a) * slotBytes)
           cxl := { s.cxl with badLines := s.cxl.badLines.filter out, lineKeys := s.cxl.lineKeys.filter fun e => out e.1 } }

/-- The new size of the lent window takes effect and its command completes with the previous value (R238, R402). -/
def State.setLent (s : State) (w : CmdRef) (gib : Nat) : State :=
  let old := s.cfg.lentGib
  let a := 12189696 - max old gib * 16384
  let b := 12189696 - min old gib * 16384
  let was := s.belowLow
  let s := s.zeroBand a b
  let s := { s with cfg := { s.cfg with lentGib := gib } }
  let s := s.modStore fun t => { t with lentWaiter := none, poolSlots := 12189696 - gib * 16384 - poolBase }
  (s.noteLow was).answer w St.ok (toLe 8 old)

/-- The changes that waited, in their order, until one starts (R238). -/
def State.lentFollow : List (CmdRef × Nat) → State → State
  | [], s => s.modStore fun t => { t with lentNext := [] }
  | (w, v) :: rest, s =>
    if v = s.cfg.lentGib then lentFollow rest (s.answer w St.ok (toLe 8 v))
    else match s.lentCheck v with
      | .error st => lentFollow rest (s.answer w st [])
      | .ok () => (s.modStore fun t => { t with lentNext := rest }).lentBegin w v

/-- The end of one change, and the next. -/
def State.lentDone (s : State) (w : CmdRef) (gib : Nat) : State :=
  let s := s.setLent w gib
  State.lentFollow s.store.lentNext s

/-- LENT_BAND_CHANGE_COMPLETE (R238): a growing window waits until no bobbin is left in the band; the slabs there move
with it. -/
def execLentBandChangeComplete (s : State) : Host.Outcome State Fault Refusal :=
  match s.store.lentWaiter with
  | none => .next s
  | some (w, gib) =>
    if !s.awake then .next s
    else if gib < s.cfg.lentGib then .next (s.lentDone w gib).runTier
    else
      let first := 12189696 - gib * 16384
      if !(s.bandBobbins first).isEmpty then .next s.runTier
      else match (s.store.dramUsed.filter fun p => decide (first ≤ p)).foldlM (fun s p => s.moveSlab p) s with
        | none => .next s
        | some s => .next (s.lentDone w gib).runTier

end Sys2Proof.Machine
end

