-- ==== Sys2Proof/Machine/TimeUnit.lean ====
section
/-!
DEFINITION. The time unit (19): TIME_CONFIGURE and TIME_INFO (R415, R479), the sync exchange (R480–R483), the time
reference (R484), loads and steps of the count (R485), and PPS_OUT (R537).
-/
namespace Sys2Proof.Machine

def State.modTime (s : State) (f : TimeUnit → TimeUnit) : State := { s with time := f s.time }

/-- A signed number in 64 bits, as an event carries it. -/
def signed64 (i : Int) : Nat := (BitVec.ofInt 64 i).toNat

/-- A load of the count, or its one step: the count and every lease EXPIRY change by D, exchanges under way are void, and
TIME_LOADED carries D (R485). -/
def State.loadTime (s : State) (d : Int) : State :=
  let w : W64 := BitVec.ofInt 64 d
  let s := s.modTime fun t => { t with now := t.now + w, exchanges := [], slew := 0 }
  let s := s.modStore fun t => { t with skeins := t.skeins.map fun (k : Nat × Skein) => (k.1, { k.2 with expiry := k.2.expiry + w }) }
  let ns := s.flyer.tele.period * 1000
  let next := BitVec.ofNat 64 ((s.time.now.toNat / max 1 ns + 1) * ns)
  (s.modFlyer fun f => { f with tele := { f.tele with next := if ns = 0 then 0 else next } }).raise Ev.timeLoaded .module [signed64 d]

/-- The difference that takes the count to a value. -/
def State.timeTo (s : State) (v : W64) : Int := (v.toNat : Int) - (s.time.now.toNat : Int)

/-! ## Commands (R415) -/

/-- TIME_CONFIGURE (R479, R485). A change of role leaves LOCKED clear (DEDUCED, log 17). -/
def cmdTimeConfigure (x : Ctx) (s : State) : CmdM := do
  let role := x.p 0 1
  let ports := x.p 1 1
  let v : W64 := BitVec.ofNat 64 (x.p 8 8)
  mode (decide (role ≤ 2) && (role == 2 || ports != 0))
  let changed := role != s.time.role
  let s := s.modTime fun t =>
    { t with role, syncPorts := BitVec.ofNat 4 ports, locked := t.locked && !changed, goodRun := if changed then 0 else t.goodRun,
             initial := if role = 1 then some v else none, refBase := none, slew := if changed then 0 else t.slew,
             lastEdgeLocal := t.localNow, holdover := false, exchanges := [], syncSentAt := [] }
  return .done (if role = 2 then (s.loadTime (s.timeTo v)).modTime fun t => { t with firstDone := false } else s) []

/-- TIME_INFO (R482); an offset beyond its 16-bit field has no stated form there (DESIGN CHOICE, log 3). -/
def cmdTimeInfo (_ : Ctx) (s : State) : CmdM :=
  let t := s.time
  let fits := decide (-32768 ≤ t.lastOffset ∧ t.lastOffset ≤ 32767)
  let (v, s) := if fits then ((BitVec.ofInt 16 t.lastOffset).toNat, s) else s.free 65536
  .ok (.done s (toLe 1 t.role ++ toLe 1 (if t.locked then 1 else 0) ++ toLe 2 v ++ zeros 4 ++ toLe 8 t.lastSync.toNat))

/-- TIME_CONFIGURE (R479). -/
def execTimeConfigure (m slot : Nat) (s : State) : Host.Outcome State Fault Refusal := cmdRow 0x0C00 cmdTimeConfigure m slot s
/-- TIME_INFO (R482). -/
def execTimeInfo (m slot : Nat) (s : State) : Host.Outcome State Fault Refusal := cmdRow 0x0C01 cmdTimeInfo m slot s

/-! ## The sync exchange (R480–R483) -/

/-- KIND codes of a TIME_SYNC block. -/
def kindSync : Nat := 0
def kindReq : Nat := 1
def kindResp : Nat := 2

/-- Whether a port exchanges TIME_SYNC blocks now: not in Standby (R483), and its link carries control blocks. -/
def State.syncs (s : State) (p : Nat) : Bool :=
  s.time.syncPorts.getLsbD p && s.power.state != .standby && !s.power.stopped && !s.power.off && (s.portAt p).state != .down

/-- The port whose partner advertises the lowest HOPS below 63 (R482). -/
def State.timeSource (s : State) : Option Nat :=
  let ps := (s.time.partnerHops.filter fun h => decide (h.2 < 63) && s.syncs h.1)
  (ps.foldl (fun (a : Option (Nat × Nat)) h => match a with
    | none => some h
    | some b => if h.2 < b.2 then some h else a) none).map (·.1)

/-- HOPS that the module advertises (R479, R480). -/
def State.myHops (s : State) : Nat :=
  if s.time.role ≠ 0 then 0
  else match s.timeSource with
    | some p => tnum s.time.partnerHops p + 1
    | none => 63

/-- A TIME_SYNC block out of a port (R480). -/
def State.sendSync (s : State) (p kind hops t : Nat) : State := s.control p 0x06 (kind * 2 ^ 54 + hops * 2 ^ 48 + t % 2 ^ 48)

/-- Completes 48 bits of a time to the value nearest the module's own count (R480). -/
def nearest48 (now : W64) (t : BitVec 48) : W64 :=
  let d : BitVec 48 := t - now.setWidth 48
  now + d.signExtend 64

/-- LOCKED after one more offset: 16 within 4 ns set it, one beyond 50 ns clears it (R482). -/
def State.lockBy (s : State) (off : Int) (src hops : Nat) : State :=
  let good := if -4 ≤ off ∧ off ≤ 4 then s.time.goodRun + 1 else 0
  let s := s.modTime fun t => { t with goodRun := good, lastOffset := off }
  if s.time.locked ∧ (off < -50 ∨ 50 < off) then
    (s.modTime fun t => { t with locked := false }).raise Ev.timeLockLost .module [s.time.role, src, signed64 off]
  else if !s.time.locked ∧ 16 ≤ good then (s.modTime fun t => { t with locked := true }).raise Ev.timeLocked .module [src, hops]
  else s

/-- A valid exchange on the source port: the first after a start or a load may step the count, others slew it (R482). -/
def State.discipline (s : State) (p : Nat) (off : Int) : State :=
  let step := !s.time.firstDone && decide (off < -1000 ∨ 1000 < off)
  let s := if step then s.loadTime (-off) else s.modTime fun t => { t with slew := -off }
  let s := s.modTime fun t => { t with firstDone := true, lastSync := t.now, lastSyncLocal := t.localNow, holdover := false }
  s.lockBy off p (tnum s.time.partnerHops p)

/-- SYNC_RECEIVE (R481): t1 and t2 are kept and DELAY_REQ goes out, while none is outstanding on the port. -/
def execSyncReceive (port : Nat) (hops : BitVec 6) (t : BitVec 48) (s : State) : Host.Outcome State Fault Refusal :=
  if port ≥ portCount then .fault .noSuchUnit
  else if s.time.role ≠ 0 ∨ !s.syncs port then .next s
  else
    let s := s.modTime fun u => { u with partnerHops := tset u.partnerHops port hops.toNat }
    let busy : Bool := match tget s.time.exchanges port with
      | some e => e.t3.isSome && decide (s.time.localNow ≤ e.deadline)
      | none => false
    if busy then .next s
    else
      let e : Exchange := { t1 := nearest48 s.time.now t, t2 := s.time.now, t3 := some s.time.now, deadline := s.time.localNow + 10000 }
      .next ((s.modTime fun u => { u with exchanges := tset u.exchanges port e }).sendSync port kindReq s.myHops 0)

/-- DELAY_REQ_RECEIVE (R481): a master answers with the arrival time. -/
def execDelayReqReceive (port : Nat) (_hops : BitVec 6) (s : State) : Host.Outcome State Fault Refusal :=
  if port ≥ portCount then .fault .noSuchUnit
  else if s.time.role = 0 ∨ !s.syncs port then .next s
  else .next (s.sendSync port kindResp 0 s.time.now.toNat)

/-- DELAY_RESP_RECEIVE (R481, R482): late answers are discarded; a valid exchange on the source port disciplines the
count. -/
def execDelayRespReceive (port : Nat) (hops : BitVec 6) (t : BitVec 48) (s : State) : Host.Outcome State Fault Refusal :=
  if port ≥ portCount then .fault .noSuchUnit
  else match tget s.time.exchanges port with
    | none => .next s
    | some e =>
      let s := s.modTime fun u => { u with exchanges := tdel u.exchanges port }
      match e.t3 with
      | none => .next s
      | some t3 =>
        if s.time.role ≠ 0 ∨ !s.syncs port ∨ e.deadline < s.time.localNow then .next s
        else
          let s := s.modTime fun u => { u with partnerHops := tset u.partnerHops port hops.toNat }
          let t4 := nearest48 s.time.now t
          let off : Int := (((e.t2 - e.t1).toInt - (t4 - t3).toInt)) / 2
          .next (if s.timeSource = some port then s.discipline port off else s)

/-- DELAY_RESP_LIMIT_EXPIRY (R481): an exchange older than 10 µs is void. -/
def execDelayRespLimitExpiry (port : Nat) (s : State) : Host.Outcome State Fault Refusal :=
  if port ≥ portCount then .fault .noSuchUnit
  else match tget s.time.exchanges port with
    | some e => .next (if e.deadline < s.time.localNow then s.modTime fun u => { u with exchanges := tdel u.exchanges port } else s)
    | none => .next s

/-- SYNC_INTERVAL (R481): a master sends SYNC every 250 µs. -/
def execSyncInterval (port : Nat) (s : State) : Host.Outcome State Fault Refusal :=
  if port ≥ portCount then .fault .noSuchUnit
  else
    let due : Bool := match tget s.time.syncSentAt port with
      | some t => decide (t + 250000 ≤ s.time.localNow)
      | none => true
    if s.time.role = 0 ∨ !s.syncs port ∨ !due then .next s
    else .next ((s.modTime fun u => { u with syncSentAt := tset u.syncSentAt port u.localNow }).sendSync port kindSync 0 s.time.now.toNat)

/-- SYNC_LOSS_EXPIRY (R482, R483): 10 ms without a valid exchange; the silent partner offers no source any more. -/
def execSyncLossExpiry (s : State) : Host.Outcome State Fault Refusal :=
  if s.time.role ≠ 0 ∨ s.time.localNow < s.time.lastSyncLocal + 10000000 then .next s
  else
    let src := s.timeSource
    let lost := s.time.locked
    let s := s.modTime fun t =>
      { t with locked := false, goodRun := 0, partnerHops := match src with
          | some p => tdel t.partnerHops p
          | none => t.partnerHops }
    let s := s.modTime fun t => { t with holdover := s.timeSource.isNone }
    .next (if lost then s.raise Ev.timeLockLost .module [s.time.role, src.getD 0xFF, signed64 s.time.lastOffset] else s)

/-! ## The time reference (R484) -/

/-- TIME_REF_EDGE (R484): the first edge loads INITIAL; a later one within 1 µs of its place slews the count, one
further off is ignored and counted. -/
def execTimeRefEdge (s : State) : Host.Outcome State Fault Refusal :=
  if s.time.role ≠ 1 then .next s
  else match s.time.initial with
    | some v =>
      let s := s.loadTime (s.timeTo v)
      .next (s.modTime fun t => { t with initial := none, refBase := some v, lastEdge := v, lastEdgeLocal := t.localNow,
                                         firstDone := false, holdover := false })
    | none => match s.time.refBase with
      | none => .next s
      | some b =>
        let r := (s.time.now - b).toNat % 1000000000
        let off : Int := if r < 500000000 then r else (r : Int) - 1000000000
        if off < -1000 ∨ 1000 < off then .next (s.modTime fun t => { t with edgesIgnored := t.edgesIgnored + 1 })
        else
          let s := s.modTime fun t => { t with slew := -off, lastEdge := t.now, lastEdgeLocal := t.localNow, holdover := false }
          .next (s.lockBy off 0xFF 0)

/-- REFERENCE_EDGE_LOSS (R484): three seconds without a valid edge. -/
def execReferenceEdgeLoss (s : State) : Host.Outcome State Fault Refusal :=
  if s.time.role ≠ 1 ∨ s.time.holdover ∨ s.time.localNow < s.time.lastEdgeLocal + 3000000000 then .next s
  else .next ((s.modTime fun t => { t with locked := false, goodRun := 0, holdover := true }).raise Ev.timeReferenceFault .module
    [s.time.lastEdge.toNat])

/-- PPS_OUT_PULSE (R537): PPS_OUT rises within 2 ns of a count that is a multiple of 10^9, for 100 ms, in every power
state. -/
def execPpsOutPulse (s : State) : Host.Outcome State Fault Refusal :=
  let r := s.time.now.toNat % 1000000000
  if (r ≤ 2 ∨ 999999998 ≤ r) ∧ !s.time.pps then .next (s.modTime fun t => { t with pps := true, ppsFall := t.localNow + 100000000 })
  else .next s

end Sys2Proof.Machine
end

