-- ==== Sys2Proof/Machine/Dispatch.lean ====
section
/-!
DEFINITION. One arm per command of Instr: a direct call of its meaning.
-/
namespace Sys2Proof.Machine

/-- The effect of a command on everything but the queue. -/
def exec (i : Instr) (s : State) : Host.Outcome State Fault Refusal :=
  match i with
  | .sqTailWrite ld m v => Sys2Proof.Machine.execSqTailWrite ld m v s
  | .cqHeadWrite ld m v => Sys2Proof.Machine.execCqHeadWrite ld m v s
  | .eventHeadWrite ld m v => Sys2Proof.Machine.execEventHeadWrite ld m v s
  | .jobQueueDoorbell ld m v => Sys2Proof.Machine.execJobQueueDoorbell ld m v s
  | .sendQueueDoorbell ld m v => Sys2Proof.Machine.execSendQueueDoorbell ld m v s
  | .triggerRingDoorbell ld m v => Sys2Proof.Machine.execTriggerRingDoorbell ld m v s
  | .srqDoorbell ld m v => Sys2Proof.Machine.execSrqDoorbell ld m v s
  | .cqHeadUpdate ld m v => Sys2Proof.Machine.execCqHeadUpdate ld m v s
  | .w1cFlagWrite ld row v hwSet => Sys2Proof.Machine.execW1cFlagWrite ld row v hwSet s
  | .rcCounterRead ld row first width hwInc => Sys2Proof.Machine.execRcCounterRead ld row first width hwInc s
  | .timeNowLowRead ld => Sys2Proof.Machine.execTimeNowLowRead ld s
  | .timeNowHighRead ld => Sys2Proof.Machine.execTimeNowHighRead ld s
  | .recoveryGo ld length => Sys2Proof.Machine.execRecoveryGo ld length s
  | .registerWrite ld off data => Sys2Proof.Machine.execRegisterWrite ld off data s
  | .probeRead ld idx => Sys2Proof.Machine.execProbeRead ld idx s
  | .probeWrite ld idx => Sys2Proof.Machine.execProbeWrite ld idx s
  | .lentRead ld off => Sys2Proof.Machine.execLentRead ld off s
  | .lentWrite ld off line => Sys2Proof.Machine.execLentWrite ld off line s
  | .queueWindowAccess ld off len data => Sys2Proof.Machine.execQueueWindowAccess ld off len data s
  | .hdmDecoderCommit ld dec base size => Sys2Proof.Machine.execHdmDecoderCommit ld dec base size s
  | .getInterfaceVersion m slot => Sys2Proof.Machine.execGetInterfaceVersion m slot s
  | .setInterfaceVersion m slot => Sys2Proof.Machine.execSetInterfaceVersion m slot s
  | .moduleInfo m slot => Sys2Proof.Machine.execModuleInfo m slot s
  | .moduleConfigure m slot => Sys2Proof.Machine.execModuleConfigure m slot s
  | .ldConfigure m slot => Sys2Proof.Machine.execLdConfigure m slot s
  | .mailboxBind m slot => Sys2Proof.Machine.execMailboxBind m slot s
  | .mailboxUnbind m slot => Sys2Proof.Machine.execMailboxUnbind m slot s
  | .tenantCreate m slot => Sys2Proof.Machine.execTenantCreate m slot s
  | .tenantDestroy m slot => Sys2Proof.Machine.execTenantDestroy m slot s
  | .quotaSet m slot => Sys2Proof.Machine.execQuotaSet m slot s
  | .tenantInfo m slot => Sys2Proof.Machine.execTenantInfo m slot s
  | .skeinCreate m slot => Sys2Proof.Machine.execSkeinCreate m slot s
  | .skeinDestroy m slot => Sys2Proof.Machine.execSkeinDestroy m slot s
  | .skeinInfo m slot => Sys2Proof.Machine.execSkeinInfo m slot s
  | .skeinSetHint m slot => Sys2Proof.Machine.execSkeinSetHint m slot s
  | .leaseSwap m slot => Sys2Proof.Machine.execLeaseSwap m slot s
  | .programLoad m slot => Sys2Proof.Machine.execProgramLoad m slot s
  | .programUnload m slot => Sys2Proof.Machine.execProgramUnload m slot s
  | .tableLoad m slot => Sys2Proof.Machine.execTableLoad m slot s
  | .tableUnload m slot => Sys2Proof.Machine.execTableUnload m slot s
  | .cqCreate m slot => Sys2Proof.Machine.execCqCreate m slot s
  | .cqDestroy m slot => Sys2Proof.Machine.execCqDestroy m slot s
  | .jobQueueCreate m slot => Sys2Proof.Machine.execJobQueueCreate m slot s
  | .jobQueueDestroy m slot => Sys2Proof.Machine.execJobQueueDestroy m slot s
  | .jobCancel m slot => Sys2Proof.Machine.execJobCancel m slot s
  | .combineRelease m slot => Sys2Proof.Machine.execCombineRelease m slot s
  | .queueStatus m slot => Sys2Proof.Machine.execQueueStatus m slot s
  | .triggerListCreate m slot => Sys2Proof.Machine.execTriggerListCreate m slot s
  | .triggerListDestroy m slot => Sys2Proof.Machine.execTriggerListDestroy m slot s
  | .triggerPost m slot => Sys2Proof.Machine.execTriggerPost m slot s
  | .triggerCancel m slot => Sys2Proof.Machine.execTriggerCancel m slot s
  | .triggerResume m slot => Sys2Proof.Machine.execTriggerResume m slot s
  | .connCreate m slot => Sys2Proof.Machine.execConnCreate m slot s
  | .connModify m slot => Sys2Proof.Machine.execConnModify m slot s
  | .connDrain m slot => Sys2Proof.Machine.execConnDrain m slot s
  | .connDestroy m slot => Sys2Proof.Machine.execConnDestroy m slot s
  | .srqCreate m slot => Sys2Proof.Machine.execSrqCreate m slot s
  | .srqDestroy m slot => Sys2Proof.Machine.execSrqDestroy m slot s
  | .regionRegister m slot => Sys2Proof.Machine.execRegionRegister m slot s
  | .regionDeregister m slot => Sys2Proof.Machine.execRegionDeregister m slot s
  | .linkSpare m slot => Sys2Proof.Machine.execLinkSpare m slot s
  | .portConfigure m slot => Sys2Proof.Machine.execPortConfigure m slot s
  | .shaperSet m slot => Sys2Proof.Machine.execShaperSet m slot s
  | .gateSet m slot => Sys2Proof.Machine.execGateSet m slot s
  | .runCreate m slot => Sys2Proof.Machine.execRunCreate m slot s
  | .runAttach m slot => Sys2Proof.Machine.execRunAttach m slot s
  | .runRelease m slot => Sys2Proof.Machine.execRunRelease m slot s
  | .prefixInsert m slot => Sys2Proof.Machine.execPrefixInsert m slot s
  | .prefixRemove m slot => Sys2Proof.Machine.execPrefixRemove m slot s
  | .prefixProbe m slot => Sys2Proof.Machine.execPrefixProbe m slot s
  | .skeinDoff m slot => Sys2Proof.Machine.execSkeinDoff m slot s
  | .skeinReload m slot => Sys2Proof.Machine.execSkeinReload m slot s
  | .tierPin m slot => Sys2Proof.Machine.execTierPin m slot s
  | .tierUnpin m slot => Sys2Proof.Machine.execTierUnpin m slot s
  | .lentGrant m slot => Sys2Proof.Machine.execLentGrant m slot s
  | .lentRevoke m slot => Sys2Proof.Machine.execLentRevoke m slot s
  | .hostFence m slot => Sys2Proof.Machine.execHostFence m slot s
  | .publicationCreate m slot => Sys2Proof.Machine.execPublicationCreate m slot s
  | .publicationDelete m slot => Sys2Proof.Machine.execPublicationDelete m slot s
  | .lentPublish m slot => Sys2Proof.Machine.execLentPublish m slot s
  | .publicationGet m slot => Sys2Proof.Machine.execPublicationGet m slot s
  | .unitService m slot => Sys2Proof.Machine.execUnitService m slot s
  | .marginSweep m slot points => Sys2Proof.Machine.execMarginSweep m slot points s
  | .auditSet m slot => Sys2Proof.Machine.execAuditSet m slot s
  | .budgetSet m slot => Sys2Proof.Machine.execBudgetSet m slot s
  | .healthRead m slot => Sys2Proof.Machine.execHealthRead m slot s
  | .sampleSet m slot => Sys2Proof.Machine.execSampleSet m slot s
  | .telemetryRead m slot => Sys2Proof.Machine.execTelemetryRead m slot s
  | .statsRead m slot => Sys2Proof.Machine.execStatsRead m slot s
  | .timeConfigure m slot => Sys2Proof.Machine.execTimeConfigure m slot s
  | .timeInfo m slot => Sys2Proof.Machine.execTimeInfo m slot s
  | .powerStateSet m slot => Sys2Proof.Machine.execPowerStateSet m slot s
  | .powerCapSet m slot => Sys2Proof.Machine.execPowerCapSet m slot s
  | .dozeConfigure m slot => Sys2Proof.Machine.execDozeConfigure m slot s
  | .powerInfo m slot => Sys2Proof.Machine.execPowerInfo m slot s
  | .firmwareStage m slot => Sys2Proof.Machine.execFirmwareStage m slot s
  | .firmwareActivate m slot readBackOk => Sys2Proof.Machine.execFirmwareActivate m slot readBackOk s
  | .firmwareInfo m slot => Sys2Proof.Machine.execFirmwareInfo m slot s
  | .svnCommit m slot => Sys2Proof.Machine.execSvnCommit m slot s
  | .attestReport m slot => Sys2Proof.Machine.execAttestReport m slot s
  | .sessionOpen m slot h => Sys2Proof.Machine.execSessionOpen m slot h s
  | .sessionClose m slot => Sys2Proof.Machine.execSessionClose m slot s
  | .jobAdmission q => Sys2Proof.Machine.execJobAdmission q s
  | .jobAdmissionResume j => Sys2Proof.Machine.execJobAdmissionResume j s
  | .admitWaitExpiry j => Sys2Proof.Machine.execAdmitWaitExpiry j s
  | .sketchWaitDone j => Sys2Proof.Machine.execSketchWaitDone j s
  | .launchCountReached j => Sys2Proof.Machine.execLaunchCountReached j s
  | .leaArrival j item lea spindle sub => Sys2Proof.Machine.execLeaArrival j item lea spindle sub s
  | .spindleItemComplete j item => Sys2Proof.Machine.execSpindleItemComplete j item s
  | .spindleBarrierArrive j spindle => Sys2Proof.Machine.execSpindleBarrierArrive j spindle s
  | .jobStreamComplete j order => Sys2Proof.Machine.execJobStreamComplete j order s
  | .spindleLeavesService spindle => Sys2Proof.Machine.execSpindleLeavesService spindle s
  | .combineDescriptorPost q => Sys2Proof.Machine.execCombineDescriptorPost q s
  | .copy q => Sys2Proof.Machine.execCopy q s
  | .compact q => Sys2Proof.Machine.execCompact q s
  | .verify q => Sys2Proof.Machine.execVerify q s
  | .waitDescriptor kind q => Sys2Proof.Machine.execWaitDescriptor kind q s
  | .waitCounterChange kind q => Sys2Proof.Machine.execWaitCounterChange kind q s
  | .waitTimeoutExpiry kind q => Sys2Proof.Machine.execWaitTimeoutExpiry kind q s
  | .workRequestPost c => Sys2Proof.Machine.execWorkRequestPost c s
  | .linkFrameReceive port frame uncorrectable => Sys2Proof.Machine.execLinkFrameReceive port frame uncorrectable s
  | .writeExecute c seq => Sys2Proof.Machine.execWriteExecute c seq s
  | .importWrite c seq => Sys2Proof.Machine.execImportWrite c seq s
  | .readExecute c seq => Sys2Proof.Machine.execReadExecute c seq s
  | .readResponseReceive c seq => Sys2Proof.Machine.execReadResponseReceive c seq s
  | .sendExecute c seq => Sys2Proof.Machine.execSendExecute c seq s
  | .fetchAddExecute c seq => Sys2Proof.Machine.execFetchAddExecute c seq s
  | .compareSwapExecute c seq => Sys2Proof.Machine.execCompareSwapExecute c seq s
  | .atomicResponseReceive c seq => Sys2Proof.Machine.execAtomicResponseReceive c seq s
  | .queryExecute c seq => Sys2Proof.Machine.execQueryExecute c seq s
  | .plyExecute c seq => Sys2Proof.Machine.execPlyExecute c seq s
  | .appendExecute c seq => Sys2Proof.Machine.execAppendExecute c seq s
  | .appendComplete c seq => Sys2Proof.Machine.execAppendComplete c seq s
  | .sketchUpdate stack => Sys2Proof.Machine.execSketchUpdate stack s
  | .blockHashCompute idx block => Sys2Proof.Machine.execBlockHashCompute idx block s
  | .ackReceive c => Sys2Proof.Machine.execAckReceive c s
  | .nakReceive c => Sys2Proof.Machine.execNakReceive c s
  | .ackCoalesceExpiry c => Sys2Proof.Machine.execAckCoalesceExpiry c s
  | .ackTimeoutExpiry c seq => Sys2Proof.Machine.execAckTimeoutExpiry c seq s
  | .reassemblyTimeoutExpiry c seq => Sys2Proof.Machine.execReassemblyTimeoutExpiry c seq s
  | .timedHoldDelivery k => Sys2Proof.Machine.execTimedHoldDelivery k s
  | .heldActionSlotFree k => Sys2Proof.Machine.execHeldActionSlotFree k s
  | .frameTransmitEnd port => Sys2Proof.Machine.execFrameTransmitEnd port s
  | .gateEntryChange port => Sys2Proof.Machine.execGateEntryChange port s
  | .gateListSwitch port => Sys2Proof.Machine.execGateListSwitch port s
  | .samplePeriodBoundary => Sys2Proof.Machine.execSamplePeriodBoundary s
  | .linkAckReceive port lseq => Sys2Proof.Machine.execLinkAckReceive port lseq s
  | .replayReqReceive port lseq => Sys2Proof.Machine.execReplayReqReceive port lseq s
  | .linkAckTimer port => Sys2Proof.Machine.execLinkAckTimer port s
  | .linkReplayTimeout port => Sys2Proof.Machine.execLinkReplayTimeout port s
  | .retrainLimitExpiry port => Sys2Proof.Machine.execRetrainLimitExpiry port s
  | .switchReceive port map units => Sys2Proof.Machine.execSwitchReceive port map units s
  | .wavelengthFailure port wl => Sys2Proof.Machine.execWavelengthFailure port wl s
  | .laserBankFailure port => Sys2Proof.Machine.execLaserBankFailure port s
  | .lossOfLight port => Sys2Proof.Machine.execLossOfLight port s
  | .lossOfLightExpiry port => Sys2Proof.Machine.execLossOfLightExpiry port s
  | .wakeRequestReceive port node => Sys2Proof.Machine.execWakeRequestReceive port node s
  | .resumedReceive port node => Sys2Proof.Machine.execResumedReceive port node s
  | .enteringLowRateReceive port node => Sys2Proof.Machine.execEnteringLowRateReceive port node s
  | .syncReceive port hops t => Sys2Proof.Machine.execSyncReceive port hops t s
  | .delayReqReceive port hops => Sys2Proof.Machine.execDelayReqReceive port hops s
  | .delayRespReceive port hops t => Sys2Proof.Machine.execDelayRespReceive port hops t s
  | .delayRespLimitExpiry port => Sys2Proof.Machine.execDelayRespLimitExpiry port s
  | .syncInterval port => Sys2Proof.Machine.execSyncInterval port s
  | .syncLossExpiry => Sys2Proof.Machine.execSyncLossExpiry s
  | .timeRefEdge => Sys2Proof.Machine.execTimeRefEdge s
  | .referenceEdgeLoss => Sys2Proof.Machine.execReferenceEdgeLoss s
  | .handshakePacketReceive port node msg step => Sys2Proof.Machine.execHandshakePacketReceive port node msg step s
  | .sessionRekey sess => Sys2Proof.Machine.execSessionRekey sess s
  | .keyPhaseOverlapExpiry sess => Sys2Proof.Machine.execKeyPhaseOverlapExpiry sess s
  | .leaseExpiry idx => Sys2Proof.Machine.execLeaseExpiry idx s
  | .orphanHoldEnd idx => Sys2Proof.Machine.execOrphanHoldEnd idx s
  | .combineTimeoutExpiry id => Sys2Proof.Machine.execCombineTimeoutExpiry id s
  | .sweepStart => Sys2Proof.Machine.execSweepStart s
  | .bobbinMoveCommit mv => Sys2Proof.Machine.execBobbinMoveCommit mv s
  | .bobbinMoveAbandon mv checkFailed => Sys2Proof.Machine.execBobbinMoveAbandon mv checkFailed s
  | .doffEnd idx => Sys2Proof.Machine.execDoffEnd idx s
  | .reloadEnd idx => Sys2Proof.Machine.execReloadEnd idx s
  | .damagedDemotion idx layer hg bob => Sys2Proof.Machine.execDamagedDemotion idx layer hg bob s
  | .slotFree tier pbn => Sys2Proof.Machine.execSlotFree tier pbn s
  | .skeinRetirementEnd idx => Sys2Proof.Machine.execSkeinRetirementEnd idx s
  | .prefixShiftComplete => Sys2Proof.Machine.execPrefixShiftComplete s
  | .prefixShadowCompare faults => Sys2Proof.Machine.execPrefixShadowCompare faults s
  | .lentBandChangeComplete => Sys2Proof.Machine.execLentBandChangeComplete s
  | .hostFenceDrain ld => Sys2Proof.Machine.execHostFenceDrain ld s
  | .lentRevokeDrain entry => Sys2Proof.Machine.execLentRevokeDrain entry s
  | .patrolBudgetPeriod bytes errors => Sys2Proof.Machine.execPatrolBudgetPeriod bytes errors s
  | .calibrationStep chan margin restart => Sys2Proof.Machine.execCalibrationStep chan margin restart s
  | .channelSpareCopyComplete stack chan => Sys2Proof.Machine.execChannelSpareCopyComplete stack chan s
  | .channelFailure stack chan => Sys2Proof.Machine.execChannelFailure stack chan s
  | .columnSelfTestComplete spindle failed => Sys2Proof.Machine.execColumnSelfTestComplete spindle failed s
  | .healthRecompute measured => Sys2Proof.Machine.execHealthRecompute measured s
  | .shadowAudit j item lea auditor differing => Sys2Proof.Machine.execShadowAudit j item lea auditor differing s
  | .auditArbiterComplete log arbiter agreesOriginal agreesAuditor => Sys2Proof.Machine.execAuditArbiterComplete log arbiter agreesOriginal agreesAuditor s
  | .mergeStart lb => Sys2Proof.Machine.execMergeStart lb s
  | .mergeComplete lb => Sys2Proof.Machine.execMergeComplete lb s
  | .mergeDestFail lb => Sys2Proof.Machine.execMergeDestFail lb s
  | .creelProgramFail blk => Sys2Proof.Machine.execCreelProgramFail blk s
  | .creelEraseFail blk => Sys2Proof.Machine.execCreelEraseFail blk s
  | .creelEraseComplete blk => Sys2Proof.Machine.execCreelEraseComplete blk s
  | .creelScanComplete bad => Sys2Proof.Machine.execCreelScanComplete bad s
  | .creelPatrolPeriod pages corrected bad => Sys2Proof.Machine.execCreelPatrolPeriod pages corrected bad s
  | .inputMeasurement mv => Sys2Proof.Machine.execInputMeasurement mv s
  | .inputQualified => Sys2Proof.Machine.execInputQualified s
  | .senseBreak => Sys2Proof.Machine.execSenseBreak s
  | .powerCapGovernorStep watts => Sys2Proof.Machine.execPowerCapGovernorStep watts s
  | .sensorThresholdCrossing sensor reading => Sys2Proof.Machine.execSensorThresholdCrossing sensor reading s
  | .hardTrip sensor reading => Sys2Proof.Machine.execHardTrip sensor reading s
  | .hardTripRailsOff => Sys2Proof.Machine.execHardTripRailsOff s
  | .coolantCheck inlet outlet dew => Sys2Proof.Machine.execCoolantCheck inlet outlet dew s
  | .holdEntryComplete => Sys2Proof.Machine.execHoldEntryComplete s
  | .dozeEntryReady => Sys2Proof.Machine.execDozeEntryReady s
  | .dozeSample hottest => Sys2Proof.Machine.execDozeSample hottest s
  | .cxlWakeRequest ld lent off len data => Sys2Proof.Machine.execCxlWakeRequest ld lent off len data s
  | .dozeExitComplete => Sys2Proof.Machine.execDozeExitComplete s
  | .moduleResetNAssert held => Sys2Proof.Machine.execModuleResetNAssert held s
  | .moduleResetNRelease => Sys2Proof.Machine.execModuleResetNRelease s
  | .perstNAssert => Sys2Proof.Machine.execPerstNAssert s
  | .cxlLinkReset => Sys2Proof.Machine.execCxlLinkReset s
  | .ldReset ld => Sys2Proof.Machine.execLdReset ld s
  | .cxlLaneFailure width rate => Sys2Proof.Machine.execCxlLaneFailure width rate s
  | .ideIntegrityFailure ld => Sys2Proof.Machine.execIdeIntegrityFailure ld s
  | .spdmDoeMessage ld msg => Sys2Proof.Machine.execSpdmDoeMessage ld msg s
  | .tspRequest ld req => Sys2Proof.Machine.execTspRequest ld req s
  | .fmApiCommand req => Sys2Proof.Machine.execFmApiCommand req s
  | .commandBoundExpiry m slot => Sys2Proof.Machine.execCommandBoundExpiry m slot s
  | .controlCoreWatchdog core => Sys2Proof.Machine.execControlCoreWatchdog core s
  | .controlCoreRestart core => Sys2Proof.Machine.execControlCoreRestart core s
  | .liveActivationHandoff => Sys2Proof.Machine.execLiveActivationHandoff s
  | .liveActivationBudgetExpiry => Sys2Proof.Machine.execLiveActivationBudgetExpiry s
  | .coldStart rep => Sys2Proof.Machine.execColdStart rep s
  | .skeinRestoration => Sys2Proof.Machine.execSkeinRestoration s
  | .teardownZeroingComplete tid => Sys2Proof.Machine.execTeardownZeroingComplete tid s
  | .batchWindowClose => Sys2Proof.Machine.execBatchWindowClose s
  | .bottomTreeBuilt => Sys2Proof.Machine.execBottomTreeBuilt s
  | .rngHealthFailure test => Sys2Proof.Machine.execRngHealthFailure test s
  | .statusRead => Sys2Proof.Machine.execStatusRead s
  | .pldmRequest ptype item reading => Sys2Proof.Machine.execPldmRequest ptype item reading s
  | .mctpControlRequest assign msg => Sys2Proof.Machine.execMctpControlRequest assign msg s
  | .i3cAddressAssign addr => Sys2Proof.Machine.execI3cAddressAssign addr s
  | .nop => Sys2Proof.Machine.execNop s
  | .endProg => Sys2Proof.Machine.execEndProg s
  | .trap imm => Sys2Proof.Machine.execTrap imm s
  | .brz a offset => Sys2Proof.Machine.execBrz a offset s
  | .brnz a offset => Sys2Proof.Machine.execBrnz a offset s
  | .brany a offset => Sys2Proof.Machine.execBrany a offset s
  | .brnone a offset => Sys2Proof.Machine.execBrnone a offset s
  | .rep length count => Sys2Proof.Machine.execRep length count s
  | .reps a length => Sys2Proof.Machine.execReps a length s
  | .ldk d k => Sys2Proof.Machine.execLdk d k s
  | .ldkx d a => Sys2Proof.Machine.execLdkx d a s
  | .sli d imm => Sys2Proof.Machine.execSli d imm s
  | .sadd d a b => Sys2Proof.Machine.execSadd d a b s
  | .saddi d a imm => Sys2Proof.Machine.execSaddi d a imm s
  | .ssub d a b => Sys2Proof.Machine.execSsub d a b s
  | .smul d a b => Sys2Proof.Machine.execSmul d a b s
  | .sand d a b => Sys2Proof.Machine.execSand d a b s
  | .sor d a b => Sys2Proof.Machine.execSor d a b s
  | .sxor d a b => Sys2Proof.Machine.execSxor d a b s
  | .ssh d a b kind => Sys2Proof.Machine.execSsh d a b kind s
  | .sshi d a kind amount => Sys2Proof.Machine.execSshi d a kind amount s
  | .smin d a b => Sys2Proof.Machine.execSmin d a b s
  | .smax d a b => Sys2Proof.Machine.execSmax d a b s
  | .sminu d a b => Sys2Proof.Machine.execSminu d a b s
  | .smaxu d a b => Sys2Proof.Machine.execSmaxu d a b s
  | .sslt d a b => Sys2Proof.Machine.execSslt d a b s
  | .ssltu d a b => Sys2Proof.Machine.execSsltu d a b s
  | .vadd d a b => Sys2Proof.Machine.execVadd d a b s
  | .vsub d a b => Sys2Proof.Machine.execVsub d a b s
  | .vmul d a b => Sys2Proof.Machine.execVmul d a b s
  | .vdiv d a b => Sys2Proof.Machine.execVdiv d a b s
  | .vmax d a b => Sys2Proof.Machine.execVmax d a b s
  | .vmin d a b => Sys2Proof.Machine.execVmin d a b s
  | .vabs d a => Sys2Proof.Machine.execVabs d a s
  | .vneg d a => Sys2Proof.Machine.execVneg d a s
  | .vexp d a => Sys2Proof.Machine.execVexp d a s
  | .vtanh d a => Sys2Proof.Machine.execVtanh d a s
  | .vsel d a b p => Sys2Proof.Machine.execVsel d a b p s
  | .vldk d k => Sys2Proof.Machine.execVldk d k s
  | .vbcst d a => Sys2Proof.Machine.execVbcst d a s
  | .vbcsti d a => Sys2Proof.Machine.execVbcsti d a s
  | .vlane d => Sys2Proof.Machine.execVlane d s
  | .vext d a lane => Sys2Proof.Machine.execVext d a lane s
  | .vredadd d a p => Sys2Proof.Machine.execVredadd d a p s
  | .vredmax d a p => Sys2Proof.Machine.execVredmax d a p s
  | .pcmp d a b cond => Sys2Proof.Machine.execPcmp d a b cond s
  | .plog d a b op => Sys2Proof.Machine.execPlog d a b op s
  | .pnot d a => Sys2Proof.Machine.execPnot d a s
  | .prange d a b => Sys2Proof.Machine.execPrange d a b s
  | .pcnt d a => Sys2Proof.Machine.execPcnt d a s
  | .perstNRelease width rate flit256 => Sys2Proof.Machine.execPerstNRelease width rate flit256 s
  | .portRetrainComplete port => Sys2Proof.Machine.execPortRetrainComplete port s
  | .lightReturn port => Sys2Proof.Machine.execLightReturn port s
  | .laserFailoverComplete port => Sys2Proof.Machine.execLaserFailoverComplete port s
  | .shaperTokenAccrual tid cls port => Sys2Proof.Machine.execShaperTokenAccrual tid cls port s
  | .msixEnable ld => Sys2Proof.Machine.execMsixEnable ld s
  | .hardTripRestart readings => Sys2Proof.Machine.execHardTripRestart readings s
  | .ppsOutPulse => Sys2Proof.Machine.execPpsOutPulse s
  | .batchWindowOpen => Sys2Proof.Machine.execBatchWindowOpen s

end Sys2Proof.Machine
end

