-- ==== Sys2Proof/Machine/Tick.lean ====
section
/-!
DEFINITION. One nanosecond of an idle module (DESIGN CHOICE, log 1): the fabric count and the oscillator advance, and a slew in
progress takes its next nanosecond where one is due (R482). PPS_OUT falls at its time (R537).
-/
namespace Sys2Proof.Machine

/-- One count of an idle module (R476): the fabric count and the oscillator advance together; a slew of at most 100 ppm
makes the fabric count gain or lose one nanosecond per 10,000 on the oscillator (R482; DESIGN CHOICE, log 1). -/
def State.tick (s : State) : State :=
  let t := { s.time with pps := s.time.pps && decide (s.time.localNow + 1 < s.time.ppsFall) }
  if t.slew ≠ 0 ∧ t.slewAt + 10000 ≤ t.localNow then
    if t.slew > 0 then { s with time := { t with now := t.now + 1, slew := t.slew - 1, slewAt := t.localNow } }
    else { s with time := { t with localNow := t.localNow + 1, slew := t.slew + 1, slewAt := t.localNow } }
  else { s with time := { t with now := t.now + 1, localNow := t.localNow + 1 } }

end Sys2Proof.Machine
end

