-- ==== Sys2Proof/Safety.lean ====
section
/-!
DEFINITION. The terms in which claims speak: the invariant of the module's state, a command's turn at its mailbox, the
answer that ends it, and the shape of a Breus step.
-/
namespace Sys2Proof.Machine

/-- The command of an opcode that is in flight at a mailbox's slot has its turn: nothing holds it back (R388, R389), it
acts under `tag` and passes the checks that come before its own (R551 steps 1 to 3), and the module's state lets it
execute (R400, R525). -/
structure Turn (op m slot : Nat) (s : State) (c : Cmd) (tag : W16) : Prop where
  box : m < 1024
  there : s.fetched? op m slot = some c
  starts : s.startable c = true
  authority : ∃ sp, cmdSpec? op = some sp ∧ s.authority c sp = .ok tag ∧ s.dataCheck c sp tag = .ok ()
  runs : s.executes op = true

/-- The state in which a command has been answered with a status and a result, and the module has fetched what it may
(R381, R384, R387). -/
def State.answered (s : State) (c : Cmd) (st : Nat) (result : List Byte) : State :=
  (s.completeCmd 8 c st 0 0 result).fetchAll

/-- The head entry of a job queue is about to be taken: it is the queue's turn (which a queue behind a wait or a waiting job
never has), the data path works, the slot reads, and no failed wait cancels it (R120, R319, R320, R444). -/
structure AtHead (s : State) (q : Nat) (j : Jq) (e : QEntry) (es : List QEntry) (b : List Byte) : Prop where
  there : tget s.work.jqs q = some j
  turn : s.queueTurn = some q
  awake : s.awake = true
  entries : j.entries = e :: es
  reads : s.entryBad j e = false
  bytes : s.entryBytes j e = b
  goes : j.cancelNext = 0

/-- The state in which the head entry of a job queue has been taken: the turn stands at that queue (R120). -/
def State.popped (s : State) (q : Nat) (es : List QEntry) : State :=
  (s.modWork fun w => { w with rrQueue := q }).modJq q fun j => { j with entries := es, cancelNext := j.cancelNext - 1 }

/-- The registers of an invocation have the shape of R181 and the executed count is within the budget of R187: sixteen
scalars, eight vectors of 64 lanes, four predicates; a running invocation has not trapped. -/
def Inv.shaped (i : Inv) : Bool :=
  i.s.length == 16 && i.v.length == 8 && i.v.all (fun v => v.length == 64) && i.p.length == 4 && decide (i.executed ≤ i.place.budget) &&
    (!i.running || i.trap.isNone)

/-- What every step keeps: memory in its one canonical form, and a Breus invocation of the shape of R181 within R187's
budget. -/
def State.Holds (s : State) : Prop := s.mem.wf = true ∧ s.inv.shaped = true

/-- A Breus instruction whose opcode is `code` stands in the midst of a running invocation: the place accepts it, its budget
is not spent, no body is open, and another word follows (R181, R184–R187). -/
structure InMidst (s : State) (i : Inv) (code : Nat) : Prop where
  here : s.inv = i
  runs : i.running = true
  noTrap : i.trap = none
  accepted : i.place.accepts code = true
  budget : i.executed < i.place.budget
  noBody : i.body = none
  follows : i.pc + 1 < i.codeWords

/-- The state after an instruction that leaves the invocation's registers as `i` has them and goes to the next word. -/
def State.onward (s : State) (i : Inv) : State := { s with inv := { i with pc := i.pc + 1, executed := i.executed + 1 } }

/-- A doorbell of KIND `kind` in Run or Hold, from the page of a mailbox of the writing LD: its effect where the queue of the
mailbox's tenant takes it, DOORBELL_REJECT where none does (R345). -/
def rings (i : Nat → Nat → BitVec 60 → Instr) (ring : State → W16 → Nat → Nat → Option State) : Prop :=
  ∀ (ld m : Nat) (v : BitVec 60) (s : State), ld < 16 → m < 1024 → (s.mbox m).ld = some ld → (s.power.state = .run ∨ s.power.state = .hold) →
    let r := ring s (s.mbox m).tenant (bits 47 16 v.toNat) (bits 15 0 v.toNat)
    (∀ t, bits 59 48 v.toNat = 0 → r = some t → exec (i ld m v) s = .next t) ∧
    ((bits 59 48 v.toNat ≠ 0 ∨ r = none) → exec (i ld m v) s = .next (s.setFlag Flag.doorbellReject))

end Sys2Proof.Machine
end

