-- ==== Sys2Proof/Certificates/Slice0/Obligations.lean ====
section
/-! DEFINITION. The statements for the provers. Each claim is a Prop of its own under Claims; an obligation is a
conjunction of the claims about one family of commands or one kind of state. A claim about a command in a mailbox slot
assumes Turn: the command has been fetched into that slot and the power state lets it run. -/

namespace Sys2Proof.Machine

/-! ## Module and tenant commands (R401–R403) -/

/-- GET_INTERFACE_VERSION answers with level 1.0 twice and no capability (R385). -/
def Claims.GetInterfaceVersion : Prop := ∀ (m slot : Nat) (s : State) (c : Cmd) (tag : W16), Turn 0x0100 m slot s c tag →
  exec (.getInterfaceVersion m slot) s = .next (s.answered c St.ok ([0x00, 0x01, 0x00, 0x01] ++ List.replicate 12 0))

/-- SET_INTERFACE_VERSION with 1.0 and no other command of its mailbox in flight sets the level; another level is refused
with ST_VERSION_UNSUPPORTED (R385). -/
def Claims.SetInterfaceVersion : Prop := ∀ (m slot : Nat) (s : State) (c : Cmd) (tag : W16), Turn 0x0101 m slot s c tag →
  (c.param 0 2 = 0x0100 → s.inflightOf c.mb = 1 →
    exec (.setInterfaceVersion m slot) s = .next ((s.modMbox c.mb fun b => { b with level := 0x0100 }).answered c St.ok [])) ∧
  (c.param 0 2 ≠ 0x0100 → exec (.setInterfaceVersion m slot) s = .next (s.answered c St.versionUnsupported []))

/-- MODULE_INFO changes nothing and gives the NODE_ID, the units in service and the SVN (R401). -/
def Claims.ModuleInfo : Prop := ∀ (m slot : Nat) (s : State) (c : Cmd) (tag : W16), Turn 0x0102 m slot s c tag →
  exec (.moduleInfo m slot) s = .next (s.answered c St.ok (toLe 2 (s.cfg.nodeId.getD 0xFFFF) ++ toLe 1 s.spindlesInService ++
    toLe 1 s.portsUp ++ toLe 1 s.stacksUp ++ zeros 3 ++ toLe 4 s.boot.svn.toNat))

/-- MODULE_CONFIGURE sets the item and answers with its previous value (R402): NODE_ID and MAC_PREFIX without sessions,
ADMIN_LD, TABLE_SLOTS, the pool marks in their order, ORPHAN_HOLD and KEY_ROTATION; a change of LENT_GIB stays open until
the band has changed hands (R238), and one that comes while another is open waits for it (the model's reading, log 16). -/
def Claims.ModuleConfigure : Prop := ∀ (m slot : Nat) (s : State) (c : Cmd) (tag : W16), Turn 0x0103 m slot s c tag →
  let v := c.param 8 8
  let item := c.param 0 2
  (item = 1 → v < 1024 → s.flyer.sessions = [] → exec (.moduleConfigure m slot) s =
    .next ((s.modCfg fun k => { k with nodeId := some v }).answered c St.ok (toLe 8 (s.cfg.nodeId.getD 0xFFFF)))) ∧
  (item = 2 → v < 2 ^ 24 → s.flyer.sessions = [] → exec (.moduleConfigure m slot) s =
    .next ((s.modCfg fun k => { k with macPrefix := BitVec.ofNat 24 v }).answered c St.ok (toLe 8 s.cfg.macPrefix.toNat))) ∧
  (item = 3 → v < 16 → (s.ld v).bound = true → exec (.moduleConfigure m slot) s =
    .next ((({ s.writeResponse c St.ok 0 0 (toLe 8 s.cfg.adminLd) with
      box := { (s.writeResponse c St.ok 0 0 (toLe 8 s.cfg.adminLd)).box with
        inflight := (s.writeResponse c St.ok 0 0 (toLe 8 s.cfg.adminLd)).box.inflight.filter fun d => d.seq != c.seq } }.modCfg
          fun k => { k with adminLd := v }).modMbox 0 fun b => { b with ld := some v }).commitCmd c).fetchAll) ∧
  (item = 4 → 64 ≤ v → v ≤ 896 → s.tableMoveBusy v = false → exec (.moduleConfigure m slot) s =
    .next ((s.modCfg fun k => { k with tableSlots := v }).answered c St.ok (toLe 8 s.cfg.tableSlots))) ∧
  (item = 5 → v < 2 ^ 40 → bits 9 0 v < bits 19 10 v → bits 19 10 v < bits 29 20 v → bits 29 20 v < bits 39 30 v →
    let t := s.modCfg fun k => { k with evictStop := bits 39 30 v, evictStart := bits 29 20 v, lowWater := bits 19 10 v, reserve := bits 9 0 v }
    exec (.moduleConfigure m slot) s =
      .next ((if s.belowLow = false ∧ t.belowLow = true then t.setFlag Flag.lowWaterHit else t).answered c St.ok (toLe 8 s.cfg.marks))) ∧
  (item = 6 → v ≤ 512 → s.store.lentWaiter.isSome = true → exec (.moduleConfigure m slot) s =
    .next (((s.modStore fun t => { t with lentNext := t.lentNext ++ [(c.ref, v)] }).commitCmd c).fetchAll)) ∧
  (item = 6 → v ≤ 512 → s.store.lentWaiter = none → v = s.cfg.lentGib → exec (.moduleConfigure m slot) s = .next (s.answered c St.ok (toLe 8 v))) ∧
  (item = 6 → v < s.cfg.lentGib → v ≤ 512 → s.store.lentWaiter = none → s.lentCovered 0 ((s.cfg.lentGib - v) * 2 ^ 30) = false →
    exec (.moduleConfigure m slot) s = .next (((s.lentBegin c.ref v).commitCmd c).fetchAll)) ∧
  (item = 6 → s.cfg.lentGib < v → v ≤ 512 → s.store.lentWaiter = none →
    let pool := s.store.poolSlots - (v - s.cfg.lentGib) * 16384
    s.store.dramUsed.length ≤ pool → s.cfg.lowWater * pool ≤ (pool - s.store.dramUsed.length) * 1024 →
    exec (.moduleConfigure m slot) s = .next (((s.lentBegin c.ref v).commitCmd c).fetchAll)) ∧
  (item = 7 → 1 ≤ v → v ≤ 600000 → exec (.moduleConfigure m slot) s =
    .next ((s.modCfg fun k => { k with orphanHold := v }).answered c St.ok (toLe 8 s.cfg.orphanHold))) ∧
  (item = 8 → 60 ≤ v → v ≤ 604800 → exec (.moduleConfigure m slot) s =
    .next ((s.modCfg fun k => { k with keyRotation := v }).answered c St.ok (toLe 8 s.cfg.keyRotation)))

/-- LD_CONFIGURE assigns mailboxes 1 to 1,023 to an LD or, with 0xFF, to none; a bound mailbox with an LD is ACTIVE, and
one made ACTIVE speaks 1.0 (R340, R376, R385). -/
def Claims.LdConfigure : Prop := ∀ (m slot : Nat) (s : State) (c : Cmd) (tag : W16), Turn 0x0104 m slot s c tag →
  let b := s.mbox (c.param 0 2)
  let towards := if c.param 2 1 = 0xFF then none else some (c.param 2 1)
  1 ≤ c.param 0 2 → c.param 0 2 ≤ 1023 → (c.param 2 1 ≤ 15 ∨ c.param 2 1 = 0xFF) → s.ldLocked b.ld = false → s.ldLocked towards = false →
  (b.state = .draining → exec (.ldConfigure m slot) s = .next ((s.setMbox (c.param 0 2) { b with ld := towards }).answered c St.ok [])) ∧
  (b.state ≠ .draining → b.bound = true → c.param 2 1 ≤ 15 → exec (.ldConfigure m slot) s =
    .next ((s.setMbox (c.param 0 2) { b with ld := towards, state := .active, level := if b.state = .active then b.level else 0x0100 }).answered
      c St.ok [])) ∧
  (b.state ≠ .draining → (b.bound = false ∨ c.param 2 1 = 0xFF) → exec (.ldConfigure m slot) s =
    .next ((s.setMbox (c.param 0 2) { b with ld := towards, state := .disabled }).answered c St.ok []))

/-- MAILBOX_BIND gives a DISABLED mailbox its tenant, its rings and DEPTH, charges their slots, and makes it ACTIVE where
it has an LD (R374, R376, R377); for mailbox 0 it replaces the rings and answers in the old completion ring. -/
def Claims.MailboxBind : Prop := ∀ (m slot : Nat) (s : State) (c : Cmd) (tag : W16), Turn 0x0105 m slot s c tag →
  let k := c.param 0 2
  let depth := c.param 2 2
  pow2In 16 4096 depth = true → c.param 4 1 < 2 → k ≤ 1023 →
  (∀ sq ws s1 cq wc s2, k ≠ 0 → (s.tenant? c.tenantField).isSome = true → (s.mbox k).bound = false → (s.mbox k).state = .disabled →
    s.dramNeed c.tenantField (slotsFor (depth * 64) + slotsFor (depth * 32)) = .ok () →
    s.newRing k c.tenantField (depth * 64) = .ok (sq, ws, s1) → s1.newRing k c.tenantField (depth * 32) = .ok (cq, wc, s2) →
    exec (.mailboxBind m slot) s = .next ((s2.setMbox k
      { ld := (s.mbox k).ld, ring := (s.mbox k).ring, evWritten := (s.mbox k).evWritten, evRead := (s.mbox k).evRead,
        eventHead := (s.mbox k).eventHead, bound := true, tenant := c.tenantField, depth, events := bit 0 (c.param 4 1),
        sqArea := sq, cqArea := cq, state := if (s.mbox k).ld.isSome then .active else .disabled }).answered c St.ok
          (toLe 8 ws ++ toLe 8 wc))) ∧
  (∀ sq cq ws wc s1 s2 s3 s4, k = 0 → c.tenantField = 0 → s.inflightOf 0 = 1 → s.takeSlots (slotsFor (depth * 64)) = some (sq, s1) →
    s1.takeSlots (slotsFor (depth * 32)) = some (cq, s2) → s2.mapArea 0 none sq = some (ws, s3) → s3.mapArea 0 none cq = some (wc, s4) →
    let s5 := s4.writeResponse c St.ok 0 0 (toLe 8 ws ++ toLe 8 wc)
    exec (.mailboxBind m slot) s = .next ((((({ s5 with box := { s5.box with inflight := s5.box.inflight.filter fun d => d.seq != c.seq } }.dropArea
      (s.mbox 0).sqArea).dropArea (s.mbox 0).cqArea).modMbox 0 fun b =>
        { b with depth, sqArea := sq, cqArea := cq, cqBase := 0, sqHead := 0, sqTail := 0, cqHead := 0, cqWritten := 0, cqRead := 0 }).commitCmd
          c).fetchAll))

/-- MAILBOX_UNBIND drains a bound mailbox; with ABORT the commands before their commit points end with ST_ABORTED, and the
command itself ends with the mailbox's last one (R376). -/
def Claims.MailboxUnbind : Prop := ∀ (m slot : Nat) (s : State) (c : Cmd) (tag : W16), Turn 0x0106 m slot s c tag →
  let k := c.param 0 2
  c.param 2 1 < 2 → 1 ≤ k → k ≤ 1023 → (s.mbox k).bound = true → exec (.mailboxUnbind m slot) s =
    .next (((s.unbind k (bit 0 (c.param 2 1)) (some c.ref)).commitCmd c).fetchAll)

/-- TENANT_CREATE makes the ID live under its next generation, with the quotas of the command, no use, and three fresh keys;
the key store and the tenant record are written, and the answer is the full tenant field (R403, R435, R436, R514). -/
def Claims.TenantCreate : Prop := ∀ (m slot : Nat) (s : State) (c : Cmd) (tag : W16), Turn 0x0200 m slot s c tag →
  let id := c.tenantField.toNat
  let old := (tget s.tenants id).getD {}
  let quota := (List.range 8).map fun k => c.param (4 * k) 4
  id < 4096 → (∀ k, k < 8 → c.param (4 * k) 4 ≤ quotaMax k) → old.live = false → s.sec.rngFailed = false →
  exec (.tenantCreate m slot) s =
    .next (({ s with
      tenants := tset s.tenants id { gen := nextGen 15 old.gen, live := true, quota, telePos := s.flyer.tele.written,
                                     dramKey := true, lentKey := true, creelKey := true } }).writeKeyStore.writeTenants.answered
        c St.ok (toLe 2 (nextGen 15 old.gen * 4096 + id)))

/-- QUOTA_SET sets one quota of the tenant within its limit, writes the tenant record, and answers with the tenant's present use (R225, R403, R514). -/
def Claims.QuotaSet : Prop := ∀ (m slot : Nat) (s : State) (c : Cmd) (tag : W16), Turn 0x0202 m slot s c tag →
  let q := c.param 0 1
  q ≤ 7 → c.param 4 4 ≤ quotaMax q → exec (.quotaSet m slot) s =
    .next ((s.modTenant tag fun t => { t with quota := t.quota.set q (c.param 4 4) }).writeTenants.answered c St.ok (toLe 4 (s.useOf tag q)))

/-- TENANT_INFO writes each quota and its use into a buffer of 64 bytes or more (R403). -/
def Claims.TenantInfo : Prop := ∀ (m slot : Nat) (s : State) (c : Cmd) (tag : W16), Turn 0x0203 m slot s c tag →
  64 ≤ c.dataLen → exec (.tenantInfo m slot) s =
    .next ((s.windowWrite c.ld c.dataOff
      (((List.range 8).flatMap fun k => toLe 4 (s.quotaOf tag k) ++ toLe 4 (s.useOf tag k)).take c.dataLen)).answered c St.ok [])

/-! ## Queue and trigger commands (R407) -/

/-- CQ_CREATE makes an empty completion queue over a ring of a power of two of entries, charged to the tenant (R303). -/
def Claims.CqCreate : Prop := ∀ (m slot : Nat) (s s1 s2 : State) (c : Cmd) (tag : W16) (a : Area) (w i : Nat),
  Turn 0x0500 m slot s c tag → pow2In 16 65536 (c.param 0 4) = true →
  s.newRing c.mb tag (c.param 0 4 * 32) = .ok (a, w, s1) → s1.pick s.work.cqs 65536 = some (i, s2) →
  exec (.cqCreate m slot) s = .next ((s2.modWork fun k =>
    { k with cqs := tset k.cqs i { tenant := tag, entries := c.param 0 4, area := a } }).answered c St.ok (toLe 2 i ++ zeros 6 ++ toLe 8 w))

/-- CQ_DESTROY of a queue that no other names frees its ring and credits it; of one that is named it is refused with
ST_RANGE_IN_USE (R407). -/
def Claims.CqDestroy : Prop := ∀ (m slot : Nat) (s : State) (c : Cmd) (tag : W16) (q : Cq), Turn 0x0501 m slot s c tag →
  s.cqFor tag (c.param 0 2) = some q →
  (s.cqNamed (c.param 0 2) = false → exec (.cqDestroy m slot) s = .next ((((s.dropArea q.area).credit tag qDram q.area.length).dropCq
    (c.param 0 2)).answered c St.ok [])) ∧
  (s.cqNamed (c.param 0 2) = true → exec (.cqDestroy m slot) s = .next (s.answered c St.rangeInUse []))

/-- JOB_QUEUE_CREATE makes an empty job queue over a completion queue of the tenant; an ADMIT_WAIT of 0 stands for 20 ms
(R119, R407). -/
def Claims.JobQueueCreate : Prop := ∀ (m slot : Nat) (s s1 s2 : State) (c : Cmd) (tag : W16) (a : Area) (w i : Nat),
  Turn 0x0502 m slot s c tag → (s.cqFor tag (c.param 4 2)).isSome = true → pow2In 16 65536 (c.param 0 4) = true →
  c.param 8 4 ≤ 1000000 → s.newRing c.mb tag (c.param 0 4 * 128) = .ok (a, w, s1) → s1.pick s.work.jqs 65536 = some (i, s2) →
  let q : Jq :=
    { tenant := tag, depth := c.param 0 4, cq := c.param 4 2, admitWait := if c.param 8 4 = 0 then 20000 else c.param 8 4, area := a }
  exec (.jobQueueCreate m slot) s =
    .next ((s2.modWork fun k => { k with jqs := tset k.jqs i q }).answered c St.ok (toLe 2 i ++ zeros 6 ++ toLe 8 w))

/-- JOB_QUEUE_DESTROY cancels what is not admitted, frees the ring, and answers when no admitted entry is left (R407). -/
def Claims.JobQueueDestroy : Prop := ∀ (m slot : Nat) (s : State) (c : Cmd) (tag : W16), Turn 0x0503 m slot s c tag →
  (s.jqFor tag (c.param 0 2)).isSome = true →
  (∀ r t, (s.destroyJq (c.param 0 2) (some c.ref)).endQueue (c.param 0 2) = (some r, t) →
    exec (.jobQueueDestroy m slot) s = .next (t.answered c St.ok [])) ∧
  (∀ t, (s.destroyJq (c.param 0 2) (some c.ref)).endQueue (c.param 0 2) = (none, t) →
    exec (.jobQueueDestroy m slot) s = .next (t.commitCmd c).fetchAll)

/-- JOB_CANCEL cancels the queue's unadmitted entries of a TAG and answers with their number (R407). -/
def Claims.JobCancel : Prop := ∀ (m slot : Nat) (s t : State) (c : Cmd) (tag : W16) (n : Nat), Turn 0x0504 m slot s c tag →
  (s.jqFor tag (c.param 0 2)).isSome = true →
  s.cancelIn (c.param 0 2) (fun b => field b 8 8 == c.param 8 8) (fun g => g.toNat == c.param 8 8) true St.cancelled = (n, t) →
  exec (.jobCancel m slot) s = .next (t.answered c St.ok (toLe 4 n))

/-- COMBINE_RELEASE ends a combine context of the tenant with ST_CANCELLED (R407). -/
def Claims.CombineRelease : Prop := ∀ (m slot : Nat) (s : State) (c : Cmd) (tag : W16) (k : Combine), Turn 0x0505 m slot s c tag →
  tget s.work.combines (c.param 0 2) = some k → k.tenant = tag →
  exec (.combineRelease m slot) s = .next (((s.releaseCombine (c.param 0 2) St.cancelled).answerQueue k.queue).answered c St.ok [])

/-- QUEUE_STATUS gives the completed and failed counts of a job queue or of a connection's send queue (R318). -/
def Claims.QueueStatus : Prop := ∀ (m slot : Nat) (s : State) (c : Cmd) (tag : W16), Turn 0x0506 m slot s c tag →
  (∀ q, c.param 0 1 = 1 → c.param 4 4 < 65536 → s.jqFor tag (c.param 4 4) = some q →
    exec (.queueStatus m slot) s = .next (s.answered c St.ok (toLe 8 q.completed ++ toLe 8 q.failed))) ∧
  (∀ i k, c.param 0 1 = 2 → s.connFor tag (BitVec.ofNat 32 (c.param 4 4)) = some (i, k) →
    exec (.queueStatus m slot) s = .next (s.answered c St.ok (toLe 8 k.completed ++ toLe 8 k.failed)))

/-- TRIGGER_LIST_CREATE makes an empty list over a posting ring, with slabs behind ENTRY_STORE and STAGING (R305). -/
def Claims.TriggerListCreate : Prop := ∀ (m slot : Nat) (s s1 s2 s3 s4 : State) (c : Cmd) (tag : W16) (a sl sg : Area) (w i : Nat),
  Turn 0x0507 m slot s c tag →
  let store := c.param 0 2
  let staging := c.param 2 2
  let depth := c.param 4 2
  1 ≤ store → store ≤ 1024 → 1 ≤ staging → staging ≤ 4096 → pow2In 16 4096 depth = true →
  s.dramNeed tag (store + staging + slotsFor (depth * 640)) = .ok () → s.newRing c.mb tag (depth * 640) = .ok (a, w, s1) →
  s1.takeSlabs tag store = .ok (sl, s2) → s2.takeSlabs tag staging = .ok (sg, s3) → s3.pick s.work.lists 16384 = some (i, s4) →
  let l : TrigList := { tenant := tag, store, staging, ringDepth := depth, area := a, storeSlabs := sl, stagingSlabs := sg }
  exec (.triggerListCreate m slot) s =
    .next ((s4.modWork fun k => { k with lists := tset k.lists i l }).answered c St.ok (toLe 2 i ++ zeros 6 ++ toLe 8 w))

/-- TRIGGER_LIST_DESTROY ends a list of the tenant (R317, R407). -/
def Claims.TriggerListDestroy : Prop := ∀ (m slot : Nat) (s : State) (c : Cmd) (tag : W16), Turn 0x0508 m slot s c tag →
  (s.listFor tag (c.param 0 2)).isSome = true → exec (.triggerListDestroy m slot) s = .next ((s.destroyList (c.param 0 2)).answered c St.ok [])

/-- TRIGGER_POST posts the entry in the data buffer and answers with its handle (R309, R407). -/
def Claims.TriggerPost : Prop := ∀ (m slot : Nat) (s t : State) (c : Cmd) (tag : W16) (l : TrigList) (e : W32), Turn 0x0509 m slot s c tag →
  s.listFor tag (c.param 0 2) = some l →
  s.postEntry (c.param 0 2) l (padTo 576 ((s.windowRead c.ld c.dataOff c.dataLen).take 576)) (some c.dataLen) = .ok (e, t) →
  exec (.triggerPost m slot) s = .next (t.answered c St.ok (toLe 4 e.toNat))

/-- TRIGGER_CANCEL removes an entry of the tenant (R317). -/
def Claims.TriggerCancel : Prop := ∀ (m slot : Nat) (s : State) (c : Cmd) (tag : W16) (e : TrigEntry) (l : TrigList),
  Turn 0x050A m slot s c tag →
  let h := BitVec.ofNat 32 (c.param 0 4)
  tget s.work.entries (trIndex h) = some e → e.handle = h → tget s.work.lists e.list = some l → l.tenant = tag →
  exec (.triggerCancel m slot) s = .next ((s.removeEntry (trIndex h) St.cancelled).answered c St.ok [])
/-- TRIGGER_RESUME makes a HALTED entry ready again, and one that is not HALTED is refused with ST_WRONG_STATE (R316). -/
def Claims.TriggerResume : Prop := ∀ (m slot : Nat) (s : State) (c : Cmd) (tag : W16) (e : TrigEntry) (l : TrigList),
  Turn 0x050B m slot s c tag →
  let h := BitVec.ofNat 32 (c.param 0 4)
  tget s.work.entries (trIndex h) = some e → e.handle = h → tget s.work.lists e.list = some l → l.tenant = tag →
  (e.halted = true → exec (.triggerResume m slot) s =
    .next ((s.modWork fun w => { w with entries := tset w.entries (trIndex h) { e with halted := false } }).answered c St.ok [])) ∧
  (e.halted = false → exec (.triggerResume m slot) s = .next (s.answered c St.wrongState []))

/-! ## Skeins, leases, programs and tables (R404–R406) -/

/-- SKEIN_CREATE makes an ACTIVE skein with the geometry of the command, its root table in one slab, and a lease word of
zero; its tenant is charged one skein and one slot, and the answer gives the handle and C (R30, R33, R69, R405). -/
def Claims.SkeinCreate : Prop := ∀ (m slot : Nat) (s s1 s2 : State) (c : Cmd) (tag : W16) (idx : Nat) (slab : Area), Turn 0x0300 m slot s c tag →
  let layers := c.param 0 2
  let heads := c.param 2 2
  let el := c.param 4 2
  let fmt := c.param 6 1
  let slubMax := c.param 7 1
  let slubShift := c.param 8 1
  let opt := c.param 9 1
  let prog := c.param 10 1
  fmt < 12 → opt < 16 → (bit 3 opt = true ∨ prog = 0) → (bit 3 opt = true → bit 0 opt = true) → (bit 0 opt = true → el ≤ 512) →
  (bit 3 opt = true → ∃ p, tget s.images.whorl prog = some p ∧ p.bound.contains tag = true) →
  1 ≤ layers → layers ≤ 256 → 1 ≤ heads → heads ≤ 256 → 32 ≤ el → el ≤ 1024 → el % fmtGroup fmt = 0 →
  (slubMax ≤ 8 ∨ slubMax = 0xFF) → slubShift ≤ 7 → 10 ≤ c.param 14 2 → c.param 14 2 ≤ 10000 →
  s.overQuota tag qSkein 1 = false → s.dramNeed tag 1 = .ok () →
  s.takeSkeinIndex = some (idx, s1) → s1.takeSlots 1 = some (slab, s2) →
  let h := skHandle (s2.store.skeinPool.gen idx) idx
  exec (.skeinCreate m slot) s = .next ((((s2.setSkein idx
    { handle := h, tenant := tag, layers, heads, elements := el, format := fmt, cap := capacity el fmt,
      slubMax := if slubMax = 0xFF then 8 else slubMax, slubShift := if slubShift = 0 then 3 else slubShift,
      sketch := bit 0 opt, prefixHash := bit 1 opt, orphanRelease := bit 2 opt,
      sketchProgram := if bit 3 opt then some prog else none, hint := c.param 11 1, modelId := BitVec.ofNat 16 (c.param 12 2),
      leaseMs := c.param 14 2, tableSlabs := slab, lastJob := s.time.localNow }).charge tag qSkein 1).charge tag qDram 1).answered
        c St.ok (toLe 4 h.toNat ++ toLe 2 (capacity el fmt)))

/-- SKEIN_DESTROY retires a skein of the tenant (R51). -/
def Claims.SkeinDestroy : Prop := ∀ (m slot : Nat) (s : State) (c : Cmd) (tag : W16) (k : Skein), Turn 0x0301 m slot s c tag →
  let h := BitVec.ofNat 32 (c.param 0 4)
  s.skeinOf tag h = .ok k → exec (.skeinDestroy m slot) s = .next ((s.killSkein (skIndex h)).releaseHeld.runTier.answered c St.ok [])

/-- SKEIN_INFO gives STATE, residency, C and the lease word, and the row lengths into a buffer that holds them (R404). -/
def Claims.SkeinInfo : Prop := ∀ (m slot : Nat) (s : State) (c : Cmd) (tag : W16) (k : Skein), Turn 0x0302 m slot s c tag →
  let res := toLe 1 k.state.code ++ toLe 1 k.residency ++ zeros 2 ++ toLe 2 k.cap ++ zeros 2 ++ toLe 8 k.lease.toNat
  s.skeinOf tag (BitVec.ofNat 32 (c.param 0 4)) = .ok k →
  (c.dataLen = 0 → exec (.skeinInfo m slot) s = .next (s.answered c St.ok res)) ∧
  (c.dataLen ≠ 0 → 4 * (k.layers * k.heads) ≤ c.dataLen → exec (.skeinInfo m slot) s = .next
    ((s.windowWrite c.ld c.dataOff ((k.rows.flatMap fun r => toLe 4 (k.rowLength r)).take c.dataLen)).answered c St.ok res))

/-- SKEIN_SET_HINT leaves a hint for the next sweep (R404). -/
def Claims.SkeinSetHint : Prop := ∀ (m slot : Nat) (s : State) (c : Cmd) (tag : W16) (k : Skein), Turn 0x0303 m slot s c tag →
  let h := BitVec.ofNat 32 (c.param 0 4)
  s.skeinOf tag h = .ok k → exec (.skeinSetHint m slot) s =
    .next ((s.modSkein (skIndex h) fun k => { k with nextHint := some (c.param 4 1) }).answered c St.ok [])

/-- LEASE_SWAP compares and swaps the lease word, and answers with its prior value and whether it swapped (R149); a swap
that the lease rules forbid is refused with ST_VERSION_CONFLICT (R150). -/
def Claims.LeaseSwap : Prop := ∀ (m slot : Nat) (s : State) (c : Cmd) (tag : W16) (k : Skein), Turn 0x0304 m slot s c tag →
  let h := BitVec.ofNat 32 (c.param 0 4)
  let swap := s.swapLease (skIndex h) (BitVec.ofNat 64 (c.param 8 8)) (BitVec.ofNat 64 (c.param 16 8))
  s.skeinOf tag h = .ok k →
  (∀ prior done t, swap = some (prior, done, t) →
    exec (.leaseSwap m slot) s = .next (t.answered c St.ok (toLe 8 prior.toNat ++ [if done then 1 else 0]))) ∧
  (swap = none → exec (.leaseSwap m slot) s = .next (s.answered c St.versionConflict []))

/-- PROGRAM_LOAD of a valid image (R195, R196): a tier-engine image that none waits before waits for the next sweep; a score or whorl image that
the store already holds by its digest gains the tenant's binding; another takes a free slot of the store (R197, R198). -/
def Claims.ProgramLoad : Prop := ∀ (m slot : Nat) (s : State) (c : Cmd) (tag : W16) (p : Place), Turn 0x0400 m slot s c tag →
  let img := s.windowRead c.ld c.dataOff c.dataLen
  let cw := field img 6 2
  let kw := field img 8 2
  let ws := wordsOf ((img.drop 64).take (4 * (cw + kw)))
  let code := ws.take cw
  let consts := ws.drop cw
  let digest := img.drop (img.length - 48)
  let prog : Prog := { version := BitVec.ofNat 32 (field img 12 4), code, consts, digest, bound := [tag] }
  let result := fun (i : Nat) => toLe 1 i ++ zeros 3 ++ toLe 4 (worstCount code) ++ digest.take 8
  field img 0 4 = 0x55455242 → field img 4 1 = 1 → placeOf (field img 5 1) = some p → zeroIn img 10 2 = true → zeroIn img 16 48 = true →
  1 ≤ cw → kw ≤ 256 → cw + kw ≤ p.words → img.length = 112 + 4 * (cw + kw) → sha384 (img.take (img.length - 48)) = digest →
  programCheck p code consts = none →
  (p = .tier → c.mb = 0 → c.tenantField = 0 → s.images.tierNext.bind id = none → ((s.images.tier.map fun t => t.code.length + t.consts.length).getD 0) + cw + kw ≤ p.words →
    exec (.programLoad m slot) s =
      .next ({ s with images := { s.images with tierNext := some (some { prog with bound := [] }) } }.answered c St.ok (result 0))) ∧
  (∀ e, p ≠ .tier → (c.mb = 0 → (s.tenant? c.tenantField).isSome = true) →
    ((s.images.store p).find? fun e => e.2.digest == digest && !e.2.bound.isEmpty) = some e → exec (.programLoad m slot) s =
      .next ((s.setStore p (tset (s.images.store p) e.1
        { e.2 with bound := if e.2.bound.contains tag then e.2.bound else e.2.bound ++ [tag] })).answered c St.ok (result e.1))) ∧
  (p ≠ .tier → (c.mb = 0 → (s.tenant? c.tenantField).isSome = true) →
    ((s.images.store p).find? fun e => e.2.digest == digest && !e.2.bound.isEmpty) = none → storeUsed (s.images.store p) + cw + kw ≤ p.words →
    (c.param 0 1 < p.slots → thas (s.images.store p) (c.param 0 1) = false → exec (.programLoad m slot) s =
      .next ((s.setStore p (tset (s.images.store p) (c.param 0 1) prog)).answered c St.ok (result (c.param 0 1)))) ∧
    (∀ i t, c.param 0 1 = 0xFF → s.pick (s.images.store p) p.slots = some (i, t) → exec (.programLoad m slot) s =
      .next ((t.setStore p (tset (s.images.store p) i prog)).answered c St.ok (result i))))

/-- PROGRAM_UNLOAD removes the tenant's binding of a score or whorl image, or has the tier engine unload its image at the
next sweep; a sketch program in use is refused with ST_PROGRAM_IN_USE (R197, R198). -/
def Claims.ProgramUnload : Prop := ∀ (m slot : Nat) (s : State) (c : Cmd) (tag : W16), Turn 0x0401 m slot s c tag →
  (c.param 0 1 = 3 → c.mb = 0 → c.tenantField = 0 → c.param 1 1 = 0 → (s.images.tier.isSome || s.images.tierNext.isSome) = true →
    exec (.programUnload m slot) s = .next ({ s with images := { s.images with tierNext := some none } }.answered c St.ok [])) ∧
  (∀ p e, placeOf (c.param 0 1) = some p → p ≠ .tier → (c.mb = 0 → (s.tenant? c.tenantField).isSome = true) →
    tget (s.images.store p) (c.param 1 1) = some e → e.bound.contains tag = true →
    let used := s.store.skeins.any fun k => k.2.tenant == tag && k.2.state != .retiring && k.2.sketchProgram == some (c.param 1 1)
    ((p = .score ∨ used = false) → exec (.programUnload m slot) s =
      .next ((s.setStore p (unbindProg (s.images.store p) (c.param 1 1) tag)).answered c St.ok [])) ∧
    (p = .whorl → used = true → exec (.programUnload m slot) s = .next (s.answered c St.programInUse [])))

/-- TABLE_LOAD takes a free index and the lowest free slots of the table area for a valid image, and charges its leas
(R78, R112, R406). -/
def Claims.TableLoad : Prop := ∀ (m slot : Nat) (s t : State) (c : Cmd) (tag : W16) (i : Nat) (slots : List Nat), Turn 0x0402 m slot s c tag →
  let img := s.windowRead c.ld c.dataOff c.dataLen
  let kind := c.param 0 1
  let leas := (img.length + 16383) / 16384
  let digest := sha384 img
  64 ≤ img.length → (kind = 1 → rescaleCheck img = .ok ()) → (kind = 2 → upProjectionCheck img = .ok ()) → (kind = 1 ∨ kind = 2) →
  s.overQuota tag qSram leas = false → s.pick s.images.tables 4096 = some (i, t) → t.tableSpace (slotsFor img.length) = some slots →
  let x : TableImg :=
    { kind, tenant := tag, version := BitVec.ofNat 32 (if kind = 1 then field img 4 4 else field img 16 4), image := img, digest, leas, slots }
  exec (.tableLoad m slot) s = .next (({ t with images := { t.images with tables := tset t.images.tables i x } }.charge tag qSram leas).answered
    c St.ok (toLe 2 i ++ zeros 2 ++ toLe 4 leas ++ digest.take 8))

/-- TABLE_UNLOAD credits the leas at once; the space goes when no job holds the table (R406). -/
def Claims.TableUnload : Prop := ∀ (m slot : Nat) (s : State) (c : Cmd) (tag : W16) (t : TableImg), Turn 0x0403 m slot s c tag →
  s.tableFor tag (c.param 0 2) = some t → exec (.tableUnload m slot) s =
    .next (({ s with images := { s.images with tables := sweepTables (tset s.images.tables (c.param 0 2) { t with unloaded := true }) } }.credit
      tag qSram t.leas).answered c St.ok [])

/-! ## Flyer commands (R408, R409) -/

/-- CONN_CREATE makes a READY connection to the peer of a session, over one to four paths, with its send queue and receive
slabs; RETRY_LIMIT 0 stands for 7 and ACK_TIMEOUT 0 for 50 (R281, R409). -/
def Claims.ConnCreate : Prop := ∀ (m slot : Nat) (s s1 s2 : State) (c : Cmd) (tag : W16) (paths : List (Nat × Nat)) (ses : Session)
  (i w : Nat) (pool : Pool) (a rxArea : Area), Turn 0x0600 m slot s c tag →
  let peer := c.param 0 2
  let depth := c.param 20 2
  let rx := c.param 22 2
  let retry := c.param 18 1
  let ack := c.param 28 2
  let srq := c.param 24 2
  pathsOf ((List.range 4).map fun i => c.param (8 + 2 * i) 2) = some paths → tget s.flyer.sessions (c.param 2 2) = some ses → ses.peer = peer →
  (srq = 0xFFFF ∨ (s.srqFor tag srq).isSome = true) → (s.cqFor tag (c.param 26 2)).isSome = true → peer ≤ 1023 → c.param 16 1 ≤ 7 → retry ≤ 15 →
  pow2In 16 4096 depth = true → 1 ≤ rx → rx ≤ 1024 → (ack = 0 ∨ 10 ≤ ack ∧ ack ≤ 10000) →
  (s.shaper (tidOf tag) (c.param 16 1)).permitted = true → s.overQuota tag qConn 1 = false →
  s.dramNeed tag (rx + slotsFor (depth * 64)) = .ok () → s.flyer.connPool.take 262144 = some (i, pool) →
  s.newRing c.mb tag (depth * 64) = .ok (a, w, s1) → s1.takeSlabs tag rx = .ok (rxArea, s2) →
  let h := rcHandle (pool.gen i) i
  let k : Conn :=
    { handle := h, tenant := tag, sess := c.param 2 2, peerNode := peer, peerConn := BitVec.ofNat 32 (c.param 4 4), paths, cls := c.param 16 1,
      stopOnError := bit 0 (c.param 17 1), retryLimit := if retry = 0 then 7 else retry, sqDepth := depth, rxBuffer := rx,
      srq := if srq = 0xFFFF then none else some srq, cq := c.param 26 2, ackTimeout := if ack = 0 then 50 else ack, area := a, rxArea }
  exec (.connCreate m slot) s = .next (((s2.charge tag qConn 1).modFlyer fun f =>
    { f with conns := tset f.conns i k, connPool := pool }).answered c St.ok (toLe 4 h.toNat ++ zeros 4 ++ toLe 8 w))

/-- CONN_MODIFY of a connection that is not in ERROR gives it paths, a peer connection where it has none, or both (R408). -/
def Claims.ConnModify : Prop := ∀ (m slot : Nat) (s : State) (c : Cmd) (tag : W16) (i : Nat) (k : Conn), Turn 0x0601 m slot s c tag →
  let what := c.param 4 1
  let peer := fun (t : State) => t.modConn i fun k => { k with peerConn := BitVec.ofNat 32 (c.param 16 4) }
  let path := fun (ps : List (Nat × Nat)) (t : State) => t.modConn i fun k => { k with paths := ps, nextPath := 0 }
  s.connFor tag (BitVec.ofNat 32 (c.param 0 4)) = some (i, k) → k.state ≠ .error →
  (what = 2 → k.peerConn = 0 → exec (.connModify m slot) s = .next ((peer s).answered c St.ok [])) ∧
  (∀ ps, pathsOf ((List.range 4).map fun i => c.param (8 + 2 * i) 2) = some ps →
    (what = 1 → exec (.connModify m slot) s = .next ((path ps s).answered c St.ok [])) ∧
    (what = 3 → k.peerConn = 0 → exec (.connModify m slot) s = .next ((path ps (peer s)).answered c St.ok [])))

/-- CONN_DRAIN makes a READY connection DRAINING, and is answered when it has drained (R282, R408). -/
def Claims.ConnDrain : Prop := ∀ (m slot : Nat) (s : State) (c : Cmd) (tag : W16) (i : Nat) (k : Conn), Turn 0x0602 m slot s c tag →
  s.connFor tag (BitVec.ofNat 32 (c.param 0 4)) = some (i, k) →
  (k.state = .ready → exec (.connDrain m slot) s =
    .next ((((s.modConn i fun k => { k with state := .draining, drainWaiters := k.drainWaiters ++ [c.ref] }).settle i).commitCmd c).fetchAll)) ∧
  (k.state ≠ .ready → exec (.connDrain m slot) s = .next (s.answered c St.wrongState []))

/-- CONN_DESTROY cancels the wait and the entries of the send queue; the connection goes when what it sent has completed
(R408). -/
def Claims.ConnDestroy : Prop := ∀ (m slot : Nat) (s : State) (c : Cmd) (tag : W16) (i : Nat) (k : Conn), Turn 0x0603 m slot s c tag →
  let s1 := s.modConn i fun k => { k with sq := [], wait := none, cancelNext := 0, destroyWaiter := some c.ref }
  let ended := fun (t : State) => k.sq.foldl (fun t e => t.endUnsent i k e St.cancelled) t
  s.connFor tag (BitVec.ofNat 32 (c.param 0 4)) = some (i, k) → k.destroyWaiter = none →
  (k.wait = none → exec (.connDestroy m slot) s = .next (((ended s1).settle i).commitCmd c).fetchAll) ∧
  (∀ w, k.wait = some w → exec (.connDestroy m slot) s = .next (((ended (s1.endWaitSq i w St.cancelled false)).settle i).commitCmd c).fetchAll)

/-- SRQ_CREATE makes an empty shared receive queue (R302, R408). -/
def Claims.SrqCreate : Prop := ∀ (m slot : Nat) (s s1 s2 : State) (c : Cmd) (tag : W16) (a : Area) (w i : Nat), Turn 0x0604 m slot s c tag →
  16 ≤ c.param 0 4 → c.param 0 4 ≤ 65536 → s.newRing c.mb tag (c.param 0 4 * 16) = .ok (a, w, s1) →
  s1.pick s.flyer.srqs 16384 = some (i, s2) → exec (.srqCreate m slot) s = .next ((s2.modFlyer fun f =>
    { f with srqs := tset f.srqs i { tenant := tag, entries := c.param 0 4, area := a } }).answered c St.ok (toLe 2 i ++ zeros 6 ++ toLe 8 w))
/-- SRQ_DESTROY gives the queue's slabs back and credits them; one in use is refused with
ST_RANGE_IN_USE (R408). -/
def Claims.SrqDestroy : Prop := ∀ (m slot : Nat) (s : State) (c : Cmd) (tag : W16) (q : Srq), Turn 0x0605 m slot s c tag →
  let used := s.flyer.conns.any fun k => k.2.srq == some (c.param 0 2)
  s.srqFor tag (c.param 0 2) = some q →
  (used = false → exec (.srqDestroy m slot) s = .next ((((s.dropArea q.area).credit tag qDram q.area.length).modFlyer fun f =>
    { f with srqs := tdel f.srqs (c.param 0 2) }).answered c St.ok [])) ∧
  (used = true → exec (.srqDestroy m slot) s = .next (s.answered c St.rangeInUse []))

/-- REGION_REGISTER makes a region over new slabs (KIND 1) or over a skein of the tenant (KINDS 2 and 3), with rights that
its kind allows (R284). -/
def Claims.RegionRegister : Prop := ∀ (m slot : Nat) (s : State) (c : Cmd) (tag : W16) (i : Nat) (pool : Pool), Turn 0x0606 m slot s c tag →
  let kind := c.param 0 1
  let rights := c.param 1 1
  let len := c.param 8 8
  let key := regionKey (pool.gen i) i
  rights ||| kindRights kind = kindRights kind → s.overQuota tag qRegion 1 = false → s.flyer.regionPool.take 1048576 = some (i, pool) →
  (∀ a w s1, kind = 1 → 65536 ≤ len → len ≤ 2 ^ 32 → len % 65536 = 0 → s.newRing c.mb tag len = .ok (a, w, s1) →
    let r : Region := { kind, rights, tenant := tag, key, skein := BitVec.ofNat 32 (c.param 4 4), length := len, area := a }
    exec (.regionRegister m slot) s = .next (((s1.charge tag qRegion 1).modFlyer fun f =>
      { f with regions := tset f.regions i r, regionPool := pool }).answered c St.ok (toLe 4 key.toNat ++ zeros 4 ++ toLe 8 w))) ∧
  ((kind = 2 ∨ kind = 3) → (s.skeinFor tag (BitVec.ofNat 32 (c.param 4 4))).isSome = true →
    let r : Region := { kind, rights, tenant := tag, key, skein := BitVec.ofNat 32 (c.param 4 4), length := len, area := [] }
    exec (.regionRegister m slot) s = .next (((s.charge tag qRegion 1).modFlyer fun f =>
      { f with regions := tset f.regions i r, regionPool := pool }).answered c St.ok (toLe 4 key.toNat ++ zeros 4 ++ toLe 8 0)))

/-- REGION_DEREGISTER ends a region of the tenant: its generation advances at once (R286). -/
def Claims.RegionDeregister : Prop := ∀ (m slot : Nat) (s : State) (c : Cmd) (tag : W16) (r : Region), Turn 0x0607 m slot s c tag →
  let key := BitVec.ofNat 32 (c.param 0 4)
  s.regionFor tag key = some r → exec (.regionDeregister m slot) s = .next ((s.endRegion (keyIndex key) r).answered c St.ok [])

/-- LINK_SPARE puts an UP port's spare wavelength in the place of one in use, and agrees it with the partner by SWITCH
(R265, R408). -/
def Claims.LinkSpare : Prop := ∀ (m slot : Nat) (s : State) (c : Cmd) (tag : W16), Turn 0x0608 m slot s c tag →
  let p := c.param 0 1
  let wl := c.param 1 1
  p < 4 → wl ≤ 8 → (s.portAt p).state = .up → (s.portAt p).map.getLsbD wl = true → (s.portAt p).spare.isSome = true →
  s.budgetLeft kWavelength (p * 9 + wl) = true →
  exec (.linkSpare m slot) s = .next ((s.dropWavelength p wl).answered c St.ok [])

/-- PORT_CONFIGURE sets FRAME_OVERHEAD and the quanta; a quantum of 0 keeps the present one (R326, R330). -/
def Claims.PortConfigure : Prop := ∀ (m slot : Nat) (s : State) (c : Cmd) (tag : W16), Turn 0x0609 m slot s c tag →
  let qs := (List.range 7).map fun i => c.param (4 + 4 * i) 4
  c.param 0 1 < 4 → (∀ q ∈ qs, q = 0 ∨ 9472 ≤ q ∧ q ≤ 1048576) → exec (.portConfigure m slot) s =
    .next ((s.modPort (c.param 0 1) fun y => { y with overhead := c.param 1 1, quantum := (y.quantum.zip qs).map fun q =>
      if q.2 = 0 then q.1 else q.2 }).answered c St.ok [])

/-- SHAPER_SET sets a tenant's shaper of a class; the present tokens stay, capped at the new BURST (R327, R328). -/
def Claims.ShaperSet : Prop := ∀ (m slot : Nat) (s : State) (c : Cmd) (tag : W16), Turn 0x060A m slot s c tag →
  let old := s.shaper (tidOf tag) (c.param 0 1)
  let burst := c.param 8 4 * 1024
  let new : Shaper := { enable := bit 0 (c.param 1 1), permitted := bit 1 (c.param 1 1), rate := c.param 4 4, burst, weight := c.param 2 1,
                        milli := min old.milli (burst * 1000), lastAt := old.lastAt }
  c.param 0 1 ≤ 7 → 1 ≤ c.param 2 1 → 1 ≤ c.param 4 4 → c.param 4 4 ≤ 1600000 → 16 ≤ c.param 8 4 → c.param 8 4 ≤ 16384 →
  exec (.shaperSet m slot) s = .next ((s.modFlyer fun f =>
    { f with shapers := tset f.shapers (tidOf tag * 8 + c.param 0 1) new }).kickAll.answered c St.ok [])

/-- GATE_SET leaves a standby gate list with its start; entries, cycle and open runs keep to R331 to R333. -/
def Claims.GateSet : Prop := ∀ (m slot : Nat) (s : State) (c : Cmd) (tag : W16), Turn 0x060B m slot s c tag →
  let bytes := s.windowRead c.ld c.dataOff c.dataLen
  let ws := gateEntries bytes
  let g : List Gate := ws.map fun w => (bits 34 8 w, BitVec.ofNat 8 w)
  c.dataLen = 256 → (∀ w ∈ gateWords bytes, bits 63 35 w = 0) → c.param 0 1 < 4 → (∀ e ∈ g, e.1 ≤ 100000000) → (g.map (·.1)).sum ≤ 100000000 →
  (∀ k r, k < 8 → shortestRun g k = some r → 3 ≤ r) → exec (.gateSet m slot) s =
    .next ((s.modPort (c.param 0 1) fun y => { y with standby := some (g, y.switchFrom g s.time.now (BitVec.ofNat 64 (c.param 8 8))) }).answered c St.ok [])

/-! ## Runs and the prefix table (R410) -/

/-- RUN_CREATE at tier 1 makes a run of the skein's first B bobbins, which are GOOD and resident, at once; at tier 0 it waits
until they have moved (R199, R410). -/
def Claims.RunCreate : Prop := ∀ (m slot : Nat) (s : State) (c : Cmd) (tag : W16) (k : Skein) (i : Nat) (pool : Pool), Turn 0x0700 m slot s c tag →
  let h := BitVec.ofNat 32 (c.param 0 4)
  let b := c.param 4 4
  let tier := c.param 8 1
  let keys := k.rows.flatMap fun r => (List.range b).map fun i => r * 65536 + i
  let move := (keys.zip ((keys.map (tget k.leaves)).filterMap id)).filter fun e => e.2.tier != 0 && !e.2.pin
  let s1 := (s.charge tag qRun 1).modPfx fun p => { p with runPool := pool }
  s.skeinOf tag h = .ok k → k.prefixHash = true → 64 ≤ b * k.cap → b ≤ 65536 →
  (∀ key ∈ keys, ∃ l, tget k.leaves key = some l ∧ l.tier ≤ 1 ∧ l.check = .good ∧ (tier = 0 → l.lock = true → l.tier = 0)) →
  s.overQuota tag qRun 1 = false → s.pfx.runPool.take 262144 = some (i, pool) →
  (tier = 1 → s.overQuota tag qSram 0 = false → exec (.runCreate m slot) s =
    .next ((s1.makeRun i (skIndex h) b).answered c St.ok (toLe 4 (rcHandle (pool.gen i) i).toNat ++ toLe 4 (b * k.cap)))) ∧
  (tier = 0 → s.overQuota tag qSram (4 * move.length) = false → move.length ≤ s.residenceFree →
    let w : PinWork := { order := s1.store.nextTask, waiter := some c.ref, skein := skIndex h, keys, tier := 0, kind := 2, count := b, run := i }
    exec (.runCreate m slot) s =
      .next ((((s1.modStore fun t => { t with pins := t.pins ++ [w], nextTask := t.nextTask + 1 }).runTier).endPins.commitCmd c).fetchAll))

/-- RUN_ATTACH maps a run's bobbins into an empty skein of the same geometry, LOCKED, with the run's token identifiers and
history below LENGTH (R202, R410). -/
def Claims.RunAttach : Prop := ∀ (m slot : Nat) (s t : State) (c : Cmd) (tag : W16) (r : Run) (k : Skein), Turn 0x0701 m slot s c tag →
  let len := c.param 8 4
  let h := BitVec.ofNat 32 (c.param 4 4)
  let leaves := r.attached (len / r.cap)
  let g := k.growth (leaves.map (·.1)) (List.range len) k.rows
  s.runFor tag (BitVec.ofNat 32 (c.param 0 4)) = some r → s.skeinOf tag h = .ok k → r.hashes[c.param 12 4]? = some (c.param 16 12) →
  let ids := r.reel.filter fun e => decide (e.1 < len)
  k.layers = r.layers → k.heads = r.heads → k.elements = r.elements → k.format = r.format → k.modelId = r.modelId → k.leaves = [] →
  1 ≤ len → len ≤ r.length → len % r.cap = 0 → r.damaged = false → s.dramNeed tag (g.slots k) = .ok () →
  s.tailRoom k (k.addReel ids) = true → (s.shedFor k (k.addReel ids)).grow (skIndex h) g = some t →
  exec (.runAttach m slot) s = .next (((t.modSkein (skIndex h) fun k =>
    (((({ k with leaves, run := some (rcIndex r.handle) }).addReel ids).takeHistory
      (r.history.filter fun e => decide (e.2.1 < len))).restate)).checkTails.modPfx fun p =>
        { p with runs := tmod p.runs (rcIndex r.handle) fun r => { r with skeins := r.skeins ++ [skIndex h] } }).answered c St.ok [])

/-- RUN_RELEASE gives up the creator's reference (R203, R410). -/
def Claims.RunRelease : Prop := ∀ (m slot : Nat) (s : State) (c : Cmd) (tag : W16) (r : Run), Turn 0x0702 m slot s c tag →
  let i := rcIndex r.handle
  s.runFor tag (BitVec.ofNat 32 (c.param 0 4)) = some r →
  (r.creator = true → exec (.runRelease m slot) s = .next ((((s.credit tag qRun 1).modPfx fun p =>
    { p with runs := tmod p.runs i fun r => { r with creator := false } }).settleRun i).answered c St.ok [])) ∧
  (r.creator = false → exec (.runRelease m slot) s = .next (s.answered c St.wrongState []))

/-- PREFIX_INSERT charges and queues the entries that the table does not have yet, and is answered with the last of them;
where it has them all it answers 0 at once, but behind those that still wait to be inserted (R208–R211, R410). -/
def Claims.PrefixInsert : Prop := ∀ (m slot : Nat) (s : State) (c : Cmd) (tag : W16) (r : Run), Turn 0x0703 m slot s c tag →
  let first := c.param 4 4
  let count := c.param 8 4
  let es : List PEntry := (List.range count).map fun i =>
    { priority := c.param 12 1, run := r.handle, tenant := tag, modelId := r.modelId, hash := r.hashes.getD (first + i) 0 }
  let waits := fun (e : PEntry) => s.pfx.inserts.any fun i => i.entry == some e
  let new := es.eraseDups.filter fun e => !(s.pfx.entries.any (fun t => t.2 == e) || waits e)
  let n := new.length
  s.runFor tag (BitVec.ofNat 32 (c.param 0 4)) = some r → 1 ≤ count → count ≤ 1024 → first + count ≤ r.hashes.length →
  s.overQuota tag qPrefix n = false → s.pfx.entries.length + (s.pfx.inserts.filter (·.entry.isSome)).length + n ≤ 262144 →
  ((n = 0 ∧ es.any waits = false) → exec (.prefixInsert m slot) s = .next (s.answered c St.ok (toLe 4 0))) ∧
  (¬ (n = 0 ∧ es.any waits = false) →
    let items := if n = 0 then [none] else new.map some
    let ins : List PInsert := (indexed items).map fun e =>
      { entry := e.1, tenant := tag, waiter := c.ref, inserted := n, last := e.2 + 1 == items.length }
    let t := (s.charge tag qPrefix n).modPfx fun p =>
      { p with inserts := p.inserts ++ ins, runs := tmod p.runs (rcIndex r.handle) fun r => { r with entries := r.entries + n } }
    exec (.prefixInsert m slot) s = .next (((State.insertAhead t.pfx.inserts.length t).commitCmd c).fetchAll))

/-- PREFIX_REMOVE takes the run's entries of the named hashes, or with COUNT 0 all, out of the table (R212, R410). -/
def Claims.PrefixRemove : Prop := ∀ (m slot : Nat) (s t : State) (c : Cmd) (tag : W16) (r : Run) (n : Nat), Turn 0x0704 m slot s c tag →
  let first := c.param 4 4
  let count := c.param 8 4
  s.runFor tag (BitVec.ofNat 32 (c.param 0 4)) = some r → count ≤ 1024 → (count = 0 → first = 0) →
  (count = 0 ∨ first + count ≤ r.hashes.length) → s.removeEntries (rcIndex r.handle) (fun e => count == 0 || ((r.hashes.drop first).take count).contains e.hash) = (n, t) →
  exec (.prefixRemove m slot) s = .next (t.answered c St.ok (toLe 4 n))

/-- PREFIX_PROBE changes nothing and gives the number of leading hashes found, and the run of the last of them (R213). -/
def Claims.PrefixProbe : Prop := ∀ (m slot : Nat) (s : State) (c : Cmd) (tag : W16), Turn 0x0705 m slot s c tag →
  let n := c.param 2 1
  let hs := (List.range n).map fun i => field (s.windowRead c.ld c.dataOff c.dataLen) (12 * i) 12
  let hits := ((hs.map (s.searchPrefix tag (BitVec.ofNat 16 (c.param 0 2)))).takeWhile (·.isSome)).filterMap id
  1 ≤ n → n ≤ 64 → 12 * n ≤ c.dataLen →
  (hits = [] → exec (.prefixProbe m slot) s = .next (s.answered c St.ok (zeros 12))) ∧
  (∀ e, hits.getLast? = some e → exec (.prefixProbe m slot) s = .next (s.answered c St.ok (toLe 1 hits.length ++ toLe 1 e.priority ++
    zeros 2 ++ toLe 4 e.run.toNat ++ toLe 4 (((tget s.pfx.runs (rcIndex e.run)).map fun (r : Run) => r.length).getD 0))))

/-! ## Tiers (R411) -/

/-- SKEIN_DOFF asks for the doff of a skein that is not being reloaded, while the creel serves; it is answered when the doff
ends (R233, R411). -/
def Claims.SkeinDoff : Prop := ∀ (m slot : Nat) (s : State) (c : Cmd) (tag : W16) (k : Skein), Turn 0x0800 m slot s c tag →
  let h := BitVec.ofNat 32 (c.param 0 4)
  s.skeinOf tag h = .ok k →
  (s.creelServes = false → exec (.skeinDoff m slot) s = .next (s.answered c St.creelOffline [])) ∧
  (s.creelServes = true → thas s.store.reloads (skIndex h) = true → exec (.skeinDoff m slot) s = .next (s.answered c St.rangeInUse [])) ∧
  (s.creelServes = true → thas s.store.reloads (skIndex h) = false → exec (.skeinDoff m slot) s =
    .next (((s.askDoff (skIndex h) (some c.ref) false).runTier.commitCmd c).fetchAll))

/-- SKEIN_RELOAD completes at once for a skein with nothing at tier 2, and otherwise asks for the reload, within quota and
pool (R227, R234, R411). -/
def Claims.SkeinReload : Prop := ∀ (m slot : Nat) (s : State) (c : Cmd) (tag : W16) (k : Skein), Turn 0x0801 m slot s c tag →
  let h := BitVec.ofNat 32 (c.param 0 4)
  let busy := thas s.store.doffs (skIndex h) || s.store.moves.any fun v => v.2.skein == skIndex h && v.2.dstTier == 2
  let none' := k.toReload = 0 ∧ busy = false ∧ thas s.store.reloads (skIndex h) = false
  s.skeinOf tag h = .ok k → s.creelServes = true →
  (none' → exec (.skeinReload m slot) s = .next (s.answered c St.ok (zeros 8))) ∧
  (¬ none' → s.dramNeed tag k.toReload = .ok () → exec (.skeinReload m slot) s =
    .next (((s.askReload (skIndex h) (some c.ref) [] true false).runTier.commitCmd c).fetchAll))

/-- TIER_PIN of undamaged, unlost bobbins queues their moves and the pins; it is answered when all stand at the tier (R230). -/
def Claims.TierPin : Prop := ∀ (m slot : Nat) (s : State) (c : Cmd) (tag : W16) (k : Skein) (keys : List Nat), Turn 0x0802 m slot s c tag →
  let h := BitVec.ofNat 32 (c.param 0 4)
  let tier := c.param 20 1
  let ls := keys.filterMap (tget k.leaves)
  let move := ls.filter fun l => l.tier != tier && !l.pin
  let creel := move.any fun l => l.tier == 2
  let w : PinWork := { order := s.store.nextTask, waiter := some c.ref, skein := skIndex h, keys, tier, kind := 0, count := keys.length }
  s.skeinOf tag h = .ok k → tierRange { c, tag } k = .ok keys →
  (∀ l ∈ ls, l.tier ≠ 3 ∧ l.check ≠ .damaged ∧ (l.lock = true → l.tier = tier)) → (creel = true → s.creelServes = true) →
  (tier = 0 → s.overQuota tag qSram (4 * move.length) = false ∧ move.length ≤ s.residenceFree ∧ (creel = true → s.belowLow = false)) →
  (tier = 1 → s.dramNeed tag move.length = .ok ()) → tier ≤ 1 → exec (.tierPin m slot) s =
    .next ((((s.modStore fun t => { t with pins := t.pins ++ [w], nextTask := t.nextTask + 1 }).runTier).endPins.commitCmd c).fetchAll)

/-- TIER_UNPIN clears the pins at once, and asks for the unpinned tier-0 bobbins to move to tier 1 (R230). -/
def Claims.TierUnpin : Prop := ∀ (m slot : Nat) (s : State) (c : Cmd) (tag : W16) (k : Skein) (keys : List Nat), Turn 0x0803 m slot s c tag →
  let h := BitVec.ofNat 32 (c.param 0 4)
  let pinned := keys.filter fun key => match tget k.leaves key with
    | some l => l.pin
    | none => false
  let down := pinned.filter fun key => match tget k.leaves key with
    | some l => l.tier == 0 && !l.lock
    | none => false
  let s1 := s.setSkein (skIndex h) { k with leaves := k.leaves.map fun e => if pinned.contains e.1 then (e.1, { e.2 with pin := false }) else e }
  let w : PinWork :=
    { order := s1.store.nextTask, waiter := some c.ref, skein := skIndex h, keys := down, tier := 1, kind := 1, count := pinned.length }
  s.skeinOf tag h = .ok k → tierRange { c, tag } k = .ok keys → s.dramNeed tag down.length = .ok () → exec (.tierUnpin m slot) s =
    .next ((((s1.modStore fun t => { t with pins := t.pins ++ [w], nextTask := t.nextTask + 1 }).runTier).endPins.commitCmd c).fetchAll)

/-! ## Lent memory and publications (R412) -/

/-- LENT_GRANT writes a host-table entry at the LD's present generation, under the KEY_SLOT's tenant (R361). -/
def Claims.LentGrant : Prop := ∀ (m slot : Nat) (s t : State) (c : Cmd) (tag : W16) (i : Nat) (x : Tenant), Turn 0x0900 m slot s c tag →
  let ld := c.param 0 1
  let rights := c.param 1 1
  let key := c.param 2 2 % 4096
  let base := c.param 8 8
  let len := c.param 16 8
  tget s.tenants key = some x → x.live = true → x.teardown = false → ld < 16 → base % 65536 = 0 → len % 65536 = 0 → 65536 ≤ len →
  base + len ≤ s.cfg.lentGib * 2 ^ 30 → s.ldLocked (some ld) = false →
  (∀ e ∈ s.cxl.hostTable, e.2.keySlot ≠ key → meets e.2.base e.2.length base len = false) →
  s.pick (s.cxl.hostTable.map (fun e => (e.1, ())) ++ s.cxl.revokeWaiters.map fun e => (e.1, ())) 4096 = some (i, t) →
  let e : HostEntry := { write := bit 1 rights, read := bit 0 rights, ld, hostGen := (t.ld ld).hostGen, keySlot := key, base, length := len }
  exec (.lentGrant m slot) s = .next ((t.modCxl fun c => { c with hostTable := tset c.hostTable i e }).answered c St.ok (toLe 2 i))

/-- LENT_REVOKE takes the entry out of the table at once, and is answered when the accesses it allowed have drained (R364). -/
def Claims.LentRevoke : Prop := ∀ (m slot : Nat) (s : State) (c : Cmd) (tag : W16) (e : HostEntry), Turn 0x0901 m slot s c tag →
  let i := c.param 0 2
  i < 4096 → tget s.cxl.hostTable i = some e → s.ldLocked (some e.ld) = false → exec (.lentRevoke m slot) s =
    .next ((s.modCxl fun k => { k with hostTable := tdel k.hostTable i, revokeWaiters := tset k.revokeWaiters i c.ref }).commitCmd c).fetchAll

/-- HOST_FENCE gives the LD its next host generation, 65,535 wrapping to 1, and is answered with it after the drain (R369). -/
def Claims.HostFence : Prop := ∀ (m slot : Nat) (s : State) (c : Cmd) (tag : W16), Turn 0x0902 m slot s c tag →
  let ld := c.param 0 1
  let g := if (s.ld ld).hostGen.toNat = 65535 then 1 else (s.ld ld).hostGen.toNat + 1
  ld < 16 → exec (.hostFence m slot) s = .next ((s.modLd ld fun l =>
    { l with hostGen := BitVec.ofNat 16 g, fenceWaiters := l.fenceWaiters ++ [(c.ref, g)] }).commitCmd c).fetchAll

/-- PUBLICATION_CREATE makes a publication of version 0 over a range of the lent window (R367, R412). -/
def Claims.PublicationCreate : Prop := ∀ (m slot : Nat) (s t : State) (c : Cmd) (tag : W16) (i : Nat), Turn 0x0903 m slot s c tag →
  let base := c.param 0 8
  let len := c.param 8 8
  0 < len → base + len ≤ s.cfg.lentGib * 2 ^ 30 → s.pick s.cxl.pubs 1024 = some (i, t) → exec (.publicationCreate m slot) s =
    .next ((t.modCxl fun k => { k with pubs := tset k.pubs i { base, length := len } }).answered c St.ok (toLe 2 i))
/-- PUBLICATION_DELETE removes the publication of its index (R412). -/
def Claims.PublicationDelete : Prop := ∀ (m slot : Nat) (s : State) (c : Cmd) (tag : W16), Turn 0x0904 m slot s c tag →
  c.param 0 2 < 1024 → (tget s.cxl.pubs (c.param 0 2)).isSome = true → exec (.publicationDelete m slot) s =
    .next ((s.modCxl fun k => { k with pubs := tdel k.pubs (c.param 0 2) }).answered c St.ok [])

/-- LENT_PUBLISH by an LD that may write the whole range: a higher version takes effect with its digest, LD and time; the
present version with the same digest changes nothing; any other is refused with ST_VERSION_CONFLICT, and both LDs are told
both versions and both digests; any other LD is refused with ST_NOT_PERMITTED (R367). -/
def Claims.LentPublish : Prop := ∀ (m slot : Nat) (s : State) (c : Cmd) (tag : W16) (p : Publication), Turn 0x0905 m slot s c tag →
  let i := c.param 0 2
  let v := c.param 8 8
  let d := (s.windowRead c.ld c.dataOff c.dataLen).take 48
  let told := [i, p.version.toNat, v, ofLe p.digest, ofLe d]
  48 ≤ c.dataLen → i < 1024 → tget s.cxl.pubs i = some p →
  (s.mayPublish c.ld p.base p.length = false → exec (.lentPublish m slot) s = .next (s.answered c St.notPermitted [])) ∧
  (s.mayPublish c.ld p.base p.length = true →
  let q : Publication := { base := p.base, length := p.length, version := BitVec.ofNat 64 v, digest := d, ld := c.ld, time := s.time.now }
  (p.version.toNat < v → exec (.lentPublish m slot) s =
    .next ((s.modCxl fun k => { k with pubs := tset k.pubs i q }).answered c St.ok [])) ∧
  (v = p.version.toNat → d = p.digest → exec (.lentPublish m slot) s = .next (s.answered c St.ok [])) ∧
  (v < p.version.toNat ∨ v = p.version.toNat ∧ d ≠ p.digest → p.version ≠ 0 → exec (.lentPublish m slot) s =
    .next (((s.raise Ev.publicationConflict (.ld c.ld) told).raise Ev.publicationConflict (.ld p.ld) told).answered c St.versionConflict [])) ∧
  (v = 0 → p.version = 0 → d ≠ p.digest → exec (.lentPublish m slot) s =
    .next ((s.raise Ev.publicationConflict (.ld c.ld) told).answered c St.versionConflict [])))

/-- PUBLICATION_GET gives version and time, and digest and LD in the buffer (R412). -/
def Claims.PublicationGet : Prop := ∀ (m slot : Nat) (s : State) (c : Cmd) (tag : W16) (p : Publication), Turn 0x0906 m slot s c tag →
  64 ≤ c.dataLen → c.param 0 2 < 1024 → tget s.cxl.pubs (c.param 0 2) = some p → exec (.publicationGet m slot) s =
    .next ((s.windowWrite c.ld c.dataOff ((p.digest ++ toLe 1 p.ld ++ zeros 15).take c.dataLen)).answered c St.ok
      (toLe 8 p.version.toNat ++ toLe 8 p.time.toNat))

/-! ## Reliability commands (R413) -/

/-- UNIT_SERVICE clears SUSPECT (ACTION 3), or takes a spindle, channel or wavelength out or returns it, as its unit
allows (R413). -/
def Claims.UnitService : Prop := ∀ (m slot : Nat) (s : State) (c : Cmd) (tag : W16), Turn 0x0A00 m slot s c tag →
  let kind := c.param 0 1
  let action := c.param 1 1
  let u := c.param 2 2
  (1 ≤ kind → kind ≤ 3 → action = 3 → u < (if kind = 1 then 8 else if kind = 2 then 1024 else 36) →
    let unit' := (kind, if kind = 2 then s.physOf u else u)
    s.rel.suspect.contains unit' = true → exec (.unitService m slot) s =
      .next ((s.modRel fun r => { r with suspect := r.suspect.filter (· != unit') }).answered c St.ok [])) ∧
  (∀ t, kind = 1 → (action = 1 ∨ action = 2) → u < 8 → s.serveSpindle action u = .ok t → exec (.unitService m slot) s =
    .next (t.answered c St.ok [])) ∧
  (∀ t, kind = 2 → action = 1 → u < 1024 → s.serveChannel u c.ref = .ok t → exec (.unitService m slot) s = .next (t.commitCmd c).fetchAll) ∧
  (∀ t, kind = 3 → (action = 1 ∨ action = 2) → u < 36 → s.serveWavelength action u = .ok t → exec (.unitService m slot) s =
    .next (t.answered c St.ok []))

/-- MARGIN_SWEEP of a unit that is out of the way, for each number of points that the row reports (R462): it writes 16
bytes a point and answers with the points and those of them that met errors, which are those that the row reports where it
reports all; a single point stands at the high end of both ranges. Nothing else changes, but for the free roundings of points
between the ends and the free counts of points that the row does not report (log 3). -/
def Claims.MarginSweep : Prop := ∀ (m slot : Nat) (s : State) (c : Cmd) (tag : W16) (points : List (Nat × Nat)), Turn 0x0A01 m slot s c tag →
  let x : Ctx := { c, tag }
  let kind := c.param 0 1
  let pat := c.param 12 2
  let n := c.param 2 2
  (kind = 1 ∧ 1 ≤ pat ∧ pat ≤ 3 ∨ kind = 2 ∧ (pat = 0x0101 ∨ pat = 0x0102)) → c.param 1 1 < 8 → 1 ≤ n → n ≤ 256 → -100 ≤ x.signed 4 →
  x.signed 4 ≤ 100 → -100 ≤ x.signed 6 → x.signed 6 ≤ 100 → -200 ≤ x.signed 8 → x.signed 8 ≤ 100 → -200 ≤ x.signed 10 → x.signed 10 ≤ 100 →
  (c.param 16 4 = 0 ∨ ∃ a ∈ s.rel.audits, a.index = c.param 16 4) → 16 * n ≤ c.dataLen → s.sweepable kind (c.param 1 1) = true →
  (∃ (k f : Nat) (out : List Byte), out.length = 16 * n ∧ f ≤ n ∧
    (points.length = n → (∀ p ∈ points, p.1 < 2 ^ 32) → f = points.countP fun p : Nat × Nat => p.1 ≠ 0) ∧
    exec (.marginSweep m slot points) s = .next (({ s with freeCount := k }.windowWrite c.ld c.dataOff
      (out.take c.dataLen)).answered c St.ok (toLe 2 n ++ toLe 2 f))) ∧
  (∀ errors ops, n = 1 → points = [(errors, ops)] → errors < 2 ^ 32 → ops < 2 ^ 64 → exec (.marginSweep m slot points) s =
    .next ((s.windowWrite c.ld c.dataOff ((toLe 2 (BitVec.ofInt 16 (x.signed 6)).toNat ++ toLe 2 (BitVec.ofInt 16 (x.signed 10)).toNat ++
      toLe 4 errors ++ toLe 8 ops).take c.dataLen)).answered c St.ok (toLe 2 1 ++ toLe 2 (if errors = 0 then 0 else 1))))

/-- AUDIT_SET sets both shifts, of 24 at most, and answers with the previous ones (R413). -/
def Claims.AuditSet : Prop := ∀ (m slot : Nat) (s : State) (c : Cmd) (tag : W16), Turn 0x0A02 m slot s c tag →
  c.param 0 1 ≤ 24 → c.param 1 1 ≤ 24 → exec (.auditSet m slot) s =
    .next ({ s with cfg := { s.cfg with auditK := c.param 0 1, suspectK := c.param 1 1 } }.answered c St.ok (toLe 1 s.cfg.auditK ++ toLe 1 s.cfg.suspectK))

/-- BUDGET_SET sets the budget of a duty 1 to 5 at or above its floor and answers with the previous one (R445). -/
def Claims.BudgetSet : Prop := ∀ (m slot : Nat) (s : State) (c : Cmd) (tag : W16), Turn 0x0A03 m slot s c tag →
  let d := c.param 0 1
  1 ≤ d → d ≤ 5 → [16, 5243, 32, 1049, 1100].getD (d - 1) 0 ≤ c.param 4 4 → c.param 4 4 ≤ 2 ^ 20 → exec (.budgetSet m slot) s =
    .next ({ s with cfg := { s.cfg with budgets := s.cfg.budgets.set (d - 1) (c.param 4 4) } }.answered c St.ok (toLe 4 (s.cfg.budgets.getD (d - 1) 0)))

/-- HEALTH_READ writes 8 bytes for each of the 5,260 components into a buffer that holds them (R413, R454). -/
def Claims.HealthRead : Prop := ∀ (m slot : Nat) (s : State) (c : Cmd) (tag : W16), Turn 0x0A04 m slot s c tag →
  let all := (List.range 8).map (fun i => (kSpindle, i)) ++ (List.range 1088).map (fun i => (kChannel, i)) ++
    (List.range 36).map (fun i => (kWavelength, i)) ++ (List.range 4128).map fun i => (kColumn, i)
  let out := all.flatMap fun k =>
    toLe 1 k.1 ++ toLe 1 ((tget s.rel.scores (healthKey k.1 k.2)).getD 255) ++ toLe 1 (s.healthState k.1 k.2) ++ [0] ++ toLe 4 k.2
  42080 ≤ c.dataLen → exec (.healthRead m slot) s = .next ((s.windowWrite c.ld c.dataOff (out.take c.dataLen)).answered c St.ok (toLe 4 5260))

/-! ## Telemetry (R414) -/

/-- SAMPLE_SET makes a new telemetry ring in place of the old one; the first period starts at its next boundary (R334, R414). -/
def Claims.SampleSet : Prop := ∀ (m slot : Nat) (s s1 s2 : State) (c : Cmd) (tag : W16) (a : Area) (w : Nat), Turn 0x0B00 m slot s c tag →
  let n := c.param 6 1
  let records := c.param 8 4
  let period := c.param 0 4
  let tags := (List.range n).map fun i => BitVec.ofNat 16 (field (s.windowRead c.ld c.dataOff c.dataLen) (2 * i) 2)
  (n = 0 ∨ 2 * n ≤ c.dataLen) → (∀ t ∈ tags, (s.tenant? t).isSome = true) → period ≤ 1000000 → c.param 4 1 < 16 → n ≤ 64 →
  4096 ≤ records → records ≤ 1048576 → (s.dropArea s.flyer.tele.area).takeSlots (slotsFor (records * 32)) = some (a, s1) →
  s1.mapArea c.mb none a = some (w, s2) →
  let s3 := (List.range 4).foldl (fun t p => t.modPort p fun y => { y with framesSent := [], maxDelay := [] }) s2
  let s4 := { s3 with tenants := s3.tenants.map fun (t : Nat × Tenant) => (t.1, { t.2 with telePos := 0 }) }
  let tele : Telemetry :=
    { period, portMask := c.param 4 1, classMask := c.param 5 1, tenants := tags.map tidOf, records, area := a,
      next := if period = 0 then 0 else BitVec.ofNat 64 ((s2.time.now.toNat / (period * 1000) + 1) * (period * 1000)) }
  exec (.sampleSet m slot) s = .next ((s4.modFlyer fun f => { f with tele }).answered c St.ok (zeros 8 ++ toLe 8 w))

/-- TELEMETRY_READ by mailbox 0 with TENANT 0 writes the oldest records that it has not read, at most
MAX of them, and answers with their number and the records dropped (R336, R414). -/
def Claims.TelemetryRead : Prop := ∀ (m slot : Nat) (s : State) (c : Cmd) (tag : W16), Turn 0x0B01 m slot s c tag →
  let y := s.flyer.tele
  let all := c.mb == 0 && tag == 0
  let from' := if all then y.allPos else ((tget s.tenants (tidOf tag)).getD {}).telePos
  let first := max from' (y.written - y.records)
  let mine := (List.range (y.written - first)).filterMap fun i =>
    let b := s.teleAt (first + i)
    if all || field b 10 2 % 4096 == tidOf tag then some (first + i, b) else none
  let got := mine.take (c.param 0 4)
  let stop := match mine[got.length]? with
    | some r => r.1
    | none => y.written
  let t := s.windowWrite c.ld c.dataOff ((got.map (·.2)).flatten.take c.dataLen)
  let result := toLe 4 got.length ++ toLe 4 (sat32 y.dropped)
  1 ≤ c.param 0 4 → c.param 0 4 ≤ c.dataLen / 32 →
  (all = true → exec (.telemetryRead m slot) s =
    .next (((t.modFlyer fun f => { f with tele := { f.tele with allPos := stop } }).teleFree y.records).answered c St.ok result)) ∧
  (all = false → (s.tenant? tag).isSome = true → exec (.telemetryRead m slot) s =
    .next (((t.modTenant tag fun t => { t with telePos := stop }).teleFree y.records).answered c St.ok result))

/-- STATS_READ: scope 1 gives the sensors' readings, scope 4 the reliability counters; a tenant's mailbox, and scopes 2, 3
and 5, have no counters (R414, R475, R547). -/
def Claims.StatsRead : Prop := ∀ (m slot : Nat) (s : State) (c : Cmd) (tag : W16), Turn 0x0B02 m slot s c tag →
  let scope := c.param 0 2
  let answer := fun (rs : List (List Byte)) (t : State) => 16 * rs.length ≤ c.dataLen → exec (.statsRead m slot) s =
    .next ((t.windowWrite c.ld c.dataOff (rs.flatten.take c.dataLen)).answered c St.ok (toLe 4 rs.length))
  1 ≤ scope → scope ≤ 5 → (c.mb = 0 ∧ tag = 0 ∨ (s.tenant? tag).isSome = true) →
  (c.mb = 0 → scope = 1 → answer s.sensorStats.1 s.sensorStats.2) ∧
  (c.mb = 0 → scope = 4 → answer s.relStats s) ∧
  ((c.mb ≠ 0 ∨ scope = 2 ∨ scope = 3 ∨ scope = 5) → answer [] s)

/-! ## Time and power commands (R415, R416) -/

/-- TIME_CONFIGURE sets ROLE and SYNC_PORTS and voids the exchanges; ROLE 2 loads the count at once, ROLE 1 leaves INITIAL
for the next reference edge (R479, R485). -/
def Claims.TimeConfigure : Prop := ∀ (m slot : Nat) (s : State) (c : Cmd) (tag : W16), Turn 0x0C00 m slot s c tag →
  let role := c.param 0 1
  let v : W64 := BitVec.ofNat 64 (c.param 8 8)
  let same := role = s.time.role
  let t := s.modTime fun t =>
    { t with role, syncPorts := BitVec.ofNat 4 (c.param 1 1), locked := t.locked && decide same, goodRun := if same then t.goodRun else 0,
             initial := if role = 1 then some v else none, refBase := none, slew := if same then t.slew else 0,
             lastEdgeLocal := t.localNow, holdover := false, exchanges := [], syncSentAt := [] }
  (role = 0 → v = 0 → c.param 1 1 ≠ 0 → exec (.timeConfigure m slot) s = .next (t.answered c St.ok [])) ∧
  (role = 1 → c.param 1 1 ≠ 0 → exec (.timeConfigure m slot) s = .next (t.answered c St.ok [])) ∧
  (role = 2 → exec (.timeConfigure m slot) s =
    .next (((t.loadTime ((v.toNat : Int) - (s.time.now.toNat : Int))).modTime fun t => { t with firstDone := false }).answered c St.ok []))

/-- TIME_INFO changes nothing and gives ROLE, LOCKED, the last offset and the last sync, for an offset that its field holds
(R482). -/
def Claims.TimeInfo : Prop := ∀ (m slot : Nat) (s : State) (c : Cmd) (tag : W16), Turn 0x0C01 m slot s c tag →
  -32768 ≤ s.time.lastOffset → s.time.lastOffset ≤ 32767 → exec (.timeInfo m slot) s =
    .next (s.answered c St.ok (toLe 1 s.time.role ++ toLe 1 (if s.time.locked then 1 else 0) ++
      toLe 2 (BitVec.ofInt 16 s.time.lastOffset).toNat ++ zeros 4 ++ toLe 8 s.time.lastSync.toNat))

/-- POWER_STATE_SET with no other command begun or earlier in flight (R495): the present state answers at once; from Standby
a start begins; Standby is entered after its flush; Doze and Hold are entered by stages; Run is reached at once from Hold,
and from Doze by the exit (R496–R505). -/
def Claims.PowerStateSet : Prop := ∀ (m slot : Nat) (s : State) (c : Cmd) (tag : W16) (towards : PState), Turn 0x0D00 m slot s c tag →
  let going := s.modPower fun p => { p with target := towards, inTransition := true, wakeLatched := false }
  let mine := fun (t : State) => t.modPower fun p => { p with waiter := some c.ref }
  let row := exec (.powerStateSet m slot) s
  s.power.waiter = none → (∀ d ∈ s.box.inflight, d.seq = c.seq ∨ d.committed = false ∧ c.seq ≤ d.seq) → PState.ofCode (c.param 0 1) = some towards →
  (towards = s.power.state → s.power.inTransition = false → row = .next (s.answered c St.ok [])) ∧
  (towards ≠ s.power.state → s.power.state = .standby →
    row = .next (({ mine going with boot := { s.boot with state := .booting, fromStandby := true, standbyTarget := towards } }.commitCmd c).fetchAll)) ∧
  (towards = .standby → s.power.state ≠ .standby →
    row = .next (((s.toCreel.standby.enter .standby).modPower fun p =>
      { p with lastEntry := (s.toCreel.standby.enter .standby).time.now }).answered c St.ok [])) ∧
  (towards = .doze → (s.power.state = .run ∨ s.power.state = .hold) → row = .next (mine going).fetchAll) ∧
  (towards = .hold → (s.power.state = .run ∨ s.power.state = .hold ∧ s.power.inTransition = true) →
    row = .next ((mine going).commitCmd c).fetchAll) ∧
  (towards = .run → s.power.state = .hold → row = .next (s.reachRun.answered c St.ok [])) ∧
  ((towards = .run ∨ towards = .hold) → s.power.state = .doze → row = .next ((mine (s.metWake 5)).commitCmd c).fetchAll)

/-- POWER_CAP_SET sets no cap (0) or one of 500 to 1,600 W and answers with the previous one (R506). -/
def Claims.PowerCapSet : Prop := ∀ (m slot : Nat) (s : State) (c : Cmd) (tag : W16), Turn 0x0D01 m slot s c tag →
  let w := c.param 0 2
  (w = 0 ∨ 500 ≤ w ∧ w ≤ 1600) → exec (.powerCapSet m slot) s =
    .next ((s.modPower fun p => { p with capSet := w }).answered c St.ok (toLe 2 s.power.capSet))
/-- DOZE_CONFIGURE sets the sample period, the wake temperature and the activity count for the next entry to Doze (R416,
R501). -/
def Claims.DozeConfigure : Prop := ∀ (m slot : Nat) (s : State) (c : Cmd) (tag : W16), Turn 0x0D02 m slot s c tag →
  1 ≤ c.param 0 2 → c.param 0 2 ≤ 1000 → 40 ≤ c.param 2 1 → c.param 2 1 ≤ 110 → exec (.dozeConfigure m slot) s =
    .next ((s.modPower fun p => { p with periodMs := c.param 0 2, tempWake := c.param 2 1, activityWake := c.param 4 4 }).answered c St.ok [])

/-- POWER_INFO changes nothing and gives STATE, WAKE_SOURCE, the effective cap, the draw and the last wake (R416). -/
def Claims.PowerInfo : Prop := ∀ (m slot : Nat) (s : State) (c : Cmd) (tag : W16), Turn 0x0D03 m slot s c tag →
  exec (.powerInfo m slot) s = .next (s.answered c St.ok (toLe 1 s.power.state.code ++ toLe 1 s.power.wakeSource ++ toLe 2 s.power.cap ++
    toLe 2 s.power.inputW ++ zeros 2 ++ toLe 8 s.power.lastWake.toNat))

/-! ## Firmware, attestation, sessions (R417, R418–R434) -/

/-- FIRMWARE_STAGE takes the next chunk, and starts anew at offset 0; the last chunk verifies the image, which is staged
when it passes and discarded otherwise (R417, R422). -/
def Claims.FirmwareStage : Prop := ∀ (m slot : Nat) (s : State) (c : Cmd) (tag : W16), Turn 0x0E00 m slot s c tag →
  let off := c.param 0 4
  let total := c.param 4 4
  let bytes := (if off = 0 then [] else s.boot.staging) ++ s.windowRead c.ld c.dataOff c.dataLen
  let held := s.modBoot fun b => { b with staging := bytes, stagingTotal := total, staged := [], stagedValid := false }
  let empty := s.modBoot fun b => { b with staging := [], stagingTotal := 0, staged := [], stagedValid := false }
  0 < c.dataLen → (off = 0 ∨ off = s.boot.staging.length) → off + c.dataLen ≤ total → total ≤ imageMax → (off = 0 ∨ total = s.boot.stagingTotal) →
  (bytes.length < total → exec (.firmwareStage m slot) s = .next (held.answered c St.ok (toLe 4 bytes.length))) ∧
  (total ≤ bytes.length → exec (.firmwareStage m slot) s = .next (if verifyImage s.sec 1 bytes = St.ok then
      (s.modBoot fun b => { b with staging := [], stagingTotal := 0, staged := bytes, stagedValid := true }).answered c St.ok
        (toLe 4 bytes.length ++ toLe 4 (imgSvn bytes).toNat)
    else empty.answered c (verifyImage s.sec 1 bytes) []))

/-- FIRMWARE_ACTIVATE puts the verified image in the creel: MODE 2 for the next cold start; MODE 1 goes on to the handoff,
with fetching held, when the image reads back well, and ends with ST_INTERNAL and its event when it does not (R512, R522,
R524). -/
def Claims.FirmwareActivate : Prop := ∀ (m slot : Nat) (s : State) (c : Cmd) (tag : W16) (ok : Bool), Turn 0x0E01 m slot s c tag →
  let put := fun (image : List Byte) => (s.modBoot fun b => { b with image }).writeSystem .image s.boot.staged.length
  let new := put s.boot.staged
  let live : Live := { waiter := c.ref, lastFetch := s.time.localNow, oldVersion := s.boot.version, oldSvn := s.boot.svn, oldDigest := s.boot.digest }
  s.boot.stagedValid = true →
  (c.param 0 1 = 2 → exec (.firmwareActivate m slot ok) s = .next (new.answered c St.ok [])) ∧
  (c.param 0 1 = 1 → s.boot.state = .ready → ok = true → exec (.firmwareActivate m slot ok) s =
    .next (((new.checkpoint.modBoot fun b => { b with live := some live, fetchHeld := true, state := .activating }).commitCmd c).fetchAll)) ∧
  (c.param 0 1 = 1 → s.boot.state = .ready → ok = false → exec (.firmwareActivate m slot ok) s =
    .next (((put []).raise (Ev.firmwareActivated false) .module
      [digestHead s.boot.digest, digestHead (imgDigest s.boot.staged), St.internal]).answered c St.internal []))

/-- FIRMWARE_INFO gives version, SVN and the head of the digest (R417). -/
def Claims.FirmwareInfo : Prop := ∀ (m slot : Nat) (s : State) (c : Cmd) (tag : W16), Turn 0x0E02 m slot s c tag →
  exec (.firmwareInfo m slot) s = .next (s.answered c St.ok (toLe 4 s.boot.version.toNat ++ toLe 4 s.boot.svn.toNat ++ padTo 8 s.boot.digest))
/-- SVN_COMMIT burns the running image's SVN into the next empty record, which makes it the floor; after the 64th record it
is refused with ST_NO_RESOURCE and the floor stays; the present floor is refused with ST_WRONG_STATE (R423). -/
def Claims.SvnCommit : Prop := ∀ (m slot : Nat) (s : State) (c : Cmd) (tag : W16), Turn 0x0E03 m slot s c tag →
  (s.sec.floor ≠ s.boot.svn → s.sec.svnRecords.length < 64 → exec (.svnCommit m slot) s =
    .next ((s.modSec fun y => { y with svnRecords := y.svnRecords ++ [s.boot.svn] }).answered c St.ok (toLe 4 s.boot.svn.toNat))) ∧
  (s.sec.floor = s.boot.svn → exec (.svnCommit m slot) s = .next (s.answered c St.wrongState [])) ∧
  (s.sec.floor ≠ s.boot.svn → 64 ≤ s.sec.svnRecords.length → exec (.svnCommit m slot) s = .next (s.answered c St.noResource [])) ∧
  (∀ t : State, t.sec.svnRecords = s.sec.svnRecords ++ [s.boot.svn] → s.boot.svn ≠ 0 → t.sec.floor = s.boot.svn)

/-- FIRMWARE_ACTIVATE never raises the floor: whatever the command and its mode, the SVN records stay (R423). -/
def Claims.FloorStays : Prop := ∀ (m slot : Nat) (ok : Bool) (s t : State), exec (.firmwareActivate m slot ok) s = .next t →
  t.sec.svnRecords = s.sec.svnRecords ∧ t.sec.floor = s.sec.floor

/-- ATTEST_REPORT forms and signs its body at once, and the report joins the open batch or waits for the next window (R426,
R428). -/
def Claims.AttestReport : Prop := ∀ (m slot : Nat) (s : State) (c : Cmd) (tag : W16), Turn 0x0E04 m slot s c tag →
  let body := s.reportBody tag ((c.bytes.drop 24).take 32)
  let r : Report := { waiter := c.ref, body, sig := padTo 96 (Config.ecdsaSign (sha384 body)), out := c.dataOff, cap := c.dataLen, ld := c.ld }
  let waits := s.modSec fun y => { y with waiting := y.waiting ++ [r] }
  (tag = 0 ∨ (s.tenant? tag).isSome = true) → body.length + 3444 ≤ c.dataLen → s.sec.hssStopped = false →
  (s.sec.batch = none → exec (.attestReport m slot) s = .next (waits.openBatch.commitCmd c).fetchAll) ∧
  (∀ t rs, s.sec.batch = some (t, rs) → 1024 ≤ rs.length → exec (.attestReport m slot) s = .next (waits.commitCmd c).fetchAll) ∧
  (∀ t rs, s.sec.batch = some (t, rs) → rs.length < 1024 →
    let joined := s.modSec fun y => { y with batch := some (t, rs ++ [r]) }
    exec (.attestReport m slot) s = .next (((if 1024 ≤ rs.length + 1 then joined.closeBatch else joined).commitCmd c).fetchAll))

/-- SESSION_OPEN with a NODE_ID and random bits runs the handshake on its port: an authentic peer becomes a session, any
other is refused with ST_SIGNATURE_INVALID (R431–R434). -/
def Claims.SessionOpen : Prop := ∀ (m slot : Nat) (s : State) (c : Cmd) (tag : W16) (h : Handshake), Turn 0x0E05 m slot s c tag →
  let port := c.param 2 1
  let t := s.emit (.reply (16 + port) (Config.spdmReply (16 + port) []))
  c.param 0 2 < 0x3FF → port < 4 → c.param 4 2 < 4096 → s.cfg.nodeId.isSome = true → s.sec.rngFailed = false →
  (∀ i u, h.authentic = true → t.addSession (c.param 0 2) port h = some (i, u) → exec (.sessionOpen m slot h) s = .next (u.answered c St.ok (toLe 2 i))) ∧
  (h.authentic = false → exec (.sessionOpen m slot h) s = .next (t.answered c St.signatureInvalid []))

/-- SESSION_CLOSE sends END_SESSION and drops the session: its connections enter ERROR (R433). -/
def Claims.SessionClose : Prop := ∀ (m slot : Nat) (s : State) (c : Cmd) (tag : W16) (k : Session), Turn 0x0E06 m slot s c tag →
  tget s.flyer.sessions (c.param 0 2) = some k → exec (.sessionClose m slot) s =
    .next (((s.emit (.reply (16 + k.port) (Config.spdmReply (16 + k.port) (toLe 2 k.peerIndex)))).dropSession (c.param 0 2)).answered c St.ok [])

/-- TENANT_DESTROY of a live tenant carries out steps 1 to 4 of R403, withdraws the tenant, and is answered after the
zeroing (R441). -/
def Claims.TenantDestroy : Prop := ∀ (m slot : Nat) (s : State) (c : Cmd) (tag : W16) (t : Tenant), Turn 0x0201 m slot s c tag →
  let name := c.tenantField
  let begun := s.modTenant name fun t => { t with teardown := true, waiter := some c.ref }
  let ended := ((((begun.teardownBoxes name).teardownWork name).teardownSkeins name).teardownQueues name).teardownLent (tidOf name)
  let marked := ended.modTenant name fun u =>
    { u with zeroed := ({ u with use := t.use } : Tenant).held, creelReleased := t.use.getD qCreel 0 }
  tget s.tenants (tidOf name) = some t → t.live = true → t.gen = tgenOf name → t.teardown = false → exec (.tenantDestroy m slot) s =
    .next (((marked.modSec fun y => { y with destroying := y.destroying ++ [tidOf name] }).writeKeyStore.commitCmd c).fetchAll)

/-! ## Host accesses to registers -/

/-- SQ_TAIL_WRITE: a value below DEPTH of an ACTIVE mailbox is taken, and the module fetches; any other value is ignored and
sets DOORBELL_REJECT (R379). -/
def Claims.SqTailWrite : Prop := ∀ (ld m : Nat) (v : W32) (s : State), ld < 16 → m < 1024 →
  let b := s.mbox m
  let row := exec (.sqTailWrite ld m v) s
  (b.ld = some ld → b.state = .active → v.toNat < b.depth → row = .next (s.setMbox m { b with sqTail := v.toNat }).fetchAll) ∧
  (b.ld = some ld → (b.state ≠ .active ∨ b.depth ≤ v.toNat) → row = .next (s.setFlag Flag.doorbellReject)) ∧
  (b.ld ≠ some ld → row = .next s)

/-- CQ_HEAD_WRITE consumes the completions that the new head passes (R378, R380). -/
def Claims.CqHeadWrite : Prop := ∀ (ld m : Nat) (v : W32) (s : State), ld < 16 → m < 1024 →
  let b := s.mbox m
  let row := exec (.cqHeadWrite ld m v) s
  (b.ld = some ld → b.state = .active → v.toNat < b.depth → row = .next (s.setMbox m
    { b with cqHead := v.toNat, cqRead := min b.cqWritten (b.cqRead + (v.toNat + b.depth - b.cqHead) % b.depth) }).fetchAll) ∧
  (b.ld = some ld → (b.state ≠ .active ∨ b.depth ≤ v.toNat) → row = .next (s.setFlag Flag.doorbellReject)) ∧
  (b.ld ≠ some ld → row = .next s)

/-- EVENT_HEAD_WRITE consumes the records that the new head passes, and waiting records enter the freed slots (R393). -/
def Claims.EventHeadWrite : Prop := ∀ (ld m : Nat) (v : W32) (s : State), ld < 16 → m < 1024 →
  let b := s.mbox m
  let row := exec (.eventHeadWrite ld m v) s
  (b.ld = some ld → b.state = .active → v.toNat < 256 → row = .next (State.drainEvents 256 m (s.setMbox m
    { b with eventHead := v.toNat, evRead := min b.evWritten (b.evRead + (v.toNat + 256 - b.eventHead) % 256) }))) ∧
  (b.ld = some ld → (b.state ≠ .active ∨ 256 ≤ v.toNat) → row = .next (s.setFlag Flag.doorbellReject)) ∧
  (b.ld ≠ some ld → row = .next s)

/-- The five doorbells (R345): each acts as its queue's own rule says, or sets DOORBELL_REJECT. -/
def Claims.Doorbells : Prop :=
  rings .jobQueueDoorbell ringJq ∧ rings .sendQueueDoorbell ringSq ∧ rings .triggerRingDoorbell ringList ∧ rings .srqDoorbell ringSrq ∧
  rings .cqHeadUpdate ringCq

/-- What the doorbells of queues take (R345): the slots from the old tail up to a new tail within the ring, posted in order;
CQ_HEAD_UPDATE frees entries and lets held completions in (R304). -/
def Claims.DoorbellEffects : Prop := ∀ (s : State) (tag : W16) (n v : Nat),
  (∀ j, s.jqFor tag n = some j → n < 65536 → v < j.depth →
    let j' : Jq := { j with tail := v, entries := j.entries ++ (newSlots j.depth j.tail v).map fun k => { slot := some k } }
    ringJq s tag n v = some (s.modWork fun w => { w with jqs := tset w.jqs n j' })) ∧
  (∀ q, s.srqFor tag n = some q → n < 65536 → v < q.entries →
    let q' : Srq := { q with tail := v, fifo := q.fifo ++ newSlots q.entries q.tail v }
    ringSrq s tag n v = some (s.modFlyer fun f => { f with srqs := tset f.srqs n q' })) ∧
  (∀ i c, s.connFor tag (BitVec.ofNat 32 n) = some (i, c) → v < c.sqDepth →
    let c' : Conn := { c with sqTail := v, sq := c.sq ++ (newSlots c.sqDepth c.sqTail v).map fun k => { slot := some k } }
    ringSq s tag n v = some (s.modFlyer fun f => { f with conns := tset f.conns i c' })) ∧
  (∀ c, s.cqFor tag n = some c → n < 65536 → v < c.entries → c.consumed + (v + c.entries - c.consumed % c.entries) % c.entries ≤ c.written →
    ringCq s tag n v = some (State.drainCq c.held.length n (s.modCq n fun k =>
      { k with consumed := k.consumed + (v + c.entries - c.consumed % c.entries) % c.entries }))) ∧
  (∀ l, s.listFor tag n = some l → n < 65536 → v < l.ringDepth →
    ringList s tag n v = some (State.postRing ((v + l.ringDepth - l.ringDone % l.ringDepth) % l.ringDepth) n s))

/-- A doorbell in Standby is ignored and sets DOORBELL_REJECT, whatever its KIND; one in Doze is kept: the last value of up
to 4,096 targets, and DOORBELL_REJECT for a further target (R499). -/
def Claims.DoorbellsAsleep : Prop := ∀ (ld m : Nat) (v : BitVec 60) (s : State), ld < 16 → m < 1024 → (s.mbox m).ld = some ld →
  ∀ k ∈ [(1, Instr.jobQueueDoorbell ld m v), (2, .sendQueueDoorbell ld m v), (3, .triggerRingDoorbell ld m v), (4, .srqDoorbell ld m v),
         (5, .cqHeadUpdate ld m v)],
    let w : W64 := BitVec.ofNat 64 (k.1 * 2 ^ 60 + v.toNat)
    let l := s.cxl.doorbellLatch
    let same := fun (d : Nat × Nat × W64) => d.2.2.toNat / 65536 = w.toNat / 65536
    (s.power.state = .standby → exec k.2 s = .next (s.setFlag Flag.doorbellReject)) ∧
    (s.power.state = .doze → (∀ d ∈ l, ¬ same d) → l.length < 4096 →
      exec k.2 s = .next { s with cxl := { s.cxl with doorbellLatch := l ++ [(ld, m, w)] } }) ∧
    (s.power.state = .doze → (∀ d ∈ l, ¬ same d) → 4096 ≤ l.length → exec k.2 s = .next (s.setFlag Flag.doorbellReject)) ∧
    (s.power.state = .doze → (∃ d ∈ l, same d) →
      let l' := l.map fun d => if same d then (ld, m, w) else d
      exec k.2 s = .next { s with cxl := { s.cxl with doorbellLatch := l' } })

/-- The flag registers (R5, R6, R343, R372): a 1 written by the administrative LD clears its flag outside Standby, a flag that hardware sets in the
same cycle stays set, and a bit written 0 keeps its flag; another LD clears nothing. -/
def Claims.W1cFlagWrite : Prop := ∀ (ld row : Nat) (v hw : W32) (s : State), ld < 16 → row < 13 → ∃ t, exec (.w1cFlagWrite ld row v hw) s = .next t ∧
  ∀ i, i < 32 → (t.flagWord row).getLsbD i =
    (hw.getLsbD i && (flagMask row).getLsbD i || (s.flagWord row).getLsbD i && !(decide (ld = s.cfg.adminLd ∧ s.power.state ≠ .standby) && v.getLsbD i))

/-- The read-clear counters (R6, R7, R372): a read outside Standby gives the counters it covers and clears them, one in Standby
gives zeros and clears none, and both keep an increment of the same cycle. -/
def Claims.RcCounterRead : Prop := ∀ (ld row first width : Nat) (hw : W32) (s : State), ld < 16 → row < 13 →
  let covered := List.range (min width (32 - first))
  ∃ t, exec (.rcCounterRead ld row first width hw) s = .next t ∧
    t.out = s.out ++ [.readData ld (covered.map fun i => if s.power.state = .standby then 0 else s.flagCount row (first + i))] ∧
    ∀ i, i < 32 → t.flagCount row i =
      let kept := if s.power.state ≠ .standby ∧ first ≤ i ∧ i < first + width then 0 else s.flagCount row i
      if (hw &&& flagMask row).getLsbD i then satInc kept else kept

/-- TIME_NOW read in two halves (R478): the low half latches the high half for the LD, and the read of the high half takes
it. -/
def Claims.TimeNowReads : Prop := ∀ (ld : Nat) (s : State), ld < 16 →
  let hi := s.time.now.toNat / 2 ^ 32
  exec (.timeNowLowRead ld) s = .next { s with
    time := { s.time with latch := tset s.time.latch ld (BitVec.ofNat 32 hi) }, out := s.out ++ [.readData ld (toLe 4 (s.time.now.toNat % 2 ^ 32))] } ∧
  (∀ h, tget s.time.latch ld = some h → exec (.timeNowHighRead ld) s = .next { s with
    time := { s.time with latch := tdel s.time.latch ld }, out := s.out ++ [.readData ld (toLe 4 h.toNat)] }) ∧
  (tget s.time.latch ld = none → exec (.timeNowHighRead ld) s = .next { s with
    time := { s.time with latch := tdel s.time.latch ld }, out := s.out ++ [.readData ld (toLe 4 hi)] })

/-- RECOVERY_GO from LD 0 in recovery, once: a wrong length gives RESULT 5, a wrong signature 3, an SVN below the floor 4, and
a good image runs with mailbox 0 open (R525, R526). LENGTH is kept. -/
def Claims.RecoveryGo : Prop := ∀ (s : State) (len : W32),
  let img := s.boot.recoveryBuf.readN 0 len.toNat
  let st := verifyImage s.sec 2 img
  let after := fun (k : Nat) => { s with boot := { s.boot with recoveryLength := len, recoveryResult := k } }
  let row := exec (.recoveryGo 0 len) s
  (s.boot.state = .recovery → s.boot.recoveryResult ≠ 1 → s.boot.recoveryResult ≠ 2 →
    ((len.toNat = 0 ∨ 0x00800000 < len.toNat) → row = .next (after 5)) ∧
    (0 < len.toNat → len.toNat ≤ 0x00800000 →
      let r := (after 2).runImage img
      row = .next (if st = St.signatureInvalid then after 3 else if st = St.rollback then after 4 else
        ({ r with boot := { r.boot with recoveryRun := true, serviceLevel := 1 }, store := { r.store with poolSlots := poolMax } }).openBox0))) ∧
  (s.boot.state ≠ .recovery → row = .next { s with boot := { s.boot with recoveryLength := len } })

/-- REGISTER_WRITE (R342–R344, R526): SQ_TAIL, CQ_HEAD, EVENT_HEAD and QUEUE_DOORBELL act through their mailbox's page as
their own rows do; flag registers clear for the administrative LD; LENGTH of RECOVERY_CTRL and, in recovery, the recovery
buffer take what LD 0 writes; and a write to any other offset of BAR0 is ignored. -/
def Claims.RegisterWrite : Prop := ∀ (ld : Nat) (s : State), ld < 16 →
  (∀ (m : Nat) (v : W32), m < 1024 → let p := 0x100000 + m * 0x1000
    exec (.registerWrite ld p (toLe 4 v.toNat)) s = exec (.sqTailWrite ld m v) s ∧
    exec (.registerWrite ld (p + 4) (toLe 4 v.toNat)) s = exec (.cqHeadWrite ld m v) s ∧
    exec (.registerWrite ld (p + 8) (toLe 4 v.toNat)) s = exec (.eventHeadWrite ld m v) s) ∧
  (∀ (m : Nat) (v : BitVec 60), m < 1024 →
    exec (.registerWrite ld (0x100010 + m * 0x1000) (toLe 8 (2 ^ 60 + v.toNat))) s = exec (.jobQueueDoorbell ld m v) s) ∧
  (∀ (row : Nat) (v : W32), row < 13 → exec (.registerWrite ld (0x10200 + 0x40 * row) (toLe 4 v.toNat)) s =
    .next (if ld = s.cfg.adminLd ∧ s.power.state ≠ .standby then s.clearFlags row v else s)) ∧
  (∀ v : W32, exec (.registerWrite 0 0x34 (toLe 4 v.toNat)) s = .next { s with boot := { s.boot with recoveryLength := v } }) ∧
  (∀ off data, 0x02000000 ≤ off → off + data.length ≤ 0x02800000 → s.boot.state = .recovery → exec (.registerWrite 0 off data) s =
    .next { s with boot := { s.boot with recoveryBuf := s.boot.recoveryBuf.writeN (off - 0x02000000) data } }) ∧
  (∀ off data, off + data.length ≤ 0x04000000 → (off < 0x30 ∨ 0x38 ≤ off ∧ off < 0x10200 ∨ 0x10540 ≤ off ∧ off < 0x100000 ∨
    0x500000 ≤ off ∧ off < 0x02000000 ∨ 0x02800000 ≤ off) → exec (.registerWrite ld off data) s = .next s)

/-! ## Windows and decoders -/

/-- PROBE_READ gives the record of a skein to an LD whose tenant owns it, and that of a FREE index to any other; the lease is
brought up to date first (R150, R356, R357). In Standby it gives zeros, and PROBE_WRITE is discarded; outside Standby
PROBE_WRITE sets its flag and changes nothing else (R360, R499). -/
def Claims.ProbeWindow : Prop := ∀ (ld idx : Nat) (s : State), ld < 16 → idx < 4194304 →
  let t := s.expireLease idx
  (s.power.state ≠ .standby →
    (∀ k, t.skein? idx = some k → t.ldReaches ld k.tenant = true →
      exec (.probeRead ld idx) s = .next { t with out := t.out ++ [.readData ld (t.probeRecord idx (some k))] }) ∧
    (((t.skein? idx).all fun k => !t.ldReaches ld k.tenant) = true →
      exec (.probeRead ld idx) s = .next { t with out := t.out ++ [.readData ld (t.probeRecord idx none)] }) ∧
    exec (.probeWrite ld idx) s = .next (s.setFlag Flag.probeWrite)) ∧
  (s.power.state = .standby → exec (.probeRead ld idx) s = .next { s with out := s.out ++ [.readData ld (List.replicate 64 0)] } ∧
    exec (.probeWrite ld idx) s = .next s)

/-- LENT_READ of a line that an entry of the LD's present generation lets it read gives the 64 bytes of that line, or zeros
with LENT_UE and its events where the line is uncorrectable (R361–R363, R366). -/
def Claims.LentRead : Prop := ∀ (ld off : Nat) (e : HostEntry) (s : State), ld < 16 → off % 64 = 0 → off < s.cfg.lentGib * 2 ^ 30 → s.cfg.lentGib ≤ 512 →
  s.power.state ≠ .standby → s.holdsRequests = false → e ∈ s.cxl.hostTable.map (·.2) → e.ld = ld → e.hostGen = (s.ld ld).hostGen →
  e.base ≤ off → off < e.base + e.length → e.read = true →
  let a := s.lentAddr off
  (s.cxl.badLines.contains a = false → ((tget s.cxl.lineKeys a).all fun k => k == s.lentKey ld off) = true →
    exec (.lentRead ld off) s = .next { s with out := s.out ++ [.readData ld (s.mem.readN a 64)] }) ∧
  (s.cxl.badLines.contains a = true → ∃ t : State, exec (.lentRead ld off) s =
    .next { t with out := t.out ++ [.readData ld (List.replicate 64 0)] } ∧ t.mem = s.mem ∧ (t.flagWord 11).getLsbD 5 = true)

/-- LENT_WRITE of a line that an entry of the LD's present generation lets it write stores its 64 bytes there and heals the
line; nothing else of memory changes (R361–R363, R443). -/
def Claims.LentWrite : Prop := ∀ (ld off : Nat) (line : List Byte) (e : HostEntry) (s : State), ld < 16 → off % 64 = 0 →
  off < s.cfg.lentGib * 2 ^ 30 → s.cfg.lentGib ≤ 512 → s.power.state ≠ .standby → s.holdsRequests = false → e ∈ s.cxl.hostTable.map (·.2) →
  e.ld = ld → e.hostGen = (s.ld ld).hostGen → e.base ≤ off → off < e.base + e.length → e.write = true → line.length = 64 →
  let a := s.lentAddr off
  let cxl := { s.cxl with lineKeys := tset s.cxl.lineKeys a (s.lentKey ld off), badLines := s.cxl.badLines.filter (· != a) }
  exec (.lentWrite ld off line) s = .next { s with mem := s.mem.writeN a line, cxl } ∧
  (s.mem.wf = true → ∀ x, (x < a ∨ a + 64 ≤ x) → (s.mem.writeN a line).read x = s.mem.read x)

/-- The four checks of a lent access, in their order: the offset below LENT_GIB, an entry of the LD that covers the line, one
at the LD's present generation, one that grants the access; any one entry that passes the last two allows it (R362). -/
def Claims.LentChecks : Prop := ∀ (s : State) (ld off : Nat) (write : Bool),
  let covers := fun (e : HostEntry) => e ∈ s.cxl.hostTable.map (·.2) ∧ e.ld = ld ∧ e.base ≤ off ∧ off < e.base + e.length
  let fresh := fun (e : HostEntry) => covers e ∧ e.hostGen = (s.ld ld).hostGen
  let grants := fun (e : HostEntry) => fresh e ∧ (if write then e.write else e.read) = true
  let inside := off < s.cfg.lentGib * 2 ^ 30
  (¬ inside → s.lentStep ld off write = 1) ∧ (inside → (∀ e, ¬ covers e) → s.lentStep ld off write = 2) ∧
  (inside → (∃ e, covers e) → (∀ e, ¬ fresh e) → s.lentStep ld off write = 3) ∧
  (inside → (∃ e, fresh e) → (∀ e, ¬ grants e) → s.lentStep ld off write = 4) ∧
  (inside → (∃ e, grants e) → s.lentStep ld off write = 0)

/-- A lent access that no entry allows is denied: a read gives zeros, a write stores nothing, LENT_DENIED is set and the
denial counted (R362, R363). -/
def Claims.LentDenied : Prop := ∀ (ld off : Nat) (line : List Byte) (s : State), ld < 16 → off % 64 = 0 → off < 512 * 2 ^ 30 →
  s.power.state ≠ .standby → s.holdsRequests = false →
  (s.lentStep ld off false ≠ 0 →
    let t := s.denyLent ld off (s.lentStep ld off false)
    exec (.lentRead ld off) s = .next { t with out := t.out ++ [.readData ld (List.replicate 64 0)] }) ∧
  (s.lentStep ld off true ≠ 0 → exec (.lentWrite ld off line) s = .next (s.denyLent ld off (s.lentStep ld off true))) ∧
  (∀ step, (s.denyLent ld off step).mem = s.mem ∧ ((s.denyLent ld off step).flagWord 11).getLsbD 1 = true ∧
    ((s.denyLent ld off step).ld ld).denied = (s.ld ld).denied + 1)

/-- QUEUE_WINDOW_ACCESS to mapped, good lines: a read gives the bytes, a write stores them and changes nothing else; an
unmapped byte reads zero, takes nothing, and sets QUEUE_UNMAPPED (R354). -/
def Claims.QueueWindow : Prop := ∀ (ld off len : Nat) (s : State), ld < 16 → s.holdsRequests = false → s.cxl.badLines = [] →
  (∀ mapped : Bool, mapped = ((List.range len).all fun i => (s.slabAt ld (off + i)).isSome) → off + len ≤ 64 * 2 ^ 30 →
    let t := if mapped then s else s.setFlag Flag.queueUnmapped
    exec (.queueWindowAccess ld off len none) s = .next { t with out := t.out ++ [.readData ld (s.windowRead ld off len)] }) ∧
  (∀ (data : List Byte) (mapped : Bool), mapped = ((List.range data.length).all fun i => (s.slabAt ld (off + i)).isSome) →
    off + data.length ≤ 64 * 2 ^ 30 →
    exec (.queueWindowAccess ld off len (some data)) s = .next ((if mapped then s else s.setFlag Flag.queueUnmapped).windowWrite ld off data)) ∧
  (∀ i, i < len → (s.windowRead ld off len)[i]? = some (((s.windowAddr ld (off + i)).map s.mem.read).getD 0))

/-- HDM_DECODER_COMMIT: decoder 0 covers the probe window, 1 the queue window, 2 to 7 the lent window in ascending order; a
commit within its range is kept, and any other leaves the decoders as they are and raises the decoder's error status (R352). -/
def Claims.HdmDecoderCommit : Prop := ∀ (ld dec base size : Nat) (s : State), ld < 16 → dec < 8 →
  let lo := if dec = 0 then 0 else if dec = 1 then 0x10000000 else 0x2000000000
  let hi := if dec = 0 then 0x10000000 else if dec = 1 then 0x1010000000 else 0xA000000000
  let l := s.ld ld
  (lo ≤ base → 0 < size → base + size ≤ hi → l.ascending dec base size = true → exec (.hdmDecoderCommit ld dec base size) s =
    .next (s.setLd ld { l with decoders := tset l.decoders dec (base, size), decoderError := l.decoderError.filter (· != dec) })) ∧
  ((base < lo ∨ size = 0 ∨ hi < base + size ∨ l.ascending dec base size = false) → ∃ e, exec (.hdmDecoderCommit ld dec base size) s =
    .next (s.setLd ld { l with decoderError := e }) ∧ dec ∈ e)

/-! ## Job queues and jobs (R119–R133) -/

/-- JOB_ADMISSION of a descriptor that passes steps 1 to 9 of R124 makes a job and takes steps 10 to 12; one that fails a
check completes with that check's status, and nothing of it is admitted. -/
def Claims.JobAdmission : Prop := ∀ (q : Nat) (s s1 : State) (j : Jq) (e : QEntry) (es : List QEntry) (b : List Byte), AtHead s q j e es b →
  field b 0 1 ≠ 0x11 → field b 0 1 ≠ 0x12 → field b 0 1 ≠ 0x13 →
  (∀ x : Job, (s.popped q es).checkJob q j.tenant e b = (.ok x, s1) → exec (.jobAdmission q) s =
    .next (State.step10 (s1.modWork fun w => { w with nextJob := s1.work.nextJob + 1, jobs := tset w.jobs s1.work.nextJob x }) s1.work.nextJob x)) ∧
  (∀ st : Nat, (s.popped q es).checkJob q j.tenant e b = (.error st, s1) →
    exec (.jobAdmission q) s = .next (s1.completeEntry q e b st 0))

/-- A descriptor of another TYPE, another version or another length is refused with its own status, in this order (R12,
R124 steps 1 and 2). -/
def Claims.JobHeader : Prop := ∀ (s : State) (q : Nat) (tag : W16) (e : QEntry) (b : List Byte),
  (field b 0 1 ≠ 0x10 → s.checkJob q tag e b = (.error St.badType, s)) ∧
  (field b 0 1 = 0x10 → field b 1 1 ≠ 1 → s.checkJob q tag e b = (.error St.versionUnsupported, s)) ∧
  (field b 0 1 = 0x10 → field b 1 1 = 1 → field b 2 1 ≠ 2 → s.checkJob q tag e b = (.error St.lengthRange, s)) ∧
  (field b 0 1 = 0x10 → field b 1 1 = 1 → field b 2 1 = 2 → jobZeros b = false → s.checkJob q tag e b = (.error St.reservedNonzero, s)) ∧
  (field b 0 1 = 0x10 → field b 1 1 = 1 → field b 2 1 = 2 → jobZeros b = true → jobExcluded b = true →
    s.checkJob q tag e b = (.error St.invalidMode, s))

/-- A job without CACHE_PLY and SELECTIVE whose bobbins all need no reload is admitted with every bobbin of its ranges
planned, once its images and engines still stand (R113, R124 steps 10 to 12, R126). -/
def Claims.PlainAdmission : Prop := ∀ (s : State) (id : Nat) (j : Job), jdCache j.bytes = false → jdSelective j.bytes = false →
  (∀ e ∈ j.entries, (s.skein? (skIndex e.skein)).isSome = true) →
  let planned := j.entries.map fun e =>
    { e with plan := match s.skein? (skIndex e.skein) with | some k => (bobbinRanges k.cap e.first e.last).map (·.1) | none => [] }
  let j' : Job := { j with entries := planned }
  (∀ e ∈ planned, s.reloadsOf j.bytes e = []) → s.step10 id j = (s.setJob id j').admitLate id j'

/-- JOB_ADMISSION_RESUME translates a job whose bobbins have all come, and lets one go on whose key no other job still
runs; any other job waits on (R126, R147). -/
def Claims.JobAdmissionResume : Prop := ∀ (id : Nat) (s : State) (j : Job), s.job? id = some j → s.awake = true →
  (j.phase = .waiting → (∀ e ∈ j.entries, s.reloadsOf j.bytes e = []) → exec (.jobAdmissionResume id) s = .next (s.translateJob id j)) ∧
  (j.phase = .waiting → (∃ e ∈ j.entries, s.reloadsOf j.bytes e ≠ []) → exec (.jobAdmissionResume id) s = .next s) ∧
  (j.phase = .cacheWait → s.keyRuns id j = false → exec (.jobAdmissionResume id) s = .next (s.step10 id j)) ∧
  (j.phase = .cacheWait → s.keyRuns id j = true → exec (.jobAdmissionResume id) s = .next s)

/-- ADMIT_WAIT_EXPIRY ends the job with ST_NOT_RESIDENT; of the reload requests only idle ones made for jobs may lapse (R126). -/
def Claims.AdmitWaitExpiry : Prop := ∀ (id t : Nat) (s : State) (j : Job), s.job? id = some j → j.phase = .waiting → j.waitUntil = some t →
  t ≤ s.time.localNow → s.awake = true →
  let s1 := s.endJob id j St.notResident 0 0
  ∃ rs : Table Reload, exec (.admitWaitExpiry id) s = .next (s1.modStore fun x => { x with reloads := rs }) ∧
    (∀ r ∈ rs, r ∈ s1.store.reloads) ∧
    (∀ r ∈ s1.store.reloads, (s1.creelServes = true ∨ r.2.waiters ≠ [] ∨ r.2.forJob = false ∨ r.2.reloaded ≠ 0) → r ∈ rs)

/-- SKETCH_WAIT_DONE selects and translates a deterministic selective job once no earlier sketch update of its skeins is
pending, and not before (R489). -/
def Claims.SketchWaitDone : Prop := ∀ (id : Nat) (s : State) (j : Job), s.job? id = some j → j.phase = .sketchWait → s.awake = true →
  (s.sketchPending j = false → exec (.sketchWaitDone id) s = .next (s.selectJob id j)) ∧
  (s.sketchPending j = true → exec (.sketchWaitDone id) s = .next s)

/-- LAUNCH_COUNT_REACHED: a job whose launch count has come streams where every spindle of its barrier has arrived, and
waits at the barrier otherwise; before the count nothing starts (R118, R127). -/
def Claims.LaunchCountReached : Prop := ∀ (id : Nat) (s : State) (j : Job), s.job? id = some j → j.phase = .launchWait →
  let all := (maskSpindles (jdBarrier j.bytes)).all j.barrier.contains
  (s.time.now < j.launch → exec (.launchCountReached id) s = .next s) ∧
  (j.launch ≤ s.time.now → exec (.launchCountReached id) s =
    .next (s.setJob id { j with startAt := s.time.localNow, phase := if all then .streaming else .barrier }))

/-- SPINDLE_BARRIER_ARRIVE: an idle named spindle takes the job's fold and counts as arrived; the last arrival releases the
job once its launch count has come (R118). A spindle serves the barriers that name it in the order of their jobs. -/
def Claims.SpindleBarrierArrive : Prop := ∀ (id sp : Nat) (s : State) (j : Job), sp < 8 → s.job? id = some j →
  s.barrierOf sp = some id → sp ∉ j.barrier → (∀ f ∈ s.flying, f / 64 ≠ sp) → s.spindleServes sp = true → s.awake = true →
  let at' := j.barrier ++ [sp]
  let all := (maskSpindles (jdBarrier j.bytes)).all at'.contains
  exec (.spindleBarrierArrive id sp) s = .next ((s.setFold sp j).setJob id
    { j with barrier := at', phase := if s.time.now < j.launch then .launchWait else if all then .streaming else .barrier })

/-- LEA_ARRIVAL of an item's next lea at the sub-array that serves it: a lea that fails its checks is excluded and its
bobbin is handled as damaged; otherwise one block is taken into the state of every row, or the score program's trap
fails the job (R42, R75, R98, R101). The access presents the tenant's tag first (R438). -/
def Claims.LeaArrival : Prop := ∀ (id item lea sp sub : Nat) (s : State) (j : Job) (i : Item) (e : JobEntry), sp < 8 → s.job? id = some j →
  j.items[item]? = some i → j.entries[i.entry]? = some e → j.whorls = false → j.phase = .streaming → i.done = false → lea = i.leas →
  lea < leasOf e.cap i.leaf.count → sub < 64 → i.sub = some (sp * 64 + sub) → (s.power.state = .run ∨ s.power.state = .hold) →
  let key := fun (r : Nat) => partKey j r i.bobbin (sp * 64 + sub)
  let i1 := { i with leas := i.leas + 1 }
  let i2 := { i1 with lost := i.lost ++ [lea] }
  let t := s.checkTag j.tenant sp (slotAddr i.leaf.tier i.leaf.pbn + 16384 * lea)
  let fold := fun toks => t.blockRows j i.entry e i.bobbin i.leaf.count toks (leaSlots e.cap lea) (e.passRows i.pass) fun r => j.part (key r)
  (t.leaTokens j e i.leaf i.bobbin lea = none → exec (.leaArrival id item lea sp sub) s =
    .next (((t.setJob id { j with items := j.items.set item i2 }).damageFor e j i.bobbin).restSpindles)) ∧
  (∀ toks out, t.leaTokens j e i.leaf i.bobbin lea = some toks → fold toks = .ok out → exec (.leaArrival id item lea sp sub) s =
    .next ((t.setJob id { j with items := j.items.set item i1, states := out.foldl (fun m x => tset m (key x.1) x.2) j.states }).restSpindles)) ∧
  (∀ toks why, t.leaTokens j e i.leaf i.bobbin lea = some toks → fold toks = .error why → exec (.leaArrival id item lea sp sub) s =
    .next (t.trapJob id j 1 ((jdProgram j.bytes).getD 0) why))

/-- The first lea of an item goes to a sub-array that may take it, which keeps the row states from before it; a sub-array
that may not take it leaves everything as it is (R94, R106, R107, R109). -/
def Claims.ItemDealt : Prop := ∀ (id item sp sub : Nat) (s : State) (j : Job) (i : Item) (e : JobEntry), sp < 8 → s.job? id = some j →
  j.items[item]? = some i → j.entries[i.entry]? = some e → j.whorls = false → j.phase = .streaming → i.done = false → i.leas = 0 →
  0 < leasOf e.cap i.leaf.count → i.sub = none →
  let t := (s.setFold sp j).checkTag j.tenant sp (slotAddr i.leaf.tier i.leaf.pbn)
  let key := fun (r : Nat) => partKey j r i.bobbin (sp * 64 + sub)
  (s.takesItem j i sp sub = false → exec (.leaArrival id item 0 sp sub) s = .next s) ∧
  (s.takesItem j i sp sub = true → ∀ toks out, t.leaTokens j e i.leaf i.bobbin 0 = some toks →
    t.blockRows j i.entry e i.bobbin i.leaf.count toks (leaSlots e.cap 0) (e.passRows i.pass) (fun r => j.part (key r)) = .ok out →
    let i1 := { i with leas := 1, sub := some (sp * 64 + sub), saved := (e.passRows i.pass).map fun r => (key r, j.part (key r)) }
    sub < 64 → exec (.leaArrival id item 0 sp sub) s = .next ((t.setJob id
      { j with items := j.items.set item i1, states := out.foldl (fun m x => tset m (key x.1) x.2) j.states }).restSpindles))

/-- SPINDLE_ITEM_COMPLETE once every lea of an item has been handled: the item is done, its sub-array free and the latest
whose partial completed (R106). -/
def Claims.SpindleItemComplete : Prop := ∀ (id item u : Nat) (s : State) (j : Job) (i : Item) (e : JobEntry), s.job? id = some j →
  j.items[item]? = some i → i.sub = some u → j.entries[i.entry]? = some e → i.done = false → leasOf e.cap i.leaf.count ≤ i.leas →
  exec (.spindleItemComplete id item) s = .next (s.setJob id { j with
    items := j.items.set item { i with done := true }, order := (j.order.filter (· != u)) ++ [u] }).restSpindles

/-- JOB_STREAM_COMPLETE of a spindle job whose items are all done delivers the rows of its merged, rescaled states; while
an item is left nothing is delivered (R105, R107, R133). -/
def Claims.JobStreamComplete : Prop := ∀ (id : Nat) (order : List Nat) (s : State) (j : Job), s.job? id = some j → j.phase = .streaming →
  s.awake = true → j.whorls = false →
  ((∀ i ∈ j.items, i.done = true) → exec (.jobStreamComplete id order) s = .next ((s.countLate j).deliverJob id j (s.jobRows j) false)) ∧
  ((∃ i ∈ j.items, i.done = false) → exec (.jobStreamComplete id order) s = .next s)

/-- JOB_STREAM_COMPLETE of a whorl job in Run computes its items, in the order named or by class, handles the damaged
bobbins and delivers; a trap fails the job (R165, R166, R98). -/
def Claims.WhorlJob : Prop := ∀ (id : Nat) (order : List Nat) (s : State) (j : Job), s.job? id = some j → j.phase = .streaming → s.awake = true →
  j.whorls = true → s.power.state = .run → ((∀ i ∈ j.items, i.leaf.tier ≠ 0) ∨ s.spindlesInService ≠ 0) →
  (∀ j' : Job, s.whorlItems j order = .ok j' → exec (.jobStreamComplete id order) s =
    .next (((s.whorlTag j').damageLost j').deliverJob id j' (s.jobRows j') false)) ∧
  (∀ t, s.whorlItems j order = .error t → exec (.jobStreamComplete id order) s = .next (s.trapJob id j 1 ((jdProgram j.bytes).getD 0) t))

/-- Rows go where DEST says: to a connection as a PLY message of its send queue, which completes the job later; to a
BUFFER region with WRITE, which ends the job with the bytes written; a refused write ends it with the refusal (R133). -/
def Claims.JobDelivery : Prop := ∀ (s : State) (id : Nat) (j : Job) (rows : List Byte) (replayed : Bool), j.staging = none →
  let j' : Job := { j with rows, replayed, phase := .sent, staging := none }
  let s1 := s.setJob id j'
  let n := rows.length / jobRowSize j.bytes
  (jdDest j.bytes = 0 → (∃ k, s1.connAt j.tenant (jdConn j.bytes) = some k) → s.deliverJob id j rows replayed =
    s1.postPly (jdConn j.bytes) { payload := plyHeader n (jdPlySlub j.bytes) (jdPlyBf16 j.bytes) (jdDv j.bytes) ++ rows, source := some (0, id) }) ∧
  (jdDest j.bytes = 1 → ∀ s2, s1.writeRows j.tenant (jdPlyKey j.bytes) (field j.bytes 112 4) rows = .ok s2 →
    s.deliverJob id j rows replayed = s2.endJob id j' St.ok 0 rows.length) ∧
  (jdDest j.bytes = 1 → ∀ st, s1.writeRows j.tenant (jdPlyKey j.bytes) (field j.bytes 112 4) rows = .error st →
    s.deliverJob id j rows replayed = s1.endJob id j' st 0 0)

/-- SPINDLE_LEAVES_SERVICE takes a spindle in service OFFLINE, deals its items again and states the service level; one
already out of service changes nothing (R109, R116). -/
def Claims.SpindleLeavesService : Prop := ∀ (sp : Nat) (s : State) (p : Spindle), sp < 8 → s.rel.spindles[sp]? = some p → s.awake = true →
  let out := s.modSpindle sp fun x => { x with state := 4 }
  (p.state ≤ 2 → exec (.spindleLeavesService sp) s = .next (((out.redeal sp).restSpindles).refreshLevel)) ∧
  (p.state ≤ 2 → s.work.jobs = [] → exec (.spindleLeavesService sp) s = .next ((out.restSpindles).refreshLevel)) ∧
  (2 < p.state → exec (.spindleLeavesService sp) s = .next s)

/-! ## Combines, whorl commands and waits -/

/-- COMBINE_DESCRIPTOR_POST makes a context with a free ID whose destination exists, and charges its DRAM to the tenant
(R134, R135); a descriptor that fails its checks completes with the failure. -/
def Claims.CombineDescriptorPost : Prop := ∀ (q : Nat) (s s1 : State) (j : Jq) (e : QEntry) (es : List QEntry) (b : List Byte) (area : Area),
  AtHead s q j e es b → field b 0 1 = 0x11 →
  let p := s.popped q es
  let n := combineSlots b
  (checkCombine b = .ok () → tget p.work.combines (cdId b) = none →
    (cdDest b = 0 ∧ (p.connFor j.tenant (cdConn b)).isSome = true ∨ cdDest b = 1 ∧ (p.regionFor j.tenant (cdKey b)).isSome = true ∨
      cdDest b = 2 ∧ (p.combineFor j.tenant (cdOutCombine b)).isSome = true) →
    p.dramNeed j.tenant n = .ok () → p.takeSlots n = some (area, s1) →
    let c : Combine := { tenant := j.tenant, queue := q, bytes := b, step := BitVec.ofNat 64 (field b 16 8), charge := n, area, trig := e.trig }
    exec (.combineDescriptorPost q) s = .next ((s1.charge j.tenant qDram n).modWork fun w => { w with combines := tset w.combines (cdId b) c })) ∧
  (∀ st, checkCombine b = .error st → exec (.combineDescriptorPost q) s = .next (p.completeEntry q e b st (p.retryFor st n)))

/-- COPY in Run copies its bobbins in order into the destination, and completes with the status in which that ended; a
command that fails a check writes nothing (R167, R168). -/
def Claims.Copy : Prop := ∀ (q : Nat) (s : State) (j : Jq) (e : QEntry) (es : List QEntry) (b : List Byte), AtHead s q j e es b →
  s.power.state = .run → field b 0 1 = 0x12 → wcOp b = 1 →
  let p := s.popped q es
  let fin' := fun (st : Nat) (t : State) => t.completeEntry q e b st (t.retryFor st (wcKeys b).length)
  (∀ st, p.whorlChecks j.tenant b = .error st → exec (.copy q) s = .next (fin' st p)) ∧
  (∀ k d, p.whorlChecks j.tenant b = .ok (k, some d) → ∀ st, p.copyChecks b k d = .error st → exec (.copy q) s = .next (fin' st p)) ∧
  (∀ k d, p.whorlChecks j.tenant b = .ok (k, some d) → p.copyChecks b k d = .ok () → ∀ st t,
    p.copyKeys (skIndex (wcSkein b)) (skIndex (wcDest b)) (wcKeys b) = (st, t) → exec (.copy q) s = .next (fin' st t))

/-- VERIFY in Run checks every named tier-1 bobbin, handles each failure under R42, and completes with ST_RECOMPUTE_NEEDED
where a named bobbin is DAMAGED then, with ST_OK otherwise (R170). -/
def Claims.Verify : Prop := ∀ (q : Nat) (s : State) (j : Jq) (e : QEntry) (es : List QEntry) (b : List Byte) (k : Skein) (d : Option Skein),
  AtHead s q j e es b → s.power.state = .run → field b 0 1 = 0x12 → wcOp b = 3 → (s.popped q es).whorlChecks j.tenant b = .ok (k, d) →
  let p := s.popped q es
  let bad := (wcKeys b).filter fun key => match tget k.leaves key with
    | some l => l.tier == 1 && l.check != .damaged && !bobbinOk p.mem k.cap l (slotAddr 1 l.pbn) (keyLayer key) (keyHg key) (keyBob key)
    | none => false
  let t := bad.foldl (fun t key => t.damage (skIndex (wcSkein b)) key) p
  let st := if ((wcKeys b).any fun key => match (t.skein? (skIndex (wcSkein b))).bind fun k => tget k.leaves key with
      | some l => l.check == .damaged
      | none => false) then St.recomputeNeeded else St.ok
  exec (.verify q) s = .next (t.completeEntry q e b st (t.retryFor st (wcKeys b).length))

/-- COMPACT to a FORMAT that R169 allows becomes a job of the tier engine with its bobbins in order; another FORMAT
completes with ST_INVALID_MODE (R169). -/
def Claims.Compact : Prop := ∀ (q : Nat) (s : State) (j : Jq) (e : QEntry) (es : List QEntry) (b : List Byte) (k : Skein) (d : Option Skein),
  AtHead s q j e es b → field b 0 1 = 0x12 → wcOp b = 2 → (s.popped q es).whorlChecks j.tenant b = .ok (k, d) →
  let p := s.popped q es
  let entry : JobEntry := { skein := wcSkein b, first := 0, last := 0, rowFirst := 0, rowCount := 0, len := 0 }
  let x : Job := { queue := q, tenant := j.tenant, bytes := b, phase := .compacting, query := [], querySlub := 0, trig := e.trig, staging := none,
                   entries := [entry], keys := wcKeys b }
  (reencodable k.format (wcFormat b) = true → exec (.compact q) s =
    .next (State.runTier (p.modWork fun w => { w with nextJob := p.work.nextJob + 1, jobs := tset w.jobs p.work.nextJob x }))) ∧
  (reencodable k.format (wcFormat b) = false → exec (.compact q) s = .next (p.completeEntry q e b St.invalidMode 0))

/-- WAIT_DESCRIPTOR at a job queue: a wait whose counters are already met ends at once, one that a failure count already
fails ends with ST_CHAIN_ERROR, any other stands at the head of its queue (R319, R320). -/
def Claims.WaitJobQueue : Prop := ∀ (q kind : Nat) (s : State) (j : Jq) (e : QEntry) (es : List QEntry) (b : List Byte) (w : Wait), AtHead s q j e es b →
  kind = 0 → field b 0 1 = 0x13 →
  let p := s.popped q es
  p.parseWait j.tenant e b = .ok w →
  let t := p.modJq q fun j => { j with wait := some w }
  (t.testWait j.tenant w = none → exec (.waitDescriptor kind q) s = .next t) ∧
  (∀ st, t.testWait j.tenant w = some st → exec (.waitDescriptor kind q) s = .next (t.endWaitJq q w st (st != 0)))

/-- WAIT_DESCRIPTOR at a send queue in state READY (R319, R320). -/
def Claims.WaitSendQueue : Prop := ∀ (c kind : Nat) (s : State) (k : Conn) (e : QEntry) (rest : List QEntry) (w : Wait), kind ≠ 0 → s.conn? c = some k →
  k.sq = e :: rest → k.wait = none → s.awake = true → e.source = none → s.sqBad k e = false → field (s.sqBytes k e) 0 1 = 0x13 →
  k.state = .ready → k.cancelNext = 0 → k.destroyWaiter = none → s.parseWait k.tenant e (s.sqBytes k e) = .ok w →
  let t := (s.modConn c fun k => { k with sq := rest, cancelNext := k.cancelNext - 1 }).modConn c fun k => { k with wait := some w }
  (t.testWait k.tenant w = none → exec (.waitDescriptor kind c) s = .next t.pumpNotices) ∧
  (∀ st, t.testWait k.tenant w = some st → exec (.waitDescriptor kind c) s = .next (t.endWaitSq c w st (st != 0)).pumpNotices)

/-- WAIT_COUNTER_CHANGE and WAIT_TIMEOUT_EXPIRY at a job queue: the wait ends with what its counters say, or at its
deadline with ST_WAIT_TIMEOUT; an end other than ST_OK cancels the entries that it names (R320). -/
def Claims.WaitEnds : Prop := ∀ (q : Nat) (s : State) (j : Jq) (w : Wait), tget s.work.jqs q = some j → j.wait = some w → s.awake = true →
  (∀ st, s.testWait j.tenant w = some st → exec (.waitCounterChange 0 q) s = .next (s.endWaitJq q w st (st != 0))) ∧
  (s.testWait j.tenant w = none → exec (.waitCounterChange 0 q) s = .next s) ∧
  (∀ t, w.deadline = some t → t ≤ s.time.localNow → exec (.waitTimeoutExpiry 0 q) s =
    .next (let st := (s.testWait j.tenant w).getD St.waitTimeout; s.endWaitJq q w st (st != 0))) ∧
  (∀ t, w.deadline = some t → s.time.localNow < t → exec (.waitTimeoutExpiry 0 q) s = .next s) ∧
  (w.deadline = none → exec (.waitTimeoutExpiry 0 q) s = .next s)

/-- What a wait's counters say: ST_CHAIN_ERROR above the failure limit, then ST_OK from the threshold on (R320). -/
def Claims.WaitTest : Prop := ∀ (s : State) (tag : W16) (w : Wait) (j : Jq), w.sourceKind = 0 → s.jqFor tag w.source.toNat = some j →
  (w.failLimit < j.failed → s.testWait tag w = some St.chainError) ∧
  (j.failed ≤ w.failLimit → w.threshold ≤ j.completed → s.testWait tag w = some St.ok) ∧
  (j.failed ≤ w.failLimit → j.completed < w.threshold → s.testWait tag w = none)

/-! ## Messages (R277–R302) -/

/-- A message row acts only on the message that its connection executes next: received whole, numbered one above LCS, of
the row's opcode, on a connection that is not in ERROR; any other leaves everything as it is (R293, R296). -/
def Claims.MessageOrder : Prop := ∀ (c seq : Nat) (s : State) (k : Conn) (r : Reasm), s.conn? c = some k → s.reasm? c seq false = some r →
  ∀ row ∈ [(Instr.writeExecute c seq, Op.write), (.importWrite c seq, Op.write), (.readExecute c seq, Op.read), (.sendExecute c seq, Op.send),
           (.fetchAddExecute c seq, Op.fetchAdd), (.compareSwapExecute c seq, Op.compareSwap), (.queryExecute c seq, Op.query),
           (.plyExecute c seq, Op.ply), (.appendExecute c seq, Op.append), (.appendComplete c seq, Op.append)],
    (k.state = .error ∨ seq ≠ (k.lcs + 1) % 2 ^ 32 ∨ r.opcode ≠ row.2 ∨ r.total ≠ some r.got ∨ s.awake = false) → exec row.1 s = .next s

/-- The completion of a received message: LCS advances to it and its receive buffer is given back; success is
acknowledged where ACK_REQ asks or eight completions wait, otherwise later; a failure is answered by a NAK, after which
STOP_ON_ERROR puts the connection in ERROR (R282, R296–R298, R301). -/
def Claims.MessageCompletion : Prop := ∀ (s : State) (c seq : Nat) (ackReq : Bool) (st retry : Nat) (k : Conn),
  let t := (s.endReasm c seq false).modConn c fun k =>
    { k with lcs := seq, sinceAck := k.sinceAck + 1, creditZero := false, oldestUnacked := some (k.oldestUnacked.getD s.time.localNow) }
  t.conn? c = some k →
  (st = St.ok → ackReq = false → k.sinceAck < 8 → s.completeRx c seq ackReq st retry = t) ∧
  (st = St.ok → (ackReq = true ∨ 8 ≤ k.sinceAck) → s.completeRx c seq ackReq st retry = t.sendAck c) ∧
  (st ≠ St.ok → k.stopOnError = false → s.completeRx c seq ackReq st retry = t.sendNak c seq st retry) ∧
  (st ≠ St.ok → k.stopOnError = true → s.completeRx c seq ackReq st retry = (t.sendNak c seq st retry).connError c st none)

/-- WORK_REQUEST_POST at a READY connection: the head entry within the windows is checked and sent as a message, or
completes with the status that refuses it; one beyond the windows waits (R283, R295, R297). -/
def Claims.WorkRequestPost : Prop := ∀ (c : Nat) (s : State) (k : Conn) (e : QEntry) (rest : List QEntry), s.conn? c = some k → k.wait = none →
  s.awake = true → k.sq = e :: rest → k.state = .ready → k.cancelNext = 0 → k.destroyWaiter = none → k.peerConn ≠ 0 → e.source = none →
  s.sqBad k e = false → field (s.sqBytes k e) 0 1 ≠ 0x13 →
  let b := s.sqBytes k e
  let pop := fun (t : State) => t.modConn c fun k => { k with sq := rest, cancelNext := k.cancelNext - 1 }
  (k.mayTake (wrOpcode b) (wrLen b) = false → exec (.workRequestPost c) s = .next s) ∧
  (k.mayTake (wrOpcode b) (wrLen b) = true → ∀ payload t, s.workRequest k.tenant b = (St.ok, payload, t) →
    exec (.workRequestPost c) s = .next ((pop t).sendMsg c k (wrMsg b e payload)).pumpNotices) ∧
  (k.mayTake (wrOpcode b) (wrLen b) = true → ∀ st payload t, st ≠ St.ok → s.workRequest k.tenant b = (st, payload, t) →
    exec (.workRequestPost c) s = .next ((pop t).endUnsent c k e st).pumpNotices)

/-- What the module itself posts (a PLY send, a failure notice) is sent in its turn; in ERROR, behind a failed wait or on a
connection being destroyed every entry completes unsent (R282, R320, R409). -/
def Claims.SendQueueTurns : Prop := ∀ (c : Nat) (s : State) (k : Conn) (e : QEntry) (rest : List QEntry), s.conn? c = some k → k.wait = none →
  s.awake = true → k.sq = e :: rest → (e.source.isSome = true ∨ s.sqBad k e = true ∨ field (s.sqBytes k e) 0 1 ≠ 0x13) →
  let pop := fun (t : State) => t.modConn c fun k => { k with sq := rest, cancelNext := k.cancelNext - 1 }
  (∀ src, e.source = some src → k.state = .ready → k.cancelNext = 0 → k.destroyWaiter = none → k.peerConn ≠ 0 →
    k.mayTake (ownMsg e src).opcode e.payload.length = true → exec (.workRequestPost c) s = .next ((pop s).sendMsg c k (ownMsg e src)).pumpNotices) ∧
  (k.state = .error → exec (.workRequestPost c) s = .next ((pop s).endUnsent c k e St.connError).pumpNotices) ∧
  (k.state ≠ .error → 0 < k.cancelNext → exec (.workRequestPost c) s = .next ((pop s).endUnsent c k e St.chainError).pumpNotices) ∧
  (k.state ≠ .error → k.cancelNext = 0 → k.destroyWaiter.isSome = true →
    exec (.workRequestPost c) s = .next ((pop s).endUnsent c k e St.cancelled).pumpNotices)

/-- WRITE_EXECUTE completes a WRITE with the status that its packets met, unless its key names a SKEIN region (R285, R287,
R293). -/
def Claims.WriteExecute : Prop := ∀ (c seq : Nat) (s : State) (k : Conn) (r : Reasm), s.ready? c seq Op.write = some (k, r) →
  (s.importKey k r = false → exec (.writeExecute c seq) s = .next (s.completeRx c seq r.ackReq r.failed 0)) ∧
  (s.importKey k r = true → exec (.writeExecute c seq) s = .next s)

/-- IMPORT_WRITE of a checked image of a whole bobbin enters it as the row's next tier-1 bobbin; the first failing check
gives the status, and nothing is entered (R28, R57, R68, R71, R287). -/
def Claims.ImportWrite : Prop := ∀ (c seq key fmt : Nat) (s : State) (k : Conn) (r : Reasm) (g : Region) (sk : Skein),
  s.ready? c seq Op.write = some (k, r) → s.importKey k r = true → r.failed = 0 → s.regionGrant k.tenant r.key rightImport = .ok g →
  s.skeinOf k.tenant g.skein = .ok sk → sk.importChecks r.roff.toNat r.payload.length = .ok (key, fmt) →
  let image := Mem.writeN [] 0 r.payload
  let no := fun (st : Nat) => s.completeRx c seq r.ackReq st (s.retryFor st (1 + (sk.growth [key] [] []).slots sk))
  exec (.importWrite c seq) s = .next (match imageCheck image sk 0 key fmt with
    | .error st => s.completeRx c seq r.ackReq st 0
    | .ok () => match s.enterImage (skIndex g.skein) sk key fmt r.payload with
      | .error st => no st
      | .ok t => t.completeRx c seq r.ackReq St.ok 0)

/-- READ_EXECUTE answers a permitted READ with its bytes under the request's MSG_SEQ; a refused one is answered by a NAK
(R277, R285, R287). -/
def Claims.ReadExecute : Prop := ∀ (c seq : Nat) (s t : State) (k : Conn) (r : Reasm) (x : Region) (bytes : List Byte),
  s.ready? c seq Op.read = some (k, r) → s.regionGrant k.tenant r.key rightRead = .ok x → r.payload.length = 8 →
  let n := field r.payload 0 4
  zeroIn r.payload 4 4 = true → 1 ≤ n → n ≤ 2 ^ 24 →
  (s.readRegion x r.roff.toNat n = (St.ok, bytes, t) → exec (.readExecute c seq) s =
    .next ((t.respond c Op.readResponse seq bytes).completeRx c seq r.ackReq St.ok 0)) ∧
  (∀ st, st ≠ St.ok → s.readRegion x r.roff.toNat n = (st, bytes, t) → exec (.readExecute c seq) s = .next (t.completeRx c seq r.ackReq st 0))

/-- READ_RESPONSE_RECEIVE and ATOMIC_RESPONSE_RECEIVE place the bytes of a whole response into the request's local region
and complete the request (R277, R302). -/
def Claims.Responses : Prop := ∀ (c seq : Nat) (s : State) (k : Conn) (r : Reasm) (m : Msg), s.conn? c = some k → s.reasm? c seq true = some r →
  k.unacked.find? (fun m => m.seq == seq) = some m → r.total = some r.got → s.awake = true →
  let t := (s.endReasm c seq true).modConn c fun k => { k with unacked := k.unacked.filter fun x => x.seq != seq }
  ∀ row ∈ [(Instr.readResponseReceive c seq, Op.readResponse), (.atomicResponseReceive c seq, Op.atomicResponse)], r.opcode = row.2 →
    (r.payload.length = m.bytes → ∀ u, t.placeLocal k.tenant m.lkey m.loff r.payload = .ok u →
      exec row.1 s = .next ((u.endMsg c m St.ok 0).settle c)) ∧
    (r.payload.length = m.bytes → ∀ st, t.placeLocal k.tenant m.lkey m.loff r.payload = .error st →
      exec row.1 s = .next ((t.endMsg c m st 0).settle c)) ∧
    (r.payload.length ≠ m.bytes → exec row.1 s = .next ((t.endMsg c m St.lengthRange 0).settle c))

/-- FETCH_ADD_EXECUTE and COMPARE_SWAP_EXECUTE on 8 aligned bytes of a BUFFER: the prior value is recorded and sent back;
the sum wraps at 64 bits, the swap value is stored where the compare value stood (R277, R299). -/
def Claims.Atomics : Prop := ∀ (c seq : Nat) (s : State) (k : Conn) (r : Reasm) (g : Region), s.regionGrant k.tenant r.key rightAtomic = .ok g →
  g.kind = 1 → r.payload.length = 16 → r.roff.toNat % 8 = 0 → r.roff.toNat + 8 ≤ g.length →
  let off := r.roff.toNat
  let a : W64 := BitVec.ofNat 64 (field r.payload 0 8)
  let b : W64 := BitVec.ofNat 64 (field r.payload 8 8)
  let old : W64 := BitVec.ofNat 64 (ofLe (s.bufRead g off 8))
  let fin' := fun (v : W64) => (((s.bufWrite g off (toLe 8 v.toNat)).modConn c fun k => k.recordAtomic seq old).respond c Op.atomicResponse seq
    (toLe 8 old.toNat)).completeRx c seq r.ackReq St.ok 0
  (s.ready? c seq Op.fetchAdd = some (k, r) → b = 0 → exec (.fetchAddExecute c seq) s = .next (fin' (old + a))) ∧
  (s.ready? c seq Op.compareSwap = some (k, r) → old = b → exec (.compareSwapExecute c seq) s = .next (fin' a)) ∧
  (s.ready? c seq Op.compareSwap = some (k, r) → old ≠ b → exec (.compareSwapExecute c seq) s = .next (fin' old))

/-- COMPARE_SWAP_EXECUTE on a LEASE region swaps the lease under R31's rule, or is refused with ST_VERSION_CONFLICT (R288);
FETCH_ADD there is not permitted. -/
def Claims.LeaseAtomics : Prop := ∀ (c seq : Nat) (s : State) (k : Conn) (r : Reasm) (g : Region) (sk : Skein),
  s.regionGrant k.tenant r.key rightAtomic = .ok g → g.kind = 3 → r.payload.length = 16 → s.skeinFor k.tenant g.skein = some sk →
  let a : W64 := BitVec.ofNat 64 (field r.payload 0 8)
  let b : W64 := BitVec.ofNat 64 (field r.payload 8 8)
  (s.ready? c seq Op.compareSwap = some (k, r) → r.roff = 0 → ∀ old x t, s.swapLease (skIndex g.skein) b a = some (old, x, t) →
    exec (.compareSwapExecute c seq) s = .next (((t.modConn c fun k => k.recordAtomic seq old).respond c Op.atomicResponse seq
      (toLe 8 old.toNat)).completeRx c seq r.ackReq St.ok 0)) ∧
  (s.ready? c seq Op.compareSwap = some (k, r) → r.roff = 0 → s.swapLease (skIndex g.skein) b a = none →
    exec (.compareSwapExecute c seq) s = .next (s.completeRx c seq r.ackReq St.versionConflict 0)) ∧
  (s.ready? c seq Op.fetchAdd = some (k, r) → b = 0 → exec (.fetchAddExecute c seq) s = .next (s.completeRx c seq r.ackReq St.notPermitted 0))

/-- SEND_EXECUTE consumes the oldest SRQ entry, places the payload in its buffer and posts a completion with KIND 5, the
MSG_SEQ, the bytes and the slot; without an entry it is refused, and with a full completion ring it waits with CREDIT 0
(R302, R304). -/
def Claims.SendExecute : Prop := ∀ (c seq : Nat) (s : State) (k : Conn) (r : Reasm), s.ready? c seq Op.send = some (k, r) →
  let blocked := match tget s.work.cqs k.cq with | some q => q.full || !q.held.isEmpty | none => false
  (∀ slot t, s.takeReceive k r.payload = .ok (slot, t) → blocked = false → exec (.sendExecute c seq) s = .next
    ((t.postCqe k.cq { kind := 5, source := k.handle, msgSeq := seq, bytes := r.payload.length, aux := slot }).completeRx c seq r.ackReq St.ok 0)) ∧
  (∀ slot t, s.takeReceive k r.payload = .ok (slot, t) → blocked = true →
    let u := s.modConn c fun k => { k with creditZero := true }
    exec (.sendExecute c seq) s = .next (if k.creditZero then u else u.raise Ev.cqFull (.tenant k.tenant) [k.cq])) ∧
  (∀ st, s.takeReceive k r.payload = .error st → exec (.sendExecute c seq) s = .next (s.completeRx c seq r.ackReq st 0)) ∧
  (k.srq = none → exec (.sendExecute c seq) s = .next (s.completeRx c seq r.ackReq St.noReceive 0))

/-- QUERY_EXECUTE offers a well-formed QUERY to the tenant's trigger entries and completes with what came of it (R289,
R310): with no entry that matches it sets TRIG_NO_MATCH and answers ST_NO_MATCH. -/
def Claims.QueryExecute : Prop := ∀ (c seq : Nat) (s : State) (k : Conn) (r : Reasm), s.ready? c seq Op.query = some (k, r) →
  (∀ st, parseQuery r.payload = .error st → exec (.queryExecute c seq) s = .next (s.completeRx c seq r.ackReq st 0)) ∧
  (∀ q, parseQuery r.payload = .ok q → s.work.entries = [] → exec (.queryExecute c seq) s =
    .next ((s.setFlag Flag.trigNoMatch).completeRx c seq r.ackReq St.noMatch 0)) ∧
  (∀ q x e st taken t, parseQuery r.payload = .ok q → s.earliest k.tenant q (fun e => !e.halted) = some (x, e) →
    s.fire k.tenant x e q ((r.payload.length + 63) / 64 * 64) = (st, taken, t) →
    exec (.queryExecute c seq) s = .next (t.completeRx c seq r.ackReq st 0))

/-- A firing with room everywhere and no launch delivers each action to the tail of its target queue, counts on its entry
and succeeds (R311–R313); a firing whose target queue is full is refused with ST_NO_RESOURCE and changes nothing (R312). -/
def Claims.Firing : Prop := ∀ (s : State) (tag : W16) (x space : Nat) (e : TrigEntry) (q : Query) (l : TrigList) (a : List Byte),
  tget s.work.lists e.list = some l → e.gone = [] → e.actions = [a] → field a 0 1 ≠ 0x20 → needsQuery a = false → hdrLaunch e.header = 0 →
  s.targetOk tag a (hdrTarget e.header 0) = true → s.work.hold.length ≤ 4096 →
  let n := (hdrTarget e.header 0).toNat
  (s.targetRoom a (hdrTarget e.header 0) = 0 → s.fire tag x e q space = (St.noResource, false, s)) ∧
  (0 < s.targetRoom a (hdrTarget e.header 0) → field e.header 14 2 = 0 →
    let act : QEntry := { bytes := substitute e.header q.step none a, trig := some (trigRef e.handle e.list e.header) }
    field (substitute e.header q.step none a) 0 1 = field a 0 1 →
    s.fire tag x e q space = (St.ok, false, s.modWork fun w =>
      { w with firing := w.firing + 1, entries := tset w.entries x { e with fired := e.fired + 1 },
               jqs := tmod w.jqs n fun j => { j with entries := j.entries ++ [act] } }))

/-- PLY_EXECUTE gives every row of a well-formed PLY to the tenant's combine context and completes with the status of the
checks (R136, R290). -/
def Claims.PlyExecute : Prop := ∀ (c seq : Nat) (s : State) (k : Conn) (r : Reasm), s.ready? c seq Op.ply = some (k, r) →
  (∀ st, checkPly r.payload = .error st → exec (.plyExecute c seq) s = .next (s.completeRx c seq r.ackReq st 0)) ∧
  (∀ rows slub bf n st, checkPly r.payload = .ok (rows, slub, bf, n) →
    s.takeRows k.tenant n slub bf (splitRows (plyRowSize n slub bf) rows (r.payload.drop 64)) = .error st →
    exec (.plyExecute c seq) s = .next (s.completeRx c seq r.ackReq st 0)) ∧
  (∀ rows slub bf n id t x, checkPly r.payload = .ok (rows, slub, bf, n) →
    s.takeRows k.tenant n slub bf (splitRows (plyRowSize n slub bf) rows (r.payload.drop 64)) = .ok (id, t) →
    tget t.work.combines id = some x →
    (x.full = false → exec (.plyExecute c seq) s = .next (t.completeRx c seq r.ackReq St.ok 0)) ∧
    (x.full = true → exec (.plyExecute c seq) s = .next ((t.emitCombine t.emitFuel id St.ok).completeRx c seq r.ackReq St.ok 0)))

/-- APPEND_EXECUTE (R141, R144): an APPEND that fails a check completes with its status; one that only replays completes
with ST_OK; one that passes is written, and its completion is left to APPEND_COMPLETE; one whose carding writes meet a full sketch queue
waits (R160). -/
def Claims.AppendExecute : Prop := ∀ (c seq : Nat) (s : State) (k : Conn) (r : Reasm) (a : Append) (sk : Skein),
  s.ready? c seq Op.append = some (k, r) → s.append? c seq = none →
  (∀ st, s.arrive k.tenant c seq r.payload = .error st → exec (.appendExecute c seq) s = .next (s.completeRx c seq r.ackReq st 0)) ∧
  (s.arrive k.tenant c seq r.payload = .ok a → a.conn = c → a.seq = seq →
    let t := s.expireLease (skIndex a.skein)
    t.skeinFor k.tenant a.skein = some sk → sk.appendTail a = none →
    (∀ st, t.appendChecks sk a = .error st →
      exec (.appendExecute c seq) s = .next ((t.dropAppend a).completeRx c seq r.ackReq st (t.retryFor st (t.appendSlots a)))) ∧
    (t.appendChecks sk a = .ok none → exec (.appendExecute c seq) s = .next ((t.dropAppend a).completeRx c seq r.ackReq St.ok 0)) ∧
    (∀ g u, t.appendChecks sk a = .ok (some g) → t.writeAppend (skIndex a.skein) sk a g = some u →
      let n := sk.rowLength a.row
      let rest : Append := { a with applied := true, held := false, t0 := n, ids := a.ids.drop (n - a.t0), values := [] }
      exec (.appendExecute c seq) s = .next (if u.cardingHeld (skIndex a.skein) a n then s
        else ((u.dropAppend a).modConn c fun k => { k with creditZero := false }).modStore fun x => { x with appends := x.appends ++ [rest] })))

/-- The checks of an APPEND that is applied come in the order of R141: the lease, the range, the reel and the history of
replayed tokens, a damaged or creel tail, a locked tail, the quota, the pool. -/
def Claims.AppendChecks : Prop := ∀ (s : State) (k : Skein) (a : Append),
  let n := k.rowLength a.row
  (k.leaseRefuses a.epoch.toNat = true → s.appendChecks k a = .error St.notOwner) ∧
  (k.leaseRefuses a.epoch.toNat = false → (n < a.t0 ∨ 65536 * k.cap < a.last) → s.appendChecks k a = .error St.lengthRange) ∧
  (k.leaseRefuses a.epoch.toNat = false → a.t0 ≤ n → a.last ≤ 65536 * k.cap →
    (∃ x ∈ indexed a.ids, ∃ id, tget k.reel (a.t0 + x.2) = some id ∧ id ≠ x.1) → s.appendChecks k a = .error St.appendConflict)

/-- APPEND_COMPLETE queues the sketch updates of a written APPEND and completes its message (R144, R160). -/
def Claims.AppendComplete : Prop := ∀ (c seq : Nat) (s : State) (k : Conn) (r : Reasm) (a : Append), s.ready? c seq Op.append = some (k, r) →
  s.append? c seq = some a →
  (a.applied = true → exec (.appendComplete c seq) s = .next (((s.queueSketches a).dropAppend a).completeRx c seq r.ackReq St.ok 0)) ∧
  (a.applied = false → exec (.appendComplete c seq) s = .next s)

/-- SKETCH_UPDATE in Run applies the oldest update of a stack's queue where its bobbin is still at tier 1 and its channel
group's share of the period holds it, and drops it where the bobbin has left tier 1; writes that wait for room go on. Where
the share is spent, and out of Run, the update is deferred and counted (R20, R160, R446, R496). -/
def Claims.SketchUpdate : Prop := ∀ (stack : Nat) (s : State) (q : Nat × SketchUpd) (k : Skein) (l : Leaf),
  s.store.sketchQ.find? (fun q => q.1 == stack) = some q → s.awake = true → s.skein? q.2.skein = some k → tget k.leaves q.2.key = some l →
  let done := fun (t : State) => t.modStore fun x => { x with sketchQ := x.sketchQ.erase q }
  (s.power.state = .run → l.tier = 1 → ∀ t, s.sketchShare (groupOf l.pbn) = some t →
    exec (.sketchUpdate stack) s = .next ((done t).modSkein q.2.skein fun k => k.sketchToken q.2.key q.2.values).releaseHeld) ∧
  (s.power.state = .run → l.tier = 1 → s.sketchShare (groupOf l.pbn) = none → exec (.sketchUpdate stack) s = .next (s.deferDuty 4)) ∧
  (s.power.state = .run → l.tier ≠ 1 → exec (.sketchUpdate stack) s = .next (done s).releaseHeld) ∧
  (s.power.state ≠ .run → exec (.sketchUpdate stack) s = .next (s.deferDuty 4))

/-- BLOCK_HASH_COMPUTE writes the chained hash of a block whose identifiers are all held beside the reel of a skein made
with prefix hashing (R173, R205): the first 12 bytes of SHA-256 over the hash before it and the 64 identifiers. -/
def Claims.BlockHashCompute : Prop := ∀ (idx block : Nat) (s : State) (k : Skein), s.skein? idx = some k → s.awake = true → k.prefixHash = true →
  k.state ≠ .retiring → tget k.blockHash block = none → k.reelCovers (64 * block) (64 * block + 64) = true →
  let ids := (List.range 64).map fun i => (tget k.reel (64 * block + i)).getD 0
  let hash := fun (prev : Nat) => ofLe ((sha256 (toLe 12 prev ++ ids.flatMap fun i => toLe 4 i.toNat)).take 12)
  (block = 0 → ∃ t, exec (.blockHashCompute idx block) s = .next t ∧
    ∀ i, t.skein? i = if i = idx then some { k with blockHash := tset k.blockHash 0 (hash 0) } else s.skein? i) ∧
  (∀ p, block ≠ 0 → tget k.blockHash (block - 1) = some p → ∃ t, exec (.blockHashCompute idx block) s = .next t ∧
    ∀ i, t.skein? i = if i = idx then some { k with blockHash := tset k.blockHash block (hash p) } else s.skein? i)

/-- ACK_RECEIVE completes with ST_OK every message up to ACK_SEQ that waits for no response, and takes the peer's CREDIT
(R297, R298). -/
def Claims.AckReceive : Prop := ∀ (c : Nat) (s : State) (k : Conn) (x : Ctl) (rest : List Ctl), s.conn? c = some k → k.ctl = x :: rest →
  x.nak = false → s.awake = true →
  let t := s.modConn c fun k => { k with ctl := rest, credit := some x.credit }
  exec (.ackReceive c) s = .next (((t.coverTo c x.ackSeq none).settle c).pumpNotices)

/-- NAK_RECEIVE of a message still unacknowledged: ST_REASSEMBLY_TIMEOUT retransmits it, ST_STALE_HANDLE and ST_CONN_ERROR
put the connection in ERROR, any other status completes it with that status (R282, R300, R301). -/
def Claims.NakReceive : Prop := ∀ (c : Nat) (s : State) (k : Conn) (x : Ctl) (rest : List Ctl) (m : Msg), s.conn? c = some k → k.ctl = x :: rest →
  x.nak = true → s.awake = true → k.unacked.find? (fun m => m.seq == x.msgSeq) = some m →
  let t := (s.modConn c fun k => { k with ctl := rest, credit := some x.credit }).coverTo c x.ackSeq (some x.msgSeq)
  let fin := fun (u : State) => ((u.settle c).pumpNotices)
  (x.status = St.reassemblyTimeout → exec (.nakReceive c) s = .next (fin (t.retransmit c m))) ∧
  ((x.status = St.staleHandle ∨ x.status = St.connError) → exec (.nakReceive c) s = .next (fin (t.connError c x.status (some m.seq)))) ∧
  (x.status ≠ St.reassemblyTimeout → x.status ≠ St.staleHandle → x.status ≠ St.connError →
    let u := (t.modConn c fun k => { k with unacked := k.unacked.filter fun y => y.seq != m.seq }).endMsg c m x.status
      (if x.status = St.backpressure then x.retry else 0)
    exec (.nakReceive c) s = .next (fin (if k.stopOnError then u.connError c x.status none else u)))

/-- The timers of a connection: 1 µs after the oldest unacknowledged completion an ACK is sent (R298); after ACK_TIMEOUT a
message with nothing left in a transmit queue is sent again (R300); 200 µs after its first packet an unfinished message is
given up with a NAK, an unfinished response without one (R294). Before that nothing happens. -/
def Claims.ConnectionTimers : Prop := ∀ (c seq : Nat) (s : State) (k : Conn), s.conn? c = some k → s.awake = true →
  (∀ t, k.oldestUnacked = some t → t + 1000 ≤ s.time.localNow → exec (.ackCoalesceExpiry c) s = .next (s.sendAck c)) ∧
  (∀ t, k.oldestUnacked = some t → s.time.localNow < t + 1000 → exec (.ackCoalesceExpiry c) s = .next s) ∧
  (∀ m, k.unacked.find? (fun m => m.seq == seq) = some m → m.sentAt + k.ackTimeout * 1000 ≤ s.time.localNow → s.stillQueued c seq = false →
    exec (.ackTimeoutExpiry c seq) s = .next (((s.retransmit c m).settle c).pumpNotices)) ∧
  (∀ m, k.unacked.find? (fun m => m.seq == seq) = some m → s.time.localNow < m.sentAt + k.ackTimeout * 1000 →
    exec (.ackTimeoutExpiry c seq) s = .next s) ∧
  (∀ r, s.reasm? c seq false = some r → r.total ≠ some r.got → r.start + 200000 ≤ s.time.localNow →
    exec (.reassemblyTimeoutExpiry c seq) s = .next ((s.endReasm c seq false).sendNak c seq St.reassemblyTimeout 0)) ∧
  (∀ r, s.reasm? c seq false = none → s.reasm? c seq true = some r → r.total ≠ some r.got → r.start + 200000 ≤ s.time.localNow →
    exec (.reassemblyTimeoutExpiry c seq) s = .next (s.endReasm c seq true)) ∧
  (∀ r, s.reasm? c seq false = some r → s.time.localNow < r.start + 200000 → exec (.reassemblyTimeoutExpiry c seq) s = .next s)

/-- TIMED_HOLD_DELIVERY and HELD_ACTION_SLOT_FREE: the one action of a firing goes to the tail of its target queue once it
is due and the queue has a slot, and stays in the hold otherwise (R315). -/
def Claims.TimedHold : Prop := ∀ (n : Nat) (s : State) (a : HeldAction), s.work.hold[n]? = some a → s.awake = true → a.gone = false →
  (∀ b ∈ s.work.hold, b.firing = a.firing → b = a) → s.work.hold.count a = 1 →
  let gone := s.modWork fun w => { w with hold := w.hold.erase a }
  (a.due ≤ s.time.now → s.targetOk a.tenant a.bytes a.target = true → 0 < s.targetRoom a.bytes a.target →
    exec (.timedHoldDelivery n) s = .next (gone.deliver a.bytes a.target a.query a.trig) ∧
    exec (.heldActionSlotFree n) s = .next (gone.deliver a.bytes a.target a.query a.trig)) ∧
  (a.due ≤ s.time.now → s.targetOk a.tenant a.bytes a.target = true → s.targetRoom a.bytes a.target = 0 →
    exec (.timedHoldDelivery n) s = .next s ∧ exec (.heldActionSlotFree n) s = .next s) ∧
  (s.time.now < a.due → exec (.timedHoldDelivery n) s = .next s)

/-! ## Ports and the link layer (R263–R274) -/

/-- A port row names one of four ports; any other port does not exist (R17). -/
def Claims.FourPorts : Prop := ∀ (p : Nat) (s : State) (f : List Byte) (b : Bool) (q : Byte) (node : BitVec 10) (map : BitVec 9), 4 ≤ p →
  ∀ i ∈ [Instr.linkFrameReceive p f b, .linkAckReceive p q, .replayReqReceive p q, .linkAckTimer p, .linkReplayTimeout p, .retrainLimitExpiry p,
         .portRetrainComplete p, .switchReceive p map q, .laserBankFailure p, .laserFailoverComplete p, .lossOfLight p, .lightReturn p,
         .lossOfLightExpiry p, .wakeRequestReceive p node, .resumedReceive p node, .enteringLowRateReceive p node, .frameTransmitEnd p,
         .gateEntryChange p, .gateListSwitch p],
    exec i s = .fault .noSuchUnit

/-- LINK_FRAME_RECEIVE on a port in service: a frame of 106 to 9,216 bytes with a good FCS and the expected LSEQ is accepted,
owed a LINK_ACK within 100 ns, acknowledged as the sixteenth, and its packet handled; any other is discarded and answered
by REPLAY_REQ (R270, R273). Its 64-byte units count towards a map change that the partner announced (R264). -/
def Claims.LinkFrameReceive : Prop := ∀ (p : Nat) (f : List Byte) (s : State), p < 4 → (s.portAt p).state = .up → (s.portAt p).light = true →
  (s.portAt p).failover = false →
  let x := s.portAt p
  let n := f.length
  let good := 106 ≤ n ∧ n ≤ 9216 ∧ field f (n - 4) 4 = (crc32 (f.take (n - 4))).toNat ∧ field f (n - 8) 1 = x.expSeq.toNat
  let t := s.setPort p { x with expSeq := x.expSeq + 1, sinceAck := x.sinceAck + 1, ackBy := some (x.ackBy.getD (s.time.localNow + 100)) }
  let fin := fun (u : State) => u.passUnits p ((n + 63) / 64)
  (good → x.sinceAck < 15 → exec (.linkFrameReceive p f false) s = .next (fin (t.acceptPacket p f))) ∧
  (good → 15 ≤ x.sinceAck → exec (.linkFrameReceive p f false) s = .next (fin ((t.linkAck p).acceptPacket p f))) ∧
  (¬ good → exec (.linkFrameReceive p f false) s =
    .next (fin ((s.setPort p { x with discarded := x.discarded + 1 }).control p ctlReplay x.expSeq.toNat))) ∧
  (exec (.linkFrameReceive p f true) s =
    .next (fin ((State.setPort (s.setFlag (Flag.fecUncorrectable p)) p { x with discarded := x.discarded + 1 }).control p ctlReplay x.expSeq.toNat)))

/-- A frame on a LOW_RATE port is discarded and counted as activity; one on a port that does not receive is lost (R266,
R503). -/
def Claims.FramesAsleep : Prop := ∀ (p : Nat) (f : List Byte) (bad : Bool) (s : State), p < 4 →
  ((s.portAt p).state = .lowRate → exec (.linkFrameReceive p f bad) s =
    .next (s.modPower fun w => { w with frameCount := w.frameCount + 1 })) ∧
  ((s.portAt p).state ≠ .lowRate → ((s.portAt p).state ≠ .up ∨ (s.portAt p).light = false ∨ (s.portAt p).failover = true) →
    exec (.linkFrameReceive p f bad) s = .next s)

/-- The packet of an accepted frame is taken under R276, R279 and R280 only where its outer header is this node's, its
session exists, its tag opens and its counter is fresh; otherwise it is discarded and counted. -/
def Claims.PacketDiscard : Prop := ∀ (s : State) (port : Nat) (f : List Byte),
  let h := (f.drop 18).take 64
  let n := f.length - 106
  let sess := field h 30 2 / 2
  let outer := f.take 6 == s.mac s.nodeNo && ofLe ((f.drop 12).take 2).reverse == 0x8100 && !bit 12 (ofLe ((f.drop 14).take 2).reverse) &&
    ofLe ((f.drop 16).take 2).reverse == 0x88B5
  (outer = false → s.acceptPacket port f = s.discard 0) ∧
  (outer = true → sess ≠ 0x7FFF → tget s.flyer.sessions sess = none → s.acceptPacket port f = s.discard 1) ∧
  (∀ x : Session, outer = true → sess ≠ 0x7FFF → tget s.flyer.sessions sess = some x →
    (x.peer ≠ field h 4 2 ∨ Config.gcmOpen (keyId x.keyNo 1 (x.genFor (field h 30 2 % 2))) (nonce (field h 4 2) (field h 32 8)) h
        ((f.drop 82).take n) ((f.drop (82 + n)).take 16) = none ∨ field h 32 8 + 65536 ≤ x.rxTop ∨ field h 32 8 ∈ x.rxSeen) →
    s.acceptPacket port f = s.discardAuth sess x)

/-- A request packet of a live connection is recorded when its MSG_SEQ is 1 to 64 above LCS, and dropped further above; an
ACK or NAK waits to be handled; in ERROR a request is answered by a NAK with ST_CONN_ERROR (R282, R295, R298). -/
def Claims.PacketWindow : Prop := ∀ (s : State) (c : Nat) (k : Conn) (h p : List Byte),
  let op := field h 0 1
  let d := seqDist k.lcs (field h 16 4)
  (op ∉ [3, 6, 16, 17] → k.state ≠ .error → 1 ≤ d → d ≤ 64 → s.connPacket c k h p = s.record c k h p false) ∧
  (op ∉ [3, 6, 16, 17] → k.state ≠ .error → 64 < d → d < 2 ^ 31 → s.connPacket c k h p = s.discard 4) ∧
  (op ∉ [3, 6, 16, 17] → k.state ≠ .error → (d = 0 ∨ 2 ^ 31 ≤ d) → s.connPacket c k h p = s.duplicate c k h p) ∧
  (op ∉ [16, 17] → k.state = .error → s.connPacket c k h p = s.sendNak c (field h 16 4) St.connError 0) ∧
  ((op = 16 ∨ op = 17) → k.state = .error → s.connPacket c k h p = s)

/-- LINK_ACK_RECEIVE drops the frames up to the named one from the replay buffer and lets the port go on; a block that
names no frame held changes nothing (R273). -/
def Claims.LinkAckReceive : Prop := ∀ (p : Nat) (lseq : Byte) (s : State), p < 4 →
  let x := s.portAt p
  (∀ before fr after, x.replay = before ++ (lseq, fr) :: after → (∀ b ∈ before, b.1 ≠ lseq) → exec (.linkAckReceive p lseq) s =
    .next ((s.setPort p { x with replay := after, replays := 0, oldestAt := s.time.localNow }).kick p)) ∧
  ((∀ b ∈ x.replay, b.1 ≠ lseq) → exec (.linkAckReceive p lseq) s = .next s)

/-- REPLAY_REQ_RECEIVE and LINK_REPLAY_TIMEOUT send held frames again, oldest first, and count one replay (R273). -/
def Claims.Replay : Prop := ∀ (p : Nat) (lseq : Byte) (s : State), p < 4 →
  let x := s.portAt p
  let again := fun (fs : List (Byte × List Byte)) =>
    (fs.foldl (fun t f => t.emit (.frame p x.mapNow f.2)) s).setPort p { x with replays := x.replays + 1, oldestAt := s.time.localNow }
  (x.state = .up ∨ x.state = .lowRate) → x.failover = false → x.light = true → x.replays < 16 →
  (∀ before fr after, x.replay = before ++ (lseq, fr) :: after → (∀ b ∈ before, b.1 ≠ lseq) →
    exec (.replayReqReceive p lseq) s = .next (again ((lseq, fr) :: after))) ∧
  (x.replay ≠ [] → x.oldestAt + 500 ≤ s.time.localNow → exec (.linkReplayTimeout p) s = .next (again x.replay)) ∧
  (s.time.localNow < x.oldestAt + 500 → exec (.linkReplayTimeout p) s = .next s)

/-- Where sixteen replays in a row have brought no new acknowledgement, the next one retrains the port in place of a replay;
during a failover or a loss of light nothing is replayed (R266, R273). -/
def Claims.ReplayLimit : Prop := ∀ (p : Nat) (s : State), p < 4 →
  let x := s.portAt p
  x.replay ≠ [] → x.oldestAt + 500 ≤ s.time.localNow →
  ((x.state = .up ∨ x.state = .lowRate) → x.failover = false → x.light = true → 16 ≤ x.replays →
    exec (.linkReplayTimeout p) s = .next (s.startRetrain p)) ∧
  ((x.failover = true ∨ x.light = false) → exec (.linkReplayTimeout p) s = .next s)

/-- LINK_ACK_TIMER sends a LINK_ACK for the last accepted frame once 100 ns have passed since one was owed, but not on a port
in failover or without light (R266, R273, R274). -/
def Claims.LinkAckTimer : Prop := ∀ (p t : Nat) (s : State), p < 4 → (s.portAt p).ackBy = some t →
  let x := s.portAt p
  (t ≤ s.time.localNow → x.failover = false → x.light = true → exec (.linkAckTimer p) s =
    .next ((s.setPort p { x with sinceAck := 0, ackBy := none }).emit (.control p (BitVec.ofNat 64 (2 * 2 ^ 56 + (x.expSeq - 1).toNat))))) ∧
  ((x.failover = true ∨ x.light = false) → exec (.linkAckTimer p) s = .next s) ∧
  (s.time.localNow < t → exec (.linkAckTimer p) s = .next s)

/-- Retraining ends in DOWN after 1 ms, or back in UP, in LOW_RATE while the module sleeps in Doze (R267, R273, R503). -/
def Claims.Retraining : Prop := ∀ (p : Nat) (s : State), p < 4 → (s.portAt p).state = .retraining →
  let x := s.portAt p
  (x.retrainStart + 1000000 ≤ s.time.localNow → exec (.retrainLimitExpiry p) s = .next (s.portToDown p)) ∧
  (s.time.localNow < x.retrainStart + 1000000 → exec (.retrainLimitExpiry p) s = .next s) ∧
  (exec (.portRetrainComplete p) s = .next (State.kick (State.refreshLevel (s.setPort p { x with
    state := if s.power.state = .doze ∧ s.power.exiting = false then .lowRate else .up
    light := true, replays := 0, oldestAt := s.time.localNow, pausedAt := none })) p))

/-- SWITCH_RECEIVE notes the partner's map until the named units have arrived, which leaves the map in use as it is, and takes
it at once where it names none (R264, R265, R274). -/
def Claims.SwitchReceive : Prop := ∀ (p : Nat) (map : BitVec 9) (units : Byte) (s : State), p < 4 →
  let x := s.portAt p
  (x.state = .up ∨ x.state = .lowRate) →
  let noted := s.setPort p { x with switching := some (map, units.toNat) }
  (units ≠ 0 → ∃ t : State, exec (.switchReceive p map units) s = .next t ∧ t.portAt p = noted.portAt p) ∧
  (units = 0 → exec (.switchReceive p map units) s = .next (noted.passUnits p 0))

/-- Received units count towards an announced map. With the last of them the map takes effect, a change is counted on
WAVELENGTH_SWITCH and what it leaves out is no spare; an empty map takes the port DOWN (R264, R265, R269). -/
def Claims.MapChange : Prop := ∀ (s : State) (p n left : Nat) (map : BitVec 9),
  let x := s.portAt p
  x.switching = some (map, left) →
  let out := (List.range 9).filter fun i => x.map.getLsbD i && !map.getLsbD i && !x.failedWl.contains i
  let t := s.setPort p { x with switching := none, failedWl := out ++ x.failedWl, map, spareUsed := map.getLsbD 8 }
  (n < left → s.passUnits p n = s.setPort p { x with switching := some (map, left - n) }) ∧
  (left ≤ n → map = x.map → map ≠ 0 → s.passUnits p n = t.refreshLevel.kick p) ∧
  (left ≤ n → map ≠ x.map → map ≠ 0 → s.passUnits p n = ((t.setFlag (Flag.wavelengthSwitch p)).refreshLevel).kick p) ∧
  (left ≤ n → map ≠ x.map → map = 0 → s.passUnits p n = ((t.setFlag (Flag.wavelengthSwitch p)).portToDown p).kick p)

/-- WAVELENGTH_FAILURE of a wavelength in the map exchanges or drops it; one outside the map is noted as failed (R265). -/
def Claims.WavelengthFailure : Prop := ∀ (p wl : Nat) (s : State), p < 4 → wl < 9 →
  let x := s.portAt p
  (x.map.getLsbD wl = true → exec (.wavelengthFailure p wl) s = .next ((s.dropWavelength p wl).kick p)) ∧
  (x.map.getLsbD wl = false → wl ∉ x.failedWl → exec (.wavelengthFailure p wl) s =
    .next (s.setPort p { x with failedWl := wl :: x.failedWl })) ∧
  (x.map.getLsbD wl = false → wl ∈ x.failedWl → exec (.wavelengthFailure p wl) s = .next s)

/-- A failed laser bank is replaced by the standby bank, which ends with LASER_FAILOVER; without a usable one the port goes
DOWN, and on a DOWN port the failure is kept (R266, R269). -/
def Claims.LaserBanks : Prop := ∀ (p : Nat) (s : State), p < 4 →
  let x := s.portAt p
  (x.state ≠ .down → x.standbyOk = true → x.failover = false → exec (.laserBankFailure p) s =
    .next (s.setPort p { x with failover := true, standbyOk := false, sending := none, pausedAt := some (x.pausedAt.getD s.time.localNow) })) ∧
  (x.state = .down → x.standbyOk = true → x.failover = false → exec (.laserBankFailure p) s =
    .next (s.setPort p { x with standbyOk := false, bankB := !x.bankB })) ∧
  ((x.standbyOk = false ∨ x.failover = true) → exec (.laserBankFailure p) s =
    .next ((s.setPort p { x with standbyOk := false, noBank := true }).portToDown p)) ∧
  (x.failover = true → exec (.laserFailoverComplete p) s =
    .next (((s.setPort p (Port.goOn { x with failover := false, bankB := !x.bankB } s.time.localNow)).setFlag (Flag.laserFailover p)).kick p)) ∧
  (x.failover = false → exec (.laserFailoverComplete p) s = .next s)

/-- The replay timer stands still while a failover or a loss of light lasts, and goes on where it stood (R266). -/
def Claims.TimerPause : Prop := ∀ (x : Port) (now t : Nat),
  (x.failover = false → x.light = true → x.pausedAt = some t → x.goOn now = { x with oldestAt := x.oldestAt + (now - t), pausedAt := none }) ∧
  ((x.failover = true ∨ x.light = false ∨ x.pausedAt = none) → x.goOn now = x)

/-- Light lost for at most 25 µs loses what was being sent and nothing else; longer, the port retrains (R266, R273). -/
def Claims.LossOfLight : Prop := ∀ (p : Nat) (s : State), p < 4 →
  let x := s.portAt p
  (x.light = true → exec (.lossOfLight p) s = .next (s.setPort p { x with
    light := false, lightLostAt := s.time.localNow, sending := none, pausedAt := some (x.pausedAt.getD s.time.localNow) })) ∧
  (x.light = false → exec (.lossOfLight p) s = .next s) ∧
  (x.light = false → x.state ≠ .retraining → exec (.lightReturn p) s =
    .next ((s.setPort p (Port.goOn { x with light := true } s.time.localNow)).kick p)) ∧
  (x.light = false → x.lightLostAt + 25000 < s.time.localNow → exec (.lossOfLightExpiry p) s = .next (s.startRetrain p)) ∧
  (s.time.localNow ≤ x.lightLostAt + 25000 → exec (.lossOfLightExpiry p) s = .next s)

/-- WAKE blocks (R500, R503): a request is latched in Doze and answered with RESUMED when awake; ENTERING_LOW_RATE holds data
frames to the partner back until RESUMED. -/
def Claims.WakeBlocks : Prop := ∀ (p : Nat) (node : BitVec 10) (s : State), p < 4 →
  (s.power.state = .doze → exec (.wakeRequestReceive p node) s = .next (s.modPower fun w => { w with portWake := true })) ∧
  (s.power.state = .run → s.awake = true → s.enteringDoze = false → (s.portAt p).failover = false → (s.portAt p).light = true →
    exec (.wakeRequestReceive p node) s =
    .next (s.emit (.control p (BitVec.ofNat 64 (5 * 2 ^ 56 + (2 * 2 ^ 48 + s.nodeNo)))))) ∧
  (exec (.resumedReceive p node) s = .next ((s.modPort p fun x => { x with partnerLowRate := false }).kick p)) ∧
  (exec (.enteringLowRateReceive p node) s = .next (s.modPort p fun x => { x with partnerLowRate := true }))

/-! ## Scheduling (R324–R336) -/

/-- FRAME_TRANSMIT_END frees the port for its next frame, and SHAPER_TOKEN_ACCRUAL lets the port choose again (R328, R330). -/
def Claims.TransmitEnd : Prop := ∀ (p tid cls : Nat) (s : State), p < 4 →
  exec (.frameTransmitEnd p) s = .next ((s.modPort p fun x => { x with sending := none }).kick p) ∧
  exec (.shaperTokenAccrual tid cls p) s = .next (s.kick p)

/-- A port starts no frame while it sends, has 64 frames unacknowledged, is out of service, in failover, dark, or has a
partner at LOW_RATE (R266, R273, R503); a port with no frame starts none. -/
def Claims.NoStart : Prop := ∀ (p : Nat) (s : State),
  let x := s.portAt p
  x.stalls = false → (x.canStart = false ∨ x.queue = []) → s.kick p = s

/-- Class 7 goes before all others: where one of its head frames may be sent, a frame of class 7 is chosen (R330). -/
def Claims.ClassSevenFirst : Prop := ∀ (s : State) (x : Port) (f : TxFrame) (x' : Port), s.pickTenant x 7 = some (f, x') → s.choose x = some (f, x')

/-- An eligible frame is within its class's open window for its whole sending, and is covered by its shaper's tokens unless
it is an acknowledgement (R328, R332). -/
def Claims.Eligible : Prop := ∀ (s : State) (x : Port) (f : TxFrame), s.eligible x f = true →
  (∀ left, openLeft x.gates x.gateStart s.time.now f.cls = some left → 0 < left ∧ x.txTime (x.shaped f) ≤ left) ∧
  (f.unshaped = false → (s.shaper f.tid f.cls).enable = true → x.shaped f * 1000 ≤ (s.shaper f.tid f.cls).milli)

/-- A sealed frame leaves its queue, enters the replay buffer under the port's LSEQ and is emitted; the session's counter
advances by one (R270, R273, R278). -/
def Claims.FrameStarts : Prop := ∀ (s : State) (p : Nat) (f : TxFrame) (x : Port) (ses : Session), tget s.flyer.sessions f.sess = some ses →
  let frame := closeFrame (s.sealFrame f ses).1 x.sendSeq
  let t := s.startFrame p f x
  t.out = s.out ++ [.frame p x.mapNow frame] ∧ (t.portAt p).sending = some f ∧ (t.portAt p).queue = x.queue.erase f ∧
  (t.portAt p).replay = x.replay ++ [(x.sendSeq, frame)] ∧ (t.portAt p).sendSeq = x.sendSeq + 1 ∧
  tget t.flyer.sessions f.sess = some { ses with txCount := ses.txCount + 1 }

/-- GATE_ENTRY_CHANGE puts the entry in force at the present count (R332). -/
def Claims.GateEntryChange : Prop := ∀ (p : Nat) (s : State), p < 4 →
  let x := s.portAt p
  (x.gates = [] → exec (.gateEntryChange p) s = .next s) ∧
  (x.gates ≠ [] → s.awake = true → exec (.gateEntryChange p) s =
    .next ((s.setPort p { x with gateEntry := (gateWalk x.gates ((s.time.now - x.gateStart).toNat % gateCycle x.gates) 0).1 }).kick p))

/-- GATE_LIST_SWITCH makes a standby list active at GATE_BASE, or at the old list's first cycle boundary from then on, and
sets GATE_SWITCHED (R332, R336). -/
def Claims.GateListSwitch : Prop := ∀ (p : Nat) (s : State) (g : List Gate) (base : W64), p < 4 → (s.portAt p).standby = some (g, base) →
  let x := s.portAt p
  s.awake = true →
  (x.gates = [] → base ≤ s.time.now → exec (.gateListSwitch p) s =
    .next (((s.setPort p { x with gates := g, gateStart := base, gateEntry := 0, standby := none }).setFlag (Flag.gateSwitched p)).kick p)) ∧
  (x.gates ≠ [] → base ≤ x.gateStart → x.gateStart ≤ s.time.now → exec (.gateListSwitch p) s =
    .next (((s.setPort p { x with gates := g, gateEntry := 0, standby := none }).setFlag (Flag.gateSwitched p)).kick p)) ∧
  (x.gates ≠ [] → x.gateStart < base → ∀ n : Nat, n = ((base - x.gateStart).toNat + gateCycle x.gates - 1) / gateCycle x.gates →
    x.gateStart + BitVec.ofNat 64 (n * gateCycle x.gates) ≤ s.time.now → exec (.gateListSwitch p) s =
      .next (((s.setPort p { x with gates := g, gateStart := x.gateStart + BitVec.ofNat 64 (n * gateCycle x.gates), gateEntry := 0,
                                    standby := none }).setFlag (Flag.gateSwitched p)).kick p)) ∧
  (x.gates = [] → s.time.now < base → exec (.gateListSwitch p) s = .next s)

/-- SAMPLE_PERIOD_BOUNDARY with a telemetry ring: the next boundary lies one period on, and every port's counts of the
period start anew (R334, R335); with sampling off, or before the boundary, nothing happens. -/
def Claims.SamplePeriodBoundary : Prop := ∀ (s : State),
  let y := s.flyer.tele
  ((y.period = 0 ∨ s.time.now < y.next ∨ s.awake = false) → exec .samplePeriodBoundary s = .next s) ∧
  (y.period ≠ 0 → y.next ≤ s.time.now → s.awake = true → ∃ t : State, exec .samplePeriodBoundary s = .next t ∧
    t.flyer.tele.next = y.next + BitVec.ofNat 64 (y.period * 1000) ∧ t.flyer.tele.period = y.period ∧ y.written ≤ t.flyer.tele.written ∧
    ∀ p, p < 4 → (t.portAt p).framesSent = [] ∧ (t.portAt p).maxDelay = [] ∧ (t.portAt p).queue = (s.portAt p).queue)

/-- A record goes into the telemetry ring's next slot, or is dropped with RING_OVERFLOW while the ring is full (R336). -/
def Claims.TelemetryRing : Prop := ∀ (s : State) (p key : Nat) (x : Port) (t : W64),
  let y := s.flyer.tele
  (y.readPos + y.records ≤ y.written → s.writeTele p x key t =
    (s.modFlyer fun f => { f with tele := { y with dropped := y.dropped + 1 } }).setFlag (Flag.ringOverflow p)) ∧
  (y.written < y.readPos + y.records → (s.writeTele p x key t).flyer.tele = { y with written := y.written + 1 } ∧
    (s.writeTele p x key t).mem = s.mem.areaWrite y.area (y.written % y.records * 32)
      (s.teleRecord p x key (decide (y.written / y.records % 2 = 0)) t))

/-! ## Time (R476–R485, R537) -/

/-- SYNC_RECEIVE on a follower's sync port keeps t1 and t2 and sends DELAY_REQ, while no exchange of the port is under way;
the 48 bits of the block complete to the time nearest the module's own (R480, R481). -/
def Claims.SyncReceive : Prop := ∀ (p : Nat) (hops : BitVec 6) (t : BitVec 48) (s : State), p < 4 →
  let heard := s.modTime fun u => { u with partnerHops := tset u.partnerHops p hops.toNat }
  let t1 := s.time.now + (t - s.time.now.setWidth 48).signExtend 64
  let e : Exchange := { t1, t2 := s.time.now, t3 := some s.time.now, deadline := s.time.localNow + 10000 }
  ((s.time.role ≠ 0 ∨ s.syncs p = false) → exec (.syncReceive p hops t) s = .next s) ∧
  (s.time.role = 0 → s.syncs p = true → (∀ x, tget s.time.exchanges p = some x → x.t3 = none ∨ x.deadline < s.time.localNow) →
    exec (.syncReceive p hops t) s = .next ((heard.modTime fun u => { u with exchanges := tset u.exchanges p e }).sendSync p 1 heard.myHops 0)) ∧
  (s.time.role = 0 → s.syncs p = true → (∃ x, tget s.time.exchanges p = some x ∧ x.t3 ≠ none ∧ s.time.localNow ≤ x.deadline) →
    exec (.syncReceive p hops t) s = .next heard)

/-- DELAY_REQ_RECEIVE is answered by a module of ROLE 1 or 2 with the arrival time; a follower answers none (R481). -/
def Claims.DelayReqReceive : Prop := ∀ (p : Nat) (hops : BitVec 6) (s : State), p < 4 →
  (s.time.role ≠ 0 → s.syncs p = true → (s.portAt p).failover = false → (s.portAt p).light = true → exec (.delayReqReceive p hops) s =
    .next (s.emit (.control p (BitVec.ofNat 64 (6 * 2 ^ 56 + (2 * 2 ^ 54 + 0 * 2 ^ 48 + s.time.now.toNat % 2 ^ 48)))))) ∧
  (s.time.role = 0 → exec (.delayReqReceive p hops) s = .next s)

/-- DELAY_RESP_RECEIVE of an exchange in time gives the offset ((t2 − t1) − (t4 − t3)) / 2 and disciplines the count where
the port is the source; a late or unasked answer only ends the exchange (R481, R482). -/
def Claims.DelayRespReceive : Prop := ∀ (p : Nat) (hops : BitVec 6) (t : BitVec 48) (s : State) (e : Exchange) (t3 : W64), p < 4 →
  tget s.time.exchanges p = some e → e.t3 = some t3 →
  let ended := s.modTime fun u => { u with exchanges := tdel u.exchanges p }
  let heard := ended.modTime fun u => { u with partnerHops := tset u.partnerHops p hops.toNat }
  let t4 := s.time.now + (t - s.time.now.setWidth 48).signExtend 64
  let off : Int := ((e.t2 - e.t1).toInt - (t4 - t3).toInt) / 2
  (s.time.role = 0 → ended.syncs p = true → s.time.localNow ≤ e.deadline → heard.timeSource = some p →
    exec (.delayRespReceive p hops t) s = .next (heard.discipline p off)) ∧
  (s.time.role = 0 → ended.syncs p = true → s.time.localNow ≤ e.deadline → heard.timeSource ≠ some p →
    exec (.delayRespReceive p hops t) s = .next heard) ∧
  (e.deadline < s.time.localNow → exec (.delayRespReceive p hops t) s = .next ended)

/-- The first exchange after a start or a load steps the count when it lies more than 1 µs off; any other slews it (R482). -/
def Claims.Discipline : Prop := ∀ (s : State) (p : Nat) (off : Int),
  let noted := fun (t : State) => t.modTime fun u => { u with firstDone := true, lastSync := u.now, lastSyncLocal := u.localNow, holdover := false }
  (s.time.firstDone = false → (off < -1000 ∨ 1000 < off) → s.discipline p off =
    (noted (s.loadTime (-off))).lockBy off p (tnum s.time.partnerHops p)) ∧
  ((s.time.firstDone = true ∨ (-1000 ≤ off ∧ off ≤ 1000)) → s.discipline p off =
    (noted (s.modTime fun u => { u with slew := -off })).lockBy off p (tnum s.time.partnerHops p))

/-- LOCKED: the sixteenth offset in a row within 4 ns sets it with TIME_LOCKED, one beyond 50 ns clears it with
TIME_LOCK_LOST; any other offset leaves it (R482). -/
def Claims.TimeLock : Prop := ∀ (s : State) (off : Int) (src hops : Nat),
  let good := if -4 ≤ off ∧ off ≤ 4 then s.time.goodRun + 1 else 0
  let t := s.modTime fun u => { u with goodRun := good, lastOffset := off }
  (s.time.locked = true → (off < -50 ∨ 50 < off) → s.lockBy off src hops =
    (t.modTime fun u => { u with locked := false }).raise Ev.timeLockLost .module [s.time.role, src, (BitVec.ofInt 64 off).toNat]) ∧
  (s.time.locked = false → 16 ≤ good → s.lockBy off src hops =
    (t.modTime fun u => { u with locked := true }).raise Ev.timeLocked .module [src, hops]) ∧
  (s.time.locked = true → -50 ≤ off → off ≤ 50 → s.lockBy off src hops = t) ∧
  (s.time.locked = false → good < 16 → s.lockBy off src hops = t)

/-- A load of the count by D, modulo 2^64, changes every lease EXPIRY by the same D, voids the exchanges under way and raises
TIME_LOADED; no other field of a skein changes (R485). The next sample boundary moves with the count (R334). -/
def Claims.TimeLoad : Prop := ∀ (s : State) (d : Int),
  let t := s.loadTime d
  t.time.now = s.time.now + BitVec.ofInt 64 d ∧ t.time.exchanges = [] ∧ t.time.localNow = s.time.localNow ∧
  t.store.skeins = s.store.skeins.map (fun (k : Nat × Skein) => (k.1, { k.2 with expiry := k.2.expiry + BitVec.ofInt 64 d })) ∧
  t.mem = s.mem ∧ t.work = s.work ∧ (∃ n, t.flyer = { s.flyer with tele := { s.flyer.tele with next := n } }) ∧ (∃ u : State, u.box = s.box ∧ t = u.raise Ev.timeLoaded .module [(BitVec.ofInt 64 d).toNat])

/-- DELAY_RESP_LIMIT_EXPIRY voids an exchange 10 µs after its DELAY_REQ, not before (R481). -/
def Claims.DelayRespLimit : Prop := ∀ (p : Nat) (s : State) (e : Exchange), p < 4 → tget s.time.exchanges p = some e →
  (e.deadline < s.time.localNow → exec (.delayRespLimitExpiry p) s = .next (s.modTime fun u => { u with exchanges := tdel u.exchanges p })) ∧
  (s.time.localNow ≤ e.deadline → exec (.delayRespLimitExpiry p) s = .next s)

/-- SYNC_INTERVAL: a master sends SYNC with its time on a sync port every 250 µs; a follower sends none (R481). -/
def Claims.SyncInterval : Prop := ∀ (p : Nat) (s : State), p < 4 →
  (s.time.role ≠ 0 → s.syncs p = true → (s.portAt p).failover = false → (s.portAt p).light = true →
    (∀ t, tget s.time.syncSentAt p = some t → t + 250000 ≤ s.time.localNow) →
    exec (.syncInterval p) s = .next ((s.modTime fun u => { u with syncSentAt := tset u.syncSentAt p u.localNow }).emit
      (.control p (BitVec.ofNat 64 (6 * 2 ^ 56 + (0 * 2 ^ 54 + 0 * 2 ^ 48 + s.time.now.toNat % 2 ^ 48)))))) ∧
  (s.time.role ≠ 0 → (∃ t, tget s.time.syncSentAt p = some t ∧ s.time.localNow < t + 250000) → exec (.syncInterval p) s = .next s) ∧
  (s.time.role = 0 → exec (.syncInterval p) s = .next s)

/-- SYNC_LOSS_EXPIRY: 10 ms without a valid exchange end a follower's lock, with TIME_LOCK_LOST where it held one, and its
silent partner offers no source any more (R482, R483). -/
def Claims.SyncLoss : Prop := ∀ (s : State),
  ((s.time.role ≠ 0 ∨ s.time.localNow < s.time.lastSyncLocal + 10000000) → exec .syncLossExpiry s = .next s) ∧
  (s.time.role = 0 → s.time.lastSyncLocal + 10000000 ≤ s.time.localNow → ∃ t : State, exec .syncLossExpiry s = .next t ∧ t.time.locked = false ∧
    t.time.goodRun = 0 ∧ t.time.now = s.time.now ∧ (∀ p, s.timeSource = some p → t.time.partnerHops = tdel s.time.partnerHops p) ∧
    (s.timeSource = none → t.time.partnerHops = s.time.partnerHops ∧ t.time.holdover = true) ∧
    (s.time.locked = true → ∃ u : State, u.box = s.box ∧ t = u.raise Ev.timeLockLost .module
      [0, s.timeSource.getD 0xFF, (BitVec.ofInt 64 s.time.lastOffset).toNat]) ∧
    (s.time.locked = false → t.box = s.box))

/-- TIME_REF_EDGE in ROLE 1: the first edge loads INITIAL; a later one within 1 µs of its place slews the count, one further
off is ignored and counted (R484). -/
def Claims.TimeRefEdge : Prop := ∀ (s : State),
  (s.time.role ≠ 1 → exec .timeRefEdge s = .next s) ∧
  (∀ v, s.time.role = 1 → s.time.initial = some v → exec .timeRefEdge s =
    .next ((s.loadTime ((v.toNat : Int) - (s.time.now.toNat : Int))).modTime fun u =>
      { u with initial := none, refBase := some v, lastEdge := v, lastEdgeLocal := u.localNow, firstDone := false, holdover := false })) ∧
  (∀ b, s.time.role = 1 → s.time.initial = none → s.time.refBase = some b →
    let r := (s.time.now - b).toNat % 1000000000
    (r ≤ 1000 → exec .timeRefEdge s = .next ((s.modTime fun u =>
      { u with slew := -(r : Int), lastEdge := u.now, lastEdgeLocal := u.localNow, holdover := false }).lockBy r 0xFF 0)) ∧
    (999999000 ≤ r → exec .timeRefEdge s = .next ((s.modTime fun u =>
      { u with slew := 1000000000 - (r : Int), lastEdge := u.now, lastEdgeLocal := u.localNow, holdover := false }).lockBy ((r : Int) - 1000000000) 0xFF 0)) ∧
    (1000 < r → r < 999999000 → exec .timeRefEdge s = .next (s.modTime fun u => { u with edgesIgnored := u.edgesIgnored + 1 })))

/-- REFERENCE_EDGE_LOSS: three seconds without a valid edge in ROLE 1 clear LOCKED and raise TIME_REFERENCE_FAULT, once
until the next edge (R484). -/
def Claims.ReferenceEdgeLoss : Prop := ∀ (s : State), s.time.role = 1 →
  (s.time.holdover = false → s.time.lastEdgeLocal + 3000000000 ≤ s.time.localNow → exec .referenceEdgeLoss s =
    .next ((s.modTime fun u => { u with locked := false, goodRun := 0, holdover := true }).raise Ev.timeReferenceFault .module [s.time.lastEdge.toNat])) ∧
  ((s.time.holdover = true ∨ s.time.localNow < s.time.lastEdgeLocal + 3000000000) → exec .referenceEdgeLoss s = .next s)

/-- PPS_OUT rises at a count within 2 ns of a multiple of 10^9, for 100 ms; a pulse under way is not lengthened (R537). -/
def Claims.PpsOut : Prop := ∀ (s : State),
  let r := s.time.now.toNat % 1000000000
  ((r ≤ 2 ∨ 999999998 ≤ r) → s.time.pps = false → exec .ppsOutPulse s =
    .next (s.modTime fun u => { u with pps := true, ppsFall := u.localNow + 100000000 })) ∧
  ((2 < r ∧ r < 999999998 ∨ s.time.pps = true) → exec .ppsOutPulse s = .next s)

/-! ## Sessions (R279, R431–R434) -/

/-- HANDSHAKE_PACKET_RECEIVE on a module with a NODE_ID: the 1,025th packet of a second is discarded; one that goes on is
answered; one that ends an authentic handshake makes a session; END_SESSION of the peer closes its session; a failed RNG
answers nothing and raises RNG_FAIL (R419, R433, R434). -/
def Claims.HandshakePacket : Prop := ∀ (p node : Nat) (msg : List Byte) (s : State), p < 4 → s.cfg.nodeId.isSome = true → s.awake = true →
  let x := s.portAt p
  let recent := x.handshakes.filter fun t => decide (s.time.localNow < t + 1000000000)
  let t := s.setPort p { x with handshakes := recent ++ [s.time.localNow] }
  let told := t.emit (.reply (16 + p) (Config.spdmReply (16 + p) msg))
  (∀ step, 1024 ≤ recent.length → exec (.handshakePacketReceive p node msg step) s = .next ((s.discard 9).setPort p { x with handshakes := recent })) ∧
  (recent.length < 1024 → s.sec.rngFailed = false → exec (.handshakePacketReceive p node msg .goes) s = .next told) ∧
  (∀ h i u, recent.length < 1024 → s.sec.rngFailed = false → h.authentic = true → told.addSession node p h = some (i, u) →
    exec (.handshakePacketReceive p node msg (.ends h)) s = .next u) ∧
  (∀ h, recent.length < 1024 → s.sec.rngFailed = false → h.authentic = false → exec (.handshakePacketReceive p node msg (.ends h)) s = .next told) ∧
  (∀ i k, recent.length < 1024 → tget s.flyer.sessions i = some k → k.peer = node →
    exec (.handshakePacketReceive p node msg (.closes i)) s = .next (t.dropSession i)) ∧
  (recent.length < 1024 → s.sec.rngFailed = true → exec (.handshakePacketReceive p node msg .goes) s = .next (t.raise Ev.rngFail .module [0]))

/-- SESSION_REKEY at the rotation, or at a counter of 2^48, takes the next key generation; KEY_PHASE_OVERLAP_EXPIRY destroys
the old key 100 ms after a phase began (R279). -/
def Claims.SessionKeys : Prop := ∀ (i : Nat) (s : State) (k : Session), tget s.flyer.sessions i = some k →
  let set := fun (k : Session) => s.modFlyer fun f => { f with sessions := tset f.sessions i k }
  ((k.rekeyAt ≤ s.time.localNow ∨ 2 ^ 48 ≤ k.txCount) → exec (.sessionRekey i) s =
    .next (set { k with txGen := k.txGen + 1, rekeyAt := s.time.localNow + s.cfg.keyRotation * 1000000000 })) ∧
  (s.time.localNow < k.rekeyAt → k.txCount < 2 ^ 48 → exec (.sessionRekey i) s = .next s) ∧
  (∀ t, k.oldKeyUntil = some t → t ≤ s.time.localNow → exec (.keyPhaseOverlapExpiry i) s = .next (set { k with oldKeyUntil := none })) ∧
  (∀ t, k.oldKeyUntil = some t → s.time.localNow < t → exec (.keyPhaseOverlapExpiry i) s = .next s) ∧
  (k.oldKeyUntil = none → exec (.keyPhaseOverlapExpiry i) s = .next s)

/-- A lost session has its keys destroyed, and every connection of it that is not yet in ERROR enters ERROR (R282, R433). -/
def Claims.SessionLost : Prop := ∀ (s : State) (i : Nat), (∀ c ∈ s.flyer.conns, c.2.sess ≠ i) →
  s.dropSession i = s.modFlyer fun f => { f with sessions := tdel f.sessions i }

/-! ## Leases, tiers, prefix events, the lent window's events (07–10, 14) -/

/-- LEASE_EXPIRY at or after EXPIRY: the lease word is ORPHANED with EPOCH + 1 and the same OWNER, LEASE_ORPHANED is raised
with the skein, the owner and the new epoch, and the hold of ORPHAN_HOLD begins; a free, orphaned or unexpired lease
changes nothing (R150). -/
def Claims.LeaseExpiry : Prop := ∀ (idx : Nat) (s : State) (k : Skein), s.skein? idx = some k →
  let w := leaseWord (leaseEpoch k.lease + 1) true (leaseOwner k.lease)
  (k.state ≠ .retiring → leaseOwner k.lease ≠ 0 → leaseOrphaned k.lease = false → k.expiry ≤ s.time.now → exec (.leaseExpiry idx) s =
    .next ((s.setSkein idx { k with lease := w, orphanUntil := some (s.time.localNow + s.cfg.orphanHold * 1000000) }).raise
      Ev.leaseOrphaned (.tenant k.tenant) [k.handle.toNat, leaseOwner k.lease, leaseEpoch w])) ∧
  ((leaseOwner k.lease = 0 ∨ leaseOrphaned k.lease = true ∨ s.time.now < k.expiry) → exec (.leaseExpiry idx) s = .next s)

/-- ORPHAN_HOLD_END ends the skein's jobs and list entries with ST_ORPHANED, leaves the lease free with EPOCH + 1, and
destroys a skein whose orphan flag asks for release (R150). -/
def Claims.OrphanHoldEnd : Prop := ∀ (idx t : Nat) (s : State) (k : Skein), s.skein? idx = some k → k.orphanUntil = some t →
  let u := (((s.cancelSkeinJobs k.handle St.orphaned).removeSkeinEntries k.handle St.orphaned).dropCache k.handle).modSkein idx fun k =>
    { k with lease := leaseWord (leaseEpoch k.lease + 1) false 0, orphanUntil := none }
  (t ≤ s.time.localNow → k.state ≠ .retiring → k.orphanRelease = false → exec (.orphanHoldEnd idx) s = .next u) ∧
  (t ≤ s.time.localNow → k.state ≠ .retiring → k.orphanRelease = true → exec (.orphanHoldEnd idx) s = .next (u.killSkein idx).releaseHeld) ∧
  ((s.time.localNow < t ∨ k.state = .retiring) → exec (.orphanHoldEnd idx) s = .next s)

/-- COMBINE_TIMEOUT_EXPIRY emits the step's message with ST_COMBINE_TIMEOUT once TIMEOUT microseconds have passed since the
first ply; a TIMEOUT of 0 never expires (R135, R139). -/
def Claims.CombineTimeout : Prop := ∀ (id t : Nat) (s : State) (c : Combine), tget s.work.combines id = some c → s.awake = true →
  (c.startedAt = some t → cdTimeout c.bytes ≠ 0 → t + cdTimeout c.bytes * 1000 ≤ s.time.localNow → exec (.combineTimeoutExpiry id) s =
    .next (s.emitCombine s.emitFuel id St.combineTimeout)) ∧
  (c.startedAt = some t → s.time.localNow < t + cdTimeout c.bytes * 1000 → exec (.combineTimeoutExpiry id) s = .next s) ∧
  ((cdTimeout c.bytes = 0 ∨ c.startedAt = none) → exec (.combineTimeoutExpiry id) s = .next s)

/-- SWEEP_START with a cause takes a waiting tier program and waiting hints into force, ranks the candidates, and queues
those of a rank above 0 by falling rank, ties to the lower index; a sweep that has candidates left goes on with them;
with no cause nothing happens; POOL_EXHAUSTED is raised where the pool is the cause and none of them can be doffed (R192,
R196, R226, R231, R237, R404). -/
def Claims.SweepStart : Prop := ∀ (s : State), s.awake = true → (s.power.inTransition = false ∨ s.power.target ≠ .doze) →
  (∀ d ∈ s.store.doffs, d.2.bySweep = false) →
  let r := s.sweepConfig.rankAll s.sweepConfig.sweepTake
  let order := sortBy (fun (a b : Nat × Nat) => decide (b.2 < a.2) || (a.2 == b.2 && decide (a.1 < b.1))) (r.1.filter fun x => x.2 != 0)
  let u := match s.sweepConfig.sweepTake.getLast? with
    | some k => r.2.modStore fun t => { t with sweepPos := k.1 + 1 }
    | none => r.2
  let none? := u.poolCause && !order.any fun x => u.couldDoff x.1
  let v := if none? then u.raise Ev.poolExhausted .module [u.poolFree] else u
  (s.store.sweep ≠ [] → exec .sweepStart s = .next s.sweepNext.runTier) ∧
  (s.store.sweep = [] → s.sweepCause = false → exec .sweepStart s = .next s) ∧
  (s.store.sweep = [] → s.sweepCause = true → v.creelServes = true → exec .sweepStart s =
    .next ((v.modStore fun t => { t with sweep := order.map (·.1), evicting := v.poolCause }).sweepNext.runTier)) ∧
  (s.store.sweep = [] → s.sweepCause = true → v.creelServes = false → exec .sweepStart s = .next v)

/-- BOBBIN_MOVE_COMMIT of a move within DRAM or SRAM whose source checks: the bytes are copied, the leaf names the
destination with MOVE clear, the source slot is released, a source of another tier is credited, and what waited on the move
goes on; a source that fails its check ends the move as a failed one (R42, R50, R57, R224). -/
def Claims.BobbinMoveCommit : Prop := ∀ (mv : Nat) (s : State) (m : Move) (k : Skein) (l : Leaf), tget s.store.moves mv = some m → s.awake = true →
  s.skein? m.skein = some k → tget k.leaves m.key = some l → m.dstTier ≠ 2 → m.srcTier ≠ 2 →
  let moved := { l with pbn := m.dstPbn, tier := m.dstTier, move := false, format := match m.newFormat with | some f => f | none => l.format }
  let t := (({ s with mem := copyBobbin s.mem k m l }).setSkein m.skein ({ k with leaves := tset k.leaves m.key moved }).restate).modStore fun t =>
    { t with moves := tdel t.moves mv }
  let left := t.leaveSlot m.srcTier m.srcPbn m.skein
  let u := if m.srcTier = m.dstTier then left else left.creditTier k.tenant m.srcTier
  (l.check ≠ .damaged → moveSourceOk s.mem k m l = true → exec (.bobbinMoveCommit mv) s =
    .next ((u.moveSketch m.skein m.key m.srcTier m.newFormat.isSome).countMove m).afterMove) ∧
  ((l.check = .damaged ∨ moveSourceOk s.mem k m l = false) → exec (.bobbinMoveCommit mv) s = .next (s.failMove mv m true).afterMove)

/-- BOBBIN_MOVE_ABANDON clears MOVE, gives the destination slot back, credits it where the move was between tiers, and damages
the bobbin where a check value failed; the source stays in use (R42, R50, R224). -/
def Claims.BobbinMoveAbandon : Prop := ∀ (mv : Nat) (bad : Bool) (s : State) (m : Move) (k : Skein), tget s.store.moves mv = some m → s.awake = true →
  s.skein? m.skein = some k →
  exec (.bobbinMoveAbandon mv bad) s = .next (s.failMove mv m bad).afterMove ∧
  (m.dstTier = 1 → m.srcTier ≠ 1 → s.abandonEntry mv m =
    (State.giveSlots ((s.modStore fun t => { t with moves := tdel t.moves mv }).modSkein m.skein fun k =>
      { k with leaves := tmod k.leaves m.key fun l => { l with move := false } }) [m.dstPbn]).creditTier k.tenant 1) ∧
  (m.dstTier = 1 → m.srcTier = 1 → s.abandonEntry mv m =
    State.giveSlots ((s.modStore fun t => { t with moves := tdel t.moves mv }).modSkein m.skein fun k =>
      { k with leaves := tmod k.leaves m.key fun l => { l with move := false } }) [m.dstPbn])

/-- DOFF_END and RELOAD_END: a doff or a reload with nothing left to move completes its commands with the counts of what
it moved; one that still has work changes nothing (R233, R234, R235). -/
def Claims.DoffReloadEnd : Prop := ∀ (idx : Nat) (s : State), s.awake = true →
  (∀ d, tget s.store.doffs idx = some d → s.doffDone idx d = true → exec (.doffEnd idx) s = .next (s.endDoff idx d).afterMove) ∧
  (∀ d, tget s.store.doffs idx = some d → (∃ m ∈ s.store.moves, m.2.skein = idx ∧ m.2.why = .doff) → exec (.doffEnd idx) s = .next s) ∧
  (∀ r, tget s.store.reloads idx = some r → s.reloadDone idx r = true → exec (.reloadEnd idx) s = .next (s.endReload idx r).afterMove) ∧
  (∀ r, tget s.store.reloads idx = some r → (∃ m ∈ s.store.moves, m.2.skein = idx ∧ m.2.why = .reload) → exec (.reloadEnd idx) s = .next s) ∧
  (∀ r, tget s.store.reloads idx = some r → r.status = 0 → s.endReload idx r =
    (let t := s.modStore fun t => { t with reloads := tdel t.reloads idx }
     t.answerAll r.waiters 0 (toLe 4 r.reloaded ++ toLe 4 r.damaged) (t.reloadLeft idx r)))

/-- DAMAGED_DEMOTION of a bobbin on the firmware's list makes it recompute-only: tier 3, PBN 0, its slot released and its
charge credited; a bobbin that is not on the list is not touched (R41, R42). -/
def Claims.DamagedDemotion : Prop := ∀ (idx la hg b : Nat) (s : State),
  let key := leafKey la hg b
  (s.fetching = true → (∃ d ∈ s.store.damaged, d.1 = idx ∧ d.2.1 = key) → exec (.damagedDemotion idx la hg b) s = .next (s.demote idx key).afterMove) ∧
  ((∀ d ∈ s.store.damaged, ¬ (d.1 = idx ∧ d.2.1 = key)) → exec (.damagedDemotion idx la hg b) s = .next s) ∧
  (∀ k l, s.skein? idx = some k → tget k.leaves key = some l → l.tier ≠ 3 → l.lock = false →
    (∀ m ∈ s.store.moves, ¬ (m.2.skein = idx ∧ m.2.key = key)) → s.demote idx key =
    (((s.setSkein idx ({ k with leaves := tset k.leaves key { l with tier := 3, pbn := 0, move := false },
                                sketches := k.sketches.filter fun e => e.1 / 16 != key }).restate).modStore fun t =>
      { t with damaged := t.damaged.filter fun d => !(d.1 == idx && d.2.1 == key) }).leaveSlot l.tier l.pbn idx).creditTier k.tenant l.tier)

/-- SLOT_FREE frees a released slot when every holder that began before its release has ended, and not before (R48). -/
def Claims.SlotFree : Prop := ∀ (tier pbn : Nat) (s : State),
  exec (.slotFree tier pbn) s = .next (s.freePending tier pbn).runTier ∧
  ((∀ p ∈ s.store.pendingFree, ¬ (p.1 = tier ∧ p.2.1 = pbn)) → s.freePending tier pbn = s) ∧
  (∀ p, s.store.pendingFree.find? (fun p => p.1 == tier && p.2.1 == pbn) = some p →
    (s.holdersPast p.2.2.1 = false → s.freePending tier pbn = s) ∧
    (s.holdersPast p.2.2.1 = true → tier = 1 → s.freePending tier pbn =
      (s.modStore fun t => { t with pendingFree := t.pendingFree.erase p }).giveSlots [pbn]))

/-- SKEIN_RETIREMENT_END of a RETIRING skein none of whose slots waits: its slabs are given back, its charges credited, its
reels leave the creel, its index becomes free; any other skein is left (R51). -/
def Claims.SkeinRetirementEnd : Prop := ∀ (idx : Nat) (s : State) (k : Skein), s.skein? idx = some k →
  let slabs := k.tableSlabs ++ k.reelSlabs.map (·.2) ++ k.historySlabs.map (·.2)
  (k.state = .retiring → (∀ p ∈ s.store.pendingFree, p.2.2.2 ≠ idx) → exec (.skeinRetirementEnd idx) s =
    .next (((((((s.giveSlots slabs).credit k.tenant qDram slabs.length).credit k.tenant qCreel k.reelCreelBobbins).credit k.tenant qSkein 1).modCreel
      fun c => { c with reels := tdel c.reels idx, reelPages := c.reelPages.filter fun p => p.idx != idx }).reclaim).modStore fun t => { t with skeins := tdel t.skeins idx, skeinPool := t.skeinPool.put idx })) ∧
  ((k.state ≠ .retiring ∨ ∃ p ∈ s.store.pendingFree, p.2.2.2 = idx) → exec (.skeinRetirementEnd idx) s = .next s)

/-- PREFIX_SHIFT_COMPLETE carries out the oldest insertion and those behind it that need no shift; with none waiting it
changes nothing (R210). -/
def Claims.PrefixShift : Prop := ∀ (s : State),
  exec .prefixShiftComplete s = .next (State.insertAhead s.insertOne.pfx.inserts.length s.insertOne) ∧
  (s.pfx.inserts = [] → exec .prefixShiftComplete s = .next s)

/-- PREFIX_SHADOW_COMPARE, every 10 s: an entry that differs from its shadow is written again from it with
PREFIX_SOFT_ERROR and counted; the entries that a lost line of the shadow covers are given up in one event; where nothing
differs only the time of the comparison changes (R215). -/
def Claims.PrefixShadow : Prop := ∀ (s : State) (fs : List PrefixFault),
  (s.time.localNow < s.pfx.lastCompare + 10000000000 → exec (.prefixShadowCompare fs) s = .next s) ∧
  (s.pfx.lastCompare + 10000000000 ≤ s.time.localNow →
    exec (.prefixShadowCompare []) s = .next (s.modPfx fun p => { p with lastCompare := s.time.localNow }) ∧
    (∀ pos e, pos < prefixSlots → tget s.pfx.shadow pos = some e → exec (.prefixShadowCompare [.mismatch pos]) s =
      .next ((s.modPfx fun p => { p with lastCompare := s.time.localNow, entries := tset p.entries pos e, softErrors := p.softErrors + 1 }).raise
        Ev.prefixSoftError .module [pos])) ∧
    (∀ ps, (∀ p ∈ ps, p < prefixSlots) → ps ≠ [] → exec (.prefixShadowCompare [.shadowLost ps]) s =
      .next (((ps.foldl State.loseEntry (s.modPfx fun p => { p with lastCompare := s.time.localNow })).modPfx fun p =>
        { p with softErrors := p.softErrors + 1 }).raise Ev.prefixSoftError .module ps)))

/-- LENT_BAND_CHANGE_COMPLETE: a shrinking window takes effect at once, a growing one once no bobbin is left in its band
and no slab stands there; the command completes with the previous size, the band's bytes are zeroed, and a change that
waited behind it starts (R238, R402). -/
def Claims.LentBandChange : Prop := ∀ (s : State) (w : CmdRef) (gib : Nat), s.store.lentWaiter = some (w, gib) → s.awake = true →
  let first := 12189696 - gib * 16384
  (gib < s.cfg.lentGib → exec .lentBandChangeComplete s = .next (s.lentDone w gib).runTier) ∧
  (s.cfg.lentGib ≤ gib → s.bandBobbins first ≠ [] → exec .lentBandChangeComplete s = .next s.runTier) ∧
  (s.cfg.lentGib ≤ gib → s.bandBobbins first = [] → (∀ p ∈ s.store.dramUsed, p < first) → exec .lentBandChangeComplete s =
    .next (s.lentDone w gib).runTier) ∧
  (∃ t : State, s.setLent w gib = t.answer w St.ok (toLe 8 s.cfg.lentGib) ∧ t.cfg = { s.cfg with lentGib := gib } ∧
    t.store.lentWaiter = none ∧ t.store.poolSlots = 12189696 - gib * 16384 - poolBase)

/-- HOST_FENCE_DRAIN answers the LD's waiting fences in order, each with its number; LENT_REVOKE_DRAIN answers the entry's
waiting revoke (R364, R369). -/
def Claims.LentDrains : Prop := ∀ (s : State),
  (∀ ld w n, ld < ldCount → (s.ld ld).fenceWaiters = [(w, n)] → exec (.hostFenceDrain ld) s =
    .next ((s.modLd ld fun l => { l with fenceWaiters := [] }).answer w St.ok (toLe 2 n))) ∧
  (∀ ld, ldCount ≤ ld → exec (.hostFenceDrain ld) s = .fault .noSuchUnit) ∧
  (∀ e w, tget s.cxl.revokeWaiters e = some w → exec (.lentRevokeDrain e) s =
    .next ((s.modCxl fun c => { c with revokeWaiters := tdel c.revokeWaiters e }).answer w St.ok [])) ∧
  (∀ e, tget s.cxl.revokeWaiters e = none → exec (.lentRevokeDrain e) s = .next s)

/-! ## Reliability (17) and the creel's events (10) -/

/-- PATROL_BUDGET_PERIOD in Run advances the pass by at most its pace and what its budget leaves in the millisecond, counts a
period that advances less as deferred, and handles the line errors it meets; in Hold nothing advances; in a module that is
not working it does nothing (R20, R446, R447, R496). -/
def Claims.PatrolPeriod : Prop := ∀ (bytes : Nat) (errs : List LineError) (s : State),
  let at' := fun (n : Nat) => (if n < min bytes s.patrolWant then s.deferDuty 1 else s).modRel fun r =>
    { r with patrolDone := s.rel.patrolDone + n, patrolUse := (s.msPeriod, usedIn s.msPeriod r.patrolUse + n), counters := tset r.counters (relCounter 9 1) ((s.rel.patrolDone + n) * 1024 / patrolBytes) }
  let n := min bytes s.patrolPace
  (s.awake = true → s.power.state = .run → exec (.patrolBudgetPeriod bytes errs) s =
    .next (State.patrolEnd (State.patrolChecks (errs.foldl State.lineError (at' n)) s.rel.patrolDone (s.rel.patrolDone + n)))) ∧
  (s.awake = true → s.power.state ≠ .run → exec (.patrolBudgetPeriod bytes errs) s = .next (at' 0).patrolEnd) ∧
  (s.awake = false → exec (.patrolBudgetPeriod bytes errs) s = .next s)

/-- A pass of the patrol scrub that ends starts the next; one that overruns 24 h raises DUTY_LATE once and goes on (R446,
R447). -/
def Claims.PatrolPass : Prop := ∀ (s : State),
  (patrolBytes ≤ s.rel.patrolDone → s.patrolEnd = s.modRel fun r => { r with patrolDone := 0, patrolStart := s.time.localNow, dutyLate := false }) ∧
  (s.rel.patrolDone < patrolBytes → s.rel.patrolStart + 86400000000000 ≤ s.time.localNow → s.rel.dutyLate = false →
    s.patrolEnd = (s.modRel fun r => { r with dutyLate := true }).raise Ev.dutyLate .module [1]) ∧
  (s.rel.patrolDone < patrolBytes → (s.time.localNow < s.rel.patrolStart + 86400000000000 ∨ s.rel.dutyLate = true) → s.patrolEnd = s)

/-- A line with one failed symbol is corrected and only counted; one with more is counted and lost; either counts towards
the score of the physical channel (R443, R444, R454). -/
def Claims.LineErrors : Prop := ∀ (s : State) (e : LineError), slotAddr 1 0 ≤ e.addr → e.addr < slotAddr 1 12582912 →
  let p := s.physOf (chanOf (e.addr - slotAddr 1 0))
  let noted := s.modRel fun r => { r with ecc := r.ecc ++ [(p, s.time.localNow, decide (1 < e.symbols))] }
  (e.symbols = 1 → s.lineError e = noted.countRel 1 p) ∧
  (1 < e.symbols → s.lineError e = (noted.countRel 2 p).lineLost e.addr) ∧
  (e.symbols = 0 → s.lineError e = s)

/-- An uncorrectable line of a bobbin damages every leaf that names its slot, and every run that holds it (R42, R204, R444). -/
def Claims.BobbinLineLost : Prop := ∀ (s : State) (a : Nat),
  let line := a / 64 * 64
  let pbn := (line - slotAddr 1 0) / slotBytes
  poolBase ≤ pbn → pbn < 12189696 → s.leavesAt pbn ≠ [] → s.cxl.badLines.contains line = false →
  s.lineLost a = State.damageRuns ((s.leavesAt pbn).foldl (fun s e => s.damage e.1 e.2) { s with cxl := { s.cxl with badLines := s.cxl.badLines ++ [line] } }) 1 pbn

/-- CALIBRATION_STEP of a channel whose step is due counts the channel's steps modulo 64 and keeps the narrowest margin of its
lanes; the 64th makes it the channel's margin; a step that its share or a channel of its group does not let in is deferred
and counted; a channel above 1,087 does not exist (R20, R448). -/
def Claims.CalibrationStep : Prop := ∀ (ch margin : Nat) (s : State),
  (1088 ≤ ch → ∀ b, exec (.calibrationStep ch margin b) s = .fault .noSuchUnit) ∧
  (ch < 1088 → s.awake = true → s.calibrationDue ch = false → ∀ b, exec (.calibrationStep ch margin b) s = .next (s.deferDuty 2)) ∧
  (ch < 1088 → s.awake = true → s.calibrationDue ch = true →
    let n := tnum s.rel.calStep ch
    let now := tset s.rel.calAt ch s.time.localNow
    (n = 0 → exec (.calibrationStep ch margin false) s =
      .next (s.modRel fun r => { r with calStep := tset r.calStep ch 1, calAt := now, calMin := tset r.calMin ch margin })) ∧
    (∀ low, 0 < n → n < 63 → tget s.rel.calMin ch = some low → exec (.calibrationStep ch margin false) s =
      .next (s.modRel fun r => { r with calStep := tset r.calStep ch (n + 1), calAt := now, calMin := tset r.calMin ch (min margin low) })) ∧
    (∀ low, n = 63 → tget s.rel.calMin ch = some low → exec (.calibrationStep ch margin false) s =
      .next (s.modRel fun r => { r with calStep := tset r.calStep ch 0, calAt := now, calMin := tset r.calMin ch (min margin low),
                                        margins := tset r.margins ch (min margin low) })) ∧
    (exec (.calibrationStep ch margin true) s =
      .next (s.modRel fun r => { r with calStep := tset r.calStep ch 1, calAt := now, calMin := tset r.calMin ch margin })))

/-- CHANNEL_SPARE_COPY_COMPLETE in Run: the spare serves the logical channel, the repair is written to the creel's system
blocks, the old physical channel is EXPELLED, and the command that asked is answered; outside Run the copy waits (R451,
R462, R496). -/
def Claims.SpareCopyComplete : Prop := ∀ (stack ch spare : Nat) (w : Option CmdRef) (s : State), stack < 8 → ch < 128 →
  tget s.rel.copies (stack * 128 + ch) = some (spare, w) →
  let c := stack * 128 + ch
  let t := State.refreshLevel (State.expel (s.writeRepair.modRel fun r => { r with chanMap := tset r.chanMap c (spare % 136), copies := tdel r.copies c }) kChannel (s.physOf c))
  (s.awake = true → s.power.state = .run → w = none → exec (.channelSpareCopyComplete stack ch) s = .next t) ∧
  (∀ r, s.awake = true → s.power.state = .run → w = some r → exec (.channelSpareCopyComplete stack ch) s = .next (t.answer r St.ok []).fetchAll) ∧
  (s.power.state ≠ .run → exec (.channelSpareCopyComplete stack ch) s = .next s)

/-- CHANNEL_FAILURE of a working channel: its data is lost, and a free spare takes its place; with none it becomes vacant
(R176, R444, R452). -/
def Claims.ChannelFailure : Prop := ∀ (stack ch : Nat) (s : State) (k : Stack), stack < 8 → ch < 128 → s.rel.stackUnits[stack]? = some k →
  k.state ≠ 2 → ch ∉ k.vacant → s.power.stopped = false → s.power.off = false → tget s.rel.copies (stack * 128 + ch) = none →
  let c := stack * 128 + ch
  (∀ p, s.spareFor c = some p → exec (.channelFailure stack ch) s = .next ((((s.useSpare p).remap c p).loseChannel c).refreshLevel)) ∧
  (s.spareFor c = none → exec (.channelFailure stack ch) s = .next ((((s.expel kChannel (s.physOf c)).vacate c).loseChannel c).refreshLevel))

/-- A failed channel's spare is that of its own run where it is free (R450, R451). -/
def Claims.OwnSpareFirst : Prop := ∀ (s : State) (c : Nat), c < 1024 →
  let own := c / 128 * 136 + 17 * (c % 128 / 16) + 16
  (own ∉ s.rel.spareUsed → (kChannel, own) ∉ s.rel.expelled → s.spareFor c = some own) ∧
  ((∀ r, r < 8 → c / 128 * 136 + 17 * r + 16 ∈ s.rel.spareUsed) → s.spareFor c = none)

/-- A vacant channel's group is withdrawn and the stack runs with one whorl less; with fewer than 64 channels left the
stack goes OFFLINE (R176, R452). -/
def Claims.StackAfterVacancy : Prop := ∀ (s : State) (stack : Nat) (k : Stack), s.rel.stackUnits[stack]? = some k →
  (k.vacant.length ≤ 64 → k.vacant ≠ [] → (s.restack stack).rel.stackUnits[stack]? = some { k with state := 1, whorls := 128 - k.vacant.length }) ∧
  (64 < k.vacant.length → (s.restack stack).rel.stackUnits[stack]? = some { k with state := 2, whorls := 0 })

/-- COLUMN_SELF_TEST_COMPLETE returns a spindle whose self-test failed no further column to service; one with a failure
stays OFFLINE and is EXPELLED (R453). -/
def Claims.ColumnSelfTest : Prop := ∀ (sp : Nat) (failed : List Nat) (s : State) (p : Spindle), sp < 8 → s.rel.spindles[sp]? = some p →
  p.state = 4 → p.selfTest = true →
  let bad := failed.filter fun c => decide (c < 516) && !p.failed.contains c
  (bad = [] → exec (.columnSelfTestComplete sp failed) s =
    .next (State.refreshLevel (s.modSpindle sp fun p => { p with state := 0, selfTest := false }))) ∧
  (bad ≠ [] → exec (.columnSelfTestComplete sp failed) s =
    .next (State.refreshLevel (State.expel ((s.modSpindle sp fun p => { p with selfTest := false }).modRel fun r =>
      { r with failedTest := r.failedTest ++ bad.map (sp * 516 + ·) }) kSpindle sp)))

/-- HEALTH_RECOMPUTE, every second: the corrected symbols are counted, every score below 255 is written, a SUSPECT component
at 160 or more is SUSPECT no longer, and a module all of whose scores are 96 or more expels nothing (R272, R454, R455,
R456). -/
def Claims.HealthRecompute : Prop := ∀ (ms : List WaveHealth) (s : State),
  let u := s.waveNews ms
  let scores := u.scoresNow ms
  ((s.awake = false ∨ s.time.localNow < s.rel.lastHealth + 1000000000) → exec (.healthRecompute ms) s = .next s) ∧
  (s.awake = true → s.rel.lastHealth + 1000000000 ≤ s.time.localNow → (∀ e ∈ scores, 96 ≤ e.2) →
    (∀ c ∈ s.rel.suspect, 160 ≤ (tget scores (healthKey c.1 c.2)).getD 255) → exec (.healthRecompute ms) s =
    .next (u.modRel fun r => { r with lastHealth := s.time.localNow, scores, suspect := [] })) ∧
  (∀ w, tnum u.rel.counters (relCounter 7 w) = ((ms.filter fun m => decide (m.wave < 36)).foldl (fun t m => tadd t (relCounter 7 m.wave) m.symbols)
    s.rel.counters |> fun t => tnum t (relCounter 7 w)))

/-- One candidate: out of service it is left; otherwise it is expelled where the expulsion leaves the module its attention
set, and SUSPECT where it does not or no spare or budget is left (R455, R456, R457). -/
def Claims.Judgement : Prop := ∀ (s : State) (kind i : Nat),
  (s.serving kind i = false → s.judge kind i = s) ∧
  (∀ t, s.serving kind i = true → s.expulsion kind i = some t → (t.attentionSet = true ∨ s.attentionSet = false) → s.judge kind i = t) ∧
  (∀ t, s.serving kind i = true → s.expulsion kind i = some t → t.attentionSet = false → s.attentionSet = true →
    s.judge kind i = s.makeSuspect kind i) ∧
  (s.serving kind i = true → s.expulsion kind i = none → s.judge kind i = s.makeSuspect kind i)

/-- SHADOW_AUDIT of a lea that another spindle has streamed, within the auditor's share: an equal result is only counted; a
difference is logged and waits for a third spindle, or charges both where none is in service; beyond the share it is
deferred and counted (R445, R458, R459). -/
def Claims.ShadowAudit : Prop := ∀ (id item lea auditor u : Nat) (rows : List (Nat × Nat)) (s : State) (j : Job) (i : Item), auditor < 8 →
  s.job? id = some j → j.items[item]? = some i → i.sub = some u → j.whorls = false → j.phase = .streaming → lea < i.leas → lea ∉ i.lost →
  u / 64 ≠ auditor → s.spindleServes auditor = true → s.awake = true →
  (s.auditShare auditor = none → exec (.shadowAudit id item lea auditor rows) s = .next ((s.countRel 5 auditor).deferDuty 3)) ∧
  (∀ t, s.auditShare auditor = some t → exec (.shadowAudit id item lea auditor []) s = .next (t.countRel 4 auditor)) ∧
  (∀ t, s.auditShare auditor = some t → rows ≠ [] →
    ∃ (a : AuditRec) (v : State), a.original = u / 64 ∧ a.auditor = auditor ∧
      a.rows = rows ∧ a.index = t.rel.auditCount + 1 ∧ a.key = j.key ∧ v.rel.auditCount = t.rel.auditCount + 1 ∧
      v.rel.audits = (t.rel.audits ++ [a]).drop (t.rel.audits.length + 1 - 256) ∧
      (v.thirdSpindle [u / 64, auditor] = true → exec (.shadowAudit id item lea auditor rows) s = .next v) ∧
      (v.thirdSpindle [u / 64, auditor] = false → exec (.shadowAudit id item lea auditor rows) s =
        .next (v.settleAudit { a with charged := [u / 64, auditor] })))

/-- AUDIT_ARBITER_COMPLETE charges the spindle that differs from the other two, both where all three differ, and nobody
where they agree (R459). -/
def Claims.AuditArbiter : Prop := ∀ (log k : Nat) (s : State) (a : AuditRec), s.rel.audits.find? (fun a => a.index == log && !a.settled) = some a →
  k < 8 → k ≠ a.original → k ≠ a.auditor → s.spindleServes k = true →
  exec (.auditArbiterComplete log (some k) true false) s = .next (s.settleAudit { a with arbiter := some k, charged := [a.auditor] }) ∧
  exec (.auditArbiterComplete log (some k) false true) s = .next (s.settleAudit { a with arbiter := some k, charged := [a.original] }) ∧
  exec (.auditArbiterComplete log (some k) false false) s = .next (s.settleAudit { a with arbiter := some k, charged := [a.original, a.auditor] }) ∧
  exec (.auditArbiterComplete log (some k) true true) s = .next s ∧
  (s.thirdSpindle [a.original, a.auditor] = false →
    exec (.auditArbiterComplete log none false false) s = .next (s.settleAudit { a with charged := [a.original, a.auditor] }))

/-- MERGE_START of a mapped logical block that is due takes a free block for it; one that is not due, or whose merge runs,
or in READ_ONLY, starts nothing (R243, R244, R257). -/
def Claims.MergeStart : Prop := ∀ (lb : Nat) (s : State),
  (∀ b t, s.awake = true → s.creel.state = .online → s.lbMapped lb = true → s.creel.destOf lb = none → s.creel.mergeDue lb = true →
    s.mergeBlock lb = some (b, t) → exec (.mergeStart lb) s = .next t) ∧
  ((s.creel.state ≠ .online ∨ s.lbMapped lb = false ∨ (∃ b, s.creel.destOf lb = some b) ∨ s.creel.mergeDue lb = false) →
    exec (.mergeStart lb) s = .next s)

/-- MERGE_COMPLETE writes the logical block's live pages to its new block and maps it there; the old pages become invalid
and their blocks are erased (R241, R243, R245, R246). -/
def Claims.MergeComplete : Prop := ∀ (lb b : Nat) (s : State), s.creel.destOf lb = some b → s.awake = true → s.creelServes = true →
  exec (.mergeComplete lb) s = .next (State.runTier (State.levelWear (State.reclaim (s.modCreel fun c =>
    { c.mergePages lb b with blocks := tset c.blocks b (.data lb), map := tset c.map lb b, merges := tdel c.merges lb
                             asked := c.asked.filter (· != lb), level := c.level.filter (· != lb) }))))

/-- MERGE_DEST_FAIL retires the destination with CREEL_PROGRAM_FAIL and takes a fresh block for the merge; in READ_ONLY the
merge does not start again (R255, R257, R262). -/
def Claims.MergeDestFail : Prop := ∀ (lb b : Nat) (s : State), s.creel.destOf lb = some b → s.awake = true → s.creelServes = true →
  let t := State.setFlag (s.retireBlock b 3) Flag.creelProgramFail
  (∀ x u, t.creel.state = .online → t.takeBlock (.mergeDest lb) = some (x, u) → exec (.mergeDestFail lb) s = .next u) ∧
  (t.creel.state ≠ .online → exec (.mergeDestFail lb) s = .next t)

/-- CREEL_PROGRAM_FAIL moves the live pages of a buffer or log block to other units and retires it with its flag; a system
block is replaced by a spare one and written again; a block that is none of these is left (R253, R256, R262). -/
def Claims.CreelProgramFail : Prop := ∀ (blk : Nat) (s : State), s.awake = true → s.creelServes = true →
  (s.systemBlock blk = true → exec (.creelProgramFail blk) s = .next ((s.replaceSystem blk 1).setFlag Flag.creelProgramFail)) ∧
  (∀ t, s.systemBlock blk = false → (tget s.creel.blocks blk = some .buffer ∨ tget s.creel.blocks blk = some .log) → s.relocate blk = some t →
    exec (.creelProgramFail blk) s = .next ((t.retireBlock blk 1).setFlag Flag.creelProgramFail)) ∧
  (s.systemBlock blk = false → tget s.creel.blocks blk = none → exec (.creelProgramFail blk) s = .next s)

/-- CREEL_ERASE_FAIL retires the block with its flag, a system block is replaced; CREEL_ERASE_COMPLETE counts the erase, a
tenth of a wear where the block was used as SLC, and frees the block, or retires one whose wear had reached 3,000 (R241,
R250, R254, R256, R258). -/
def Claims.CreelErase : Prop := ∀ (blk : Nat) (s : State), s.awake = true → s.creelServes = true →
  let freed := fun (c : Creel) => { c with maxWear := max c.maxWear (c.wear blk / 10), blocks := tdel c.blocks blk, freeBlocks := c.freeBlocks + 1
                                           flash := tdel c.flash blk, metas := c.metas.filter fun m => !m.places.any fun p => p.1 == blk }
  (s.systemBlock blk = true → exec (.creelEraseFail blk) s = .next ((s.replaceSystem blk 2).setFlag Flag.creelEraseFail)) ∧
  (∀ slc, s.systemBlock blk = false → tget s.creel.blocks blk = some (.erasing slc) →
    exec (.creelEraseFail blk) s = .next ((s.retireBlock blk 2).setFlag Flag.creelEraseFail)) ∧
  (tget s.creel.blocks blk = some (.erasing false) → s.creel.wear blk < 30000 → exec (.creelEraseComplete blk) s =
    .next (State.runTier (State.levelWear (State.leaveReadOnly (s.modCreel fun c => freed { c with tlcErases := tadd c.tlcErases blk 1 }))))) ∧
  (tget s.creel.blocks blk = some (.erasing true) → s.creel.wear blk < 30000 → exec (.creelEraseComplete blk) s =
    .next (State.runTier (State.levelWear (State.leaveReadOnly (s.modCreel fun c => freed { c with slcErases := tadd c.slcErases blk 1 }))))) ∧
  (∀ slc, tget s.creel.blocks blk = some (.erasing slc) → 30000 ≤ s.creel.wear blk → exec (.creelEraseComplete blk) s = .next (s.retireBlock blk 4))

/-- CREEL_SCAN_COMPLETE of a rebuilding creel: pages whose record is bad are ignored, the newest copies are taken, the map
is rebuilt, the creel is ONLINE with CREEL_REBUILT; at any other time it does nothing (R251, R252, R262). -/
def Claims.CreelScan : Prop := ∀ (bad : List PageAt) (s : State), s.awake = true →
  (s.creel.state = .rebuilding → exec (.creelScanComplete bad) s = .next (State.runTier (State.checkTails (State.checkReadOnly
    (State.setFlag (((s.scanLeas bad).scanRecords bad).rebuildMap.modCreel fun c => { c with state := .online }) Flag.creelRebuilt))))) ∧
  (s.creel.state ≠ .rebuilding → exec (.creelScanComplete bad) s = .next s)

/-- CREEL_PATROL_PERIOD in Run advances the pass by at most its pace and what its budget leaves in the second, checks what it
read, gives up what is lost, keeps the corrected bits of the pages and has worn pages written again; in Hold nothing
advances (R259, R446, R496). -/
def Claims.CreelPatrol : Prop := ∀ (pages : Nat) (bits : List PageBits) (bad : List PageAt) (s : State), s.awake = true → s.creelServes = true →
  let lo := s.creel.patrolPage
  let used := usedIn (s.time.localNow / 1000000000) s.rel.creelPatrolUse
  let at' := fun (n : Nat) => ((if n < min pages s.creelWant then s.deferDuty 5 else s).modCreel fun c => { c with patrolPage := lo + n }).modRel fun r =>
    { r with creelPatrolUse := (s.time.localNow / 1000000000, used + n)
             counters := tset r.counters (relCounter 9 5) ((lo + n) * 1024 / max 1 s.patrolTotal) }
  let n := min pages (min s.creelWant (s.creelCap - used))
  let read := (s.creel.programmed.drop lo).take n
  let mine := bits.filter fun x => read.contains (x.blk, x.page)
  (s.power.state = .run → exec (.creelPatrolPeriod pages bits bad) s =
    .next (State.creelPassEnd ((bad.filter read.contains).foldl State.losePage
      (((at' n).modCreel fun c => mine.foldl Creel.refresh (mine.foldl Creel.noteBits c)).creelChecks read)))) ∧
  (s.power.state ≠ .run → exec (.creelPatrolPeriod pages [] []) s = .next (at' 0).creelPassEnd)

/-! ## Power, the pins, the CXL port, start and security events (16, 20, 21, 22) -/

/-- INPUT_MEASUREMENT above 58.5 V or below 40 V cuts the module off, the flush running first; below 46 V it limits the
input to 1,200 W; leaving the band of 46–58 V raises INPUT_OUT_OF_RANGE once (R492, R506). -/
def Claims.InputMeasurement : Prop := ∀ (mv : Nat) (s : State), s.power.off = false →
  let noted := s.modPower fun p => { p with inputMv := mv }
  let limited := s.modPower fun p => { p with inputMv := mv, inputLimit := decide (mv < 46000) }
  (58500 < mv → exec (.inputMeasurement mv) s = .next (noted.cutPower 2)) ∧
  (mv < 40000 → exec (.inputMeasurement mv) s = .next (noted.cutPower 1)) ∧
  (46000 ≤ mv → mv ≤ 58000 → exec (.inputMeasurement mv) s = .next limited) ∧
  (40000 ≤ mv → mv ≤ 58500 → (mv < 46000 ∨ 58000 < mv) → 46000 ≤ s.power.inputMv → s.power.inputMv ≤ 58000 →
    exec (.inputMeasurement mv) s = .next ((limited.setFlag Flag.inputRange).raise Ev.inputOutOfRange .module [mv])) ∧
  (40000 ≤ mv → mv < 46000 → s.power.inputMv < 46000 → exec (.inputMeasurement mv) s = .next limited)

/-- The cut of the input stops the module, remembers its cause, and ends a trip's wait for a cycle of the input; SENSE_BREAK
counts as an undervoltage (R492, R508, R530). -/
def Claims.InputCut : Prop := ∀ (s : State), s.power.off = false →
  (∀ cause, s.power.trip = none → (s.cutPower cause).power.off = true ∧ (s.cutPower cause).power.lossCause = cause ∧
    (s.cutPower cause).power.inputCycled = true ∧ (s.cutPower cause).power.stopped = true) ∧
  exec .senseBreak s = .next ((s.cutPower 1).modPower fun p => { p with senseBroken := true })

/-- INPUT_QUALIFIED after 100 ms within the band: the module is on again, stopped only by a trip or the reset pin (R492,
R493, R530, R534). -/
def Claims.InputQualified : Prop := ∀ (t : Nat) (s : State), s.power.inBandSince = some t →
  (s.power.off = true → t + 100000000 ≤ s.time.localNow → exec .inputQualified s = .next (s.modPower fun p =>
    { p with off := false, inBandSince := none, senseBroken := false, inputLimit := false, stopped := p.trip.isSome || p.resetHeld })) ∧
  ((s.power.off = false ∨ s.time.localNow < t + 100000000) → exec .inputQualified s = .next s)

/-- What survives a stop: the creel's bytes, the tenants and their keys in the creel, the time and the island's records; the
skeins, jobs, connections and mailboxes do not (R514, R519). -/
def Claims.Stopped : Prop := ∀ (s : State),
  s.stop.store.skeins = [] ∧ s.stop.work.jobs = [] ∧ s.stop.flyer.conns = [] ∧ s.stop.pfx.runs = [] ∧ s.stop.power.stopped = true ∧
  s.stop.power.state = .run ∧ s.stop.boot.state = .booting ∧ s.stop.store.creelUsed = s.store.creelUsed ∧ s.stop.time = s.time ∧
  s.stop.sec.svnRecords = s.sec.svnRecords ∧ s.stop.mem = s.mem.filter (fun c => c.1 / 2 ^ 48 == 2) ∧ s.stop.pending = s.pending

/-- POWER_CAP_GOVERNOR_STEP, every 10 µs: above the cap the clock falls by 1/64, not below 25 %; 50 W or more below it the
clock rises by 1/64, not above full; a step down sets THROTTLED (R506). -/
def Claims.GovernorStep : Prop := ∀ (w : Nat) (s : State), s.power.off = false → s.power.stopped = false → s.power.throttling = [] →
  s.power.stackClock = List.replicate 8 64 →
  let p := s.power
  let towards := fun (c : Nat) (since : Option Nat) => s.modPower fun p => { p with inputW := w, clock := c, floorSince := since, unmet := false }
  (p.cap < w → 16 < p.clock → exec (.powerCapGovernorStep w) s = .next ((towards (p.clock - 1) none).setFlag Flag.throttled)) ∧
  (w + 50 ≤ p.cap → p.clock < 64 → exec (.powerCapGovernorStep w) s = .next (towards (p.clock + 1) none)) ∧
  (w ≤ p.cap → p.cap < w + 50 → exec (.powerCapGovernorStep w) s = .next (towards p.clock none)) ∧
  (p.cap < w → p.clock = 16 → p.floorSince = none → exec (.powerCapGovernorStep w) s = .next (towards 16 (some s.time.localNow))) ∧
  (∀ t, p.cap < w → p.clock = 16 → p.floorSince = some t → t + 10000000 ≤ s.time.localNow → p.unmet = false →
    exec (.powerCapGovernorStep w) s =
    .next (((s.modPower fun p => { p with inputW := w, clock := 16, floorSince := some t, unmet := true }).setFlag Flag.capUnmet).raise Ev.powerCapUnmet .module [p.cap, w]))

/-- Every step of the governor sets the clocks alone: the common clock falls while the draw is above the cap or the logic die
throttles, and a hot stack's clock falls to 50 % at the least, each by 1/64 of full rate; no result changes (R506, R507). -/
def Claims.ClockSteps : Prop := ∀ (w : Nat) (s : State), s.power.off = false → s.power.stopped = false → ∃ t : State,
  exec (.powerCapGovernorStep w) s = .next t ∧
  t.power.clock = (if s.power.cap < w ∨ 1 ∈ s.power.throttling then max 16 (s.power.clock - 1)
    else if w + 50 ≤ s.power.cap then min 64 (s.power.clock + 1) else s.power.clock) ∧
  t.power.stackClock = (s.power.stackClock.zip (List.range s.power.stackClock.length)).map (fun (c : Nat × Nat) =>
    if 2 + c.2 ∈ s.power.throttling then max 32 (c.1 - 1) else min 64 (c.1 + 1)) ∧
  t.mem = s.mem ∧ t.store = s.store ∧ t.work = s.work ∧ t.flyer = s.flyer ∧ t.power.cap = s.power.cap

/-- The effective cap: the least of 1,600 W, the cap set by POWER_CAP_SET and 1,200 W on a low input, less the power stage's
derating (R506, R507). -/
def Claims.EffectiveCap : Prop := ∀ (p : Power),
  (p.inputLimit = false → p.cap = (if p.capSet = 0 then 1600 else min 1600 p.capSet) - p.derate) ∧
  (p.inputLimit = true → p.cap = (if p.capSet = 0 then 1200 else min 1200 p.capSet) - p.derate)

/-- SENSOR_THRESHOLD_CROSSING at or above the sensor's threshold throttles, sets THROTTLED for a sensor of the logic die or
a stack, and raises THERMAL_THROTTLE, at most once a second per sensor; 5 °C below it the throttling ends. The power stage
derates the cap by 40 W a degree, the creel's sensor halves its rate (R507; the 40 W a degree is log 18's). -/
def Claims.SensorCrossing : Prop := ∀ (sensor reading t : Nat) (s : State), throttleAt sensor = some t → s.power.off = false →
  s.power.stopped = false →
  let on := s.modPower fun p => { p with
    throttling := if s.power.throttling.contains sensor then s.power.throttling else s.power.throttling ++ [sensor]
    derate := if sensor = 15 then (reading - t) * 40 else p.derate
    creelHalved := if sensor = 10 then true else p.creelHalved }
  let shown := if sensor ≤ 9 ∧ sensor ∉ s.power.throttling then on.setFlag Flag.throttled else on
  (t ≤ reading → (∀ l, tget s.power.lastThrottle sensor = some l → l + 1000000000 ≤ s.time.localNow) →
    exec (.sensorThresholdCrossing sensor reading) s =
    .next ((shown.modPower fun p => { p with lastThrottle := tset p.lastThrottle sensor s.time.localNow }).raise
      Ev.thermalThrottle .module [sensor, reading])) ∧
  (∀ l, t ≤ reading → tget s.power.lastThrottle sensor = some l → s.time.localNow < l + 1000000000 →
    exec (.sensorThresholdCrossing sensor reading) s = .next shown) ∧
  (reading + 5 ≤ t → exec (.sensorThresholdCrossing sensor reading) s = .next (s.modPower fun p => { p with
    throttling := p.throttling.filter (· != sensor)
    derate := if sensor = 15 then 0 else p.derate
    creelHalved := if sensor = 10 then false else p.creelHalved }))

/-- The sensors with thresholds, and no others (R507). -/
def Claims.SensorTables : Prop :=
  (∀ sensor, (throttleAt sensor).isSome = (tripAt sensor).isSome) ∧ (∀ sensor, (throttleAt sensor).isSome = true ↔ 1 ≤ sensor ∧ sensor ≤ 15) ∧
  (∀ sensor t u, throttleAt sensor = some t → tripAt sensor = some u → u = t + 15) ∧
  (∀ sensor reading s, throttleAt sensor = none → exec (.sensorThresholdCrossing sensor reading) s = .fault .noSuchUnit ∧
    exec (.hardTrip sensor reading) s = .fault .noSuchUnit)

/-- HARD_TRIP at the sensor's figure stops all work and keeps the sensor, the reading and the time; HARD_TRIP_RAILS_OFF takes
the rails down; HARD_TRIP_RESTART needs a reset or a cycle of the input and every sensor 20 °C below its figure (R508). -/
def Claims.HardTrip : Prop := ∀ (sensor reading t : Nat) (s : State), tripAt sensor = some t →
  (t ≤ reading → s.power.trip = none → s.power.off = false → ∃ u : State, exec (.hardTrip sensor reading) s = .next u ∧
    u.power.trip = some (sensor, reading, s.time.now) ∧ u.power.stopped = true ∧ u.power.railsOff = false ∧ u.power.inputCycled = false ∧
    u.side = s.side ∧ u.store = s.stop.store ∧ u.creel = s.stop.creel ∧ u.mem = s.stop.mem) ∧
  ((reading < t ∨ s.power.trip ≠ none ∨ s.power.off = true) → exec (.hardTrip sensor reading) s = .next s) ∧
  (s.power.trip ≠ none → exec .hardTripRailsOff s = .next (s.modPower fun p => { p with railsOff := true })) ∧
  (s.power.trip = none → exec .hardTripRailsOff s = .next s)

/-- HARD_TRIP_RESTART (R508). -/
def Claims.TripRestart : Prop := ∀ (s : State) (rs : List Nat),
  (s.power.trip ≠ none → s.power.railsOff = true → s.power.inputCycled = true → s.power.off = false → s.power.resetHeld = false →
    rs.length = 15 → (∀ i r t, rs[i]? = some r → tripAt (i + 1) = some t → r + 20 ≤ t) → exec (.hardTripRestart rs) s =
    .next (s.modPower fun p => { p with railsOff := false, stopped := false, tripRestart := true, wakeSource := 6 })) ∧
  ((s.power.trip = none ∨ s.power.inputCycled = false ∨ (∃ (i : Nat) (r t : Nat), i < 15 ∧ rs[i]? = some r ∧ tripAt (i + 1) = some t ∧ t < r + 20)) →
    exec (.hardTripRestart rs) s = .next s)

/-- COOLANT_CHECK: an inlet above 40 °C, or within 2 K of the dew point, or a flow that has been too low for 10 s raises
COOLANT_WARNING, at most once a minute; good coolant clears the low-flow time (R546). -/
def Claims.CoolantCheck : Prop := ∀ (inlet outlet dew : Nat) (s : State), s.power.off = false → s.power.stopped = false →
  5967 * (outlet - inlet) ≤ s.power.inputW * 600 →
  let t := s.modPower fun p => { p with lowFlowSince := none }
  (inlet ≤ 400 → dew + 20 ≤ inlet → exec (.coolantCheck inlet outlet dew) s = .next t) ∧
  ((400 < inlet ∨ inlet < dew + 20) → s.power.lastCoolant = none → exec (.coolantCheck inlet outlet dew) s =
    .next ((t.modPower fun p => { p with lastCoolant := some s.time.localNow }).raise Ev.coolantWarning .module
      [inlet, outlet, s.power.inputW, s.power.inputW * 600000 / (3978 * (outlet - inlet))])) ∧
  (∀ l, s.power.lastCoolant = some l → s.time.localNow < l + 60000000000 → exec (.coolantCheck inlet outlet dew) s = .next t)

/-- HOLD_ENTRY_COMPLETE with nothing streaming reaches Hold: Hold asked for completes the command, Doze asked for goes on
(R495, R496). -/
def Claims.HoldEntry : Prop := ∀ (s : State), s.power.state = .run → s.power.inTransition = true →
  (s.streaming = false → s.power.target = .hold → exec .holdEntryComplete s = .next s.reachHold.answerPower) ∧
  (s.streaming = false → s.power.target = .doze → exec .holdEntryComplete s = .next s.reachHold) ∧
  (s.streaming = true → exec .holdEntryComplete s = .next s)

/-- DOZE_ENTRY_READY of a quiet module in Hold: Doze is reached, every port that is not DOWN reads LOW_RATE, the CXL link of
256-byte flits goes to a width below its own that its partner grants, a free value of the model (log 29), or keeps its width, the command completes, and a wake that came
during entry starts the exit (R337, R372, R497, R505). -/
def Claims.DozeEntry : Prop := ∀ (s : State), s.power.state = .hold → s.power.inTransition = true → s.power.target = .doze →
  (s.quiet = false → exec .dozeEntryReady s = .next s) ∧
  (s.quiet = true → ∃ u : State, u.power.state = .doze ∧ u.power.exiting = false ∧ u.power.inTransition = false ∧
    u.power.dozeNow = (s.power.periodMs, s.power.tempWake, s.power.activityWake) ∧ u.power.lastSample = s.time.localNow ∧
    u.power.lastEntry = s.time.now ∧ u.power.frameCount = 0 ∧ u.power.waiter = s.power.waiter ∧ u.store = s.store ∧ u.mem = s.mem ∧
    (∀ p, p < 4 → (s.portAt p).state ≠ .down → (u.portAt p).state = .lowRate) ∧
    (∀ p, p < 4 → (s.portAt p).state = .down → u.portAt p = s.portAt p) ∧
    (u.cxl.linkState = 3 ∧ [1, 2, 4, 8].contains u.cxl.width = true ∧ u.cxl.width < s.cxl.width ∧ s.cxl.flit256 = true ∨ u.cxl.linkState = s.cxl.linkState ∧ u.cxl.width = s.cxl.width) ∧
    (s.power.wakeLatched = false → exec .dozeEntryReady s = .next u.answerPower) ∧
    (s.power.wakeLatched = true → exec .dozeEntryReady s = .next (u.answerPower.modPower fun p =>
      { p with exiting := true, inTransition := true, target := .run, wakeSource := s.power.wakeSource, wakeDuringEntry := true, wakeN := true })))

/-- A wake source met in Doze starts the exit and asserts WAKE_N; one met between POWER_STATE_SET and the end of entry is
latched, and the first stays; one met during exit has no further effect; a second POWER_STATE_SET waits for the first (R505,
R536). -/
def Claims.WakeSources : Prop := ∀ (s : State) (n : Nat),
  (s.power.state = .doze → s.power.exiting = false → s.metWake n = s.modPower fun p =>
    { p with exiting := true, inTransition := true, target := .run, wakeSource := n, wakeDuringEntry := false, lastWake := s.time.now, wakeN := true }) ∧
  (s.power.state ≠ .doze → s.power.inTransition = true → s.power.target = .doze → s.power.wakeLatched = false → s.metWake n = s.modPower fun p =>
    { p with wakeLatched := true, wakeSource := n, lastWake := s.time.now }) ∧
  (s.power.state ≠ .doze → s.power.wakeLatched = true → s.metWake n = s) ∧
  (s.power.state = .doze → s.power.exiting = true → s.power.target ≠ .doze → s.metWake n = s) ∧
  (∀ m slot w, m < 1024 → s.power.waiter = some w → exec (.powerStateSet m slot) s = .next s) ∧
  s.reachRun.power.wakeN = false

/-- DOZE_SAMPLE, once per period: the first met source in the order of the codes — a WAKE block, activity, the temperature —
starts the exit; with none the module sleeps on (R500, R501). -/
def Claims.DozeSample : Prop := ∀ (hot : Nat) (s : State), s.power.state = .doze → s.power.exiting = false →
  let p := s.power
  let t := s.modPower fun p => { p with lastSample := s.time.localNow, frameCount := 0, portWake := false }
  let wake := fun (n : Nat) => t.modPower fun p => { p with exiting := true, inTransition := true, target := .run, wakeSource := n,
                                                            wakeDuringEntry := false, lastWake := s.time.now, wakeN := true }
  (s.time.localNow < p.lastSample + p.dozeNow.1 * 1000000 → exec (.dozeSample hot) s = .next s) ∧
  (p.lastSample + p.dozeNow.1 * 1000000 ≤ s.time.localNow →
    (p.portWake = true → exec (.dozeSample hot) s = .next (wake 1)) ∧
    (p.portWake = false → max 1 p.dozeNow.2.2 ≤ p.frameCount → exec (.dozeSample hot) s = .next (wake 2)) ∧
    (p.portWake = false → p.frameCount < max 1 p.dozeNow.2.2 → p.dozeNow.2.1 ≤ hot → exec (.dozeSample hot) s = .next (wake 4)) ∧
    (p.portWake = false → p.frameCount < max 1 p.dozeNow.2.2 → hot < p.dozeNow.2.1 → exec (.dozeSample hot) s = .next t))

/-- CXL_WAKE_REQUEST: a CXL.mem request to the lent window in Doze is held, with its wake; an awake module holds none
(R500, R502). -/
def Claims.CxlWake : Prop := ∀ (ld off len : Nat) (s : State), ld < ldCount → off + len ≤ lentSpan →
  let r : HeldReq := { ld, lent := true, off, len, data := none }
  (s.power.state = .doze → exec (.cxlWakeRequest ld true off len none) s =
    .next (State.metWake { s with cxl := { s.cxl with held := s.cxl.held ++ [r] } } 3)) ∧
  (s.power.state ≠ .doze → s.power.inTransition = false → exec (.cxlWakeRequest ld true off len none) s = .next s)

/-- DOZE_EXIT_COMPLETE: LOW_RATE ports are UP again, the CXL link at its full width, held requests are served, and Run is
reached, or Hold where POWER_STATE_SET asked for it (R499, R502, R504). -/
def Claims.DozeExit : Prop := ∀ (s : State),
  let ports := (List.range portCount).foldl State.portFull s
  let full := ports.cxlFull
  (s.power.state = .doze → s.power.exiting = true → s.power.waiter = none → exec .dozeExitComplete s =
    .next (State.fetchAll ((List.range portCount).foldl State.kick full.serveHeld.reachRun.answerPower.applyLatch))) ∧
  (∀ w c, s.power.state = .doze → s.power.exiting = true → s.power.waiter = some w → s.box.inflight = [c] → c.ref = w → c.param 0 1 = 1 →
    exec .dozeExitComplete s =
    .next (State.fetchAll ((List.range portCount).foldl State.kick full.serveHeld.reachRun.reachHold.answerPower.applyLatch))) ∧
  ((s.power.state ≠ .doze ∨ s.power.exiting = false) → exec .dozeExitComplete s = .next s) ∧
  (∀ p, p < 4 → (s.portAt p).state = .lowRate → ports.portAt p = { s.portAt p with state := .up }) ∧
  (∀ p, p < 4 → (s.portAt p).state ≠ .lowRate → ports.portAt p = s.portAt p) ∧
  (s.cxl.linkState = 3 → full.cxl.linkState = 2 ∧ full.cxl.width = s.cxl.trainedWidth) ∧ (s.cxl.linkState ≠ 3 → full.cxl = s.cxl)

/-- MODULE_RESET_N held for 1 ms or more stops the module until its release; a shorter pulse does nothing (R534). -/
def Claims.ResetPin : Prop := ∀ (s : State),
  (∀ held, held < 1000000 → exec (.moduleResetNAssert held) s = .next s) ∧
  (∀ held, 1000000 ≤ held → s.power.off = false → s.power.trip = none → exec (.moduleResetNAssert held) s =
    .next (s.stop.modPower fun p => { p with resetHeld := true, stopped := true, inputCycled := true })) ∧
  (∀ held, 1000000 ≤ held → s.power.off = false → s.power.trip ≠ none → exec (.moduleResetNAssert held) s =
    .next (s.modPower fun p => { p with resetHeld := true, stopped := true, inputCycled := true })) ∧
  (s.power.resetHeld = true → s.power.trip = none → exec .moduleResetNRelease s =
    .next (s.modPower fun p => { p with resetHeld := false, stopped := false })) ∧
  ((s.power.resetHeld = false ∨ s.power.trip ≠ none) → exec .moduleResetNRelease s = .next (s.modPower fun p => { p with resetHeld := false }))

/-- PERST_N: its assertion resets the link and every LD and keeps the link down, its release trains the link at a width of
R337; CXL_LINK_RESET resets both and trains again; LD_RESET resets one LD (R339, R519, R521, R535). -/
def Claims.LinkResets : Prop := ∀ (s : State), s.cxlOut = true →
  (s.boot.perstAsserted = false → ∃ u : State, exec .perstNAssert s = .next u.refreshLevel ∧ u.boot.perstAsserted = true ∧
    u.cxl.linkState = 0 ∧ u.cxl.width = 0 ∧ u.cxl.ideMem = false ∧ u.cxl.lds = s.cxl.lds.map (fun d => (d.1, d.2.reset)) ∧
    u.box = s.box ∧ u.work = s.work ∧ u.mem = s.mem) ∧
  (∀ w r f, s.boot.perstAsserted = true → ∃ u : State, exec (.perstNRelease w r f) s = .next u.refreshLevel ∧ u.boot.perstAsserted = false ∧
    u.cxl.width = trainWidth w ∧ u.cxl.linkState = (if trainWidth w = 0 then 0 else 2) ∧ u.cxl.lds = s.cxl.lds ∧ u.box = s.box) ∧
  (s.boot.perstAsserted = false → ∃ u : State, exec .cxlLinkReset s = .next u.refreshLevel ∧ u.cxl.width = s.cxl.trainedWidth ∧
    u.cxl.lds = s.cxl.lds.map (fun d => (d.1, d.2.reset)) ∧ u.box = s.box ∧ u.work = s.work ∧ u.mem = s.mem) ∧
  (∀ d, d < ldCount → exec (.ldReset d) s = .next (s.modLd d Ld.reset)) ∧ (∀ d, ldCount ≤ d → exec (.ldReset d) s = .fault .noSuchUnit) ∧
  (∀ l : Ld, l.reset = { l with decoders := [], decoderError := [], msixEnabled := false, ioIde := false })

/-- A CXL link reset while the controller is itself in reset does nothing but note the pin (R535). -/
def Claims.LinkResetsIgnored : Prop := ∀ (s : State), s.cxlOut = false →
  exec .cxlLinkReset s = .next s ∧ exec .perstNAssert s = .next { s with boot := { s.boot with perstAsserted := true } } ∧
  (∀ w r f, exec (.perstNRelease w r f) s = .next { s with boot := { s.boot with perstAsserted := false } })

/-- CXL_LANE_FAILURE trains the link at the widest width and the highest rate that pass, with CXL_LINK_DEGRADED and its flag
where either is below what was trained; where nothing is lost it changes neither (R339, R337). -/
def Claims.LaneFailure : Prop := ∀ (width rate : Nat) (s : State), s.cxlUp = true →
  let c := s.cxl
  let w := min c.trainedWidth (trainWidth width)
  let r := min c.trainedRate (trainRate rate c.flit256)
  let t := s.modCxl fun c => { c with linkState := if w = 0 then 0 else c.linkState, width := min c.width w, rate := if w = 0 then 0 else r,
                                      trainedWidth := w, trainedRate := r }
  ((w < c.trainedWidth ∨ r < c.trainedRate) → exec (.cxlLaneFailure width rate) s =
    .next (State.refreshLevel ((t.setFlag Flag.linkDegraded).raise Ev.cxlLinkDegraded .module [w, r]))) ∧
  (w = c.trainedWidth → r = c.trainedRate → exec (.cxlLaneFailure width rate) s = .next t)

/-- IDE_INTEGRITY_FAILURE of a running stream ends it with CXL_IDE_FAIL, CXL.mem's as stream 16; MSIX_ENABLE raises the
vectors that waited, those whose mailbox is still the LD's (R351, R370, R521). -/
def Claims.IdeAndMsix : Prop := ∀ (s : State),
  (s.cxl.ideMem = true → exec (.ideIntegrityFailure none) s =
    .next ((s.modCxl fun c => { c with ideMem := false, insecure := true }).raise Ev.cxlIdeFail .module [16])) ∧
  (s.cxl.ideMem = false → exec (.ideIntegrityFailure none) s = .next s) ∧
  (∀ d, d < ldCount → (s.ld d).ioIde = true → exec (.ideIntegrityFailure (some d)) s =
    .next ((s.modLd d fun l => { l with ioIde := false }).raise Ev.cxlIdeFail .module [d])) ∧
  (∀ d, d < ldCount → (s.ld d).ioIde = false → exec (.ideIntegrityFailure (some d)) s = .next s) ∧
  (∀ d v, d < ldCount → (s.ld d).heldVectors = [v] → (s.mbox (v % boxCount)).ld = some d → exec (.msixEnable d) s =
    .next ((s.setLd d { s.ld d with msixEnabled := true, heldVectors := [] }).emit (.msix d v))) ∧
  (∀ d v, d < ldCount → (s.ld d).heldVectors = [v] → (s.mbox (v % boxCount)).ld ≠ some d → exec (.msixEnable d) s =
    .next (s.setLd d { s.ld d with msixEnabled := true, heldVectors := [] })) ∧
  (∀ d, ldCount ≤ d → exec (.msixEnable d) s = .fault .noSuchUnit ∧ exec (.ideIntegrityFailure (some d)) s = .fault .noSuchUnit)

/-- SPDM over DOE: GET_MEASUREMENTS answers the block asked for, an authentic FINISH makes the LD's session, IDE keys are set
only within it, with the mode asked for, a failed RNG makes none, and the CDAT can be read (R337, R341, R370, R419, R431). -/
def Claims.DoeMessages : Prop := ∀ (ld : Nat) (s : State), ld < ldCount →
  let reply := fun (t : State) (bs : List Byte) => t.emit (.reply ld (Config.spdmReply ld bs))
  (s.doeReaches = false → ∀ m, exec (.spdmDoeMessage ld m) s = .next s) ∧
  (s.doeReaches = true →
    (∀ b, exec (.spdmDoeMessage ld (.getMeasurements b)) s = .next (reply s (s.measurement b))) ∧
    (∀ h, s.sec.rngFailed = false → h.authentic = true → exec (.spdmDoeMessage ld (.finish h)) s =
      .next (reply (s.modLd ld fun l => { l with doeSession := true }) [])) ∧
    (∀ h, s.sec.rngFailed = false → h.authentic = false → exec (.spdmDoeMessage ld (.finish h)) s = .next (reply s [])) ∧
    (∀ h, s.sec.rngFailed = true → exec (.spdmDoeMessage ld (.finish h)) s = .next (s.raise Ev.rngFail .module [0])) ∧
    (∀ skid, (s.ld ld).doeSession = true → exec (.spdmDoeMessage ld (.ideKeySet true skid)) s =
      .next (reply (s.modCxl fun c => { c with ideMem := true, ideSkid := skid, insecure := false }) [])) ∧
    (∀ skid, (s.ld ld).doeSession = true → exec (.spdmDoeMessage ld (.ideKeySet false skid)) s =
      .next (reply (s.modLd ld fun l => { l with ioIde := true }) [])) ∧
    ((s.ld ld).doeSession = false → ∀ mem skid, exec (.spdmDoeMessage ld (.ideKeySet mem skid)) s = .next (reply s [])) ∧
    (∀ bs, exec (.spdmDoeMessage ld (.other bs)) s = .next (reply s bs)) ∧
    (∀ e, exec (.spdmDoeMessage ld (.readCdat e)) s = .next (reply s (Config.cdatEntry e cdatRanges))))

/-- TSP_REQUEST within the LD's session locks the configuration with its digest, unlocks it, and reads and sets the TE state of the LD's own entries;
without a session, or about another LD's entry, nothing changes but the reply (R371). -/
def Claims.TspRequests : Prop := ∀ (ld : Nat) (s : State), ld < ldCount → s.doeReaches = true →
  let reply := fun (t : State) (n : Nat) => t.emit (.reply ld (Config.cxlReply ld (toLe 4 n)))
  ((s.ld ld).doeSession = false → ∀ r, exec (.tspRequest ld r) s = .next s) ∧
  ((s.ld ld).doeSession = true →
    ((s.ld ld).tspLocked = true → exec (.tspRequest ld .lockConfiguration) s = .next (reply s 0)) ∧
    ((s.ld ld).tspLocked = false → exec (.tspRequest ld .lockConfiguration) s =
      .next (reply (s.modLd ld fun l => { l with tspLocked := true, lockedDigest := s.lockDigest ld }) 1)) ∧
    (∀ e, exec (.tspRequest ld (.getTargetTeState e)) s =
      .next (reply s (if (∃ x, tget s.cxl.hostTable e = some x ∧ x.ld = ld) ∧ e ∈ (s.ld ld).teState then 1 else 0))) ∧
    (exec (.tspRequest ld .unlockConfiguration) s = .next (reply (s.modLd ld fun l => { l with tspLocked := false, lockedDigest := [] }) 2)) ∧
    (∀ e x te, tget s.cxl.hostTable e = some x → x.ld = ld → exec (.tspRequest ld (.setTargetTeState e te)) s =
      .next (reply (s.modLd ld fun l => { l with teState := (l.teState.filter (· != e)) ++ if te then [e] else [] }) 3)) ∧
    (∀ e te, (∀ x, tget s.cxl.hostTable e = some x → x.ld ≠ ld) → exec (.tspRequest ld (.setTargetTeState e te)) s = .next (reply s 0)))

/-- FM_API_COMMAND reads and sets LD allocations and QoS control; the FM-owned LD cannot bind a seventeenth LD (R340). -/
def Claims.FmApi : Prop := ∀ (s : State), s.doeReaches = true →
  let reply := fun (t : State) (bs : List Byte) => t.emit (.reply 21 (Config.cxlReply 21 bs))
  exec (.fmApiCommand .getLdInfo) s = .next (reply s (toLe 1 16)) ∧
  exec (.fmApiCommand .getLdAllocations) s = .next (reply s ((List.range 16).flatMap fun d => toLe 8 (s.ld d).allocation)) ∧
  (∀ ld b a, ld < 16 → exec (.fmApiCommand (.setLdAllocations ld b a)) s =
    .next (reply (s.modLd ld fun l => { l with bound := b, allocation := a }) (toLe 1 ld))) ∧
  (∀ ld b a, 16 ≤ ld → exec (.fmApiCommand (.setLdAllocations ld b a)) s = .next (reply s [])) ∧
  (∀ v, exec (.fmApiCommand (.setQosControl v)) s = .next (reply (s.modCxl fun c => { c with qos := v }) (toLe 4 v))) ∧
  exec (.fmApiCommand .getQosControl) s = .next (reply s (toLe 4 s.cxl.qos))

/-- The sideband answers in every power state while the input is present, and changes nothing but its own addresses; with
the input gone it is silent (R538, R539). -/
def Claims.Sideband : Prop := ∀ (s : State),
  (s.power.off = true → exec .statusRead s = .next s ∧ (∀ t i r, exec (.pldmRequest t i r) s = .next s) ∧
    (∀ a m, exec (.mctpControlRequest a m) s = .next s) ∧ (∀ a, exec (.i3cAddressAssign a) s = .next s)) ∧
  (s.power.off = false →
    exec .statusRead s = .next (s.emit (.reply 20 s.statusBytes)) ∧
    (∀ i r, i ∈ sensorIds → exec (.pldmRequest 2 i r) s = .next (s.emit (.reply 20 (Config.dmtfReply 2 (toLe 1 i ++ toLe 4 r))))) ∧
    (∀ i r, exec (.pldmRequest 4 i r) s = .next (s.emit (.reply 20 (Config.dmtfReply 4 fruData)))) ∧
    (∀ m (e : Byte), e ≠ 0 → e ≠ 0xFF → exec (.mctpControlRequest (some e) m) s =
      .next (State.emit { s with side := { s.side with eid := e } } (.reply 20 (Config.dmtfReply 0x100 (e :: m))))) ∧
    (∀ m, exec (.mctpControlRequest none m) s = .next (s.emit (.reply 20 (Config.dmtfReply 0x100 (s.side.eid :: m))))) ∧
    (∀ a, exec (.i3cAddressAssign a) s = .next { s with side := { s.side with dynAddr := some a } }))

/-- COMMAND_BOUND_EXPIRY ends a command that has not passed its commit point and has overrun its bound with
ST_COMMAND_TIMEOUT; one within its bound, without a bound, or committed goes on (R390, R398). -/
def Claims.BoundExpiry : Prop := ∀ (m slot : Nat) (s : State) (c : Cmd) (sp : CmdSpec),
  (s.box.inflight.find? fun c => c.mb == m && c.slot == slot && !c.committed) = some c → cmdSpec? c.opcode = some sp →
  (sp.bound ≠ 0 → c.fetchedAt + sp.bound * 1000000 ≤ s.time.localNow → exec (.commandBoundExpiry m slot) s =
    .next ((s.withdraw c).completeCmd 8 c St.commandTimeout 0 0 []).fetchAll) ∧
  ((sp.bound = 0 ∨ s.time.localNow < c.fetchedAt + sp.bound * 1000000) → exec (.commandBoundExpiry m slot) s = .next s)

/-- A control core that stops is noted down until CONTROL_CORE_RESTART; there are four (R391, R520). -/
def Claims.ControlCores : Prop := ∀ (core : Nat) (s : State),
  (4 ≤ core → exec (.controlCoreWatchdog core) s = .fault .noSuchUnit ∧ exec (.controlCoreRestart core) s = .fault .noSuchUnit) ∧
  (core < 4 → s.power.waiter = none → core ∉ s.boot.coresDown → exec (.controlCoreWatchdog core) s =
    .next (s.modBoot fun b => { b with coresDown := b.coresDown ++ [core] })) ∧
  (core < 4 → exec (.controlCoreRestart core) s = .next (s.modBoot fun b => { b with coresDown := b.coresDown.filter (· != core) }).fetchAll)

/-- LIVE_ACTIVATION_HANDOFF with every command drained runs the staged image and completes FIRMWARE_ACTIVATE;
LIVE_ACTIVATION_BUDGET_EXPIRY after 100 ms without fetching returns to the old firmware with ST_INTERNAL (R522, R523). -/
def Claims.LiveActivation : Prop := ∀ (s : State) (l : Live), s.boot.live = some l →
  (s.drained l.waiter = true → exec .liveActivationHandoff s =
    .next (((s.runImage s.boot.image).modBoot fun b => { b with startKind := 4 }).endLive l true)) ∧
  (s.drained l.waiter = false → exec .liveActivationHandoff s = .next s) ∧
  (s.drained l.waiter = true → l.lastFetch + 100000000 ≤ s.time.localNow → exec .liveActivationBudgetExpiry s = .next (s.endLive l false)) ∧
  (s.time.localNow < l.lastFetch + 100000000 → exec .liveActivationBudgetExpiry s = .next s)

/-- COLD_START: with a failed RNG test the module halts; with an image that does not run it enters recovery with its reason;
otherwise it starts; nothing starts while the input, the pin or a trip holds it, or while it runs (R418, R513, R525). -/
def Claims.ColdStart : Prop := ∀ (rep : StartReport) (s : State),
  ((s.boot.state ≠ .booting ∨ s.power.off = true ∨ s.power.resetHeld = true ∨ s.power.stopped = true) → exec (.coldStart rep) s = .next s) ∧
  (s.boot.state = .booting → s.power.off = false → s.power.resetHeld = false → s.power.stopped = false →
    let u := s.modSec fun y => { y with rngFailed := false }
    (rep.rngOk = false → exec (.coldStart rep) s =
      .next { s with boot := { s.boot with state := .halted }, sec := { s.sec with rngFailed := true } }) ∧
    (rep.rngOk = true → if u.bootError rep = 0 then exec (.coldStart rep) s = .next (u.startUp rep).fetchAll
      else ∃ t : State, exec (.coldStart rep) s = .next t ∧ t.boot.state = .recovery ∧ t.boot.bootError = u.bootError rep ∧ t.store = s.store ∧
        t.mem = s.mem))

/-- SKEIN_RESTORATION, once the creel serves after a start that left it pending, restores every record; otherwise it does
nothing (R517, R518). -/
def Claims.SkeinRestoration : Prop := ∀ (s : State),
  (s.boot.restorePending = true → s.creelServes = true → s.boot.state = .ready → s.awake = true → exec .skeinRestoration s =
    .next s.restoreAll.fetchAll) ∧
  (s.boot.restorePending = false → exec .skeinRestoration s = .next s)

/-- TEARDOWN_ZEROING_COMPLETE of a drained tenant: its keys and ranges are gone, its ID is free with its generation kept,
TENANT_ERASED tells what was zeroed, and TENANT_DESTROY completes (R441, R438). -/
def Claims.TeardownComplete : Prop := ∀ (tid : Nat) (s : State) (t : Tenant), tget s.tenants tid = some t →
  let tag : W16 := BitVec.ofNat 16 (t.gen * 4096 + tid)
  let u := (s.eraseTenant tid t).raise Ev.tenantErased .module [tag.toNat, t.zeroed, t.creelReleased]
  (∀ w, t.teardown = true → s.tenantDrained tag = true → t.waiter = some w → exec (.teardownZeroingComplete tid) s =
    .next (u.answer w St.ok []).fetchAll) ∧
  (t.teardown = true → s.tenantDrained tag = true → t.waiter = none → exec (.teardownZeroingComplete tid) s = .next u.fetchAll) ∧
  ((t.teardown = false ∨ s.tenantDrained tag = false) → exec (.teardownZeroingComplete tid) s = .next s) ∧
  (tget (s.eraseTenant tid t).tenants tid = some { gen := t.gen })

/-- BATCH_WINDOW_CLOSE signs the reports of a window 250 ms after it opened, not before unless it is full;
BATCH_WINDOW_OPEN opens a window only for reports that wait; BOTTOM_TREE_BUILT readies the next bottom tree; a failed
health test of the RNG is noted with RNG_FAIL (R419, R424, R426). -/
def Claims.SecurityTimers : Prop := ∀ (s : State),
  (∀ t rs, s.sec.batch = some (t, rs) → (t + 250000000 ≤ s.time.localNow ∨ 1024 ≤ rs.length) → exec .batchWindowClose s = .next s.closeBatch) ∧
  (∀ t rs, s.sec.batch = some (t, rs) → s.time.localNow < t + 250000000 → rs.length < 1024 → exec .batchWindowClose s = .next s) ∧
  (s.sec.batch = none → exec .batchWindowClose s = .next s) ∧
  (s.sec.waiting = [] → exec .batchWindowOpen s = .next s) ∧
  (s.sec.waiting ≠ [] → s.sec.waiting.length < 1024 → s.sec.batch = none → s.sec.lastOpen = none → exec .batchWindowOpen s =
    .next (s.modSec fun c => { c with batch := some (s.time.localNow, s.sec.waiting), waiting := [], lastOpen := some s.time.localNow })) ∧
  exec .bottomTreeBuilt s = .next (s.modSec fun c => { c with treeReady := true }) ∧
  (∀ t, exec (.rngHealthFailure t) s = .next ((s.modSec fun c => { c with rngFailed := true }).raise Ev.rngFail .module [t]))

/-! ## Breus (R178–R191) -/

/-- The scalar operations write one scalar register, modulo 2^32, and go to the next word (R182, R184). -/
def Claims.BreusScalars : Prop := ∀ (s : State) (i : Inv) (d a b : Fin 16) (imm : BitVec 14) (n : BitVec 5),
  let x := i.sAt a
  let y := i.sAt b
  let put := fun (w : W32) => Host.Outcome.next (s.onward (i.setS d w))
  (InMidst s i 0x0B → exec (.sli d imm) s = put (imm.signExtend 32)) ∧
  (InMidst s i 0x0C → exec (.sadd d a b) s = put (x + y)) ∧
  (InMidst s i 0x0D → exec (.saddi d a imm) s = put (x + imm.signExtend 32)) ∧
  (InMidst s i 0x0E → exec (.ssub d a b) s = put (x - y)) ∧
  (InMidst s i 0x0F → exec (.smul d a b) s = put (x * y)) ∧
  (InMidst s i 0x10 → exec (.sand d a b) s = put (x &&& y)) ∧
  (InMidst s i 0x11 → exec (.sor d a b) s = put (x ||| y)) ∧
  (InMidst s i 0x12 → exec (.sxor d a b) s = put (x ^^^ y)) ∧
  (InMidst s i 0x13 → exec (.ssh d a b 0) s = put (x <<< (y.toNat % 32)) ∧ exec (.ssh d a b 1) s = put (x >>> (y.toNat % 32)) ∧
    exec (.ssh d a b 2) s = put (x.sshiftRight (y.toNat % 32))) ∧
  (InMidst s i 0x14 → exec (.sshi d a 0 n) s = put (x <<< n.toNat) ∧ exec (.sshi d a 1 n) s = put (x >>> n.toNat) ∧
    exec (.sshi d a 2 n) s = put (x.sshiftRight n.toNat)) ∧
  (InMidst s i 0x15 → exec (.smin d a b) s = put (if y.toInt < x.toInt then y else x)) ∧
  (InMidst s i 0x16 → exec (.smax d a b) s = put (if x.toInt < y.toInt then y else x)) ∧
  (InMidst s i 0x17 → exec (.sminu d a b) s = put (if y.toNat < x.toNat then y else x)) ∧
  (InMidst s i 0x18 → exec (.smaxu d a b) s = put (if x.toNat < y.toNat then y else x)) ∧
  (InMidst s i 0x19 → exec (.sslt d a b) s = put (if x.toInt < y.toInt then 1 else 0)) ∧
  (InMidst s i 0x1A → exec (.ssltu d a b) s = put (if x.toNat < y.toNat then 1 else 0))

/-- The constants: LDK loads the constant of its index, LDKX that which a scalar names, VLDK a finite one to every lane;
NOP changes no register (R184). -/
def Claims.BreusConstants : Prop := ∀ (s : State) (i : Inv) (d a : Fin 16) (v : Fin 8) (k : BitVec 14) (c : W32),
  (InMidst s i 0x00 → exec .nop s = .next (s.onward i)) ∧
  (InMidst s i 0x09 → i.consts[k.toNat]? = some c → exec (.ldk d k) s = .next (s.onward (i.setS d c))) ∧
  (InMidst s i 0x0A → i.consts[(i.sAt a).toNat]? = some c → exec (.ldkx d a) s = .next (s.onward (i.setS d c))) ∧
  (InMidst s i 0x2B → i.consts[k.toNat]? = some c → nonfinite32 c = false →
    exec (.vldk v k) s = .next (s.onward (i.setV v (List.replicate 64 c))))

/-- The lane operations write one vector, lane by lane from the lanes of their sources (R183, R184). -/
def Claims.BreusVectors : Prop := ∀ (s : State) (i : Inv) (d a b : Fin 8) (p : Fin 4) (x : Fin 16),
  let put := fun (f : Nat → W32) => Host.Outcome.next (s.onward (i.setV d ((List.range 64).map f)))
  let u := fun (k : Nat) => (i.vAt a).getD k 0
  let w := fun (k : Nat) => (i.vAt b).getD k 0
  (i.vAt a).length = 64 → (i.vAt b).length = 64 →
  (InMidst s i 0x20 → exec (.vadd d a b) s = put fun k => fadd (u k) (w k)) ∧
  (InMidst s i 0x21 → exec (.vsub d a b) s = put fun k => fsub (u k) (w k)) ∧
  (InMidst s i 0x22 → exec (.vmul d a b) s = put fun k => fmul (u k) (w k)) ∧
  (InMidst s i 0x23 → exec (.vdiv d a b) s = put fun k => fdiv (u k) (w k)) ∧
  (InMidst s i 0x24 → exec (.vmax d a b) s = put fun k => fmax (u k) (w k)) ∧
  (InMidst s i 0x25 → exec (.vmin d a b) s = put fun k => fmin (u k) (w k)) ∧
  (InMidst s i 0x26 → exec (.vabs d a) s = put fun k => fabs (u k)) ∧
  (InMidst s i 0x27 → exec (.vneg d a) s = put fun k => fneg (u k)) ∧
  (InMidst s i 0x28 → exec (.vexp d a) s = put fun k => fexp (u k)) ∧
  (InMidst s i 0x29 → exec (.vtanh d a) s = put fun k => ftanh (u k)) ∧
  (InMidst s i 0x2A → exec (.vsel d a b p) s = put fun k => if (i.pAt p).getLsbD k then u k else w k) ∧
  (InMidst s i 0x2C → nonfinite32 (i.sAt x) = false → exec (.vbcst d x) s = put fun _ => i.sAt x) ∧
  (InMidst s i 0x2D → exec (.vbcsti d x) s = put fun _ => fOfInt (i.sAt x).toInt) ∧
  (InMidst s i 0x2E → exec (.vlane d) s = put fun k => fOfInt k)

/-- The reductions take the selected lanes in lane order, starting the sum at 0 and giving −FLT_MAX for the maximum of
none; VEXT takes one lane (R183, R184). -/
def Claims.BreusReductions : Prop := ∀ (s : State) (i : Inv) (d : Fin 16) (a : Fin 8) (p : Fin 4) (lane : Fin 64),
  let put := fun (w : W32) => Host.Outcome.next (s.onward (i.setS d w))
  let vs := ((List.range 64).filter fun k => (i.pAt p).getLsbD k).map fun k => (i.vAt a).getD k 0
  (i.vAt a).length = 64 →
  (InMidst s i 0x2F → exec (.vext d a lane) s = put ((i.vAt a).getD lane 0)) ∧
  (InMidst s i 0x30 → exec (.vredadd d a p) s = put (vs.foldl fadd 0)) ∧
  (InMidst s i 0x31 → vs = [] → exec (.vredmax d a p) s = put 0xFF7FFFFF) ∧
  (∀ x xs, InMidst s i 0x31 → vs = x :: xs → exec (.vredmax d a p) s = put (xs.foldl fmax x))

/-- The predicate operations: each bit of the destination comes from its own lane or bit, and PCNT counts (R183, R184). -/
def Claims.BreusPredicates : Prop := ∀ (s : State) (i : Inv) (d a b : Fin 4) (v w : Fin 8) (x y z : Fin 16) (k : Nat), k < 64 →
  let wrote := fun (o : Host.Outcome State Fault Refusal) (f : Bool) => ∃ m : W64, o = .next (s.onward (i.setP d m)) ∧ m.getLsbD k = f
  let key := fun (r : Fin 8) => f32key ((i.vAt r).getD k 0)
  (InMidst s i 0x34 → wrote (exec (.pcmp d v w 0) s) (decide (key v < key w)) ∧ wrote (exec (.pcmp d v w 1) s) (decide (key v ≤ key w)) ∧
    wrote (exec (.pcmp d v w 2) s) (decide (key v = key w))) ∧
  (InMidst s i 0x35 → wrote (exec (.plog d a b 0) s) ((i.pAt a).getLsbD k && (i.pAt b).getLsbD k) ∧
    wrote (exec (.plog d a b 1) s) ((i.pAt a).getLsbD k || (i.pAt b).getLsbD k) ∧
    wrote (exec (.plog d a b 2) s) ((i.pAt a).getLsbD k != (i.pAt b).getLsbD k) ∧
    wrote (exec (.plog d a b 3) s) ((i.pAt a).getLsbD k && !(i.pAt b).getLsbD k)) ∧
  (InMidst s i 0x36 → wrote (exec (.pnot d a) s) (!(i.pAt a).getLsbD k)) ∧
  (InMidst s i 0x37 → wrote (exec (.prange d x y) s) (decide ((i.sAt x).toInt ≤ (k : Int) ∧ (k : Int) < (i.sAt y).toInt))) ∧
  (InMidst s i 0x38 → ∃ n : W32, exec (.pcnt z a) s = .next (s.onward (i.setS z n)) ∧
    n.toNat = ((List.range 64).filter fun k => (i.pAt a).getLsbD k).length)

/-- A branch taken goes forward by OFFSET past the next word, not taken to the next word, and changes no register (R185). -/
def Claims.BreusBranches : Prop := ∀ (s : State) (i : Inv) (a : Fin 16) (p : Fin 4) (off : BitVec 14),
  i.branchOk off = true → i.pc + 1 + off.toNat < i.codeWords →
  let far := Host.Outcome.next { s with inv := { i with pc := i.pc + 1 + off.toNat, executed := i.executed + 1 } }
  let near := Host.Outcome.next (s.onward i)
  (InMidst s i 0x03 → exec (.brz a off) s = if i.sAt a = 0 then far else near) ∧
  (InMidst s i 0x04 → exec (.brnz a off) s = if i.sAt a = 0 then near else far) ∧
  (InMidst s i 0x05 → exec (.brany p off) s = if i.pAt p = 0 then near else far) ∧
  (InMidst s i 0x06 → exec (.brnone p off) s = if i.pAt p = 0 then far else near)

/-- REP and REPS start a body of LENGTH words for their count; a REPS of 0 skips it, one above 4,096 traps with COUNT; the
last word of a body goes back to its first while an iteration is left, and on past it otherwise (R186). -/
def Claims.BreusBodies : Prop := ∀ (s : State) (i : Inv) (a : Fin 16) (len : BitVec 8) (count : BitVec 14),
  i.bodyOk len = true →
  let started := fun (n : Nat) => Host.Outcome.next { s with
    inv := { i with pc := i.pc + 1, executed := i.executed + 1, body := some (i.pc + 1, i.pc + 1 + len.toNat, n - 1) } }
  (InMidst s i 0x07 → 1 ≤ count.toNat → count.toNat ≤ 4096 → exec (.rep len count) s = started count.toNat) ∧
  (InMidst s i 0x08 → 1 ≤ (i.sAt a).toNat → (i.sAt a).toNat ≤ 4096 → exec (.reps a len) s = started (i.sAt a).toNat) ∧
  (InMidst s i 0x08 → (i.sAt a).toNat = 0 → i.pc + 1 + len.toNat < i.codeWords → exec (.reps a len) s =
    .next { s with inv := { i with pc := i.pc + 1 + len.toNat, executed := i.executed + 1 } }) ∧
  (InMidst s i 0x08 → 4096 < (i.sAt a).toNat → exec (.reps a len) s =
    .next (s.settleInv (({ i with executed := i.executed + 1 } : Inv).trapped 5 0)))

/-- The end of a body's iteration (R186). -/
def Claims.BreusIterations : Prop := ∀ (s : State) (i : Inv) (first left : Nat), s.inv = i → i.running = true → i.trap = none →
  i.executed < i.place.budget → i.body = some (first, i.pc + 1, left) →
  (0 < left → exec .nop s = .next { s with inv := { i with pc := first, executed := i.executed + 1, body := some (first, i.pc + 1, left - 1) } }) ∧
  (left = 0 → i.pc + 1 < i.codeWords → exec .nop s = .next { s with inv := { i with pc := i.pc + 1, executed := i.executed + 1, body := none } })

/-- END ends the invocation and takes its outputs, and so does the last word of the program; a whorl's result that is not
finite traps with NONFINITE (R184, R185, R191). -/
def Claims.BreusEnds : Prop := ∀ (s : State) (i : Inv), s.inv = i → i.running = true → i.trap = none → i.executed < i.place.budget → i.body = none →
  let one := { i with executed := i.executed + 1 }
  ((i.place ≠ .whorl ∨ nonfinite32 (i.sAt 0) = false) → exec .endProg s = .next { s with inv := { one with running := false, ended := true } }) ∧
  (i.place = .whorl → nonfinite32 (i.sAt 0) = true → exec .endProg s = .next (s.settleInv (one.trapped 3 0))) ∧
  ((i.place ≠ .whorl ∨ nonfinite32 (i.sAt 0) = false) → i.codeWords ≤ i.pc + 1 → exec .nop s =
    .next { s with inv := { one with pc := i.pc + 1, running := false, ended := true } })

/-- The traps: TRAP with its IMM, LDKX beyond the constants, VBCST of a value that is not finite, and the instruction beyond
the budget of the place, which is not carried out (R187, R188). -/
def Claims.BreusTraps : Prop := ∀ (s : State) (i : Inv) (imm : BitVec 14) (d a : Fin 16) (v : Fin 8),
  let one := { i with executed := i.executed + 1 }
  (InMidst s i 0x02 → exec (.trap imm) s = .next (s.settleInv (one.trapped 2 imm.toNat))) ∧
  (InMidst s i 0x0A → i.consts.length ≤ (i.sAt a).toNat → exec (.ldkx d a) s = .next (s.settleInv (one.trapped 4 0))) ∧
  (InMidst s i 0x2C → nonfinite32 (i.sAt a) = true → exec (.vbcst v a) s = .next (s.settleInv (one.trapped 3 0))) ∧
  (s.inv = i → i.running = true → i.executed = i.place.budget → exec .nop s = .next (s.settleInv (i.trapped 1 0)))

/-- A trap ends the invocation, its outputs are not taken, and it is recorded: POLICY_TRAP for the tier engine, PROGRAM_TRAP
for an invocation of no job (R188, R192). -/
def Claims.BreusTrapRecord : Prop := ∀ (s : State) (i : Inv) (code imm : Nat), i.job = none →
  (i.trapped code imm).running = false ∧ (i.trapped code imm).ended = false ∧
  (i.place = .tier → s.settleInv (i.trapped code imm) =
    State.raise { s with inv := i.trapped code imm } Ev.policyTrap .module [3, i.slot, i.pc, code, imm]) ∧
  (i.place = .score → s.settleInv (i.trapped code imm) =
    State.raise { s with inv := i.trapped code imm } Ev.programTrap .module [1, i.slot, i.pc, code, imm, i.jobTag.toNat])

/-- Where an instruction may not stand it is refused, never run: an opcode that the place does not accept, and a reserved
shift kind or condition (R180, R184). -/
def Claims.BreusRefusals : Prop := ∀ (s : State) (d a b : Fin 16) (v w : Fin 8) (p : Fin 4) (n : BitVec 5),
  (s.invocation.place = .tier → exec (.vadd v w v) s = .refused .notInThisPlace ∧ exec (.brany p 1) s = .refused .notInThisPlace ∧
    exec (.pnot p p) s = .refused .notInThisPlace) ∧
  (s.invocation.place = .whorl → exec (.vtanh v w) s = .refused .notInThisPlace) ∧
  exec (.ssh d a b 3) s = .refused .notInThisPlace ∧ exec (.sshi d a 3 n) s = .refused .notInThisPlace ∧
  exec (.pcmp p v w 3) s = .refused .notInThisPlace

/-- An instruction with no invocation running starts one: every register zero, under the program of the place and slot that the state
names (R181; which invocation an instruction goes to is log 11's). -/
def Claims.BreusFresh : Prop := ∀ (s : State), s.inv.running = false →
  let i := s.invocation
  i.running = true ∧ i.executed = 0 ∧ i.pc = 0 ∧ i.body = none ∧ i.trap = none ∧ i.place = s.inv.place ∧ i.slot = s.inv.slot ∧
  (∀ k, i.sAt k = 0) ∧ (∀ k, i.pAt k = 0) ∧ (∀ k, k < 8 → i.vAt k = List.replicate 64 0) ∧
  (i.codeWords ≠ 1 → exec .nop s = .next { s with inv := { i with pc := 1, executed := 1 } })

/-! ## The whole machine: steps, reset, memory, flags, events -/

/-- A step with a command in the queue is that command on the state with the queue's rest. -/
def Claims.StepRunsFront : Prop := ∀ (s : State) (c : Instr) (cs : List Instr), s.pending = c :: cs → step s = exec c { s with pending := cs }

/-- A step on an empty queue is one nanosecond of an idle module, the model's own choice (DESIGN CHOICE, log 1): with no slew due, both
counts advance by one and nothing else changes but the end of a PPS_OUT pulse (R476, R537). -/
def Claims.IdleTick : Prop := ∀ (s : State), s.pending = [] → ∃ t : State, step s = .next t ∧
  t = { s with time := t.time } ∧
  ((s.time.slew = 0 ∨ s.time.localNow < s.time.slewAt + 10000) → t.time =
    { s.time with now := s.time.now + 1, localNow := s.time.localNow + 1,
                  pps := s.time.pps && decide (s.time.localNow + 1 < s.time.ppsFall) }) ∧
  (0 < s.time.slew → s.time.slewAt + 10000 ≤ s.time.localNow → t.time.now = s.time.now + 1 ∧ t.time.localNow = s.time.localNow ∧
    t.time.slew = s.time.slew - 1) ∧
  (s.time.slew < 0 → s.time.slewAt + 10000 ≤ s.time.localNow → t.time.now = s.time.now ∧ t.time.localNow = s.time.localNow + 1 ∧
    t.time.slew = s.time.slew + 1)

/-- After reset: STATE BOOTING, the configuration at the defaults of R402, R413, R445 and R458, no object, no flag, no
command, nothing written, the creel OFFLINE, every port DOWN. -/
def Claims.ResetState : Prop :=
  let s := State.reset
  s.pending = [] ∧ s.mem = [] ∧ s.boot.state = .booting ∧ s.cfg.nodeId = none ∧ s.cfg.macPrefix = 0x020000 ∧ s.cfg.adminLd = 0 ∧
  s.cfg.tableSlots = 448 ∧ s.cfg.lentGib = 0 ∧ s.cfg.orphanHold = 2000 ∧ s.cfg.keyRotation = 86400 ∧
  s.cfg.budgets = [105, 10486, 24576, 6291, 1200] ∧ s.store.skeins = [] ∧ s.work.jqs = [] ∧ s.work.cqs = [] ∧ s.flyer.conns = [] ∧
  s.flyer.sessions = [] ∧ s.pfx.runs = [] ∧ s.tenants = [] ∧ s.creel.state = .offline ∧ (∀ row, s.flagWord row = 0) ∧
  (∀ row bit, s.flagCount row bit = 0) ∧ (∀ p, (s.portAt p).state = .down)

/-- The invariant of every step holds after reset. -/
def Claims.ResetHolds : Prop := State.reset.Holds

/-- A read after a write gives the written byte there and the old byte elsewhere, in every canonical memory; a write keeps
the canonical form; a run of bytes reads back, and every other byte stays. -/
def Claims.MemoryReadsBack : Prop := ∀ (m : Mem) (a : Nat) (bs : List Byte), m.wf = true →
  (m.writeN a bs).wf = true ∧ (m.writeN a bs).readN a bs.length = bs ∧
  (∀ x, (x < a ∨ a + bs.length ≤ x) → (m.writeN a bs).read x = m.read x)

/-- Two canonical memories that read alike everywhere are the same data. -/
def Claims.MemoryCanonical : Prop := ∀ (m n : Mem), m.wf = true → n.wf = true → (∀ a, m.read a = n.read a) → m = n

/-- A hardware set of a flag makes it read 1 and adds 1 to its counter up to 255; a write of ones clears those flags and
no counter; a read of counters clears those it read and no flag (R5, R6, R7). -/
def Claims.FlagCounters : Prop := ∀ (s : State) (f : Flag), f.2 < 32 →
  ((s.setFlag f).flagWord f.1 = s.flagWord f.1 ||| BitVec.ofNat 32 (2 ^ f.2)) ∧
  ((s.setFlag f).flagCount f.1 f.2).toNat = min 255 ((s.flagCount f.1 f.2).toNat + 1) ∧
  (∀ row, row ≠ f.1 → (s.setFlag f).flagWord row = s.flagWord row) ∧
  (∀ row b, b < 32 → (row, b) ≠ f → (s.setFlag f).flagCount row b = s.flagCount row b) ∧
  (∀ row v, (s.clearFlags row v).flagWord row = s.flagWord row &&& ~~~v ∧ (s.clearFlags row v).counts = s.counts) ∧
  (∀ row first n b, b < 32 → first ≤ b → b < first + n → (s.clearCounts row first n).flagCount row b = 0) ∧
  (∀ row first n b, b < 32 → (b < first ∨ first + n ≤ b) → (s.clearCounts row first n).flagCount row b = s.flagCount row b) ∧
  (∀ row first n, (s.clearCounts row first n).flags = s.flags)

/-- An in-band interrupt carries the severity of an event of severity 2 or 3, at most one per 100 ms; the event's record
goes to its mailbox whether or not it interrupts (R540). -/
def Claims.InBandInterrupts : Prop := ∀ (s : State) (c : EvCode) (towards : For) (d : List Nat),
  let told := (s.eventBoxes towards).foldl (fun (s : State) m => s.pushEvent m { code := c.code, severity := c.sev, tenant := match towards with | .tenant t => t | _ => 0, count := 1, time := s.time.now, detail := d })
    { s with box := { s.box with sevCounts := s.box.sevCounts.modify c.sev fun n => min 0xFFFFFFFF (n + 1) } }
  let fired := State.emit { told with box := { told.box with lastInBand := some s.time.localNow } } (.inBand c.sev)
  (c.sev < 2 → s.raise c towards d = told) ∧
  (2 ≤ c.sev → s.box.lastInBand = none → s.raise c towards d = fired) ∧
  (∀ t, 2 ≤ c.sev → s.box.lastInBand = some t → t + 100000000 ≤ s.time.localNow → s.raise c towards d = fired) ∧
  (∀ t, s.box.lastInBand = some t → s.time.localNow < t + 100000000 → s.raise c towards d = told)

/-- A record for a mailbox goes to the next free slot of its event ring with the ring's PHASE; with no free slot it joins an
equal record that waits, up to 65,535, or waits itself (R392, R393). -/
def Claims.EventRecords : Prop := ∀ (s : State) (m : Nat) (e : EventRec),
  let b := s.mbox m
  (b.evWritten < b.evRead + 256 → (∀ x ∈ s.box.overflow, x.1 ≠ m) → (∀ x ∈ s.box.summaries, x.1 ≠ m) → s.pushEvent m e =
    (s.setMbox m { b with ring := tset b.ring (b.evWritten % 256) { e with phase := decide (b.evWritten / 256 % 2 = 0) },
                          evWritten := b.evWritten + 1 }).raiseMboxVector m (1024 + m)) ∧
  (b.evRead + 256 ≤ b.evWritten → (∀ x ∈ s.box.overflow, ¬ (x.1 = m ∧ x.2.code = e.code ∧ x.2.tenant = e.tenant ∧ x.2.detail = e.detail)) →
    s.box.overflow.length < 65536 → s.pushEvent m e = { s with box := { s.box with overflow := s.box.overflow ++ [(m, e)] } }) ∧
  (∀ before x after, b.evRead + 256 ≤ b.evWritten → s.box.overflow = before ++ (m, x) :: after → x.code = e.code → x.tenant = e.tenant →
    x.detail = e.detail → (∀ y ∈ before, ¬ (y.1 = m ∧ y.2.code = e.code ∧ y.2.tenant = e.tenant ∧ y.2.detail = e.detail)) →
    s.pushEvent m e = { s with box := { s.box with overflow := before ++ (m, { x with count := min 65535 (x.count + 1) }) :: after } })

/-- Vectors: a mailbox's vector is raised on the mailbox's LD and no other, at once where that LD has MSI-X enabled; until
then it waits, once (R351, R521). -/
def Claims.Vectors : Prop := ∀ (s : State) (m v d : Nat), (s.mbox m).ld = some d →
  ((s.ld d).msixEnabled = true → s.raiseMboxVector m v = s.emit (.msix d v)) ∧
  ((s.ld d).msixEnabled = false → v ∉ (s.ld d).heldVectors → s.raiseMboxVector m v =
    s.setLd d { s.ld d with heldVectors := (s.ld d).heldVectors ++ [v] }) ∧
  ((s.ld d).msixEnabled = false → v ∈ (s.ld d).heldVectors → s.raiseMboxVector m v = s.setLd d (s.ld d)) ∧
  (∀ d', d' ≠ d → (s.raiseMboxVector m v).ld d' = s.ld d')

/-- A response is 32 bytes in the next completion slot of the mailbox: the command's IDENT, STATUS, opcode, the PHASE of the slot's
pass with SQ_HEAD, DETAIL, the retry hint and RESULT; no other byte of memory changes, and no other mailbox (R380, R381, R384). -/
def Claims.ResponseFrame : Prop := ∀ (s : State) (c : Cmd) (st detail retry : Nat) (result : List Byte), s.mem.wf = true →
  let b := s.mbox c.mb
  let off := b.cqBase + b.cqWritten % b.depth * 32
  let t := s.writeResponse c st detail retry result
  ((∀ i < 32, areaAddr? b.cqArea (off + i) ≠ none) →
    (∀ i j, i < 32 → j < 32 → areaAddr? b.cqArea (off + i) = areaAddr? b.cqArea (off + j) → i = j) → t.mem.areaRead b.cqArea off 32 =
      toLe 2 c.ident ++ toLe 2 st ++ toLe 2 (if field c.bytes 0 4 % 2 ^ 24 = 0x010101 then c.opcode else 0) ++
      toLe 2 ((if b.cqWritten / b.depth % 2 = 0 then 0x8000 else 0) + b.sqHead % 4096) ++ toLe 4 detail ++ toLe 4 retry ++
      padTo 16 result) ∧
  (t.mbox c.mb).cqWritten = b.cqWritten + 1 ∧ (∀ m, m ≠ c.mb → t.mbox m = s.mbox m) ∧
  (∀ a, (∀ i, i < 32 → areaAddr? b.cqArea (off + i) ≠ some a) → t.mem.read a = s.mem.read a) ∧
  t.store = s.store ∧ t.work = s.work ∧ t.flyer = s.flyer ∧ t.power = s.power ∧ t.boot = s.boot ∧ t.cfg = s.cfg ∧ t.flags = s.flags ∧
  t.tenants = s.tenants ∧ t.box.inflight = s.box.inflight

/-- The service level follows the units, and every change raises SERVICE_LEVEL with the old and the new level (R463). -/
def Claims.ServiceLevel : Prop := ∀ (s : State), s.boot.state = .ready →
  (s.levelNow = s.boot.serviceLevel → s.refreshLevel = s) ∧
  (s.levelNow ≠ s.boot.serviceLevel → s.refreshLevel = State.raise { s with boot := { s.boot with serviceLevel := s.levelNow } }
    (Ev.serviceLevel (decide (s.levelNow < 2))) .module [s.boot.serviceLevel, s.levelNow])

/-- Every step keeps canonical memory and the shape of the invocation. -/
def Claims.StepHolds : Prop := ∀ (s t : State), s.Holds → step s = .next t → t.Holds

/-- Taking a command takes it alone: no row changes the commands that wait behind it. -/
def Claims.QueueIsKept : Prop := ∀ (s t : State), step s = .next t → t.pending = s.pending.tail

/-! ## What a host reads, and what the creel's pages carry -/

/-- BAR0 as an LD reads it: the registers of the module block and of the unit block at their offsets, and zero at the offsets
between them; a mailbox page answers the LD of its mailbox and reads zero from another; in Standby the unit block reads zero and
mailbox 0's page alone answers (R342, R343, R347, R349, R372). -/
def Claims.Bar0Reads : Prop := ∀ (s : State) (ld : Nat),
  let at_ := s.bar0Slot ld
  (at_ 0x00 = s.moduleStatus ∧ at_ 0x08 = s.time.now.toNat ∧ at_ 0x10 = s.cxlLinkStatus ∧ at_ 0x18 = s.powerStatus ∧
    (∀ d < 16, at_ (0x100 + 8 * d) = s.hostGeneration d) ∧ (∀ off, 0x180 ≤ off → off < 0x10000 → at_ off = 0)) ∧
  (s.power.state ≠ .standby →
    (∀ k < 8, at_ (0x10000 + 8 * k) = s.spindleStatus k ∧ at_ (0x10040 + 8 * k) = s.columnMap k ∧ at_ (0x10080 + 8 * k) = s.whorlStatus k) ∧
    at_ 0x100C0 = s.poolStatus ∧ at_ 0x100C8 = s.creelStatus ∧ at_ 0x100D0 = s.creelBuffer ∧
    (∀ p < 4, at_ (0x100D8 + 8 * p) = s.portStatus p ∧ at_ (0x10100 + 8 * p) = s.schedStatus p)) ∧
  (s.power.state = .standby → ∀ off, 0x10000 ≤ off → off < 0x20000 → at_ off = 0) ∧
  (∀ m < 1024, let p := 0x100000 + m * 0x1000
    ((s.mbox m).ld = some ld → (s.power.state ≠ .standby ∨ m = 0) →
      at_ p = (s.mbox m).sqTail + (s.mbox m).cqHead * 2 ^ 32 ∧ at_ (p + 8) = (s.mbox m).eventHead) ∧
    (((s.mbox m).ld ≠ some ld ∨ (s.power.state = .standby ∧ m ≠ 0)) → ∀ i < 0x1000, at_ (p + i) = 0)) ∧
  (∀ off, 0x20000 ≤ off → off < 0x100000 → at_ off = 0) ∧ (∀ off, 0x1500000 ≤ off → at_ off = 0)

/-- A programmed page is the next one of its block and carries its record: KIND, FLAGS, PAGE_INDEX, LOGICAL_BLOCK, SEQUENCE and
the CRC-32C over the rest of the 128 bytes; SEQUENCE rises by 1, the CLEAN mark goes, and no other block changes. An erased page
reads 0xFF (R245, R246, R251). -/
def Claims.PageRecords : Prop := ∀ (c : Creel) (b index lb : Nat) (kind : PageKind) (flags : BitVec 2),
  let d := c.program b kind index lb flags
  (∃ p : FlashPage, d.pagesIn b = c.pagesIn b ++ [p] ∧ d.fill b = c.fill b + 1 ∧
    let head := toLe 1 kind.code ++ toLe 1 flags.toNat ++ toLe 2 (index % 2 ^ 16) ++ toLe 4 (lb % 2 ^ 20) ++ toLe 8 c.sequence.toNat
    spareArea (some p) = head ++ toLe 4 (crc32c (head ++ zeros 108)).toNat ++ zeros 108 ∧ (spareArea (some p)).length = 128) ∧
  d.sequence = c.sequence + 1 ∧ d.cleanMark = none ∧ (∀ x, x ≠ b → d.pagesIn x = c.pagesIn x) ∧
  spareArea none = List.replicate 128 0xFF

/-- A logical page that lands is programmed in the open unit's next page as KIND bobbin lea, and the page map names it there
(R242, R245). -/
def Claims.PagesLand : Prop := ∀ (s u : State) (page b : Nat), s.openUnit = some (b, u) → ∃ t : State, s.programPage page = some t ∧
  tget t.creel.pages page = some (b, u.creel.fill b) ∧ (∀ x, x ≠ page → tget t.creel.pages x = tget u.creel.pages x) ∧
  t.creel.pagesIn b = u.creel.pagesIn b ++
    [{ record := { kind := .lea, flags := 0, pageIndex := BitVec.ofNat 16 (page % 1536), logicalBlock := BitVec.ofNat 20 (page / 1536),
                   sequence := u.creel.sequence } }] ∧
  t = { u with creel := t.creel }

end Sys2Proof.Machine

/-- A step runs the command at the front of the queue. -/
def Obligations.StepRunsFrontCommand : Prop :=
  Sys2Proof.Machine.Claims.StepRunsFront

/-- A step on an empty queue is one tick of the clock (model's choice, log 1). -/
def Obligations.IdleStepIsOneTick : Prop :=
  Sys2Proof.Machine.Claims.IdleTick

/-- The module right after reset, and the invariant there. -/
def Obligations.ResetValues : Prop :=
  Sys2Proof.Machine.Claims.ResetState ∧ Sys2Proof.Machine.Claims.ResetHolds

/-- Memory: a read after a write, the canonical form, and its uniqueness. -/
def Obligations.MemoryLaws : Prop :=
  Sys2Proof.Machine.Claims.MemoryReadsBack ∧ Sys2Proof.Machine.Claims.MemoryCanonical

/-- W1C flags, their counters, service level and MSI-X vectors. -/
def Obligations.FlagsAndVectors : Prop :=
  Sys2Proof.Machine.Claims.FlagCounters ∧ Sys2Proof.Machine.Claims.Vectors ∧ Sys2Proof.Machine.Claims.ServiceLevel

/-- Events of severity 2 and 3 raise one in-band interrupt per 100 ms. -/
def Obligations.EventsInterrupt : Prop :=
  Sys2Proof.Machine.Claims.InBandInterrupts

/-- Event records enter their rings; a response writes its slot and nothing else. -/
def Obligations.EventRingsAndResponses : Prop :=
  Sys2Proof.Machine.Claims.EventRecords ∧ Sys2Proof.Machine.Claims.ResponseFrame

/-- Every step keeps canonical memory, the invocation's shape and the waiting commands. -/
def Obligations.StepsKeepInvariant : Prop :=
  Sys2Proof.Machine.Claims.StepHolds ∧ Sys2Proof.Machine.Claims.QueueIsKept

/-- Interface version, module information, MODULE_CONFIGURE and LD_CONFIGURE. -/
def Obligations.ModuleCommands : Prop :=
  Sys2Proof.Machine.Claims.GetInterfaceVersion ∧ Sys2Proof.Machine.Claims.SetInterfaceVersion ∧
    Sys2Proof.Machine.Claims.ModuleInfo ∧ Sys2Proof.Machine.Claims.ModuleConfigure ∧ Sys2Proof.Machine.Claims.LdConfigure

/-- Binding and unbinding of mailboxes; rings' tail and head writes. -/
def Obligations.MailboxCommands : Prop :=
  Sys2Proof.Machine.Claims.MailboxBind ∧ Sys2Proof.Machine.Claims.MailboxUnbind ∧ Sys2Proof.Machine.Claims.SqTailWrite ∧
    Sys2Proof.Machine.Claims.CqHeadWrite ∧ Sys2Proof.Machine.Claims.EventHeadWrite

/-- Tenants: creation, quotas, information, destruction and its end. -/
def Obligations.TenantCommands : Prop :=
  Sys2Proof.Machine.Claims.TenantCreate ∧ Sys2Proof.Machine.Claims.QuotaSet ∧ Sys2Proof.Machine.Claims.TenantInfo ∧
    Sys2Proof.Machine.Claims.TenantDestroy ∧ Sys2Proof.Machine.Claims.TeardownComplete

/-- Completion and job queues: creation, destruction, status, cancellation. -/
def Obligations.QueueCommands : Prop :=
  Sys2Proof.Machine.Claims.CqCreate ∧ Sys2Proof.Machine.Claims.CqDestroy ∧ Sys2Proof.Machine.Claims.JobQueueCreate ∧
    Sys2Proof.Machine.Claims.JobQueueDestroy ∧ Sys2Proof.Machine.Claims.QueueStatus ∧ Sys2Proof.Machine.Claims.JobCancel ∧
    Sys2Proof.Machine.Claims.CombineRelease

/-- Trigger lists: creation, destruction, posting, cancellation, resumption. -/
def Obligations.TriggerCommands : Prop :=
  Sys2Proof.Machine.Claims.TriggerListCreate ∧ Sys2Proof.Machine.Claims.TriggerListDestroy ∧
    Sys2Proof.Machine.Claims.TriggerPost ∧ Sys2Proof.Machine.Claims.TriggerCancel ∧ Sys2Proof.Machine.Claims.TriggerResume

/-- Skeins: creation, destruction, information, hints. -/
def Obligations.SkeinCommands : Prop :=
  Sys2Proof.Machine.Claims.SkeinCreate ∧ Sys2Proof.Machine.Claims.SkeinDestroy ∧ Sys2Proof.Machine.Claims.SkeinInfo ∧
    Sys2Proof.Machine.Claims.SkeinSetHint

/-- Lease swaps, expiry, the orphan hold and lease atomics. -/
def Obligations.Leases : Prop :=
  Sys2Proof.Machine.Claims.LeaseSwap ∧ Sys2Proof.Machine.Claims.LeaseExpiry ∧ Sys2Proof.Machine.Claims.OrphanHoldEnd ∧
    Sys2Proof.Machine.Claims.LeaseAtomics

/-- Loading and unloading of programs and tables. -/
def Obligations.ProgramCommands : Prop :=
  Sys2Proof.Machine.Claims.ProgramLoad ∧ Sys2Proof.Machine.Claims.ProgramUnload ∧ Sys2Proof.Machine.Claims.TableLoad ∧
    Sys2Proof.Machine.Claims.TableUnload

/-- Connections: creation, change, draining, destruction. -/
def Obligations.ConnectionCommands : Prop :=
  Sys2Proof.Machine.Claims.ConnCreate ∧ Sys2Proof.Machine.Claims.ConnModify ∧ Sys2Proof.Machine.Claims.ConnDrain ∧
    Sys2Proof.Machine.Claims.ConnDestroy

/-- Shared receive queues and regions. -/
def Obligations.RegionCommands : Prop :=
  Sys2Proof.Machine.Claims.SrqCreate ∧ Sys2Proof.Machine.Claims.SrqDestroy ∧ Sys2Proof.Machine.Claims.RegionRegister ∧
    Sys2Proof.Machine.Claims.RegionDeregister

/-- Wavelength spares, ports, shapers and gates. -/
def Obligations.PortCommands : Prop :=
  Sys2Proof.Machine.Claims.LinkSpare ∧ Sys2Proof.Machine.Claims.PortConfigure ∧ Sys2Proof.Machine.Claims.ShaperSet ∧
    Sys2Proof.Machine.Claims.GateSet ∧ Sys2Proof.Machine.Claims.GateEntryChange ∧ Sys2Proof.Machine.Claims.GateListSwitch

/-- Runs and the prefix index. -/
def Obligations.PrefixCommands : Prop :=
  Sys2Proof.Machine.Claims.RunCreate ∧ Sys2Proof.Machine.Claims.RunAttach ∧ Sys2Proof.Machine.Claims.RunRelease ∧
    Sys2Proof.Machine.Claims.PrefixInsert ∧ Sys2Proof.Machine.Claims.PrefixRemove ∧ Sys2Proof.Machine.Claims.PrefixProbe ∧
    Sys2Proof.Machine.Claims.PrefixShift ∧ Sys2Proof.Machine.Claims.PrefixShadow

/-- Doffs, reloads, pins and their ends. -/
def Obligations.TierCommands : Prop :=
  Sys2Proof.Machine.Claims.SkeinDoff ∧ Sys2Proof.Machine.Claims.SkeinReload ∧ Sys2Proof.Machine.Claims.TierPin ∧
    Sys2Proof.Machine.Claims.TierUnpin ∧ Sys2Proof.Machine.Claims.DoffReloadEnd

/-- Sweeps, moves, demotion, slots and retirement. -/
def Obligations.TierEngine : Prop :=
  Sys2Proof.Machine.Claims.SweepStart ∧ Sys2Proof.Machine.Claims.BobbinMoveCommit ∧
    Sys2Proof.Machine.Claims.BobbinMoveAbandon ∧ Sys2Proof.Machine.Claims.DamagedDemotion ∧
    Sys2Proof.Machine.Claims.SlotFree ∧ Sys2Proof.Machine.Claims.SkeinRetirementEnd

/-- Lent entries, fences, and reads and writes of the lent window. -/
def Obligations.LentWindow : Prop :=
  Sys2Proof.Machine.Claims.LentGrant ∧ Sys2Proof.Machine.Claims.LentRevoke ∧ Sys2Proof.Machine.Claims.HostFence ∧
    Sys2Proof.Machine.Claims.LentDrains ∧ Sys2Proof.Machine.Claims.LentBandChange ∧ Sys2Proof.Machine.Claims.LentChecks ∧
    Sys2Proof.Machine.Claims.LentRead ∧ Sys2Proof.Machine.Claims.LentWrite ∧ Sys2Proof.Machine.Claims.LentDenied

/-- Publications between hosts. -/
def Obligations.Publications : Prop :=
  Sys2Proof.Machine.Claims.PublicationCreate ∧ Sys2Proof.Machine.Claims.PublicationDelete ∧
    Sys2Proof.Machine.Claims.LentPublish ∧ Sys2Proof.Machine.Claims.PublicationGet

/-- Unit service, margins, audits, budgets and health reports. -/
def Obligations.ReliabilityCommands : Prop :=
  Sys2Proof.Machine.Claims.UnitService ∧ Sys2Proof.Machine.Claims.MarginSweep ∧ Sys2Proof.Machine.Claims.AuditSet ∧
    Sys2Proof.Machine.Claims.BudgetSet ∧ Sys2Proof.Machine.Claims.HealthRead

/-- Samples, telemetry records and statistics. -/
def Obligations.Telemetry : Prop :=
  Sys2Proof.Machine.Claims.SampleSet ∧ Sys2Proof.Machine.Claims.TelemetryRead ∧ Sys2Proof.Machine.Claims.StatsRead ∧
    Sys2Proof.Machine.Claims.SamplePeriodBoundary ∧ Sys2Proof.Machine.Claims.TelemetryRing

/-- The time unit's commands, loads, reference edges and pulses. -/
def Obligations.TimeCommands : Prop :=
  Sys2Proof.Machine.Claims.TimeConfigure ∧ Sys2Proof.Machine.Claims.TimeInfo ∧ Sys2Proof.Machine.Claims.TimeLoad ∧
    Sys2Proof.Machine.Claims.TimeRefEdge ∧ Sys2Proof.Machine.Claims.ReferenceEdgeLoss ∧ Sys2Proof.Machine.Claims.PpsOut

/-- The sync exchange and the discipline of the count. -/
def Obligations.TimeSync : Prop :=
  Sys2Proof.Machine.Claims.SyncReceive ∧ Sys2Proof.Machine.Claims.DelayReqReceive ∧
    Sys2Proof.Machine.Claims.DelayRespReceive ∧ Sys2Proof.Machine.Claims.Discipline ∧ Sys2Proof.Machine.Claims.TimeLock ∧
    Sys2Proof.Machine.Claims.DelayRespLimit ∧ Sys2Proof.Machine.Claims.SyncInterval ∧ Sys2Proof.Machine.Claims.SyncLoss

/-- Power states, the cap, Doze settings and power information. -/
def Obligations.PowerCommands : Prop :=
  Sys2Proof.Machine.Claims.PowerStateSet ∧ Sys2Proof.Machine.Claims.PowerCapSet ∧ Sys2Proof.Machine.Claims.DozeConfigure ∧
    Sys2Proof.Machine.Claims.PowerInfo

/-- Firmware: staging, activation, information and its hand-over. -/
def Obligations.FirmwareCommands : Prop :=
  Sys2Proof.Machine.Claims.FirmwareStage ∧ Sys2Proof.Machine.Claims.FirmwareActivate ∧
    Sys2Proof.Machine.Claims.FirmwareInfo ∧ Sys2Proof.Machine.Claims.LiveActivation

/-- SVN_COMMIT burns the running SVN; FIRMWARE_ACTIVATE never raises the floor. -/
def Obligations.SvnCommits : Prop :=
  Sys2Proof.Machine.Claims.SvnCommit ∧ Sys2Proof.Machine.Claims.FloorStays

/-- Attestation reports, the island's timers, sessions and their keys. -/
def Obligations.AttestationAndSessions : Prop :=
  Sys2Proof.Machine.Claims.AttestReport ∧ Sys2Proof.Machine.Claims.SecurityTimers ∧ Sys2Proof.Machine.Claims.SessionOpen ∧
    Sys2Proof.Machine.Claims.SessionClose ∧ Sys2Proof.Machine.Claims.HandshakePacket ∧
    Sys2Proof.Machine.Claims.SessionKeys ∧ Sys2Proof.Machine.Claims.SessionLost

/-- Doorbells, their refusal, and doorbells to a sleeping module. -/
def Obligations.Doorbells : Prop :=
  Sys2Proof.Machine.Claims.Doorbells ∧ Sys2Proof.Machine.Claims.DoorbellEffects ∧ Sys2Proof.Machine.Claims.DoorbellsAsleep

/-- Register reads and writes of BAR0. -/
def Obligations.RegisterAccesses : Prop :=
  Sys2Proof.Machine.Claims.Bar0Reads ∧ Sys2Proof.Machine.Claims.W1cFlagWrite ∧ Sys2Proof.Machine.Claims.RcCounterRead ∧
    Sys2Proof.Machine.Claims.TimeNowReads ∧ Sys2Proof.Machine.Claims.RecoveryGo ∧ Sys2Proof.Machine.Claims.RegisterWrite

/-- The probe window, the queue window and HDM decoders. -/
def Obligations.Windows : Prop :=
  Sys2Proof.Machine.Claims.ProbeWindow ∧ Sys2Proof.Machine.Claims.QueueWindow ∧ Sys2Proof.Machine.Claims.HdmDecoderCommit

/-- Admission of jobs. -/
def Obligations.JobAdmission : Prop :=
  Sys2Proof.Machine.Claims.JobAdmission ∧ Sys2Proof.Machine.Claims.JobHeader ∧ Sys2Proof.Machine.Claims.PlainAdmission ∧
    Sys2Proof.Machine.Claims.JobAdmissionResume ∧ Sys2Proof.Machine.Claims.AdmitWaitExpiry ∧
    Sys2Proof.Machine.Claims.SketchWaitDone

/-- Launch, streaming and delivery of jobs. -/
def Obligations.JobStreaming : Prop :=
  Sys2Proof.Machine.Claims.LaunchCountReached ∧ Sys2Proof.Machine.Claims.SpindleBarrierArrive ∧
    Sys2Proof.Machine.Claims.LeaArrival ∧ Sys2Proof.Machine.Claims.ItemDealt ∧
    Sys2Proof.Machine.Claims.SpindleItemComplete ∧ Sys2Proof.Machine.Claims.JobStreamComplete ∧
    Sys2Proof.Machine.Claims.WhorlJob ∧ Sys2Proof.Machine.Claims.JobDelivery ∧ Sys2Proof.Machine.Claims.SpindleLeavesService

/-- Combines, and the whorl commands. -/
def Obligations.CombinesAndCopies : Prop :=
  Sys2Proof.Machine.Claims.CombineDescriptorPost ∧ Sys2Proof.Machine.Claims.CombineTimeout ∧
    Sys2Proof.Machine.Claims.PlyExecute ∧ Sys2Proof.Machine.Claims.Copy ∧ Sys2Proof.Machine.Claims.Verify ∧
    Sys2Proof.Machine.Claims.Compact

/-- WAIT descriptors in job and send queues. -/
def Obligations.WaitDescriptors : Prop :=
  Sys2Proof.Machine.Claims.WaitJobQueue ∧ Sys2Proof.Machine.Claims.WaitSendQueue ∧ Sys2Proof.Machine.Claims.WaitEnds ∧
    Sys2Proof.Machine.Claims.WaitTest

/-- Messages are executed in order; send queues take their work requests. -/
def Obligations.MessageOrder : Prop :=
  Sys2Proof.Machine.Claims.MessageOrder ∧ Sys2Proof.Machine.Claims.MessageCompletion ∧
    Sys2Proof.Machine.Claims.WorkRequestPost ∧ Sys2Proof.Machine.Claims.SendQueueTurns

/-- The effect of each message. -/
def Obligations.MessageEffects : Prop :=
  Sys2Proof.Machine.Claims.WriteExecute ∧ Sys2Proof.Machine.Claims.ImportWrite ∧ Sys2Proof.Machine.Claims.ReadExecute ∧
    Sys2Proof.Machine.Claims.Responses ∧ Sys2Proof.Machine.Claims.Atomics ∧ Sys2Proof.Machine.Claims.SendExecute ∧
    Sys2Proof.Machine.Claims.QueryExecute ∧ Sys2Proof.Machine.Claims.Firing

/-- Appends, their checks and their consequences. -/
def Obligations.Appends : Prop :=
  Sys2Proof.Machine.Claims.AppendExecute ∧ Sys2Proof.Machine.Claims.AppendChecks ∧ Sys2Proof.Machine.Claims.AppendComplete ∧
    Sys2Proof.Machine.Claims.SketchUpdate ∧ Sys2Proof.Machine.Claims.BlockHashCompute

/-- Acknowledgements and the timers of connections. -/
def Obligations.Acknowledgements : Prop :=
  Sys2Proof.Machine.Claims.AckReceive ∧ Sys2Proof.Machine.Claims.NakReceive ∧ Sys2Proof.Machine.Claims.ConnectionTimers ∧
    Sys2Proof.Machine.Claims.TimedHold

/-- Frames, packets and what is discarded. -/
def Obligations.LinkFrames : Prop :=
  Sys2Proof.Machine.Claims.FourPorts ∧ Sys2Proof.Machine.Claims.LinkFrameReceive ∧ Sys2Proof.Machine.Claims.FramesAsleep ∧
    Sys2Proof.Machine.Claims.PacketDiscard ∧ Sys2Proof.Machine.Claims.PacketWindow

/-- Link acknowledgements, replay and retraining. -/
def Obligations.LinkReplay : Prop :=
  Sys2Proof.Machine.Claims.LinkAckReceive ∧ Sys2Proof.Machine.Claims.Replay ∧ Sys2Proof.Machine.Claims.ReplayLimit ∧
    Sys2Proof.Machine.Claims.LinkAckTimer ∧ Sys2Proof.Machine.Claims.Retraining ∧ Sys2Proof.Machine.Claims.TimerPause

/-- Wavelengths, lasers, light and wake blocks. -/
def Obligations.Wavelengths : Prop :=
  Sys2Proof.Machine.Claims.SwitchReceive ∧ Sys2Proof.Machine.Claims.WavelengthFailure ∧
    Sys2Proof.Machine.Claims.LaserBanks ∧ Sys2Proof.Machine.Claims.LossOfLight ∧ Sys2Proof.Machine.Claims.WakeBlocks ∧
    Sys2Proof.Machine.Claims.MapChange

/-- What a port sends next. -/
def Obligations.Scheduling : Prop :=
  Sys2Proof.Machine.Claims.TransmitEnd ∧ Sys2Proof.Machine.Claims.NoStart ∧ Sys2Proof.Machine.Claims.ClassSevenFirst ∧
    Sys2Proof.Machine.Claims.Eligible ∧ Sys2Proof.Machine.Claims.FrameStarts

/-- Patrol scrub, line errors and calibration. -/
def Obligations.LineErrors : Prop :=
  Sys2Proof.Machine.Claims.PatrolPeriod ∧ Sys2Proof.Machine.Claims.PatrolPass ∧ Sys2Proof.Machine.Claims.LineErrors ∧
    Sys2Proof.Machine.Claims.BobbinLineLost ∧ Sys2Proof.Machine.Claims.CalibrationStep

/-- Channels, columns and their spares. -/
def Obligations.Sparing : Prop :=
  Sys2Proof.Machine.Claims.SpareCopyComplete ∧ Sys2Proof.Machine.Claims.ChannelFailure ∧
    Sys2Proof.Machine.Claims.OwnSpareFirst ∧ Sys2Proof.Machine.Claims.StackAfterVacancy ∧
    Sys2Proof.Machine.Claims.ColumnSelfTest

/-- Health scores, expulsion and shadow audits. -/
def Obligations.HealthAndAudits : Prop :=
  Sys2Proof.Machine.Claims.HealthRecompute ∧ Sys2Proof.Machine.Claims.Judgement ∧ Sys2Proof.Machine.Claims.ShadowAudit ∧
    Sys2Proof.Machine.Claims.AuditArbiter

/-- Programmed pages, merges, failed programs and erases, the scan and the patrol of the creel. -/
def Obligations.CreelEvents : Prop :=
  Sys2Proof.Machine.Claims.PageRecords ∧ Sys2Proof.Machine.Claims.PagesLand ∧ Sys2Proof.Machine.Claims.MergeStart ∧
    Sys2Proof.Machine.Claims.MergeComplete ∧ Sys2Proof.Machine.Claims.MergeDestFail ∧
    Sys2Proof.Machine.Claims.CreelProgramFail ∧ Sys2Proof.Machine.Claims.CreelErase ∧ Sys2Proof.Machine.Claims.CreelScan ∧
    Sys2Proof.Machine.Claims.CreelPatrol

/-- The input, the reset pin, and what a stop leaves. -/
def Obligations.InputAndReset : Prop :=
  Sys2Proof.Machine.Claims.InputMeasurement ∧ Sys2Proof.Machine.Claims.InputCut ∧ Sys2Proof.Machine.Claims.InputQualified ∧
    Sys2Proof.Machine.Claims.Stopped ∧ Sys2Proof.Machine.Claims.ResetPin

/-- The governor, sensors, hard trips and the coolant. -/
def Obligations.PowerLimits : Prop :=
  Sys2Proof.Machine.Claims.GovernorStep ∧ Sys2Proof.Machine.Claims.ClockSteps ∧ Sys2Proof.Machine.Claims.EffectiveCap ∧
    Sys2Proof.Machine.Claims.SensorCrossing ∧ Sys2Proof.Machine.Claims.SensorTables ∧ Sys2Proof.Machine.Claims.HardTrip ∧
    Sys2Proof.Machine.Claims.TripRestart ∧ Sys2Proof.Machine.Claims.CoolantCheck

/-- Hold, Doze, wake sources and the exit from Doze. -/
def Obligations.PowerStates : Prop :=
  Sys2Proof.Machine.Claims.HoldEntry ∧ Sys2Proof.Machine.Claims.DozeEntry ∧ Sys2Proof.Machine.Claims.WakeSources ∧
    Sys2Proof.Machine.Claims.DozeSample ∧ Sys2Proof.Machine.Claims.CxlWake ∧ Sys2Proof.Machine.Claims.DozeExit

/-- Link and LD resets, lanes, IDE and MSI-X enabling. -/
def Obligations.CxlLink : Prop :=
  Sys2Proof.Machine.Claims.LinkResets ∧ Sys2Proof.Machine.Claims.LinkResetsIgnored ∧ Sys2Proof.Machine.Claims.LaneFailure ∧
    Sys2Proof.Machine.Claims.IdeAndMsix

/-- DOE, TSP, the FM API and the sideband. -/
def Obligations.ManagementMessages : Prop :=
  Sys2Proof.Machine.Claims.DoeMessages ∧ Sys2Proof.Machine.Claims.TspRequests ∧ Sys2Proof.Machine.Claims.FmApi ∧
    Sys2Proof.Machine.Claims.Sideband

/-- Cold start, restoration, command bounds and control cores. -/
def Obligations.StartAndCores : Prop :=
  Sys2Proof.Machine.Claims.BoundExpiry ∧ Sys2Proof.Machine.Claims.ControlCores ∧ Sys2Proof.Machine.Claims.ColdStart ∧
    Sys2Proof.Machine.Claims.SkeinRestoration

/-- Breus scalar operations wrap modulo 2^32. -/
def Obligations.BreusScalarOperations : Prop :=
  Sys2Proof.Machine.Claims.BreusScalars

/-- Breus constants, vectors, reductions and predicates. -/
def Obligations.BreusRegisters : Prop :=
  Sys2Proof.Machine.Claims.BreusConstants ∧ Sys2Proof.Machine.Claims.BreusVectors ∧
    Sys2Proof.Machine.Claims.BreusReductions ∧ Sys2Proof.Machine.Claims.BreusPredicates

/-- Breus branches, bodies, ends, traps, refusals and fresh invocations. -/
def Obligations.BreusControl : Prop :=
  Sys2Proof.Machine.Claims.BreusBranches ∧ Sys2Proof.Machine.Claims.BreusBodies ∧ Sys2Proof.Machine.Claims.BreusIterations ∧
    Sys2Proof.Machine.Claims.BreusEnds ∧ Sys2Proof.Machine.Claims.BreusTraps ∧ Sys2Proof.Machine.Claims.BreusTrapRecord ∧
    Sys2Proof.Machine.Claims.BreusRefusals ∧ Sys2Proof.Machine.Claims.BreusFresh
end

