-- ==== Sys2Proof/Laws/Bytes.lean ====
section
/-!
SUPPORT. Numbers as bytes: their length, and that they read back.
-/
namespace Sys2Proof.Machine

/-- A number in k bytes has k bytes. -/
theorem toLe_length (n v : Nat) : (toLe n v).length = n := by
  induction n generalizing v with
  | zero => rfl
  | succ n ih => simp [toLe, ih]

/-- A number that fits in its bytes reads back. -/
theorem ofLe_toLe (n v : Nat) (h : v < 256 ^ n) : ofLe (toLe n v) = v := by
  induction n generalizing v with
  | zero => simp at h; subst h; rfl
  | succ n ih =>
    have : v / 256 < 256 ^ n := by rw [Nat.div_lt_iff_lt_mul (by omega)]; rw [Nat.pow_succ] at h; exact h
    show (BitVec.ofNat 8 v).toNat + 256 * ofLe (toLe n (v / 256)) = v
    rw [ih _ this, BitVec.toNat_ofNat]; omega

theorem w32_le (v : W32) : BitVec.ofNat 32 (ofLe (toLe 4 v.toNat)) = v := by
  rw [ofLe_toLe _ _ (by have := v.isLt; omega)]; simp

/-- Padding gives the length asked for. -/
theorem padTo_length (n : Nat) (bs : List Byte) : (padTo n bs).length = n := by
  simp only [padTo, List.length_append, List.length_take, zeros, List.length_replicate]; omega

end Sys2Proof.Machine
end

