-- ==== Sys2Proof/Laws/Tables.lean ====
section
/-!
SUPPORT. What reading a table gives after a write, a removal or a change of one entry.
-/
namespace Sys2Proof.Machine

@[simp] theorem tget_tset_same {α : Type} (t : Table α) (i : Nat) (x : α) : tget (tset t i x) i = some x := by
  induction t with
  | nil => simp [tset, tget]
  | cons e t ih =>
    obtain ⟨k, v⟩ := e
    simp only [tset]
    split
    · simp [tget]
    · split
      · simp [tget]
      · next h => simp [tget, ih, Ne.symm h]

theorem tget_tset_other {α : Type} (t : Table α) (i j : Nat) (x : α) (h : j ≠ i) : tget (tset t i x) j = tget t j := by
  induction t with
  | nil => simp [tset, tget, Ne.symm h]
  | cons e t ih =>
    obtain ⟨k, v⟩ := e
    simp only [tset]
    split
    · simp [tget, Ne.symm h]
    · split
      · next h1 => subst h1; simp [tget, Ne.symm h]
      · simp [tget, ih]

@[simp] theorem tget_tdel_same {α : Type} (t : Table α) (i : Nat) : tget (tdel t i) i = none := by
  induction t with
  | nil => rfl
  | cons e t ih =>
    obtain ⟨k, v⟩ := e
    by_cases h : k = i
    · simpa [tdel, h] using ih
    · simpa [tdel, h, tget] using ih

theorem tget_tdel_other {α : Type} (t : Table α) (i j : Nat) (h : j ≠ i) : tget (tdel t i) j = tget t j := by
  induction t with
  | nil => rfl
  | cons e t ih =>
    obtain ⟨k, v⟩ := e
    by_cases h1 : k = i
    · have h2 : ¬ k = j := by omega
      simpa [tdel, h1, tget, Ne.symm h, h2] using ih
    · by_cases h2 : k = j
      · simp [tdel, h1, tget, h2, h]
      · simpa [tdel, h1, tget, h2] using ih

theorem tget_tmod {α : Type} (t : Table α) (i j : Nat) (f : α → α) :
    tget (tmod t i f) j = if j = i then (tget t j).map f else tget t j := by
  induction t with
  | nil => simp [tmod, tget]
  | cons e t ih =>
    obtain ⟨k, v⟩ := e
    simp only [tmod, List.map_cons, tget] at ih ⊢
    by_cases h1 : k = i
    · by_cases h2 : k = j
      · subst h1; subst h2; simp
      · subst h1; simp [h2, ih]
    · by_cases h2 : k = j
      · subst h2; simp [h1]
      · simp [h1, h2, ih]

@[simp] theorem tnum_tset_same (t : Table Nat) (i n : Nat) : tnum (tset t i n) i = n := by simp [tnum]

/-- A filter of keys keeps what stands under the keys it takes. -/
theorem tget_filter_in {α : Type} (q : Nat → Bool) (i : Nat) (h : q i = true) (t : Table α) : tget (t.filter fun e => q e.1) i = tget t i := by
  induction t with
  | nil => rfl
  | cons e t ih =>
    rw [List.filter_cons]; split
    · simp only [tget]; split <;> simp_all
    · simp only [tget]; split
      · next h1 h2 => subst h2; simp_all
      · exact ih
/-- A filter of keys removes what stands under the keys it does not take. -/
theorem tget_filter_out {α : Type} (q : Nat → Bool) (i : Nat) (h : q i = false) (t : Table α) : tget (t.filter fun e => q e.1) i = none := by
  induction t with
  | nil => rfl
  | cons e t ih =>
    rw [List.filter_cons]; split
    · simp only [tget]; split
      · next h1 h2 => subst h2; simp_all
      · exact ih
    · exact ih

end Sys2Proof.Machine
end

