-- ==== Sys2Proof/Laws/Told.lean ====
section
/-!
SUPPORT. Events change what has been told and nothing else: the frame of raising an event, and how its records and its interrupt go out.
-/
namespace Sys2Proof.Machine

/-- `Told s t`: t is s but for the event rings, the vectors that wait, the in-band record and what went out. -/
structure Told (s t : State) : Prop where
  rest : ∃ (out : List Out) (cxl : Cxl) (box : Boxes), t = { s with out := out, cxl := cxl, box := box }
  cxl : ∃ lds, t.cxl = { s.cxl with lds := lds }
  ld : ∀ d, ∃ h, t.ld d = { s.ld d with heldVectors := h }

theorem Told.refl (s : State) : Told s s := ⟨⟨_, _, _, rfl⟩, ⟨_, rfl⟩, fun _ => ⟨_, rfl⟩⟩

theorem Told.trans {a b c : State} (h : Told a b) (k : Told b c) : Told a c := by
  obtain ⟨⟨o1, x1, b1, e1⟩, ⟨l1, f1⟩, g1⟩ := h
  obtain ⟨⟨o2, x2, b2, e2⟩, ⟨l2, f2⟩, g2⟩ := k
  refine ⟨⟨o2, x2, b2, ?_⟩, ⟨l2, ?_⟩, ?_⟩
  · rw [e2, e1]
  · rw [f2, f1]
  · intro d; obtain ⟨h1, q1⟩ := g1 d; obtain ⟨h2, q2⟩ := g2 d; exact ⟨h2, by rw [q2, q1]⟩

theorem Told.emit (s : State) (o : Out) : Told s (s.emit o) := ⟨⟨_, _, _, rfl⟩, ⟨_, rfl⟩, fun _ => ⟨_, rfl⟩⟩

theorem Told.box (s : State) (b : Boxes) : Told s { s with box := b } := ⟨⟨_, _, _, rfl⟩, ⟨_, rfl⟩, fun _ => ⟨_, rfl⟩⟩

/-- A change of one LD leaves the others. -/
theorem ld_modLd (s : State) (d e : Nat) (f : Ld → Ld) : (s.modLd d f).ld e = if e = d then f (s.ld d) else s.ld e := by
  split
  · next h => subst h; simp [State.modLd, State.setLd, State.ld]
  · next h => simp [State.modLd, State.setLd, State.ld, tget_tset_other _ _ _ _ h]

theorem told_vector (s : State) (d v : Nat) : Told s (s.raiseVector d v) := by
  simp only [State.raiseVector]
  split
  · exact Told.emit _ _
  · refine ⟨⟨_, _, _, rfl⟩, ⟨_, rfl⟩, fun e => ?_⟩
    rw [ld_modLd]; split
    · next h => subst h; exact ⟨_, rfl⟩
    · exact ⟨_, rfl⟩

theorem told_mboxVector (s : State) (m v : Nat) : Told s (s.raiseMboxVector m v) := by
  simp only [State.raiseMboxVector]; split
  · exact told_vector _ _ _
  · exact Told.refl _

theorem told_writeEvent (s : State) (m : Nat) (e : EventRec) : Told s (s.writeEvent m e) :=
  (Told.box s _).trans (told_mboxVector _ _ _)

theorem told_pushEvent (s : State) (m : Nat) (e : EventRec) : Told s (s.pushEvent m e) := by
  simp only [State.pushEvent]
  split
  · exact told_writeEvent _ _ _
  · split
    · exact Told.box _ _
    · split
      · exact Told.box _ _
      · split <;> exact Told.box _ _

theorem told_inBand (s : State) (v : Nat) : Told s (s.inBand v) := by
  unfold State.inBand
  simp only []
  split
  · split
    · exact (Told.box _ _).trans (Told.emit _ _)
    · exact Told.refl _
  · split
    · exact (Told.box _ _).trans (Told.emit _ _)
    · exact Told.refl _

theorem told_foldl {α : Type} (f : State → α → State) (hf : ∀ s a, Told s (f s a)) (l : List α) (s : State) : Told s (l.foldl f s) := by
  induction l generalizing s with
  | nil => exact Told.refl _
  | cons a l ih => exact (hf s a).trans (ih _)

/-- Raising an event only tells. -/
theorem told_raise (s : State) (c : EvCode) (f : For) (d : List Nat) : Told s (s.raise c f d) :=
  ((Told.box s _).trans (told_foldl _ (fun s m => told_pushEvent s m _) _ _)).trans (told_inBand _ _)

theorem Told.mem {s t : State} (h : Told s t) : t.mem = s.mem := by obtain ⟨o, x, b, e⟩ := h.rest; rw [e]

theorem Told.flagWord {s t : State} (h : Told s t) (r : Nat) : t.flagWord r = s.flagWord r := by obtain ⟨o, x, b, e⟩ := h.rest; rw [e]; rfl

theorem Told.flagCount {s t : State} (h : Told s t) (r i : Nat) : t.flagCount r i = s.flagCount r i := by obtain ⟨o, x, b, e⟩ := h.rest; rw [e]; rfl

theorem Told.time {s t : State} (h : Told s t) : t.time = s.time := by obtain ⟨o, x, b, e⟩ := h.rest; rw [e]

theorem Told.store {s t : State} (h : Told s t) : t.store = s.store := by obtain ⟨o, x, b, e⟩ := h.rest; rw [e]

theorem Told.work {s t : State} (h : Told s t) : t.work = s.work := by obtain ⟨o, x, b, e⟩ := h.rest; rw [e]

theorem Told.flyer {s t : State} (h : Told s t) : t.flyer = s.flyer := by obtain ⟨o, x, b, e⟩ := h.rest; rw [e]

/-- The first record that matches is counted up. -/
theorem bumpFirst_hit (p : Nat × EventRec → Bool) (x : Nat × EventRec) (hx : p x = true) (after : List (Nat × EventRec)) (n : Nat) :
    ∀ before : List (Nat × EventRec), (∀ y ∈ before, p y = false) →
    bumpFirst p n (before ++ x :: after) = before ++ (x.1, { x.2 with count := min 65535 (x.2.count + n) }) :: after := by
  intro before
  induction before with
  | nil => intro; simp [bumpFirst, hx]
  | cons y ys ih =>
    intro h; rw [List.cons_append, bumpFirst, if_neg (by simp [h y]), ih (fun z hz => h z (by simp [hz]))]; rfl

/-- An event record changes neither the time nor the in-band record. -/
theorem pushEvent_frame (s : State) (m : Nat) (e : EventRec) : (s.pushEvent m e).time = s.time ∧ (s.pushEvent m e).box.lastInBand = s.box.lastInBand := by
  simp only [State.pushEvent]
  split
  · simp only [State.writeEvent, State.raiseMboxVector, State.raiseVector]
    split
    · split <;> exact ⟨rfl, rfl⟩
    · exact ⟨rfl, rfl⟩
  · split
    · exact ⟨rfl, rfl⟩
    · split
      · exact ⟨rfl, rfl⟩
      · split <;> exact ⟨rfl, rfl⟩

theorem pushAll_frame (e : EventRec) : ∀ (ms : List Nat) (s : State),
    (ms.foldl (fun (s : State) m => s.pushEvent m e) s).time = s.time ∧ (ms.foldl (fun (s : State) m => s.pushEvent m e) s).box.lastInBand = s.box.lastInBand := by
  intro ms
  induction ms with
  | nil => intro s; exact ⟨rfl, rfl⟩
  | cons m ms ih => intro s; exact ⟨(ih _).1.trans (pushEvent_frame s m e).1, (ih _).2.trans (pushEvent_frame s m e).2⟩

theorem raise_told (s : State) (towards : For) (k : List Nat) :
    State.eventBoxes { s with box := { s.box with sevCounts := k } } towards = s.eventBoxes towards := by
  cases towards <;> simp only [State.eventBoxes, State.mbox]

/-- An event: its records go out, then the in-band interrupt (R392, R540). -/
theorem raise_split (s : State) (c : EvCode) (towards : For) (d : List Nat) : ∃ u : State,
    u = (s.eventBoxes towards).foldl (fun (s : State) m => s.pushEvent m { code := c.code, severity := c.sev, tenant := match towards with | .tenant t => t | _ => 0, count := 1, time := s.time.now, detail := d })
    { s with box := { s.box with sevCounts := s.box.sevCounts.modify c.sev fun n => min 0xFFFFFFFF (n + 1) } } ∧
    s.raise c towards d = u.inBand c.sev ∧ u.time = s.time ∧ u.box.lastInBand = s.box.lastInBand := by
  have hrun : ∀ (tag : W16) (ms : List Nat) (s0 : State), s0.time = s.time → ms.foldl (fun (s : State) m => s.pushEvent m { code := c.code, severity := c.sev, tenant := tag, count := 1, time := s.time.now, detail := d }) s0 =
      ms.foldl (fun (s' : State) m => s'.pushEvent m { code := c.code, severity := c.sev, tenant := tag, count := 1, time := s.time.now, detail := d }) s0 := by
    intro tag ms
    induction ms with
    | nil => intro s0 _; rfl
    | cons m ms ih => intro s0 h0; rw [List.foldl_cons, List.foldl_cons, h0]; exact ih _ ((pushEvent_frame _ _ _).1.trans h0)
  refine ⟨_, rfl, ?_, ?_, ?_⟩
  · simp only [State.raise]
    rw [raise_told s towards]
    rw [hrun (match towards with | .tenant t => t | _ => 0) (s.eventBoxes towards) { s with box := { s.box with sevCounts := s.box.sevCounts.modify c.sev fun n => min 0xFFFFFFFF (n + 1) } } rfl] <;> cases towards <;> rfl
  · refine Eq.trans (congrArg State.time (hrun (match towards with | .tenant t => t | _ => 0) (s.eventBoxes towards) { s with box := { s.box with sevCounts := s.box.sevCounts.modify c.sev fun n => min 0xFFFFFFFF (n + 1) } } rfl)) ?_
    exact (pushAll_frame _ _ _).1
  · refine Eq.trans (congrArg (fun x : State => x.box.lastInBand) (hrun (match towards with | .tenant t => t | _ => 0) (s.eventBoxes towards) { s with box := { s.box with sevCounts := s.box.sevCounts.modify c.sev fun n => min 0xFFFFFFFF (n + 1) } } rfl)) ?_
    exact (pushAll_frame _ _ _).2

end Sys2Proof.Machine
end

