-- ==== Sys2Proof/Laws/Access.lean ====
section
/-!
SUPPORT. Host accesses: doorbells, flags with their counters, denials of lent accesses, and the windows.
-/
namespace Sys2Proof.Machine

theorem flagWord_setFlag (s : State) (f : Flag) : (s.setFlag f).flagWord f.1 = s.flagWord f.1 ||| BitVec.ofNat 32 (2 ^ f.2) := by
  simp [State.setFlag, State.flagWord]

theorem dbl (k : Nat) (hk : k < 16) (v : BitVec 60) : (doorbellValue k v).toNat = k * 2^60 + v.toNat := by
  have := v.isLt
  simp only [doorbellValue, BitVec.toNat_ofNat]; omega

theorem dbl_bits : ∀ k, k < 16 → ∀ v : BitVec 60, bits 63 60 (doorbellValue k v).toNat = k ∧ bits 59 48 (doorbellValue k v).toNat = bits 59 48 v.toNat ∧ bits 47 16 (doorbellValue k v).toNat = bits 47 16 v.toNat ∧ bits 15 0 (doorbellValue k v).toNat = bits 15 0 v.toNat := by
    intro k hk v; have := v.isLt
    rw [dbl k hk]; simp only [bits]; omega

/-- What a doorbell row does, given its KIND and its effect (R345). -/
theorem rings_of (i : Nat → Nat → BitVec 60 → Instr) (ring : State → W16 → Nat → Nat → Option State) (k : Nat) (hk : k < 16)
   (he : ∀ ld m v s, exec (i ld m v) s = onPage ld m s (State.writeDoorbell ld m (doorbellValue k v)))
   (hr : ∀ (s : State) (m : Nat) (v : W64), bits 63 60 v.toNat = k → s.ringDoorbell m v = match (if bits 59 48 v.toNat ≠ 0 then none else
      ring s (s.mbox m).tenant (bits 47 16 v.toNat) (bits 15 0 v.toNat)) with | some s => s | none => s.rejectDoorbell) : rings i ring := by
  intro ld m v s a1 a2 a3 a4 r
  have ns : s.power.state ≠ .standby := by rcases a4 with a4 | a4 <;> simp [a4]
  have nd : s.power.state ≠ .doze := by rcases a4 with a4 | a4 <;> simp [a4]
  obtain ⟨k1,k2,k3,k4⟩ := dbl_bits k hk v
  have e : exec (i ld m v) s = .next (match (if bits 59 48 v.toNat ≠ 0 then none else
      ring s (s.mbox m).tenant (bits 47 16 v.toNat) (bits 15 0 v.toNat)) with | some s => s | none => s.rejectDoorbell) := by
    rw [he, onPage, if_pos ⟨a1, a2⟩, if_pos a3, State.writeDoorbell, if_neg ns, if_neg nd, hr s m _ k1, k2, k3, k4]
  constructor
  · intro t b1 b2
    rw [e, if_neg (by simpa using b1)]
    have : ring s (s.mbox m).tenant (bits 47 16 v.toNat) (bits 15 0 v.toNat) = some t := b2
    rw [this]
  · intro b
    rw [e]
    by_cases z : bits 59 48 v.toNat ≠ 0
    · rw [if_pos z]; rfl
    · rw [if_neg z]
      have : ring s (s.mbox m).tenant (bits 47 16 v.toNat) (bits 15 0 v.toNat) = none := by
        rcases b with b | b
        · exact absurd b z
        · exact b
      rw [this]; rfl

/-- What a doorbell row does in Standby and in Doze (R345, R502). -/
theorem asleep (k : Nat) (hk : k < 16) (i : Instr) (ld m : Nat) (v : BitVec 60) (s : State) (a1 : ld < 16) (a2 : m < 1024) (a3 : (s.mbox m).ld = some ld)
   (he : exec i s = onPage ld m s (State.writeDoorbell ld m (doorbellValue k v))) :
    let w : W64 := BitVec.ofNat 64 (k * 2 ^ 60 + v.toNat)
    let l := s.cxl.doorbellLatch
    let same := fun (d : Nat × Nat × W64) => d.2.2.toNat / 65536 = w.toNat / 65536
    (s.power.state = .standby → exec i s = .next (s.setFlag Flag.doorbellReject)) ∧
    (s.power.state = .doze → (∀ d ∈ l, ¬ same d) → l.length < 4096 →
      exec i s = .next { s with cxl := { s.cxl with doorbellLatch := l ++ [(ld, m, w)] } }) ∧
    (s.power.state = .doze → (∀ d ∈ l, ¬ same d) → 4096 ≤ l.length → exec i s = .next (s.setFlag Flag.doorbellReject)) ∧
    (s.power.state = .doze → (∃ d ∈ l, same d) →
      let l' := l.map fun d => if same d then (ld, m, w) else d
      exec i s = .next { s with cxl := { s.cxl with doorbellLatch := l' } }) := by
  intro w l same
  have e : exec i s = .next (State.writeDoorbell ld m w s) := by
    rw [he, onPage, if_pos ⟨a1, a2⟩, if_pos a3]; rfl
  have n1 : (∀ d ∈ l, ¬ same d) → l.any (fun d : Nat × Nat × W64 => d.2.2.toNat / 65536 == w.toNat / 65536) = false := by
    intro q; rw [List.any_eq_false]; intro d hd; simpa [same] using q d hd
  refine ⟨?_, ?_, ?_, ?_⟩
  · intro b; rw [e, State.writeDoorbell, if_pos b]; rfl
  · intro b q r; rw [e, State.writeDoorbell, if_neg (by simp [b]), if_pos b]
    simp only [State.latchDoorbell]
    rw [if_neg (by rw [n1 q]; simp), if_pos (show _ < latchSlots from r)]
  · intro b q r; rw [e, State.writeDoorbell, if_neg (by simp [b]), if_pos b]
    simp only [State.latchDoorbell]
    rw [if_neg (by rw [n1 q]; simp), if_neg (by simp only [latchSlots]; exact Nat.not_lt.mpr r)]; rfl
  · intro b ⟨d, q1, q2⟩ l'; rw [e, State.writeDoorbell, if_neg (by simp [b]), if_pos b]
    simp only [State.latchDoorbell]
    rw [if_pos (by rw [List.any_eq_true]; exact ⟨d, q1, by simpa [same] using q2⟩)]
    simp only [l', same, beq_iff_eq, l]

theorem flagWord_setFlag_other (s : State) (f : Flag) (row : Nat) (h : row ≠ f.1) : (s.setFlag f).flagWord row = s.flagWord row := by
  simp [State.setFlag, State.flagWord, tget_tset_other _ _ _ _ h]

theorem flagCount_setFlag (s : State) (row b c : Nat) : (s.setFlag (row, b)).flagCount row c = if c = b then satInc (s.flagCount row b) else s.flagCount row c := by
  split
  · next h => subst h; simp [State.setFlag, State.flagCount]
  · next h => simp [State.setFlag, State.flagCount, tget_tset_other _ _ _ _ (show row * 32 + c ≠ row * 32 + b by omega)]

/-- Setting several flags of one row sets those and counts each once (R5, R6). -/
theorem foldFlags (l : List Nat) (hl : ∀ b ∈ l, b < 32) (hn : l.Nodup) (s : State) (row : Nat) :
    (∀ i, i < 32 → ((l.foldl (fun s b => s.setFlag (row, b)) s).flagWord row).getLsbD i = (l.contains i || (s.flagWord row).getLsbD i)) ∧
    (∀ i, i < 32 → (l.foldl (fun s b => s.setFlag (row, b)) s).flagCount row i = if l.contains i then satInc (s.flagCount row i) else s.flagCount row i) ∧
    (l.foldl (fun s b => s.setFlag (row, b)) s).out = s.out := by
  induction l generalizing s with
  | nil => simp
  | cons b l ih =>
    have hb : b < 32 := hl b (by simp)
    obtain ⟨i1, i2, i3⟩ := ih (fun c hc => hl c (by simp [hc])) (List.nodup_cons.mp hn).2 (s.setFlag (row, b))
    refine ⟨?_, ?_, ?_⟩
    · intro i hi
      rw [List.foldl_cons, i1 i hi, flagWord_setFlag]
      have tp : (BitVec.ofNat 32 (2 ^ b)).getLsbD i = decide (i = b) := by
        rw [BitVec.getLsbD_ofNat, Bool.eq_iff_iff]; simp [hi, Nat.testBit_two_pow, eq_comm]
      simp only [BitVec.getLsbD_or, tp, List.contains_cons]
      cases l.contains i <;> cases (s.flagWord row).getLsbD i <;> simp
      rw [Bool.eq_iff_iff]; simp
    · intro i hi
      rw [List.foldl_cons, i2 i hi, flagCount_setFlag]
      simp only [List.contains_cons]
      by_cases z : i = b
      · subst z
        have : l.contains i = false := by
          rw [Bool.eq_false_iff]; intro q; exact (List.nodup_cons.mp hn).1 (by simpa using q)
        simp only [this, BEq.rfl, Bool.true_or, if_true, Bool.false_eq_true, if_false]
      · have : (i == b) = false := by simpa using z
        simp only [this, Bool.false_or, z, if_false]
    · rw [List.foldl_cons, i3]; rfl

/-- A set of flag bits sets the row's own flags among them and counts each once (R5, R6). -/
theorem setFlags_all (s : State) (row : Nat) (w : W32) : (∀ i, i < 32 → ((s.setFlags row w).flagWord row).getLsbD i = (w.getLsbD i && (flagMask row).getLsbD i || (s.flagWord row).getLsbD i)) ∧
   (∀ i, i < 32 → (s.setFlags row w).flagCount row i = if (w &&& flagMask row).getLsbD i then satInc (s.flagCount row i) else s.flagCount row i) ∧ (s.setFlags row w).out = s.out := by
  obtain ⟨a, b, c⟩ := foldFlags (bitsSet (w &&& flagMask row)) (by intro b hb; simp [bitsSet] at hb; omega) (by
    simp only [bitsSet]; exact List.Pairwise.filter _ List.nodup_range) s row
  have m : ∀ i, i < 32 → (bitsSet (w &&& flagMask row)).contains i = (w &&& flagMask row).getLsbD i := by
    intro i hi; rw [Bool.eq_iff_iff]; simp only [List.contains_iff_mem, bitsSet, List.mem_filter, List.mem_range, hi, true_and]
  refine ⟨?_, ?_, c⟩
  · intro i hi; rw [State.setFlags, a i hi, m i hi, BitVec.getLsbD_and]
  · intro i hi; rw [State.setFlags, b i hi, m i hi]

/-- A read of counters clears those read (R7). -/
theorem flagCount_clear (s : State) (row first width i : Nat) (hi : i < 32) : (s.clearCounts row first width).flagCount row i = if first ≤ i ∧ i < first + width then 0 else s.flagCount row i := by
  simp only [State.flagCount, State.clearCounts]
  have : ∀ (t : Table Byte) (p : Nat → Bool) (j : Nat), tget (t.filter fun e => p e.1) j = if p j then tget t j else none := by
    intro t p j
    induction t with
    | nil => simp [tget]
    | cons e t ih =>
      simp only [List.filter_cons]
      by_cases h : p e.1 = true
      · rw [if_pos h]; simp only [tget]
        by_cases q : e.1 = j
        · subst q; simp [h]
        · simp only [q, if_false]; exact ih
      · rw [if_neg h, ih]; simp only [tget]
        by_cases q : e.1 = j
        · subst q; simp [h]
        · simp [q]
  rw [this s.counts (fun k => !(decide (row * 32 + first ≤ k) && decide (k < row * 32 + min 32 (first + width)))) (row * 32 + i)]
  by_cases z : first ≤ i ∧ i < first + width
  · rw [if_pos z, if_neg (by simp; omega)]; rfl
  · rw [if_neg z, if_pos (by simp; omega)]

theorem deny_aux (t : State) (ld off step : Nat) (b : Bool) (m : Mem) (n : Nat) (h1 : t.mem = m) (h2 : (t.flagWord 11).getLsbD 1 = true) (h3 : (t.ld ld).denied = n) :
   let d := (t.ld ld).firstDenied.getD (off, step)
   let u := if b = true then (t.setLd ld { t.ld ld with lastDenied := some t.time.localNow, deniedSince := 0, firstDenied := none }).raise
      Ev.lentAccessDenied .module [ld, d.1, d.2, (t.ld ld).deniedSince] else t
   u.mem = m ∧ (u.flagWord 11).getLsbD 1 = true ∧ (u.ld ld).denied = n := by
  intro d u
  cases b with
  | false => exact ⟨h1, h2, h3⟩
  | true =>
    have q := told_raise (t.setLd ld { t.ld ld with lastDenied := some t.time.localNow, deniedSince := 0, firstDenied := none }) Ev.lentAccessDenied .module [ld, d.1, d.2, (t.ld ld).deniedSince]
    have hu : u = (t.setLd ld { t.ld ld with lastDenied := some t.time.localNow, deniedSince := 0, firstDenied := none }).raise Ev.lentAccessDenied .module [ld, d.1, d.2, (t.ld ld).deniedSince] := if_pos rfl
    rw [hu]
    refine ⟨q.mem.trans h1, by rw [q.flagWord]; exact h2, ?_⟩
    obtain ⟨h, e⟩ := q.ld ld
    rw [e, ← h3]
    simp [State.setLd, State.ld]

theorem denyLent_all (s : State) (ld off step : Nat) : (s.denyLent ld off step).mem = s.mem ∧ ((s.denyLent ld off step).flagWord 11).getLsbD 1 = true ∧
    ((s.denyLent ld off step).ld ld).denied = (s.ld ld).denied + 1 := by
  have f : ∀ t : State, ((t.setFlag Flag.lentDenied).flagWord 11).getLsbD 1 = true := by
    intro t; have := flagWord_setFlag t Flag.lentDenied
    show ((t.setFlag Flag.lentDenied).flagWord Flag.lentDenied.1).getLsbD 1 = true
    rw [this]; simp [Flag.lentDenied]
  refine deny_aux _ ld off step _ _ _ rfl (f _) ?_
  simp [State.setLd, State.ld, State.setFlag, State.modLd]

theorem windowAddr_flag (s : State) (f : Flag) (ld o : Nat) : (s.setFlag f).windowAddr ld o = s.windowAddr ld o := rfl

theorem bad_none (s : State) (hs : s.cxl.badLines = []) (l o : Nat) : s.windowBad l o = none := by
  simp only [State.windowBad]; split <;> simp [hs]

theorem windowWrite_cxl (bs : List Byte) : ∀ (s : State) (ld off : Nat), (s.windowWrite ld off bs).cxl = s.cxl := by
  induction bs with
  | nil => intro s ld off; rfl
  | cons b bs ih => intro s ld off; rw [State.windowWrite, ih]; split <;> rfl

theorem zip_range_map (l : List Byte) (n : Nat) (h : l.length = n) (g : Nat → Bool) (hg : ∀ i, g i = false) :
   ((l.zip (List.range n)).map fun b => if g b.2 then 0 else b.1) = l := by
  have : (fun b : Byte × Nat => if g b.2 then (0 : Byte) else b.1) = Prod.fst := by funext b; simp [hg]
  rw [this, List.map_fst_zip]; simp [h]

end Sys2Proof.Machine
end

