-- ==== Sys2Proof/Laws/Breus.lean ====
section
/-!
SUPPORT. Breus rows: what issuing one instruction does, by the shape of its effect.
-/
namespace Sys2Proof.Machine

/-- An instruction within budget that runs goes on to where it says. -/
theorem issue_ok {i j : Inv} {op : BOp} {pc : Nat} (hb : i.executed < i.place.budget)
    (ho : op { i with executed := i.executed + 1 } = .ok (j, pc)) (hr : j.running = true) : i.issue op = j.goTo pc := by
  unfold Inv.issue
  rw [if_neg (by omega)]
  show (match op { i with executed := i.executed + 1 } with | .error (code, imm) => _ | .ok (i, pc) => _) = _
  rw [ho]; exact if_pos hr

/-- An instruction that traps leaves the trap. -/
theorem issue_err {i : Inv} {op : BOp} {c m : Nat} (hb : i.executed < i.place.budget)
    (ho : op { i with executed := i.executed + 1 } = .error (c, m)) : i.issue op = ({ i with executed := i.executed + 1 } : Inv).trapped c m := by
  unfold Inv.issue
  rw [if_neg (by omega)]
  show (match op { i with executed := i.executed + 1 } with | .error (code, imm) => _ | .ok (i, pc) => _) = _
  rw [ho]

/-- A Breus row of a running invocation issues its instruction. -/
theorem row_issue {s : State} {i : Inv} {code} (h1 : s.inv = i) (h2 : i.running = true) (h4 : i.place.accepts code = true) {lawful : Inv → Bool} (hl : lawful i = true) {op : BOp} :
   breusRow code lawful op s = .next (s.settleInv (i.issue op)) := by
  have hi : s.invocation = i := by simp [State.invocation, h1, h2]
  unfold breusRow
  show (if (s.invocation.place.accepts code && lawful s.invocation) = true then _ else _) = _
  rw [hi, if_pos (by rw [h4, hl]; rfl)]

theorem settle_none {s : State} {j : Inv} (h : j.trap = none) : s.settleInv j = { s with inv := j } := by
  unfold State.settleInv
  show (match j.trap with | none => _ | some (code, imm, pc) => _) = _
  rw [h]

theorem goTo_plain {j : Inv} {pc : Nat} (hb : j.body = none) (hc : pc < j.codeWords) : j.goTo pc = { j with pc } := by
  unfold Inv.goTo; rw [hb]; exact if_neg (by simp; show pc < j.codeWords; exact hc)

/-- A Breus row in the midst of an invocation writes its registers and goes to the next word. -/
theorem row_mid {s i code} (h : InMidst s i code) {lawful : Inv → Bool} (hl : lawful i = true) {op : BOp} {j : Inv}
   (ho : op { i with executed := i.executed + 1 } = .ok ({ j with executed := i.executed + 1 }, i.pc + 1))
   (hr : j.running = true) (hb : j.body = none) (ht : j.trap = none) (hc : j.codeWords = i.codeWords) (hp : j.pc = i.pc) (he : j.executed = i.executed) :
   breusRow code lawful op s = .next (s.onward j) := by
  have hf := h.follows
  rw [row_issue h.here h.runs h.accepted hl, issue_ok h.budget ho hr]
  rw [goTo_plain (j := { j with executed := i.executed + 1 }) hb (by show i.pc + 1 < j.codeWords; omega)]
  rw [settle_none (j := { j with executed := i.executed + 1, pc := i.pc + 1 }) ht]
  simp only [State.onward, hp, he]

theorem row_midS {s i code} (h : InMidst s i code) {lawful : Inv → Bool} (hl : lawful i = true) {op : BOp} {d : Nat} {w : W32}
   (ho : op { i with executed := i.executed + 1 } = .ok (({ i with executed := i.executed + 1 } : Inv).setS d w, i.pc + 1)) :
   breusRow code lawful op s = .next (s.onward (i.setS d w)) := row_mid h hl ho h.runs h.noBody h.noTrap rfl rfl rfl

theorem row_midV {s i code} (h : InMidst s i code) {lawful : Inv → Bool} (hl : lawful i = true) {op : BOp} {d : Nat} {w : List W32}
   (ho : op { i with executed := i.executed + 1 } = .ok (({ i with executed := i.executed + 1 } : Inv).setV d w, i.pc + 1)) :
   breusRow code lawful op s = .next (s.onward (i.setV d w)) := row_mid h hl ho h.runs h.noBody h.noTrap rfl rfl rfl

theorem row_midP {s i code} (h : InMidst s i code) {lawful : Inv → Bool} (hl : lawful i = true) {op : BOp} {d : Nat} {w : W64}
   (ho : op { i with executed := i.executed + 1 } = .ok (({ i with executed := i.executed + 1 } : Inv).setP d w, i.pc + 1)) :
   breusRow code lawful op s = .next (s.onward (i.setP d w)) := row_mid h hl ho h.runs h.noBody h.noTrap rfl rfl rfl

/-- The lanes that a predicate selects, in order. -/
theorem selected_eq (v : List W32) (p : W64) (hv : v.length = 64) :
    selected v p = ((List.range 64).filter fun k => p.getLsbD k).map fun k => v.getD k 0 := by
  have hz : v.zip (List.range 64) = (List.range 64).map fun k => (v.getD k 0, k) := by
    apply List.ext_getElem
    · simp [hv]
    · intro n h1 h2
      simp [hv] at h1
      simp only [List.getElem_zip, List.getElem_map, List.getElem_range]
      rw [List.getD_eq_getElem?_getD, List.getElem?_eq_getElem (by omega)]; rfl
  unfold selected
  rw [hz, List.filter_map, List.map_map]; rfl

theorem bits_fold (l : List Bool) (k : Nat) : (l.foldr (fun (b : Bool) (n : Nat) => (if b then 1 else 0) + 2 * n) 0).testBit k = l.getD k false := by
  induction l generalizing k with
  | nil => simp
  | cons b l ih =>
    cases k with
    | zero => cases b <;> simp [Nat.testBit_zero, Nat.add_mod]
    | succ k =>
      rw [List.getD_cons_succ, ← ih k, Nat.testBit_succ]
      congr 1
      show ((if b = true then 1 else 0) + 2 * _) / 2 = _
      cases b <;> simp <;> omega

/-- A mask made from lanes reads back. -/
theorem laneMask_bit (f : Nat → Bool) (k : Nat) (h : k < 64) : (laneMask f).getLsbD k = f k := by
  have e : (List.range 64).foldr (fun i n => (if f i then 1 else 0) + 2 * n) 0 = ((List.range 64).map f).foldr (fun (b : Bool) (n : Nat) => (if b then 1 else 0) + 2 * n) 0 := by
    rw [List.foldr_map]
  rw [laneMask, BitVec.getLsbD_ofNat, e, bits_fold]
  rw [List.getD_eq_getElem?_getD, List.getElem?_map, List.getElem?_range h]; simp [h]

/-- A branch goes where it says. -/
theorem row_to {s i code} (h : InMidst s i code) {lawful : Inv → Bool} (hl : lawful i = true) {op : BOp} {pc : Nat}
   (ho : op { i with executed := i.executed + 1 } = .ok ({ i with executed := i.executed + 1 }, pc)) (hc : pc < i.codeWords) :
   breusRow code lawful op s = .next { s with inv := { i with pc, executed := i.executed + 1 } } := by
  rw [row_issue h.here h.runs h.accepted hl, issue_ok h.budget ho h.runs,
    goTo_plain (j := { i with executed := i.executed + 1 }) h.noBody hc, settle_none (j := { i with executed := i.executed + 1, pc := pc }) h.noTrap]

theorem bodyOk_len {i : Inv} {len : BitVec 8} (h : i.bodyOk len = true) : 1 ≤ len.toNat := by
  simp [Inv.bodyOk] at h; exact h.1.1

/-- A body begins at the next word. -/
theorem row_body {s i code} (h : InMidst s i code) {lawful : Inv → Bool} (hl : lawful i = true) {op : BOp} {past left : Nat}
   (ho : op { i with executed := i.executed + 1 } = .ok ({ i with executed := i.executed + 1, body := some (i.pc + 1, past, left) }, i.pc + 1)) (hc : i.pc + 1 ≠ past) :
   breusRow code lawful op s = .next { s with inv := { i with pc := i.pc + 1, executed := i.executed + 1, body := some (i.pc + 1, past, left) } } := by
  rw [row_issue h.here h.runs h.accepted hl, issue_ok h.budget ho h.runs]
  have : ({ i with executed := i.executed + 1, body := some (i.pc + 1, past, left) } : Inv).goTo (i.pc + 1) =
    { i with pc := i.pc + 1, executed := i.executed + 1, body := some (i.pc + 1, past, left) } := if_pos hc
  rw [this, settle_none (j := { i with pc := i.pc + 1, executed := i.executed + 1, body := some (i.pc + 1, past, left) }) h.noTrap]

theorem accepts_nop (p : Place) : p.accepts 0 = true := by cases p <;> decide

theorem accepts_end (p : Place) : p.accepts 1 = true := by cases p <;> decide

/-- A whorl program that ends with a finite s0, and any other program, ends as it says. -/
theorem finish_ok {j : Inv} (h : j.place ≠ .whorl ∨ nonfinite32 (j.sAt 0) = false) : j.finish = { j with running := false, ended := true, body := none } := by
  unfold Inv.finish; refine if_neg ?_; rintro ⟨x, y⟩; rcases h with h | h
  · exact h x
  · rw [h] at y; cases y

/-- With none running, a row begins a fresh invocation. -/
theorem invocation_fresh (s : State) (h : s.inv.running = false) : ∃ code consts, s.invocation = Inv.fresh s.inv.place s.inv.slot code consts s.inv.jobTag := by
  unfold State.invocation
  generalize hp : (if s.inv.place = .tier then s.images.tier else tget (s.images.store s.inv.place) s.inv.slot) = prog
  cases prog with
  | none => exact ⟨[], [], (if_neg (by simp [h])).trans (by rw [hp])⟩
  | some p => exact ⟨p.code, p.consts, (if_neg (by simp [h])).trans (by rw [hp])⟩

end Sys2Proof.Machine
end

