-- ==== Sys2Proof/Laws/Memory.lean ====
section
/-!
SUPPORT. Memory: every operation keeps the canonical form (R216; DESIGN CHOICE, log 7), and what a read gives after a write.
-/
namespace Sys2Proof.Machine

/-! ## The canonical form -/

theorem Mem.wfFrom_mono {m : Mem} {lo hi : Nat} (h : hi ≤ lo) (hm : Mem.wfFrom lo m = true) : Mem.wfFrom hi m = true := by
  cases m with
  | nil => rfl
  | cons c m =>
    obtain ⟨a, b⟩ := c
    simp only [Mem.wfFrom, Bool.and_eq_true, decide_eq_true_eq] at *
    exact ⟨⟨by omega, hm.1.2⟩, hm.2⟩

theorem Mem.wfFrom_write (m : Mem) : ∀ (lo a : Nat) (b : Byte), lo ≤ a → Mem.wfFrom lo m = true → Mem.wfFrom lo (m.write a b) = true := by
  induction m with
  | nil =>
    intro lo a b h _
    simp only [Mem.write]
    split
    · rfl
    · simp only [Mem.wfFrom, Bool.and_eq_true, decide_eq_true_eq, bne_iff_ne]
      exact ⟨⟨h, by assumption⟩, trivial⟩
  | cons c m ih =>
    obtain ⟨k, v⟩ := c
    intro lo a b h hm
    simp only [Mem.wfFrom, Bool.and_eq_true, decide_eq_true_eq] at hm
    obtain ⟨⟨hk, hv⟩, hm⟩ := hm
    simp only [Mem.write]
    split
    · split
      · simp only [Mem.wfFrom, Bool.and_eq_true, decide_eq_true_eq]
        exact ⟨⟨hk, hv⟩, hm⟩
      · simp only [Mem.wfFrom, Bool.and_eq_true, decide_eq_true_eq, bne_iff_ne]
        exact ⟨⟨h, by assumption⟩, ⟨by omega, by simpa using hv⟩, hm⟩
    · split
      · split
        · exact Mem.wfFrom_mono (by omega) hm
        · subst_vars
          simp only [Mem.wfFrom, Bool.and_eq_true, decide_eq_true_eq, bne_iff_ne]
          exact ⟨⟨h, by assumption⟩, hm⟩
      · simp only [Mem.wfFrom, Bool.and_eq_true, decide_eq_true_eq]
        exact ⟨⟨hk, hv⟩, ih (k + 1) a b (by omega) hm⟩

theorem Mem.wf_write {m : Mem} {a : Nat} {b : Byte} (h : m.wf = true) : (m.write a b).wf = true :=
  Mem.wfFrom_write m 0 a b (Nat.zero_le a) h

theorem Mem.wfFrom_filter (p : Host.Cell → Bool) (m : Mem) : ∀ lo, Mem.wfFrom lo m = true → Mem.wfFrom lo (m.filter p) = true := by
  induction m with
  | nil => intro lo _; rfl
  | cons c m ih =>
    obtain ⟨a, b⟩ := c
    intro lo h
    simp only [Mem.wfFrom, Bool.and_eq_true, decide_eq_true_eq] at h
    rw [List.filter_cons]
    split
    · simp only [Mem.wfFrom, Bool.and_eq_true, decide_eq_true_eq]
      exact ⟨h.1, ih _ h.2⟩
    · exact ih _ (Mem.wfFrom_mono (by omega) h.2)

theorem Mem.wf_filter {m : Mem} {p : Host.Cell → Bool} (h : m.wf = true) : Mem.wf (m.filter p) = true := Mem.wfFrom_filter p m 0 h

theorem Mem.wf_clear {m : Mem} {a n : Nat} (h : m.wf = true) : (m.clear a n).wf = true := Mem.wf_filter h

theorem Mem.wf_put {cs : List Host.Cell} : ∀ {m : Mem}, m.wf = true → (m.put cs).wf = true := by
  unfold Mem.put
  induction cs with
  | nil => intro m h; exact h
  | cons c cs ih => intro m h; exact ih (Mem.wf_write h)

theorem Mem.wf_copy {m : Mem} {src dst n : Nat} (h : m.wf = true) : (m.copy src dst n).wf = true := Mem.wf_put (Mem.wf_clear h)

theorem Mem.wf_writeN {bs : List Byte} : ∀ {m : Mem} {a : Nat}, m.wf = true → (m.writeN a bs).wf = true := by
  induction bs with
  | nil => intro m a h; exact h
  | cons b bs ih => intro m a h; exact ih (Mem.wf_write h)

theorem Mem.wf_areaWrite {ar : Area} {bs : List Byte} : ∀ {m : Mem} {off : Nat}, m.wf = true → (m.areaWrite ar off bs).wf = true := by
  induction bs with
  | nil => intro m off h; exact h
  | cons b bs ih =>
    intro m off h
    unfold Mem.areaWrite
    apply ih
    split
    · exact Mem.wf_write h
    · exact h

theorem wf_payloadWrite {addr k : Nat} {bs : List Byte} : ∀ {m : Mem} {p : Nat}, m.wf = true → (payloadWrite m addr k p bs).wf = true := by
  induction bs with
  | nil => intro m p h; exact h
  | cons b bs ih => intro m p h; exact ih (Mem.wf_write h)

theorem Mem.wf_foldl {α : Type} {f : Mem → α → Mem} {xs : List α} (hf : ∀ m x, Mem.wf m = true → Mem.wf (f m x) = true) :
    ∀ {m : Mem}, m.wf = true → (xs.foldl f m).wf = true := by
  induction xs with
  | nil => intro m h; exact h
  | cons x xs ih => intro m h; exact ih (hf _ _ h)

theorem wf_sealLea {m : Mem} {addr layer hg bob lea : Nat} (h : m.wf = true) : (sealLea m addr layer hg bob lea).wf = true :=
  Mem.wf_foldl (fun _ _ h => Mem.wf_writeN h) h

theorem wf_writeToken {m : Mem} {addr elements fmt cap slot : Nat} {slubs : List Nat} {vals : List W16} (h : m.wf = true) :
    (writeToken m addr elements fmt cap slubs slot vals).wf = true := by
  unfold writeToken
  exact Mem.wf_foldl (fun _ _ h => wf_payloadWrite h) (wf_payloadWrite h)

theorem wf_reencode {m : Mem} {src dst elements fmt newFmt cap count : Nat} {slubs : List Nat} (h : m.wf = true) :
    (reencode m src dst elements fmt newFmt cap count slubs).wf = true := by
  unfold reencode
  refine Mem.wf_foldl (fun m x h => ?_) (Mem.wf_foldl (fun _ _ h => wf_payloadWrite h) (Mem.wf_clear h))
  exact Mem.wf_foldl (fun _ _ h => wf_payloadWrite h) (wf_payloadWrite h)

theorem wf_copyBobbin {m : Mem} {k : Skein} {mv : Move} {l : Leaf} (h : m.wf = true) : (copyBobbin m k mv l).wf = true := by
  unfold copyBobbin
  split
  · exact Mem.wf_foldl (fun _ _ h => wf_sealLea h) (wf_reencode h)
  · refine Mem.wf_foldl (fun m x h => ?_) (Mem.wf_copy h)
    split
    · exact h
    · exact wf_sealLea h

/-! ## Reads after writes -/

theorem Mem.read_of_lt {m : Mem} : ∀ {lo a : Nat}, Mem.wfFrom lo m = true → a < lo → m.read a = 0 := by
  induction m with
  | nil => intros; rfl
  | cons c m ih =>
    obtain ⟨k, v⟩ := c
    intro lo a h hlt
    simp only [Mem.wfFrom, Bool.and_eq_true, decide_eq_true_eq] at h
    have : ¬ k = a := by omega
    simp only [Mem.read, this, if_false]
    exact ih h.2 (by omega)

theorem Mem.read_write_from (m : Mem) : ∀ (lo a x : Nat) (b : Byte), Mem.wfFrom lo m = true →
    (m.write a b).read x = if x = a then b else m.read x := by
  induction m with
  | nil =>
    intro lo a x b _
    simp only [Mem.write]
    split <;> split <;> simp_all [Mem.read] <;> omega
  | cons c m ih =>
    obtain ⟨k, v⟩ := c
    intro lo a x b h
    simp only [Mem.wfFrom, Bool.and_eq_true, decide_eq_true_eq] at h
    have hz : ∀ y, y < k + 1 → Mem.read m y = 0 := fun y hy => Mem.read_of_lt h.2 hy
    have hi := ih (k + 1) a x b h.2
    simp only [Mem.write]
    by_cases h1 : a < k
    · have hk : ¬ k = a := by omega
      by_cases hb : b = 0
      · simp only [h1, hb, if_true, Mem.read]
        by_cases hx : x = a
        · subst hx; simp only [hk, if_false, if_true]; exact hz x (by omega)
        · simp only [hx, if_false]
      · simp only [h1, hb, if_true, if_false, Mem.read]
        by_cases hx : a = x
        · simp [hx]
        · have : ¬ x = a := fun e => hx e.symm
          simp only [hx, this, if_false]
    · by_cases h2 : a = k
      · subst h2
        by_cases hb : b = 0
        · simp only [h1, hb, if_true, if_false, Mem.read]
          by_cases hx : x = a
          · subst hx; simp only [if_true]; exact hz x (by omega)
          · have : ¬ a = x := fun e => hx e.symm
            simp only [hx, this, if_false]
        · simp only [h1, hb, if_true, if_false, Mem.read]
          by_cases hx : a = x
          · simp [hx]
          · have : ¬ x = a := fun e => hx e.symm
            simp only [hx, this, if_false]
      · simp only [h1, h2, if_false, Mem.read]
        by_cases hx : k = x
        · have : ¬ x = a := by omega
          simp only [hx, this, if_true, if_false]
        · simp only [hx, if_false]; exact hi

/-- A byte written is the byte read, and every other byte reads as before (R216). -/
theorem Mem.read_write {m : Mem} {a x : Nat} {b : Byte} (h : m.wf = true) : (m.write a b).read x = if x = a then b else m.read x :=
  Mem.read_write_from m 0 a x b h

/-- A run of bytes written leaves every other byte. -/
theorem Mem.writeN_far {bs : List Byte} : ∀ {m : Mem} {a : Nat}, m.wf = true →
   ∀ x, (x < a ∨ a + bs.length ≤ x) → (m.writeN a bs).read x = m.read x := by
  induction bs with
  | nil => intro m a h x hx; rfl
  | cons b bs ih =>
    intro m a h x hx
    simp only [List.length_cons] at hx
    rw [Mem.writeN, ih (Mem.wf_write h) x (by omega), Mem.read_write h, if_neg (by omega)]
/-- A run of bytes written reads back, and leaves every other byte. -/
theorem Mem.writeN_all {bs : List Byte} : ∀ {m : Mem} {a : Nat}, m.wf = true →
   (m.writeN a bs).readN a bs.length = bs ∧ (∀ x, (x < a ∨ a + bs.length ≤ x) → (m.writeN a bs).read x = m.read x) := by
  intro m a h
  refine ⟨?_, Mem.writeN_far h⟩
  induction bs generalizing m a with
  | nil => rfl
  | cons b bs ih =>
    have := ih (m := m.write a b) (a := a + 1) (Mem.wf_write h)
    simp only [Mem.readN, List.length_cons, Mem.writeN] at this ⊢
    rw [List.range_succ_eq_map, List.map_cons, List.map_map]
    congr 1
    · show ((m.write a b).writeN (a + 1) bs).read (a + 0) = b
      rw [show a + 0 = a from rfl, Mem.writeN_far (Mem.wf_write h) a (by omega), Mem.read_write h, if_pos rfl]
    · refine Eq.trans ?_ this
      apply List.map_congr_left; intro i _; simp only [Function.comp]; congr 1; omega
/-- Bytes written through an area leave every address that none of them has. -/
theorem Mem.areaWrite_far {ar : Area} {bs : List Byte} : ∀ {m : Mem} {off : Nat}, m.wf = true → ∀ a, (∀ i, i < bs.length → areaAddr? ar (off + i) ≠ some a) →
    (m.areaWrite ar off bs).read a = m.read a := by
  induction bs with
  | nil => intro m off h a _; rfl
  | cons b bs ih =>
    intro m off h a ha
    have h0 := ha 0 (by simp)
    have hs : ∀ i, i < bs.length → areaAddr? ar (off + 1 + i) ≠ some a := fun i hi => by
      have := ha (i + 1) (by simpa using hi); rwa [show off + (i + 1) = off + 1 + i by omega] at this
    unfold Mem.areaWrite
    split
    · next x hx => rw [ih (Mem.wf_write h) a hs, Mem.read_write h, if_neg (fun e => h0 (by rw [Nat.add_zero, hx, e]))]
    · exact ih h a hs
/-- Bytes written through an area read back, where their addresses exist and differ. -/
theorem Mem.areaRead_write {ar : Area} {bs : List Byte} : ∀ {m : Mem} {off : Nat}, m.wf = true →
    (∀ i, i < bs.length → areaAddr? ar (off + i) ≠ none) →
    (∀ i j, i < bs.length → j < bs.length → areaAddr? ar (off + i) = areaAddr? ar (off + j) → i = j) →
    (m.areaWrite ar off bs).areaRead ar off bs.length = bs := by
  induction bs with
  | nil => intros; rfl
  | cons b bs ih =>
    intro m off h hn hi
    obtain ⟨x, hx⟩ : ∃ x, areaAddr? ar off = some x := by
      have := hn 0 (by simp); rw [Nat.add_zero] at this; exact Option.ne_none_iff_exists'.mp this
    have hn' : ∀ i, i < bs.length → areaAddr? ar (off + 1 + i) ≠ none := fun i k => by
      have := hn (i + 1) (by simpa using k); rwa [show off + (i + 1) = off + 1 + i by omega] at this
    have hi' : ∀ i j, i < bs.length → j < bs.length → areaAddr? ar (off + 1 + i) = areaAddr? ar (off + 1 + j) → i = j := fun i j k l e => by
      have := hi (i + 1) (j + 1) (by simpa using k) (by simpa using l) (by rw [show off + (i + 1) = off + 1 + i by omega, show off + (j + 1) = off + 1 + j by omega, e])
      omega
    unfold Mem.areaWrite; simp only [hx]
    have key := ih (Mem.wf_write (a := x) (b := b) h) hn' hi'
    unfold Mem.areaRead at key ⊢
    rw [List.length_cons, List.range_succ_eq_map, List.map_cons, List.map_map, Nat.add_zero, hx]
    dsimp only
    congr 1
    · rw [Mem.areaWrite_far (Mem.wf_write h), Mem.read_write h, if_pos rfl]
      intro i k e
      have := hi 0 (i + 1) (by simp) (by simpa using k) (by rw [Nat.add_zero, hx, show off + (i + 1) = off + 1 + i by omega, e])
      omega
    · refine Eq.trans ?_ key
      apply List.map_congr_left; intro i _; simp only [Function.comp]; rw [show off + i.succ = off + 1 + i by omega]

end Sys2Proof.Machine
end

