-- ==== Sys2Proof/Laws/Kept.lean ====
section
/-!
SUPPORT. `Kept s t`: t has the queue and the Breus invocation of s, and canonical memory where s has it. One lemma per
operation says that it keeps them; these are the shapes that operations take.
-/
namespace Sys2Proof.Machine

/-- What every operation but a Breus instruction keeps. -/
structure Kept (s t : State) : Prop where
  queue : t.pending = s.pending
  inv : t.inv = s.inv
  mem : s.mem.wf = true → t.mem.wf = true

theorem Kept.refl (s : State) : Kept s s := ⟨rfl, rfl, id⟩
theorem Kept.trans {a b c : State} (h : Kept a b) (k : Kept b c) : Kept a c :=
  ⟨k.1.trans h.1, k.2.trans h.2, fun m => k.3 (h.3 m)⟩
/-- An update of other fields. -/
theorem Kept.of {s₀ s t : State} (h : Kept s₀ s) (p : t.pending = s.pending) (i : t.inv = s.inv)
    (m : s.mem.wf = true → t.mem.wf = true) : Kept s₀ t := ⟨p.trans h.1, i.trans h.2, fun x => m (h.3 x)⟩

/-- An update of other fields, as a record. -/
theorem Kept.lit {s₀ s : State} {f_freeCount : Nat} {f_out : List Out} {f_time : TimeUnit} {f_power : Power} {f_boot : Boot} {f_cfg : Cfg} {f_flags : Table W32} {f_counts : Table Byte} {f_cxl : Cxl} {f_box : Boxes} {f_tenants : Table Tenant} {f_store : Store} {f_images : Images} {f_work : Work} {f_flyer : Flyer} {f_pfx : Prefix} {f_creel : Creel} {f_rel : Rel} {f_sec : Sec} {f_side : Sideband}
    (h : Kept s₀ s) : Kept s₀ (State.mk s.pending f_freeCount f_out s.mem f_time f_power f_boot f_cfg f_flags f_counts f_cxl f_box f_tenants f_store f_images s.inv f_work f_flyer f_pfx f_creel f_rel f_sec f_side) := Kept.of h rfl rfl id
/-- An update of memory and other fields. -/
theorem Kept.litMem {s₀ s : State} {m : Mem} {f_freeCount : Nat} {f_out : List Out} {f_time : TimeUnit} {f_power : Power} {f_boot : Boot} {f_cfg : Cfg} {f_flags : Table W32} {f_counts : Table Byte} {f_cxl : Cxl} {f_box : Boxes} {f_tenants : Table Tenant} {f_store : Store} {f_images : Images} {f_work : Work} {f_flyer : Flyer} {f_pfx : Prefix} {f_creel : Creel} {f_rel : Rel} {f_sec : Sec} {f_side : Sideband}
    (h : Kept s₀ s) (hm : s.mem.wf = true → m.wf = true) : Kept s₀ (State.mk s.pending f_freeCount f_out m f_time f_power f_boot f_cfg f_flags f_counts f_cxl f_box f_tenants f_store f_images s.inv f_work f_flyer f_pfx f_creel f_rel f_sec f_side) := Kept.of h rfl rfl hm

/-- A property of the value of an option, of a result, and of an outcome. -/
def OfSome {α : Type} (q : α → Prop) : Option α → Prop
  | none => True
  | some a => q a
def OfOk {ε α : Type} (q : α → Prop) : Except ε α → Prop
  | .error _ => True
  | .ok a => q a
def OfNext (q : State → Prop) : Host.Outcome State Fault Refusal → Prop
  | .next t => q t
  | .fault _ => True
  | .refused _ => True
/-- A property of the state in what a command's own part gives. -/
def OfOut (q : State → Prop) : CmdOut → Prop
  | .done s _ => q s
  | .ended s _ _ => q s
  | .wait s => q s
  | .pend s => q s

theorem OfSome.elim {α : Type} {q : α → Prop} {o : Option α} {a : α} (h : OfSome q o) (e : o = some a) : q a := by
  subst e; exact h
theorem OfOk.elim {ε α : Type} {q : α → Prop} {o : Except ε α} {a : α} (h : OfOk q o) (e : o = .ok a) : q a := by
  subst e; exact h
theorem OfNext.elim {q : State → Prop} {o : Host.Outcome State Fault Refusal} {t : State} (h : OfNext q o) (e : o = .next t) : q t := by
  subst e; exact h
theorem OfSome.leaf {α : Type} {q : α → Prop} {a : α} (h : q a) : OfSome q (some a) := h
theorem OfOk.leaf {ε α : Type} {q : α → Prop} {a : α} (h : q a) : OfOk q (Except.ok a : Except ε α) := h
theorem OfOk.pure {ε α : Type} {q : α → Prop} {a : α} (h : q a) : OfOk q (Pure.pure a : Except ε α) := h
theorem OfSome.pure {α : Type} {q : α → Prop} {a : α} (h : q a) : OfSome q (Pure.pure a : Option α) := h
theorem OfNext.leaf {q : State → Prop} {t : State} (h : q t) : OfNext q (.next t) := h
theorem OfSome.bind {α β : Type} {q : β → Prop} {m : Option α} {f : α → Option β} (h : ∀ a, m = some a → OfSome q (f a)) :
    OfSome q (m >>= f) := by
  cases m with
  | none => trivial
  | some a => exact h a rfl
theorem OfSome.map {α β : Type} {q : β → Prop} {m : Option α} {f : α → β} (h : ∀ a, m = some a → q (f a)) : OfSome q (m.map f) := by
  cases m with
  | none => trivial
  | some a => exact h a rfl
theorem OfOk.bind {ε α β : Type} {q : β → Prop} {m : Except ε α} {f : α → Except ε β} (h : ∀ a, m = .ok a → OfOk q (f a)) :
    OfOk q (m >>= f) := by
  cases m with
  | error e => trivial
  | ok a => exact h a rfl

theorem kept_foldl {α : Type} {s₀ s : State} {f : State → α → State} {xs : List α} (h : Kept s₀ s)
    (hf : ∀ s x, Kept s₀ s → Kept s₀ (f s x)) : Kept s₀ (xs.foldl f s) := by
  induction xs generalizing s with
  | nil => exact h
  | cons x xs ih => exact ih (hf s x h)
theorem kept_foldl2 {α β : Type} {s₀ : State} {a : β × State} {f : β × State → α → β × State} {xs : List α} (h : Kept s₀ a.2)
    (hf : ∀ a x, Kept s₀ a.2 → Kept s₀ (f a x).2) : Kept s₀ (xs.foldl f a).2 := by
  induction xs generalizing a with
  | nil => exact h
  | cons x xs ih => exact ih (hf a x h)

/-- Two updates in a row that give the part and the whole of a pair. -/
theorem kept_snd {β : Type} {s₀ t : State} {r : β × State} {a : β} (h : Kept s₀ r.2) (e : r = (a, t)) : Kept s₀ t := by
  subst e; exact h
theorem kept_snd3 {β γ : Type} {s₀ t : State} {r : β × γ × State} {a : β} {b : γ} (h : Kept s₀ r.2.2) (e : r = (a, b, t)) : Kept s₀ t := by
  subst e; exact h
theorem kept_fst {β : Type} {s₀ t : State} {r : State × β} {b : β} (h : Kept s₀ r.1) (e : r = (t, b)) : Kept s₀ t := by
  subst e; exact h

end Sys2Proof.Machine
end

