-- ==== Sys2Proof/Laws/Link.lean ====
section
/-!
SUPPORT. Ports: a change of one leaves the others; replay, telemetry, rates and control blocks.
-/
namespace Sys2Proof.Machine

/-- A write of one port leaves the others. -/
theorem portAt_setPort (s : State) (p q : Nat) (x : Port) : (s.setPort p x).portAt q = if q = p then x else s.portAt q := by
  simp only [State.portAt, State.setPort, State.modFlyer]
  split
  · next h => subst h; simp
  · next h => rw [tget_tset_other _ _ _ _ h]

theorem prow {p : Nat} {s : State} (h : p < 4) : portRow p s = .next s := by simp [portRow, portCount, h]

theorem dropWhile_pick {α : Type} (f : α → Bool) : ∀ (l : List α) (a : α) (r : List α), (∀ b ∈ l, f b = true) → f a = false →
    (l ++ a :: r).dropWhile f = a :: r
  | [], a, r, _, h => by simp [List.dropWhile, h]
  | b :: l, a, r, h, h' => by
    rw [List.cons_append, List.dropWhile_cons, if_pos (h b (by simp)), dropWhile_pick f l a r (fun x hx => h x (by simp [hx])) h']

/-- A replay starts at the first frame that is not acknowledged (R273). -/
theorem replay_from {s : State} {p : Nat} {fs : List (Byte × List Byte)} (h1 : (s.portAt p).state = .up ∨ (s.portAt p).state = .lowRate)
    (h2 : (s.portAt p).failover = false) (h3 : (s.portAt p).light = true) (h4 : fs ≠ []) :
    s.replayFrom p fs = if (s.portAt p).replays ≥ 16 then s.startRetrain p else
      (fs.foldl (fun s' f => s'.emit (.frame p (s.portAt p).mapNow f.2)) s).setPort p { s.portAt p with replays := (s.portAt p).replays + 1, oldestAt := (fs.foldl (fun s' f => s'.emit (.frame p (s.portAt p).mapNow f.2)) s).time.localNow } := by
  simp only [State.replayFrom]
  rw [if_neg]
  cases fs with
  | nil => exact absurd rfl h4
  | cons a l => rcases h1 with h | h <;> simp [h, h2, h3]

theorem emit_time {α : Type} (g : α → Out) (l : List α) : ∀ s : State, (l.foldl (fun s a => s.emit (g a)) s).time = s.time := by
  induction l with
  | nil => intro s; rfl
  | cons a l ih => intro s; exact (ih _).trans rfl

theorem setFlag_flyer (s : State) (f : Flag) : (s.setFlag f).flyer = s.flyer := rfl

theorem writeTele_kept (s : State) (p : Nat) (x : Port) (k : Nat) (t : W64) :
    (s.writeTele p x k t).flyer.ports = s.flyer.ports ∧ (s.writeTele p x k t).flyer.tele.period = s.flyer.tele.period ∧
    s.flyer.tele.written ≤ (s.writeTele p x k t).flyer.tele.written := by
  simp only [State.writeTele]
  split
  · exact ⟨rfl, rfl, Nat.le_refl _⟩
  · exact ⟨rfl, rfl, Nat.le_succ _⟩

def TeleKept (s t : State) : Prop := t.flyer.ports = s.flyer.ports ∧ t.flyer.tele.period = s.flyer.tele.period ∧ s.flyer.tele.written ≤ t.flyer.tele.written

theorem TeleKept.trans {a b c : State} (h : TeleKept a b) (k : TeleKept b c) : TeleKept a c :=
  ⟨k.1.trans h.1, k.2.1.trans h.2.1, Nat.le_trans h.2.2 k.2.2⟩

theorem foldl_teleKept {α : Type} (f : State → α → State) (hf : ∀ s a, TeleKept s (f s a)) : ∀ (l : List α) (s : State), TeleKept s (l.foldl f s)
  | [], s => ⟨rfl, rfl, Nat.le_refl _⟩
  | a :: l, s => (hf s a).trans (foldl_teleKept f hf l _)

theorem clear_ports (g : Port → Port) : ∀ (l : List Nat), l.Nodup → ∀ (s : State) (p : Nat),
    (l.foldl (fun s p => s.modPort p g) s).portAt p = if p ∈ l then g (s.portAt p) else s.portAt p
  | [], _, s, p => by simp
  | a :: l, h, s, p => by
    rw [List.foldl_cons, clear_ports g l (List.nodup_cons.1 h).2, State.modPort, portAt_setPort]
    by_cases hp : p = a
    · subst hp; simp [(List.nodup_cons.1 h).1]
    · simp [hp]

theorem clear_tele (g : Port → Port) : ∀ (l : List Nat) (s : State), (l.foldl (fun s p => s.modPort p g) s).flyer.tele = s.flyer.tele
  | [], s => rfl
  | a :: l, s => (clear_tele g l _).trans rfl

theorem port_ok {p : Nat} (h : p < 4) : ¬ (p ≥ portCount) := by unfold portCount; omega

/-- A control block goes out and changes nothing. -/
theorem control_kept (s : State) (p a b : Nat) : ∃ o, s.control p a b = { s with out := o } := by
  unfold State.control; dsimp only; split <;> exact ⟨_, rfl⟩

theorem portAt_modPort (s : State) (p q : Nat) (f : Port → Port) : (s.modPort p f).portAt q = if q = p then f (s.portAt p) else s.portAt q := by
  simp only [State.portAt, State.modPort, State.setPort, State.modFlyer]
  split
  · next h => subst h; simp
  · next h => rw [tget_tset_other _ _ _ _ h]

theorem portLow_kept (s : State) (p : Nat) : ∃ o f, State.portLow s p = { s with out := o, flyer := f } := by
  unfold State.portLow
  split
  · exact ⟨_, _, rfl⟩
  · obtain ⟨o, e⟩ := control_kept s p ctlWake (wakeBlock 3 s.nodeNo); rw [e]; exact ⟨_, _, rfl⟩

theorem portLow_port (s : State) (p q : Nat) : (State.portLow s p).portAt q =
    if q = p ∧ (s.portAt p).state ≠ .down then { s.portAt p with state := .lowRate } else s.portAt q := by
  unfold State.portLow
  by_cases h : (s.portAt p).state = .down
  · rw [if_pos h, if_neg (by simp [h])]
  · rw [if_neg h]
    obtain ⟨o, e⟩ := control_kept s p ctlWake (wakeBlock 3 s.nodeNo)
    have hp : ∀ r, (s.control p ctlWake (wakeBlock 3 s.nodeNo)).portAt r = s.portAt r := by intro r; rw [e]; rfl
    rw [portAt_modPort, hp, hp]
    by_cases hq : q = p <;> simp [hq, h]

theorem portFull_port (s : State) (p q : Nat) : (State.portFull s p).portAt q =
    if q = p ∧ (s.portAt p).state = .lowRate then { s.portAt p with state := .up } else s.portAt q := by
  unfold State.portFull
  by_cases h : (s.portAt p).state = .lowRate
  · rw [if_pos h, portAt_modPort]
    by_cases hq : q = p <;> simp [hq, h]
  · rw [if_neg h, if_neg (by simp [h])]

theorem full_other (l : List Nat) : ∀ (s : State) (q : Nat), q ∉ l → (l.foldl State.portFull s).portAt q = s.portAt q := by
  induction l with
  | nil => intro s q h; rfl
  | cons a l ih =>
    intro s q h
    rw [List.foldl_cons, ih _ _ (by simp at h; exact h.2), portFull_port, if_neg (by simp at h; simp [h.1])]

/-- Every listed port at the low rate comes up. -/
theorem full_in (l : List Nat) : ∀ (s : State) (q : Nat), l.Nodup → q ∈ l → (l.foldl State.portFull s).portAt q =
    if (s.portAt q).state = .lowRate then { s.portAt q with state := .up } else s.portAt q := by
  induction l with
  | nil => intro s q h h'; cases h'
  | cons a l ih =>
    intro s q hn h
    rw [List.foldl_cons]
    rcases List.nodup_cons.1 hn with ⟨n1, n2⟩
    by_cases e : q = a
    · subst e; rw [full_other _ _ _ n1, portFull_port]; simp
    · have hs : (s.portFull a).portAt q = s.portAt q := by rw [portFull_port, if_neg (by simp [e])]
      rw [ih _ _ n2 (by simpa [e] using h), hs]

theorem portFull_kept (s : State) (p : Nat) : ∃ f, s.portFull p = { s with flyer := f } := by
  unfold State.portFull; split <;> exact ⟨_, rfl⟩

theorem fullAll_kept (l : List Nat) (s : State) : ∃ f, l.foldl State.portFull s = { s with flyer := f } := by
  induction l generalizing s with
  | nil => exact ⟨_, rfl⟩
  | cons a l ih => obtain ⟨f, e⟩ := portFull_kept s a; obtain ⟨f', e'⟩ := ih (s.portFull a); exact ⟨f', by rw [List.foldl_cons, e', e]⟩

theorem lowAll_kept (l : List Nat) (s : State) : ∃ o f, l.foldl State.portLow s = { s with out := o, flyer := f } := by
  induction l generalizing s with
  | nil => exact ⟨_, _, rfl⟩
  | cons a l ih => obtain ⟨o, f, e⟩ := portLow_kept s a; obtain ⟨o', f', e'⟩ := ih (State.portLow s a); exact ⟨o', f', by rw [List.foldl_cons, e', e]⟩

theorem low_other (l : List Nat) : ∀ (s : State) (q : Nat), q ∉ l → (l.foldl State.portLow s).portAt q = s.portAt q := by
  induction l with
  | nil => intro s q h; rfl
  | cons a l ih =>
    intro s q h
    rw [List.foldl_cons, ih _ _ (by simp at h; exact h.2), portLow_port, if_neg (by simp at h; simp [h.1])]

/-- Every listed port that is not DOWN goes to the low rate. -/
theorem low_in (l : List Nat) : ∀ (s : State) (q : Nat), l.Nodup → q ∈ l → (l.foldl State.portLow s).portAt q =
    if (s.portAt q).state ≠ .down then { s.portAt q with state := .lowRate } else s.portAt q := by
  induction l with
  | nil => intro s q h h'; cases h'
  | cons a l ih =>
    intro s q hn h
    rw [List.foldl_cons]
    rcases List.nodup_cons.1 hn with ⟨n1, n2⟩
    by_cases e : q = a
    · subst e; rw [low_other _ _ _ n1, portLow_port]; simp
    · have hs : (s.portLow a).portAt q = s.portAt q := by rw [portLow_port, if_neg (by simp [e])]
      rw [ih _ _ n2 (by simpa [e] using h), hs]

end Sys2Proof.Machine
end

