-- ==== Sys2Proof/Laws/State.lean ====
section
/-!
SUPPORT. One lemma for each field and each named update of the state: what the update writes, and that it leaves every other
field alone.
-/
namespace Sys2Proof.Machine

variable (s : State)

/-! ## emit -/

@[simp] theorem State.emit_out (o : Out) : (s.emit o).out = s.out ++ [o] := rfl
@[simp] theorem State.emit_pending (o : Out) : (s.emit o).pending = s.pending := rfl
@[simp] theorem State.emit_freeCount (o : Out) : (s.emit o).freeCount = s.freeCount := rfl
@[simp] theorem State.emit_mem (o : Out) : (s.emit o).mem = s.mem := rfl
@[simp] theorem State.emit_time (o : Out) : (s.emit o).time = s.time := rfl
@[simp] theorem State.emit_power (o : Out) : (s.emit o).power = s.power := rfl
@[simp] theorem State.emit_boot (o : Out) : (s.emit o).boot = s.boot := rfl
@[simp] theorem State.emit_cfg (o : Out) : (s.emit o).cfg = s.cfg := rfl
@[simp] theorem State.emit_flags (o : Out) : (s.emit o).flags = s.flags := rfl
@[simp] theorem State.emit_counts (o : Out) : (s.emit o).counts = s.counts := rfl
@[simp] theorem State.emit_cxl (o : Out) : (s.emit o).cxl = s.cxl := rfl
@[simp] theorem State.emit_box (o : Out) : (s.emit o).box = s.box := rfl
@[simp] theorem State.emit_tenants (o : Out) : (s.emit o).tenants = s.tenants := rfl
@[simp] theorem State.emit_store (o : Out) : (s.emit o).store = s.store := rfl
@[simp] theorem State.emit_images (o : Out) : (s.emit o).images = s.images := rfl
@[simp] theorem State.emit_inv (o : Out) : (s.emit o).inv = s.inv := rfl
@[simp] theorem State.emit_work (o : Out) : (s.emit o).work = s.work := rfl
@[simp] theorem State.emit_flyer (o : Out) : (s.emit o).flyer = s.flyer := rfl
@[simp] theorem State.emit_pfx (o : Out) : (s.emit o).pfx = s.pfx := rfl
@[simp] theorem State.emit_creel (o : Out) : (s.emit o).creel = s.creel := rfl
@[simp] theorem State.emit_rel (o : Out) : (s.emit o).rel = s.rel := rfl
@[simp] theorem State.emit_sec (o : Out) : (s.emit o).sec = s.sec := rfl
@[simp] theorem State.emit_side (o : Out) : (s.emit o).side = s.side := rfl

/-! ## modLd -/

@[simp] theorem State.modLd_pending (d : Nat) (f : Ld → Ld) : (s.modLd d f).pending = s.pending := rfl
@[simp] theorem State.modLd_freeCount (d : Nat) (f : Ld → Ld) : (s.modLd d f).freeCount = s.freeCount := rfl
@[simp] theorem State.modLd_out (d : Nat) (f : Ld → Ld) : (s.modLd d f).out = s.out := rfl
@[simp] theorem State.modLd_mem (d : Nat) (f : Ld → Ld) : (s.modLd d f).mem = s.mem := rfl
@[simp] theorem State.modLd_time (d : Nat) (f : Ld → Ld) : (s.modLd d f).time = s.time := rfl
@[simp] theorem State.modLd_power (d : Nat) (f : Ld → Ld) : (s.modLd d f).power = s.power := rfl
@[simp] theorem State.modLd_boot (d : Nat) (f : Ld → Ld) : (s.modLd d f).boot = s.boot := rfl
@[simp] theorem State.modLd_cfg (d : Nat) (f : Ld → Ld) : (s.modLd d f).cfg = s.cfg := rfl
@[simp] theorem State.modLd_flags (d : Nat) (f : Ld → Ld) : (s.modLd d f).flags = s.flags := rfl
@[simp] theorem State.modLd_counts (d : Nat) (f : Ld → Ld) : (s.modLd d f).counts = s.counts := rfl
@[simp] theorem State.modLd_box (d : Nat) (f : Ld → Ld) : (s.modLd d f).box = s.box := rfl
@[simp] theorem State.modLd_tenants (d : Nat) (f : Ld → Ld) : (s.modLd d f).tenants = s.tenants := rfl
@[simp] theorem State.modLd_store (d : Nat) (f : Ld → Ld) : (s.modLd d f).store = s.store := rfl
@[simp] theorem State.modLd_images (d : Nat) (f : Ld → Ld) : (s.modLd d f).images = s.images := rfl
@[simp] theorem State.modLd_inv (d : Nat) (f : Ld → Ld) : (s.modLd d f).inv = s.inv := rfl
@[simp] theorem State.modLd_work (d : Nat) (f : Ld → Ld) : (s.modLd d f).work = s.work := rfl
@[simp] theorem State.modLd_flyer (d : Nat) (f : Ld → Ld) : (s.modLd d f).flyer = s.flyer := rfl
@[simp] theorem State.modLd_pfx (d : Nat) (f : Ld → Ld) : (s.modLd d f).pfx = s.pfx := rfl
@[simp] theorem State.modLd_creel (d : Nat) (f : Ld → Ld) : (s.modLd d f).creel = s.creel := rfl
@[simp] theorem State.modLd_rel (d : Nat) (f : Ld → Ld) : (s.modLd d f).rel = s.rel := rfl
@[simp] theorem State.modLd_sec (d : Nat) (f : Ld → Ld) : (s.modLd d f).sec = s.sec := rfl
@[simp] theorem State.modLd_side (d : Nat) (f : Ld → Ld) : (s.modLd d f).side = s.side := rfl

/-! ## setMbox -/

@[simp] theorem State.setMbox_box (m : Nat) (b : Mbox) : (s.setMbox m b).box = { s.box with boxes := tset s.box.boxes m b } := rfl
@[simp] theorem State.setMbox_pending (m : Nat) (b : Mbox) : (s.setMbox m b).pending = s.pending := rfl
@[simp] theorem State.setMbox_freeCount (m : Nat) (b : Mbox) : (s.setMbox m b).freeCount = s.freeCount := rfl
@[simp] theorem State.setMbox_out (m : Nat) (b : Mbox) : (s.setMbox m b).out = s.out := rfl
@[simp] theorem State.setMbox_mem (m : Nat) (b : Mbox) : (s.setMbox m b).mem = s.mem := rfl
@[simp] theorem State.setMbox_time (m : Nat) (b : Mbox) : (s.setMbox m b).time = s.time := rfl
@[simp] theorem State.setMbox_power (m : Nat) (b : Mbox) : (s.setMbox m b).power = s.power := rfl
@[simp] theorem State.setMbox_boot (m : Nat) (b : Mbox) : (s.setMbox m b).boot = s.boot := rfl
@[simp] theorem State.setMbox_cfg (m : Nat) (b : Mbox) : (s.setMbox m b).cfg = s.cfg := rfl
@[simp] theorem State.setMbox_flags (m : Nat) (b : Mbox) : (s.setMbox m b).flags = s.flags := rfl
@[simp] theorem State.setMbox_counts (m : Nat) (b : Mbox) : (s.setMbox m b).counts = s.counts := rfl
@[simp] theorem State.setMbox_cxl (m : Nat) (b : Mbox) : (s.setMbox m b).cxl = s.cxl := rfl
@[simp] theorem State.setMbox_tenants (m : Nat) (b : Mbox) : (s.setMbox m b).tenants = s.tenants := rfl
@[simp] theorem State.setMbox_store (m : Nat) (b : Mbox) : (s.setMbox m b).store = s.store := rfl
@[simp] theorem State.setMbox_images (m : Nat) (b : Mbox) : (s.setMbox m b).images = s.images := rfl
@[simp] theorem State.setMbox_inv (m : Nat) (b : Mbox) : (s.setMbox m b).inv = s.inv := rfl
@[simp] theorem State.setMbox_work (m : Nat) (b : Mbox) : (s.setMbox m b).work = s.work := rfl
@[simp] theorem State.setMbox_flyer (m : Nat) (b : Mbox) : (s.setMbox m b).flyer = s.flyer := rfl
@[simp] theorem State.setMbox_pfx (m : Nat) (b : Mbox) : (s.setMbox m b).pfx = s.pfx := rfl
@[simp] theorem State.setMbox_creel (m : Nat) (b : Mbox) : (s.setMbox m b).creel = s.creel := rfl
@[simp] theorem State.setMbox_rel (m : Nat) (b : Mbox) : (s.setMbox m b).rel = s.rel := rfl
@[simp] theorem State.setMbox_sec (m : Nat) (b : Mbox) : (s.setMbox m b).sec = s.sec := rfl
@[simp] theorem State.setMbox_side (m : Nat) (b : Mbox) : (s.setMbox m b).side = s.side := rfl

/-! ## modMbox -/

@[simp] theorem State.modMbox_box (m : Nat) (f : Mbox → Mbox) : (s.modMbox m f).box = { s.box with boxes := tset s.box.boxes m (f (s.mbox m)) } := rfl
@[simp] theorem State.modMbox_pending (m : Nat) (f : Mbox → Mbox) : (s.modMbox m f).pending = s.pending := rfl
@[simp] theorem State.modMbox_freeCount (m : Nat) (f : Mbox → Mbox) : (s.modMbox m f).freeCount = s.freeCount := rfl
@[simp] theorem State.modMbox_out (m : Nat) (f : Mbox → Mbox) : (s.modMbox m f).out = s.out := rfl
@[simp] theorem State.modMbox_mem (m : Nat) (f : Mbox → Mbox) : (s.modMbox m f).mem = s.mem := rfl
@[simp] theorem State.modMbox_time (m : Nat) (f : Mbox → Mbox) : (s.modMbox m f).time = s.time := rfl
@[simp] theorem State.modMbox_power (m : Nat) (f : Mbox → Mbox) : (s.modMbox m f).power = s.power := rfl
@[simp] theorem State.modMbox_boot (m : Nat) (f : Mbox → Mbox) : (s.modMbox m f).boot = s.boot := rfl
@[simp] theorem State.modMbox_cfg (m : Nat) (f : Mbox → Mbox) : (s.modMbox m f).cfg = s.cfg := rfl
@[simp] theorem State.modMbox_flags (m : Nat) (f : Mbox → Mbox) : (s.modMbox m f).flags = s.flags := rfl
@[simp] theorem State.modMbox_counts (m : Nat) (f : Mbox → Mbox) : (s.modMbox m f).counts = s.counts := rfl
@[simp] theorem State.modMbox_cxl (m : Nat) (f : Mbox → Mbox) : (s.modMbox m f).cxl = s.cxl := rfl
@[simp] theorem State.modMbox_tenants (m : Nat) (f : Mbox → Mbox) : (s.modMbox m f).tenants = s.tenants := rfl
@[simp] theorem State.modMbox_store (m : Nat) (f : Mbox → Mbox) : (s.modMbox m f).store = s.store := rfl
@[simp] theorem State.modMbox_images (m : Nat) (f : Mbox → Mbox) : (s.modMbox m f).images = s.images := rfl
@[simp] theorem State.modMbox_inv (m : Nat) (f : Mbox → Mbox) : (s.modMbox m f).inv = s.inv := rfl
@[simp] theorem State.modMbox_work (m : Nat) (f : Mbox → Mbox) : (s.modMbox m f).work = s.work := rfl
@[simp] theorem State.modMbox_flyer (m : Nat) (f : Mbox → Mbox) : (s.modMbox m f).flyer = s.flyer := rfl
@[simp] theorem State.modMbox_pfx (m : Nat) (f : Mbox → Mbox) : (s.modMbox m f).pfx = s.pfx := rfl
@[simp] theorem State.modMbox_creel (m : Nat) (f : Mbox → Mbox) : (s.modMbox m f).creel = s.creel := rfl
@[simp] theorem State.modMbox_rel (m : Nat) (f : Mbox → Mbox) : (s.modMbox m f).rel = s.rel := rfl
@[simp] theorem State.modMbox_sec (m : Nat) (f : Mbox → Mbox) : (s.modMbox m f).sec = s.sec := rfl
@[simp] theorem State.modMbox_side (m : Nat) (f : Mbox → Mbox) : (s.modMbox m f).side = s.side := rfl

/-! ## modTenant -/

@[simp] theorem State.modTenant_tenants (tag : W16) (f : Tenant → Tenant) : (s.modTenant tag f).tenants = tmod s.tenants (tidOf tag) f := rfl
@[simp] theorem State.modTenant_pending (tag : W16) (f : Tenant → Tenant) : (s.modTenant tag f).pending = s.pending := rfl
@[simp] theorem State.modTenant_freeCount (tag : W16) (f : Tenant → Tenant) : (s.modTenant tag f).freeCount = s.freeCount := rfl
@[simp] theorem State.modTenant_out (tag : W16) (f : Tenant → Tenant) : (s.modTenant tag f).out = s.out := rfl
@[simp] theorem State.modTenant_mem (tag : W16) (f : Tenant → Tenant) : (s.modTenant tag f).mem = s.mem := rfl
@[simp] theorem State.modTenant_time (tag : W16) (f : Tenant → Tenant) : (s.modTenant tag f).time = s.time := rfl
@[simp] theorem State.modTenant_power (tag : W16) (f : Tenant → Tenant) : (s.modTenant tag f).power = s.power := rfl
@[simp] theorem State.modTenant_boot (tag : W16) (f : Tenant → Tenant) : (s.modTenant tag f).boot = s.boot := rfl
@[simp] theorem State.modTenant_cfg (tag : W16) (f : Tenant → Tenant) : (s.modTenant tag f).cfg = s.cfg := rfl
@[simp] theorem State.modTenant_flags (tag : W16) (f : Tenant → Tenant) : (s.modTenant tag f).flags = s.flags := rfl
@[simp] theorem State.modTenant_counts (tag : W16) (f : Tenant → Tenant) : (s.modTenant tag f).counts = s.counts := rfl
@[simp] theorem State.modTenant_cxl (tag : W16) (f : Tenant → Tenant) : (s.modTenant tag f).cxl = s.cxl := rfl
@[simp] theorem State.modTenant_box (tag : W16) (f : Tenant → Tenant) : (s.modTenant tag f).box = s.box := rfl
@[simp] theorem State.modTenant_store (tag : W16) (f : Tenant → Tenant) : (s.modTenant tag f).store = s.store := rfl
@[simp] theorem State.modTenant_images (tag : W16) (f : Tenant → Tenant) : (s.modTenant tag f).images = s.images := rfl
@[simp] theorem State.modTenant_inv (tag : W16) (f : Tenant → Tenant) : (s.modTenant tag f).inv = s.inv := rfl
@[simp] theorem State.modTenant_work (tag : W16) (f : Tenant → Tenant) : (s.modTenant tag f).work = s.work := rfl
@[simp] theorem State.modTenant_flyer (tag : W16) (f : Tenant → Tenant) : (s.modTenant tag f).flyer = s.flyer := rfl
@[simp] theorem State.modTenant_pfx (tag : W16) (f : Tenant → Tenant) : (s.modTenant tag f).pfx = s.pfx := rfl
@[simp] theorem State.modTenant_creel (tag : W16) (f : Tenant → Tenant) : (s.modTenant tag f).creel = s.creel := rfl
@[simp] theorem State.modTenant_rel (tag : W16) (f : Tenant → Tenant) : (s.modTenant tag f).rel = s.rel := rfl
@[simp] theorem State.modTenant_sec (tag : W16) (f : Tenant → Tenant) : (s.modTenant tag f).sec = s.sec := rfl
@[simp] theorem State.modTenant_side (tag : W16) (f : Tenant → Tenant) : (s.modTenant tag f).side = s.side := rfl

/-! ## setFlag -/

@[simp] theorem State.setFlag_pending (f : Flag) : (s.setFlag f).pending = s.pending := rfl
@[simp] theorem State.setFlag_freeCount (f : Flag) : (s.setFlag f).freeCount = s.freeCount := rfl
@[simp] theorem State.setFlag_out (f : Flag) : (s.setFlag f).out = s.out := rfl
@[simp] theorem State.setFlag_mem (f : Flag) : (s.setFlag f).mem = s.mem := rfl
@[simp] theorem State.setFlag_time (f : Flag) : (s.setFlag f).time = s.time := rfl
@[simp] theorem State.setFlag_power (f : Flag) : (s.setFlag f).power = s.power := rfl
@[simp] theorem State.setFlag_boot (f : Flag) : (s.setFlag f).boot = s.boot := rfl
@[simp] theorem State.setFlag_cfg (f : Flag) : (s.setFlag f).cfg = s.cfg := rfl
@[simp] theorem State.setFlag_cxl (f : Flag) : (s.setFlag f).cxl = s.cxl := rfl
@[simp] theorem State.setFlag_box (f : Flag) : (s.setFlag f).box = s.box := rfl
@[simp] theorem State.setFlag_tenants (f : Flag) : (s.setFlag f).tenants = s.tenants := rfl
@[simp] theorem State.setFlag_store (f : Flag) : (s.setFlag f).store = s.store := rfl
@[simp] theorem State.setFlag_images (f : Flag) : (s.setFlag f).images = s.images := rfl
@[simp] theorem State.setFlag_inv (f : Flag) : (s.setFlag f).inv = s.inv := rfl
@[simp] theorem State.setFlag_work (f : Flag) : (s.setFlag f).work = s.work := rfl
@[simp] theorem State.setFlag_flyer (f : Flag) : (s.setFlag f).flyer = s.flyer := rfl
@[simp] theorem State.setFlag_pfx (f : Flag) : (s.setFlag f).pfx = s.pfx := rfl
@[simp] theorem State.setFlag_creel (f : Flag) : (s.setFlag f).creel = s.creel := rfl
@[simp] theorem State.setFlag_rel (f : Flag) : (s.setFlag f).rel = s.rel := rfl
@[simp] theorem State.setFlag_sec (f : Flag) : (s.setFlag f).sec = s.sec := rfl
@[simp] theorem State.setFlag_side (f : Flag) : (s.setFlag f).side = s.side := rfl

/-! ## modCxl -/

@[simp] theorem State.modCxl_cxl (f : Cxl → Cxl) : (s.modCxl f).cxl = f s.cxl := rfl
@[simp] theorem State.modCxl_pending (f : Cxl → Cxl) : (s.modCxl f).pending = s.pending := rfl
@[simp] theorem State.modCxl_freeCount (f : Cxl → Cxl) : (s.modCxl f).freeCount = s.freeCount := rfl
@[simp] theorem State.modCxl_out (f : Cxl → Cxl) : (s.modCxl f).out = s.out := rfl
@[simp] theorem State.modCxl_mem (f : Cxl → Cxl) : (s.modCxl f).mem = s.mem := rfl
@[simp] theorem State.modCxl_time (f : Cxl → Cxl) : (s.modCxl f).time = s.time := rfl
@[simp] theorem State.modCxl_power (f : Cxl → Cxl) : (s.modCxl f).power = s.power := rfl
@[simp] theorem State.modCxl_boot (f : Cxl → Cxl) : (s.modCxl f).boot = s.boot := rfl
@[simp] theorem State.modCxl_cfg (f : Cxl → Cxl) : (s.modCxl f).cfg = s.cfg := rfl
@[simp] theorem State.modCxl_flags (f : Cxl → Cxl) : (s.modCxl f).flags = s.flags := rfl
@[simp] theorem State.modCxl_counts (f : Cxl → Cxl) : (s.modCxl f).counts = s.counts := rfl
@[simp] theorem State.modCxl_box (f : Cxl → Cxl) : (s.modCxl f).box = s.box := rfl
@[simp] theorem State.modCxl_tenants (f : Cxl → Cxl) : (s.modCxl f).tenants = s.tenants := rfl
@[simp] theorem State.modCxl_store (f : Cxl → Cxl) : (s.modCxl f).store = s.store := rfl
@[simp] theorem State.modCxl_images (f : Cxl → Cxl) : (s.modCxl f).images = s.images := rfl
@[simp] theorem State.modCxl_inv (f : Cxl → Cxl) : (s.modCxl f).inv = s.inv := rfl
@[simp] theorem State.modCxl_work (f : Cxl → Cxl) : (s.modCxl f).work = s.work := rfl
@[simp] theorem State.modCxl_flyer (f : Cxl → Cxl) : (s.modCxl f).flyer = s.flyer := rfl
@[simp] theorem State.modCxl_pfx (f : Cxl → Cxl) : (s.modCxl f).pfx = s.pfx := rfl
@[simp] theorem State.modCxl_creel (f : Cxl → Cxl) : (s.modCxl f).creel = s.creel := rfl
@[simp] theorem State.modCxl_rel (f : Cxl → Cxl) : (s.modCxl f).rel = s.rel := rfl
@[simp] theorem State.modCxl_sec (f : Cxl → Cxl) : (s.modCxl f).sec = s.sec := rfl
@[simp] theorem State.modCxl_side (f : Cxl → Cxl) : (s.modCxl f).side = s.side := rfl

/-! ## modStore -/

@[simp] theorem State.modStore_store (f : Store → Store) : (s.modStore f).store = f s.store := rfl
@[simp] theorem State.modStore_pending (f : Store → Store) : (s.modStore f).pending = s.pending := rfl
@[simp] theorem State.modStore_freeCount (f : Store → Store) : (s.modStore f).freeCount = s.freeCount := rfl
@[simp] theorem State.modStore_out (f : Store → Store) : (s.modStore f).out = s.out := rfl
@[simp] theorem State.modStore_mem (f : Store → Store) : (s.modStore f).mem = s.mem := rfl
@[simp] theorem State.modStore_time (f : Store → Store) : (s.modStore f).time = s.time := rfl
@[simp] theorem State.modStore_power (f : Store → Store) : (s.modStore f).power = s.power := rfl
@[simp] theorem State.modStore_boot (f : Store → Store) : (s.modStore f).boot = s.boot := rfl
@[simp] theorem State.modStore_cfg (f : Store → Store) : (s.modStore f).cfg = s.cfg := rfl
@[simp] theorem State.modStore_flags (f : Store → Store) : (s.modStore f).flags = s.flags := rfl
@[simp] theorem State.modStore_counts (f : Store → Store) : (s.modStore f).counts = s.counts := rfl
@[simp] theorem State.modStore_cxl (f : Store → Store) : (s.modStore f).cxl = s.cxl := rfl
@[simp] theorem State.modStore_box (f : Store → Store) : (s.modStore f).box = s.box := rfl
@[simp] theorem State.modStore_tenants (f : Store → Store) : (s.modStore f).tenants = s.tenants := rfl
@[simp] theorem State.modStore_images (f : Store → Store) : (s.modStore f).images = s.images := rfl
@[simp] theorem State.modStore_inv (f : Store → Store) : (s.modStore f).inv = s.inv := rfl
@[simp] theorem State.modStore_work (f : Store → Store) : (s.modStore f).work = s.work := rfl
@[simp] theorem State.modStore_flyer (f : Store → Store) : (s.modStore f).flyer = s.flyer := rfl
@[simp] theorem State.modStore_pfx (f : Store → Store) : (s.modStore f).pfx = s.pfx := rfl
@[simp] theorem State.modStore_creel (f : Store → Store) : (s.modStore f).creel = s.creel := rfl
@[simp] theorem State.modStore_rel (f : Store → Store) : (s.modStore f).rel = s.rel := rfl
@[simp] theorem State.modStore_sec (f : Store → Store) : (s.modStore f).sec = s.sec := rfl
@[simp] theorem State.modStore_side (f : Store → Store) : (s.modStore f).side = s.side := rfl

/-! ## setSkein -/

@[simp] theorem State.setSkein_store (i : Nat) (k : Skein) : (s.setSkein i k).store = { s.store with skeins := tset s.store.skeins i k } := rfl
@[simp] theorem State.setSkein_pending (i : Nat) (k : Skein) : (s.setSkein i k).pending = s.pending := rfl
@[simp] theorem State.setSkein_freeCount (i : Nat) (k : Skein) : (s.setSkein i k).freeCount = s.freeCount := rfl
@[simp] theorem State.setSkein_out (i : Nat) (k : Skein) : (s.setSkein i k).out = s.out := rfl
@[simp] theorem State.setSkein_mem (i : Nat) (k : Skein) : (s.setSkein i k).mem = s.mem := rfl
@[simp] theorem State.setSkein_time (i : Nat) (k : Skein) : (s.setSkein i k).time = s.time := rfl
@[simp] theorem State.setSkein_power (i : Nat) (k : Skein) : (s.setSkein i k).power = s.power := rfl
@[simp] theorem State.setSkein_boot (i : Nat) (k : Skein) : (s.setSkein i k).boot = s.boot := rfl
@[simp] theorem State.setSkein_cfg (i : Nat) (k : Skein) : (s.setSkein i k).cfg = s.cfg := rfl
@[simp] theorem State.setSkein_flags (i : Nat) (k : Skein) : (s.setSkein i k).flags = s.flags := rfl
@[simp] theorem State.setSkein_counts (i : Nat) (k : Skein) : (s.setSkein i k).counts = s.counts := rfl
@[simp] theorem State.setSkein_cxl (i : Nat) (k : Skein) : (s.setSkein i k).cxl = s.cxl := rfl
@[simp] theorem State.setSkein_box (i : Nat) (k : Skein) : (s.setSkein i k).box = s.box := rfl
@[simp] theorem State.setSkein_tenants (i : Nat) (k : Skein) : (s.setSkein i k).tenants = s.tenants := rfl
@[simp] theorem State.setSkein_images (i : Nat) (k : Skein) : (s.setSkein i k).images = s.images := rfl
@[simp] theorem State.setSkein_inv (i : Nat) (k : Skein) : (s.setSkein i k).inv = s.inv := rfl
@[simp] theorem State.setSkein_work (i : Nat) (k : Skein) : (s.setSkein i k).work = s.work := rfl
@[simp] theorem State.setSkein_flyer (i : Nat) (k : Skein) : (s.setSkein i k).flyer = s.flyer := rfl
@[simp] theorem State.setSkein_pfx (i : Nat) (k : Skein) : (s.setSkein i k).pfx = s.pfx := rfl
@[simp] theorem State.setSkein_creel (i : Nat) (k : Skein) : (s.setSkein i k).creel = s.creel := rfl
@[simp] theorem State.setSkein_rel (i : Nat) (k : Skein) : (s.setSkein i k).rel = s.rel := rfl
@[simp] theorem State.setSkein_sec (i : Nat) (k : Skein) : (s.setSkein i k).sec = s.sec := rfl
@[simp] theorem State.setSkein_side (i : Nat) (k : Skein) : (s.setSkein i k).side = s.side := rfl

/-! ## modSkein -/

@[simp] theorem State.modSkein_store (i : Nat) (f : Skein → Skein) : (s.modSkein i f).store = { s.store with skeins := tmod s.store.skeins i f } := rfl
@[simp] theorem State.modSkein_pending (i : Nat) (f : Skein → Skein) : (s.modSkein i f).pending = s.pending := rfl
@[simp] theorem State.modSkein_freeCount (i : Nat) (f : Skein → Skein) : (s.modSkein i f).freeCount = s.freeCount := rfl
@[simp] theorem State.modSkein_out (i : Nat) (f : Skein → Skein) : (s.modSkein i f).out = s.out := rfl
@[simp] theorem State.modSkein_mem (i : Nat) (f : Skein → Skein) : (s.modSkein i f).mem = s.mem := rfl
@[simp] theorem State.modSkein_time (i : Nat) (f : Skein → Skein) : (s.modSkein i f).time = s.time := rfl
@[simp] theorem State.modSkein_power (i : Nat) (f : Skein → Skein) : (s.modSkein i f).power = s.power := rfl
@[simp] theorem State.modSkein_boot (i : Nat) (f : Skein → Skein) : (s.modSkein i f).boot = s.boot := rfl
@[simp] theorem State.modSkein_cfg (i : Nat) (f : Skein → Skein) : (s.modSkein i f).cfg = s.cfg := rfl
@[simp] theorem State.modSkein_flags (i : Nat) (f : Skein → Skein) : (s.modSkein i f).flags = s.flags := rfl
@[simp] theorem State.modSkein_counts (i : Nat) (f : Skein → Skein) : (s.modSkein i f).counts = s.counts := rfl
@[simp] theorem State.modSkein_cxl (i : Nat) (f : Skein → Skein) : (s.modSkein i f).cxl = s.cxl := rfl
@[simp] theorem State.modSkein_box (i : Nat) (f : Skein → Skein) : (s.modSkein i f).box = s.box := rfl
@[simp] theorem State.modSkein_tenants (i : Nat) (f : Skein → Skein) : (s.modSkein i f).tenants = s.tenants := rfl
@[simp] theorem State.modSkein_images (i : Nat) (f : Skein → Skein) : (s.modSkein i f).images = s.images := rfl
@[simp] theorem State.modSkein_inv (i : Nat) (f : Skein → Skein) : (s.modSkein i f).inv = s.inv := rfl
@[simp] theorem State.modSkein_work (i : Nat) (f : Skein → Skein) : (s.modSkein i f).work = s.work := rfl
@[simp] theorem State.modSkein_flyer (i : Nat) (f : Skein → Skein) : (s.modSkein i f).flyer = s.flyer := rfl
@[simp] theorem State.modSkein_pfx (i : Nat) (f : Skein → Skein) : (s.modSkein i f).pfx = s.pfx := rfl
@[simp] theorem State.modSkein_creel (i : Nat) (f : Skein → Skein) : (s.modSkein i f).creel = s.creel := rfl
@[simp] theorem State.modSkein_rel (i : Nat) (f : Skein → Skein) : (s.modSkein i f).rel = s.rel := rfl
@[simp] theorem State.modSkein_sec (i : Nat) (f : Skein → Skein) : (s.modSkein i f).sec = s.sec := rfl
@[simp] theorem State.modSkein_side (i : Nat) (f : Skein → Skein) : (s.modSkein i f).side = s.side := rfl

/-! ## modWork -/

@[simp] theorem State.modWork_work (f : Work → Work) : (s.modWork f).work = f s.work := rfl
@[simp] theorem State.modWork_pending (f : Work → Work) : (s.modWork f).pending = s.pending := rfl
@[simp] theorem State.modWork_freeCount (f : Work → Work) : (s.modWork f).freeCount = s.freeCount := rfl
@[simp] theorem State.modWork_out (f : Work → Work) : (s.modWork f).out = s.out := rfl
@[simp] theorem State.modWork_mem (f : Work → Work) : (s.modWork f).mem = s.mem := rfl
@[simp] theorem State.modWork_time (f : Work → Work) : (s.modWork f).time = s.time := rfl
@[simp] theorem State.modWork_power (f : Work → Work) : (s.modWork f).power = s.power := rfl
@[simp] theorem State.modWork_boot (f : Work → Work) : (s.modWork f).boot = s.boot := rfl
@[simp] theorem State.modWork_cfg (f : Work → Work) : (s.modWork f).cfg = s.cfg := rfl
@[simp] theorem State.modWork_flags (f : Work → Work) : (s.modWork f).flags = s.flags := rfl
@[simp] theorem State.modWork_counts (f : Work → Work) : (s.modWork f).counts = s.counts := rfl
@[simp] theorem State.modWork_cxl (f : Work → Work) : (s.modWork f).cxl = s.cxl := rfl
@[simp] theorem State.modWork_box (f : Work → Work) : (s.modWork f).box = s.box := rfl
@[simp] theorem State.modWork_tenants (f : Work → Work) : (s.modWork f).tenants = s.tenants := rfl
@[simp] theorem State.modWork_store (f : Work → Work) : (s.modWork f).store = s.store := rfl
@[simp] theorem State.modWork_images (f : Work → Work) : (s.modWork f).images = s.images := rfl
@[simp] theorem State.modWork_inv (f : Work → Work) : (s.modWork f).inv = s.inv := rfl
@[simp] theorem State.modWork_flyer (f : Work → Work) : (s.modWork f).flyer = s.flyer := rfl
@[simp] theorem State.modWork_pfx (f : Work → Work) : (s.modWork f).pfx = s.pfx := rfl
@[simp] theorem State.modWork_creel (f : Work → Work) : (s.modWork f).creel = s.creel := rfl
@[simp] theorem State.modWork_rel (f : Work → Work) : (s.modWork f).rel = s.rel := rfl
@[simp] theorem State.modWork_sec (f : Work → Work) : (s.modWork f).sec = s.sec := rfl
@[simp] theorem State.modWork_side (f : Work → Work) : (s.modWork f).side = s.side := rfl

/-! ## modJq -/

@[simp] theorem State.modJq_work (q : Nat) (f : Jq → Jq) : (s.modJq q f).work = { s.work with jqs := tmod s.work.jqs q f } := rfl
@[simp] theorem State.modJq_pending (q : Nat) (f : Jq → Jq) : (s.modJq q f).pending = s.pending := rfl
@[simp] theorem State.modJq_freeCount (q : Nat) (f : Jq → Jq) : (s.modJq q f).freeCount = s.freeCount := rfl
@[simp] theorem State.modJq_out (q : Nat) (f : Jq → Jq) : (s.modJq q f).out = s.out := rfl
@[simp] theorem State.modJq_mem (q : Nat) (f : Jq → Jq) : (s.modJq q f).mem = s.mem := rfl
@[simp] theorem State.modJq_time (q : Nat) (f : Jq → Jq) : (s.modJq q f).time = s.time := rfl
@[simp] theorem State.modJq_power (q : Nat) (f : Jq → Jq) : (s.modJq q f).power = s.power := rfl
@[simp] theorem State.modJq_boot (q : Nat) (f : Jq → Jq) : (s.modJq q f).boot = s.boot := rfl
@[simp] theorem State.modJq_cfg (q : Nat) (f : Jq → Jq) : (s.modJq q f).cfg = s.cfg := rfl
@[simp] theorem State.modJq_flags (q : Nat) (f : Jq → Jq) : (s.modJq q f).flags = s.flags := rfl
@[simp] theorem State.modJq_counts (q : Nat) (f : Jq → Jq) : (s.modJq q f).counts = s.counts := rfl
@[simp] theorem State.modJq_cxl (q : Nat) (f : Jq → Jq) : (s.modJq q f).cxl = s.cxl := rfl
@[simp] theorem State.modJq_box (q : Nat) (f : Jq → Jq) : (s.modJq q f).box = s.box := rfl
@[simp] theorem State.modJq_tenants (q : Nat) (f : Jq → Jq) : (s.modJq q f).tenants = s.tenants := rfl
@[simp] theorem State.modJq_store (q : Nat) (f : Jq → Jq) : (s.modJq q f).store = s.store := rfl
@[simp] theorem State.modJq_images (q : Nat) (f : Jq → Jq) : (s.modJq q f).images = s.images := rfl
@[simp] theorem State.modJq_inv (q : Nat) (f : Jq → Jq) : (s.modJq q f).inv = s.inv := rfl
@[simp] theorem State.modJq_flyer (q : Nat) (f : Jq → Jq) : (s.modJq q f).flyer = s.flyer := rfl
@[simp] theorem State.modJq_pfx (q : Nat) (f : Jq → Jq) : (s.modJq q f).pfx = s.pfx := rfl
@[simp] theorem State.modJq_creel (q : Nat) (f : Jq → Jq) : (s.modJq q f).creel = s.creel := rfl
@[simp] theorem State.modJq_rel (q : Nat) (f : Jq → Jq) : (s.modJq q f).rel = s.rel := rfl
@[simp] theorem State.modJq_sec (q : Nat) (f : Jq → Jq) : (s.modJq q f).sec = s.sec := rfl
@[simp] theorem State.modJq_side (q : Nat) (f : Jq → Jq) : (s.modJq q f).side = s.side := rfl

/-! ## modCq -/

@[simp] theorem State.modCq_work (q : Nat) (f : Cq → Cq) : (s.modCq q f).work = { s.work with cqs := tmod s.work.cqs q f } := rfl
@[simp] theorem State.modCq_pending (q : Nat) (f : Cq → Cq) : (s.modCq q f).pending = s.pending := rfl
@[simp] theorem State.modCq_freeCount (q : Nat) (f : Cq → Cq) : (s.modCq q f).freeCount = s.freeCount := rfl
@[simp] theorem State.modCq_out (q : Nat) (f : Cq → Cq) : (s.modCq q f).out = s.out := rfl
@[simp] theorem State.modCq_mem (q : Nat) (f : Cq → Cq) : (s.modCq q f).mem = s.mem := rfl
@[simp] theorem State.modCq_time (q : Nat) (f : Cq → Cq) : (s.modCq q f).time = s.time := rfl
@[simp] theorem State.modCq_power (q : Nat) (f : Cq → Cq) : (s.modCq q f).power = s.power := rfl
@[simp] theorem State.modCq_boot (q : Nat) (f : Cq → Cq) : (s.modCq q f).boot = s.boot := rfl
@[simp] theorem State.modCq_cfg (q : Nat) (f : Cq → Cq) : (s.modCq q f).cfg = s.cfg := rfl
@[simp] theorem State.modCq_flags (q : Nat) (f : Cq → Cq) : (s.modCq q f).flags = s.flags := rfl
@[simp] theorem State.modCq_counts (q : Nat) (f : Cq → Cq) : (s.modCq q f).counts = s.counts := rfl
@[simp] theorem State.modCq_cxl (q : Nat) (f : Cq → Cq) : (s.modCq q f).cxl = s.cxl := rfl
@[simp] theorem State.modCq_box (q : Nat) (f : Cq → Cq) : (s.modCq q f).box = s.box := rfl
@[simp] theorem State.modCq_tenants (q : Nat) (f : Cq → Cq) : (s.modCq q f).tenants = s.tenants := rfl
@[simp] theorem State.modCq_store (q : Nat) (f : Cq → Cq) : (s.modCq q f).store = s.store := rfl
@[simp] theorem State.modCq_images (q : Nat) (f : Cq → Cq) : (s.modCq q f).images = s.images := rfl
@[simp] theorem State.modCq_inv (q : Nat) (f : Cq → Cq) : (s.modCq q f).inv = s.inv := rfl
@[simp] theorem State.modCq_flyer (q : Nat) (f : Cq → Cq) : (s.modCq q f).flyer = s.flyer := rfl
@[simp] theorem State.modCq_pfx (q : Nat) (f : Cq → Cq) : (s.modCq q f).pfx = s.pfx := rfl
@[simp] theorem State.modCq_creel (q : Nat) (f : Cq → Cq) : (s.modCq q f).creel = s.creel := rfl
@[simp] theorem State.modCq_rel (q : Nat) (f : Cq → Cq) : (s.modCq q f).rel = s.rel := rfl
@[simp] theorem State.modCq_sec (q : Nat) (f : Cq → Cq) : (s.modCq q f).sec = s.sec := rfl
@[simp] theorem State.modCq_side (q : Nat) (f : Cq → Cq) : (s.modCq q f).side = s.side := rfl

/-! ## modFlyer -/

@[simp] theorem State.modFlyer_flyer (f : Flyer → Flyer) : (s.modFlyer f).flyer = f s.flyer := rfl
@[simp] theorem State.modFlyer_pending (f : Flyer → Flyer) : (s.modFlyer f).pending = s.pending := rfl
@[simp] theorem State.modFlyer_freeCount (f : Flyer → Flyer) : (s.modFlyer f).freeCount = s.freeCount := rfl
@[simp] theorem State.modFlyer_out (f : Flyer → Flyer) : (s.modFlyer f).out = s.out := rfl
@[simp] theorem State.modFlyer_mem (f : Flyer → Flyer) : (s.modFlyer f).mem = s.mem := rfl
@[simp] theorem State.modFlyer_time (f : Flyer → Flyer) : (s.modFlyer f).time = s.time := rfl
@[simp] theorem State.modFlyer_power (f : Flyer → Flyer) : (s.modFlyer f).power = s.power := rfl
@[simp] theorem State.modFlyer_boot (f : Flyer → Flyer) : (s.modFlyer f).boot = s.boot := rfl
@[simp] theorem State.modFlyer_cfg (f : Flyer → Flyer) : (s.modFlyer f).cfg = s.cfg := rfl
@[simp] theorem State.modFlyer_flags (f : Flyer → Flyer) : (s.modFlyer f).flags = s.flags := rfl
@[simp] theorem State.modFlyer_counts (f : Flyer → Flyer) : (s.modFlyer f).counts = s.counts := rfl
@[simp] theorem State.modFlyer_cxl (f : Flyer → Flyer) : (s.modFlyer f).cxl = s.cxl := rfl
@[simp] theorem State.modFlyer_box (f : Flyer → Flyer) : (s.modFlyer f).box = s.box := rfl
@[simp] theorem State.modFlyer_tenants (f : Flyer → Flyer) : (s.modFlyer f).tenants = s.tenants := rfl
@[simp] theorem State.modFlyer_store (f : Flyer → Flyer) : (s.modFlyer f).store = s.store := rfl
@[simp] theorem State.modFlyer_images (f : Flyer → Flyer) : (s.modFlyer f).images = s.images := rfl
@[simp] theorem State.modFlyer_inv (f : Flyer → Flyer) : (s.modFlyer f).inv = s.inv := rfl
@[simp] theorem State.modFlyer_work (f : Flyer → Flyer) : (s.modFlyer f).work = s.work := rfl
@[simp] theorem State.modFlyer_pfx (f : Flyer → Flyer) : (s.modFlyer f).pfx = s.pfx := rfl
@[simp] theorem State.modFlyer_creel (f : Flyer → Flyer) : (s.modFlyer f).creel = s.creel := rfl
@[simp] theorem State.modFlyer_rel (f : Flyer → Flyer) : (s.modFlyer f).rel = s.rel := rfl
@[simp] theorem State.modFlyer_sec (f : Flyer → Flyer) : (s.modFlyer f).sec = s.sec := rfl
@[simp] theorem State.modFlyer_side (f : Flyer → Flyer) : (s.modFlyer f).side = s.side := rfl

/-! ## setPort -/

@[simp] theorem State.setPort_flyer (p : Nat) (x : Port) : (s.setPort p x).flyer = { s.flyer with ports := tset s.flyer.ports p x } := rfl
@[simp] theorem State.setPort_pending (p : Nat) (x : Port) : (s.setPort p x).pending = s.pending := rfl
@[simp] theorem State.setPort_freeCount (p : Nat) (x : Port) : (s.setPort p x).freeCount = s.freeCount := rfl
@[simp] theorem State.setPort_out (p : Nat) (x : Port) : (s.setPort p x).out = s.out := rfl
@[simp] theorem State.setPort_mem (p : Nat) (x : Port) : (s.setPort p x).mem = s.mem := rfl
@[simp] theorem State.setPort_time (p : Nat) (x : Port) : (s.setPort p x).time = s.time := rfl
@[simp] theorem State.setPort_power (p : Nat) (x : Port) : (s.setPort p x).power = s.power := rfl
@[simp] theorem State.setPort_boot (p : Nat) (x : Port) : (s.setPort p x).boot = s.boot := rfl
@[simp] theorem State.setPort_cfg (p : Nat) (x : Port) : (s.setPort p x).cfg = s.cfg := rfl
@[simp] theorem State.setPort_flags (p : Nat) (x : Port) : (s.setPort p x).flags = s.flags := rfl
@[simp] theorem State.setPort_counts (p : Nat) (x : Port) : (s.setPort p x).counts = s.counts := rfl
@[simp] theorem State.setPort_cxl (p : Nat) (x : Port) : (s.setPort p x).cxl = s.cxl := rfl
@[simp] theorem State.setPort_box (p : Nat) (x : Port) : (s.setPort p x).box = s.box := rfl
@[simp] theorem State.setPort_tenants (p : Nat) (x : Port) : (s.setPort p x).tenants = s.tenants := rfl
@[simp] theorem State.setPort_store (p : Nat) (x : Port) : (s.setPort p x).store = s.store := rfl
@[simp] theorem State.setPort_images (p : Nat) (x : Port) : (s.setPort p x).images = s.images := rfl
@[simp] theorem State.setPort_inv (p : Nat) (x : Port) : (s.setPort p x).inv = s.inv := rfl
@[simp] theorem State.setPort_work (p : Nat) (x : Port) : (s.setPort p x).work = s.work := rfl
@[simp] theorem State.setPort_pfx (p : Nat) (x : Port) : (s.setPort p x).pfx = s.pfx := rfl
@[simp] theorem State.setPort_creel (p : Nat) (x : Port) : (s.setPort p x).creel = s.creel := rfl
@[simp] theorem State.setPort_rel (p : Nat) (x : Port) : (s.setPort p x).rel = s.rel := rfl
@[simp] theorem State.setPort_sec (p : Nat) (x : Port) : (s.setPort p x).sec = s.sec := rfl
@[simp] theorem State.setPort_side (p : Nat) (x : Port) : (s.setPort p x).side = s.side := rfl

/-! ## modPort -/

@[simp] theorem State.modPort_pending (p : Nat) (f : Port → Port) : (s.modPort p f).pending = s.pending := rfl
@[simp] theorem State.modPort_freeCount (p : Nat) (f : Port → Port) : (s.modPort p f).freeCount = s.freeCount := rfl
@[simp] theorem State.modPort_out (p : Nat) (f : Port → Port) : (s.modPort p f).out = s.out := rfl
@[simp] theorem State.modPort_mem (p : Nat) (f : Port → Port) : (s.modPort p f).mem = s.mem := rfl
@[simp] theorem State.modPort_time (p : Nat) (f : Port → Port) : (s.modPort p f).time = s.time := rfl
@[simp] theorem State.modPort_power (p : Nat) (f : Port → Port) : (s.modPort p f).power = s.power := rfl
@[simp] theorem State.modPort_boot (p : Nat) (f : Port → Port) : (s.modPort p f).boot = s.boot := rfl
@[simp] theorem State.modPort_cfg (p : Nat) (f : Port → Port) : (s.modPort p f).cfg = s.cfg := rfl
@[simp] theorem State.modPort_flags (p : Nat) (f : Port → Port) : (s.modPort p f).flags = s.flags := rfl
@[simp] theorem State.modPort_counts (p : Nat) (f : Port → Port) : (s.modPort p f).counts = s.counts := rfl
@[simp] theorem State.modPort_cxl (p : Nat) (f : Port → Port) : (s.modPort p f).cxl = s.cxl := rfl
@[simp] theorem State.modPort_box (p : Nat) (f : Port → Port) : (s.modPort p f).box = s.box := rfl
@[simp] theorem State.modPort_tenants (p : Nat) (f : Port → Port) : (s.modPort p f).tenants = s.tenants := rfl
@[simp] theorem State.modPort_store (p : Nat) (f : Port → Port) : (s.modPort p f).store = s.store := rfl
@[simp] theorem State.modPort_images (p : Nat) (f : Port → Port) : (s.modPort p f).images = s.images := rfl
@[simp] theorem State.modPort_inv (p : Nat) (f : Port → Port) : (s.modPort p f).inv = s.inv := rfl
@[simp] theorem State.modPort_work (p : Nat) (f : Port → Port) : (s.modPort p f).work = s.work := rfl
@[simp] theorem State.modPort_pfx (p : Nat) (f : Port → Port) : (s.modPort p f).pfx = s.pfx := rfl
@[simp] theorem State.modPort_creel (p : Nat) (f : Port → Port) : (s.modPort p f).creel = s.creel := rfl
@[simp] theorem State.modPort_rel (p : Nat) (f : Port → Port) : (s.modPort p f).rel = s.rel := rfl
@[simp] theorem State.modPort_sec (p : Nat) (f : Port → Port) : (s.modPort p f).sec = s.sec := rfl
@[simp] theorem State.modPort_side (p : Nat) (f : Port → Port) : (s.modPort p f).side = s.side := rfl

/-! ## modConn -/

@[simp] theorem State.modConn_flyer (c : Nat) (f : Conn → Conn) : (s.modConn c f).flyer = { s.flyer with conns := tmod s.flyer.conns c f } := rfl
@[simp] theorem State.modConn_pending (c : Nat) (f : Conn → Conn) : (s.modConn c f).pending = s.pending := rfl
@[simp] theorem State.modConn_freeCount (c : Nat) (f : Conn → Conn) : (s.modConn c f).freeCount = s.freeCount := rfl
@[simp] theorem State.modConn_out (c : Nat) (f : Conn → Conn) : (s.modConn c f).out = s.out := rfl
@[simp] theorem State.modConn_mem (c : Nat) (f : Conn → Conn) : (s.modConn c f).mem = s.mem := rfl
@[simp] theorem State.modConn_time (c : Nat) (f : Conn → Conn) : (s.modConn c f).time = s.time := rfl
@[simp] theorem State.modConn_power (c : Nat) (f : Conn → Conn) : (s.modConn c f).power = s.power := rfl
@[simp] theorem State.modConn_boot (c : Nat) (f : Conn → Conn) : (s.modConn c f).boot = s.boot := rfl
@[simp] theorem State.modConn_cfg (c : Nat) (f : Conn → Conn) : (s.modConn c f).cfg = s.cfg := rfl
@[simp] theorem State.modConn_flags (c : Nat) (f : Conn → Conn) : (s.modConn c f).flags = s.flags := rfl
@[simp] theorem State.modConn_counts (c : Nat) (f : Conn → Conn) : (s.modConn c f).counts = s.counts := rfl
@[simp] theorem State.modConn_cxl (c : Nat) (f : Conn → Conn) : (s.modConn c f).cxl = s.cxl := rfl
@[simp] theorem State.modConn_box (c : Nat) (f : Conn → Conn) : (s.modConn c f).box = s.box := rfl
@[simp] theorem State.modConn_tenants (c : Nat) (f : Conn → Conn) : (s.modConn c f).tenants = s.tenants := rfl
@[simp] theorem State.modConn_store (c : Nat) (f : Conn → Conn) : (s.modConn c f).store = s.store := rfl
@[simp] theorem State.modConn_images (c : Nat) (f : Conn → Conn) : (s.modConn c f).images = s.images := rfl
@[simp] theorem State.modConn_inv (c : Nat) (f : Conn → Conn) : (s.modConn c f).inv = s.inv := rfl
@[simp] theorem State.modConn_work (c : Nat) (f : Conn → Conn) : (s.modConn c f).work = s.work := rfl
@[simp] theorem State.modConn_pfx (c : Nat) (f : Conn → Conn) : (s.modConn c f).pfx = s.pfx := rfl
@[simp] theorem State.modConn_creel (c : Nat) (f : Conn → Conn) : (s.modConn c f).creel = s.creel := rfl
@[simp] theorem State.modConn_rel (c : Nat) (f : Conn → Conn) : (s.modConn c f).rel = s.rel := rfl
@[simp] theorem State.modConn_sec (c : Nat) (f : Conn → Conn) : (s.modConn c f).sec = s.sec := rfl
@[simp] theorem State.modConn_side (c : Nat) (f : Conn → Conn) : (s.modConn c f).side = s.side := rfl

/-! ## modPfx -/

@[simp] theorem State.modPfx_pfx (f : Prefix → Prefix) : (s.modPfx f).pfx = f s.pfx := rfl
@[simp] theorem State.modPfx_pending (f : Prefix → Prefix) : (s.modPfx f).pending = s.pending := rfl
@[simp] theorem State.modPfx_freeCount (f : Prefix → Prefix) : (s.modPfx f).freeCount = s.freeCount := rfl
@[simp] theorem State.modPfx_out (f : Prefix → Prefix) : (s.modPfx f).out = s.out := rfl
@[simp] theorem State.modPfx_mem (f : Prefix → Prefix) : (s.modPfx f).mem = s.mem := rfl
@[simp] theorem State.modPfx_time (f : Prefix → Prefix) : (s.modPfx f).time = s.time := rfl
@[simp] theorem State.modPfx_power (f : Prefix → Prefix) : (s.modPfx f).power = s.power := rfl
@[simp] theorem State.modPfx_boot (f : Prefix → Prefix) : (s.modPfx f).boot = s.boot := rfl
@[simp] theorem State.modPfx_cfg (f : Prefix → Prefix) : (s.modPfx f).cfg = s.cfg := rfl
@[simp] theorem State.modPfx_flags (f : Prefix → Prefix) : (s.modPfx f).flags = s.flags := rfl
@[simp] theorem State.modPfx_counts (f : Prefix → Prefix) : (s.modPfx f).counts = s.counts := rfl
@[simp] theorem State.modPfx_cxl (f : Prefix → Prefix) : (s.modPfx f).cxl = s.cxl := rfl
@[simp] theorem State.modPfx_box (f : Prefix → Prefix) : (s.modPfx f).box = s.box := rfl
@[simp] theorem State.modPfx_tenants (f : Prefix → Prefix) : (s.modPfx f).tenants = s.tenants := rfl
@[simp] theorem State.modPfx_store (f : Prefix → Prefix) : (s.modPfx f).store = s.store := rfl
@[simp] theorem State.modPfx_images (f : Prefix → Prefix) : (s.modPfx f).images = s.images := rfl
@[simp] theorem State.modPfx_inv (f : Prefix → Prefix) : (s.modPfx f).inv = s.inv := rfl
@[simp] theorem State.modPfx_work (f : Prefix → Prefix) : (s.modPfx f).work = s.work := rfl
@[simp] theorem State.modPfx_flyer (f : Prefix → Prefix) : (s.modPfx f).flyer = s.flyer := rfl
@[simp] theorem State.modPfx_creel (f : Prefix → Prefix) : (s.modPfx f).creel = s.creel := rfl
@[simp] theorem State.modPfx_rel (f : Prefix → Prefix) : (s.modPfx f).rel = s.rel := rfl
@[simp] theorem State.modPfx_sec (f : Prefix → Prefix) : (s.modPfx f).sec = s.sec := rfl
@[simp] theorem State.modPfx_side (f : Prefix → Prefix) : (s.modPfx f).side = s.side := rfl

/-! ## modCreel -/

@[simp] theorem State.modCreel_creel (f : Creel → Creel) : (s.modCreel f).creel = f s.creel := rfl
@[simp] theorem State.modCreel_pending (f : Creel → Creel) : (s.modCreel f).pending = s.pending := rfl
@[simp] theorem State.modCreel_freeCount (f : Creel → Creel) : (s.modCreel f).freeCount = s.freeCount := rfl
@[simp] theorem State.modCreel_out (f : Creel → Creel) : (s.modCreel f).out = s.out := rfl
@[simp] theorem State.modCreel_mem (f : Creel → Creel) : (s.modCreel f).mem = s.mem := rfl
@[simp] theorem State.modCreel_time (f : Creel → Creel) : (s.modCreel f).time = s.time := rfl
@[simp] theorem State.modCreel_power (f : Creel → Creel) : (s.modCreel f).power = s.power := rfl
@[simp] theorem State.modCreel_boot (f : Creel → Creel) : (s.modCreel f).boot = s.boot := rfl
@[simp] theorem State.modCreel_cfg (f : Creel → Creel) : (s.modCreel f).cfg = s.cfg := rfl
@[simp] theorem State.modCreel_flags (f : Creel → Creel) : (s.modCreel f).flags = s.flags := rfl
@[simp] theorem State.modCreel_counts (f : Creel → Creel) : (s.modCreel f).counts = s.counts := rfl
@[simp] theorem State.modCreel_cxl (f : Creel → Creel) : (s.modCreel f).cxl = s.cxl := rfl
@[simp] theorem State.modCreel_box (f : Creel → Creel) : (s.modCreel f).box = s.box := rfl
@[simp] theorem State.modCreel_tenants (f : Creel → Creel) : (s.modCreel f).tenants = s.tenants := rfl
@[simp] theorem State.modCreel_store (f : Creel → Creel) : (s.modCreel f).store = s.store := rfl
@[simp] theorem State.modCreel_images (f : Creel → Creel) : (s.modCreel f).images = s.images := rfl
@[simp] theorem State.modCreel_inv (f : Creel → Creel) : (s.modCreel f).inv = s.inv := rfl
@[simp] theorem State.modCreel_work (f : Creel → Creel) : (s.modCreel f).work = s.work := rfl
@[simp] theorem State.modCreel_flyer (f : Creel → Creel) : (s.modCreel f).flyer = s.flyer := rfl
@[simp] theorem State.modCreel_pfx (f : Creel → Creel) : (s.modCreel f).pfx = s.pfx := rfl
@[simp] theorem State.modCreel_rel (f : Creel → Creel) : (s.modCreel f).rel = s.rel := rfl
@[simp] theorem State.modCreel_sec (f : Creel → Creel) : (s.modCreel f).sec = s.sec := rfl
@[simp] theorem State.modCreel_side (f : Creel → Creel) : (s.modCreel f).side = s.side := rfl

/-! ## modRel -/

@[simp] theorem State.modRel_rel (f : Rel → Rel) : (s.modRel f).rel = f s.rel := rfl
@[simp] theorem State.modRel_pending (f : Rel → Rel) : (s.modRel f).pending = s.pending := rfl
@[simp] theorem State.modRel_freeCount (f : Rel → Rel) : (s.modRel f).freeCount = s.freeCount := rfl
@[simp] theorem State.modRel_out (f : Rel → Rel) : (s.modRel f).out = s.out := rfl
@[simp] theorem State.modRel_mem (f : Rel → Rel) : (s.modRel f).mem = s.mem := rfl
@[simp] theorem State.modRel_time (f : Rel → Rel) : (s.modRel f).time = s.time := rfl
@[simp] theorem State.modRel_power (f : Rel → Rel) : (s.modRel f).power = s.power := rfl
@[simp] theorem State.modRel_boot (f : Rel → Rel) : (s.modRel f).boot = s.boot := rfl
@[simp] theorem State.modRel_cfg (f : Rel → Rel) : (s.modRel f).cfg = s.cfg := rfl
@[simp] theorem State.modRel_flags (f : Rel → Rel) : (s.modRel f).flags = s.flags := rfl
@[simp] theorem State.modRel_counts (f : Rel → Rel) : (s.modRel f).counts = s.counts := rfl
@[simp] theorem State.modRel_cxl (f : Rel → Rel) : (s.modRel f).cxl = s.cxl := rfl
@[simp] theorem State.modRel_box (f : Rel → Rel) : (s.modRel f).box = s.box := rfl
@[simp] theorem State.modRel_tenants (f : Rel → Rel) : (s.modRel f).tenants = s.tenants := rfl
@[simp] theorem State.modRel_store (f : Rel → Rel) : (s.modRel f).store = s.store := rfl
@[simp] theorem State.modRel_images (f : Rel → Rel) : (s.modRel f).images = s.images := rfl
@[simp] theorem State.modRel_inv (f : Rel → Rel) : (s.modRel f).inv = s.inv := rfl
@[simp] theorem State.modRel_work (f : Rel → Rel) : (s.modRel f).work = s.work := rfl
@[simp] theorem State.modRel_flyer (f : Rel → Rel) : (s.modRel f).flyer = s.flyer := rfl
@[simp] theorem State.modRel_pfx (f : Rel → Rel) : (s.modRel f).pfx = s.pfx := rfl
@[simp] theorem State.modRel_creel (f : Rel → Rel) : (s.modRel f).creel = s.creel := rfl
@[simp] theorem State.modRel_sec (f : Rel → Rel) : (s.modRel f).sec = s.sec := rfl
@[simp] theorem State.modRel_side (f : Rel → Rel) : (s.modRel f).side = s.side := rfl

/-! ## modSpindle -/

@[simp] theorem State.modSpindle_rel (p : Nat) (f : Spindle → Spindle) : (s.modSpindle p f).rel = { s.rel with spindles := s.rel.spindles.modify p f } := rfl
@[simp] theorem State.modSpindle_pending (p : Nat) (f : Spindle → Spindle) : (s.modSpindle p f).pending = s.pending := rfl
@[simp] theorem State.modSpindle_freeCount (p : Nat) (f : Spindle → Spindle) : (s.modSpindle p f).freeCount = s.freeCount := rfl
@[simp] theorem State.modSpindle_out (p : Nat) (f : Spindle → Spindle) : (s.modSpindle p f).out = s.out := rfl
@[simp] theorem State.modSpindle_mem (p : Nat) (f : Spindle → Spindle) : (s.modSpindle p f).mem = s.mem := rfl
@[simp] theorem State.modSpindle_time (p : Nat) (f : Spindle → Spindle) : (s.modSpindle p f).time = s.time := rfl
@[simp] theorem State.modSpindle_power (p : Nat) (f : Spindle → Spindle) : (s.modSpindle p f).power = s.power := rfl
@[simp] theorem State.modSpindle_boot (p : Nat) (f : Spindle → Spindle) : (s.modSpindle p f).boot = s.boot := rfl
@[simp] theorem State.modSpindle_cfg (p : Nat) (f : Spindle → Spindle) : (s.modSpindle p f).cfg = s.cfg := rfl
@[simp] theorem State.modSpindle_flags (p : Nat) (f : Spindle → Spindle) : (s.modSpindle p f).flags = s.flags := rfl
@[simp] theorem State.modSpindle_counts (p : Nat) (f : Spindle → Spindle) : (s.modSpindle p f).counts = s.counts := rfl
@[simp] theorem State.modSpindle_cxl (p : Nat) (f : Spindle → Spindle) : (s.modSpindle p f).cxl = s.cxl := rfl
@[simp] theorem State.modSpindle_box (p : Nat) (f : Spindle → Spindle) : (s.modSpindle p f).box = s.box := rfl
@[simp] theorem State.modSpindle_tenants (p : Nat) (f : Spindle → Spindle) : (s.modSpindle p f).tenants = s.tenants := rfl
@[simp] theorem State.modSpindle_store (p : Nat) (f : Spindle → Spindle) : (s.modSpindle p f).store = s.store := rfl
@[simp] theorem State.modSpindle_images (p : Nat) (f : Spindle → Spindle) : (s.modSpindle p f).images = s.images := rfl
@[simp] theorem State.modSpindle_inv (p : Nat) (f : Spindle → Spindle) : (s.modSpindle p f).inv = s.inv := rfl
@[simp] theorem State.modSpindle_work (p : Nat) (f : Spindle → Spindle) : (s.modSpindle p f).work = s.work := rfl
@[simp] theorem State.modSpindle_flyer (p : Nat) (f : Spindle → Spindle) : (s.modSpindle p f).flyer = s.flyer := rfl
@[simp] theorem State.modSpindle_pfx (p : Nat) (f : Spindle → Spindle) : (s.modSpindle p f).pfx = s.pfx := rfl
@[simp] theorem State.modSpindle_creel (p : Nat) (f : Spindle → Spindle) : (s.modSpindle p f).creel = s.creel := rfl
@[simp] theorem State.modSpindle_sec (p : Nat) (f : Spindle → Spindle) : (s.modSpindle p f).sec = s.sec := rfl
@[simp] theorem State.modSpindle_side (p : Nat) (f : Spindle → Spindle) : (s.modSpindle p f).side = s.side := rfl

/-! ## modTime -/

@[simp] theorem State.modTime_time (f : TimeUnit → TimeUnit) : (s.modTime f).time = f s.time := rfl
@[simp] theorem State.modTime_pending (f : TimeUnit → TimeUnit) : (s.modTime f).pending = s.pending := rfl
@[simp] theorem State.modTime_freeCount (f : TimeUnit → TimeUnit) : (s.modTime f).freeCount = s.freeCount := rfl
@[simp] theorem State.modTime_out (f : TimeUnit → TimeUnit) : (s.modTime f).out = s.out := rfl
@[simp] theorem State.modTime_mem (f : TimeUnit → TimeUnit) : (s.modTime f).mem = s.mem := rfl
@[simp] theorem State.modTime_power (f : TimeUnit → TimeUnit) : (s.modTime f).power = s.power := rfl
@[simp] theorem State.modTime_boot (f : TimeUnit → TimeUnit) : (s.modTime f).boot = s.boot := rfl
@[simp] theorem State.modTime_cfg (f : TimeUnit → TimeUnit) : (s.modTime f).cfg = s.cfg := rfl
@[simp] theorem State.modTime_flags (f : TimeUnit → TimeUnit) : (s.modTime f).flags = s.flags := rfl
@[simp] theorem State.modTime_counts (f : TimeUnit → TimeUnit) : (s.modTime f).counts = s.counts := rfl
@[simp] theorem State.modTime_cxl (f : TimeUnit → TimeUnit) : (s.modTime f).cxl = s.cxl := rfl
@[simp] theorem State.modTime_box (f : TimeUnit → TimeUnit) : (s.modTime f).box = s.box := rfl
@[simp] theorem State.modTime_tenants (f : TimeUnit → TimeUnit) : (s.modTime f).tenants = s.tenants := rfl
@[simp] theorem State.modTime_store (f : TimeUnit → TimeUnit) : (s.modTime f).store = s.store := rfl
@[simp] theorem State.modTime_images (f : TimeUnit → TimeUnit) : (s.modTime f).images = s.images := rfl
@[simp] theorem State.modTime_inv (f : TimeUnit → TimeUnit) : (s.modTime f).inv = s.inv := rfl
@[simp] theorem State.modTime_work (f : TimeUnit → TimeUnit) : (s.modTime f).work = s.work := rfl
@[simp] theorem State.modTime_flyer (f : TimeUnit → TimeUnit) : (s.modTime f).flyer = s.flyer := rfl
@[simp] theorem State.modTime_pfx (f : TimeUnit → TimeUnit) : (s.modTime f).pfx = s.pfx := rfl
@[simp] theorem State.modTime_creel (f : TimeUnit → TimeUnit) : (s.modTime f).creel = s.creel := rfl
@[simp] theorem State.modTime_rel (f : TimeUnit → TimeUnit) : (s.modTime f).rel = s.rel := rfl
@[simp] theorem State.modTime_sec (f : TimeUnit → TimeUnit) : (s.modTime f).sec = s.sec := rfl
@[simp] theorem State.modTime_side (f : TimeUnit → TimeUnit) : (s.modTime f).side = s.side := rfl

/-! ## modPower -/

@[simp] theorem State.modPower_power (f : Power → Power) : (s.modPower f).power = f s.power := rfl
@[simp] theorem State.modPower_pending (f : Power → Power) : (s.modPower f).pending = s.pending := rfl
@[simp] theorem State.modPower_freeCount (f : Power → Power) : (s.modPower f).freeCount = s.freeCount := rfl
@[simp] theorem State.modPower_out (f : Power → Power) : (s.modPower f).out = s.out := rfl
@[simp] theorem State.modPower_mem (f : Power → Power) : (s.modPower f).mem = s.mem := rfl
@[simp] theorem State.modPower_time (f : Power → Power) : (s.modPower f).time = s.time := rfl
@[simp] theorem State.modPower_boot (f : Power → Power) : (s.modPower f).boot = s.boot := rfl
@[simp] theorem State.modPower_cfg (f : Power → Power) : (s.modPower f).cfg = s.cfg := rfl
@[simp] theorem State.modPower_flags (f : Power → Power) : (s.modPower f).flags = s.flags := rfl
@[simp] theorem State.modPower_counts (f : Power → Power) : (s.modPower f).counts = s.counts := rfl
@[simp] theorem State.modPower_cxl (f : Power → Power) : (s.modPower f).cxl = s.cxl := rfl
@[simp] theorem State.modPower_box (f : Power → Power) : (s.modPower f).box = s.box := rfl
@[simp] theorem State.modPower_tenants (f : Power → Power) : (s.modPower f).tenants = s.tenants := rfl
@[simp] theorem State.modPower_store (f : Power → Power) : (s.modPower f).store = s.store := rfl
@[simp] theorem State.modPower_images (f : Power → Power) : (s.modPower f).images = s.images := rfl
@[simp] theorem State.modPower_inv (f : Power → Power) : (s.modPower f).inv = s.inv := rfl
@[simp] theorem State.modPower_work (f : Power → Power) : (s.modPower f).work = s.work := rfl
@[simp] theorem State.modPower_flyer (f : Power → Power) : (s.modPower f).flyer = s.flyer := rfl
@[simp] theorem State.modPower_pfx (f : Power → Power) : (s.modPower f).pfx = s.pfx := rfl
@[simp] theorem State.modPower_creel (f : Power → Power) : (s.modPower f).creel = s.creel := rfl
@[simp] theorem State.modPower_rel (f : Power → Power) : (s.modPower f).rel = s.rel := rfl
@[simp] theorem State.modPower_sec (f : Power → Power) : (s.modPower f).sec = s.sec := rfl
@[simp] theorem State.modPower_side (f : Power → Power) : (s.modPower f).side = s.side := rfl

/-! ## modBoot -/

@[simp] theorem State.modBoot_boot (f : Boot → Boot) : (s.modBoot f).boot = f s.boot := rfl
@[simp] theorem State.modBoot_pending (f : Boot → Boot) : (s.modBoot f).pending = s.pending := rfl
@[simp] theorem State.modBoot_freeCount (f : Boot → Boot) : (s.modBoot f).freeCount = s.freeCount := rfl
@[simp] theorem State.modBoot_out (f : Boot → Boot) : (s.modBoot f).out = s.out := rfl
@[simp] theorem State.modBoot_mem (f : Boot → Boot) : (s.modBoot f).mem = s.mem := rfl
@[simp] theorem State.modBoot_time (f : Boot → Boot) : (s.modBoot f).time = s.time := rfl
@[simp] theorem State.modBoot_power (f : Boot → Boot) : (s.modBoot f).power = s.power := rfl
@[simp] theorem State.modBoot_cfg (f : Boot → Boot) : (s.modBoot f).cfg = s.cfg := rfl
@[simp] theorem State.modBoot_flags (f : Boot → Boot) : (s.modBoot f).flags = s.flags := rfl
@[simp] theorem State.modBoot_counts (f : Boot → Boot) : (s.modBoot f).counts = s.counts := rfl
@[simp] theorem State.modBoot_cxl (f : Boot → Boot) : (s.modBoot f).cxl = s.cxl := rfl
@[simp] theorem State.modBoot_box (f : Boot → Boot) : (s.modBoot f).box = s.box := rfl
@[simp] theorem State.modBoot_tenants (f : Boot → Boot) : (s.modBoot f).tenants = s.tenants := rfl
@[simp] theorem State.modBoot_store (f : Boot → Boot) : (s.modBoot f).store = s.store := rfl
@[simp] theorem State.modBoot_images (f : Boot → Boot) : (s.modBoot f).images = s.images := rfl
@[simp] theorem State.modBoot_inv (f : Boot → Boot) : (s.modBoot f).inv = s.inv := rfl
@[simp] theorem State.modBoot_work (f : Boot → Boot) : (s.modBoot f).work = s.work := rfl
@[simp] theorem State.modBoot_flyer (f : Boot → Boot) : (s.modBoot f).flyer = s.flyer := rfl
@[simp] theorem State.modBoot_pfx (f : Boot → Boot) : (s.modBoot f).pfx = s.pfx := rfl
@[simp] theorem State.modBoot_creel (f : Boot → Boot) : (s.modBoot f).creel = s.creel := rfl
@[simp] theorem State.modBoot_rel (f : Boot → Boot) : (s.modBoot f).rel = s.rel := rfl
@[simp] theorem State.modBoot_sec (f : Boot → Boot) : (s.modBoot f).sec = s.sec := rfl
@[simp] theorem State.modBoot_side (f : Boot → Boot) : (s.modBoot f).side = s.side := rfl

/-! ## modSec -/

@[simp] theorem State.modSec_sec (f : Sec → Sec) : (s.modSec f).sec = f s.sec := rfl
@[simp] theorem State.modSec_pending (f : Sec → Sec) : (s.modSec f).pending = s.pending := rfl
@[simp] theorem State.modSec_freeCount (f : Sec → Sec) : (s.modSec f).freeCount = s.freeCount := rfl
@[simp] theorem State.modSec_out (f : Sec → Sec) : (s.modSec f).out = s.out := rfl
@[simp] theorem State.modSec_mem (f : Sec → Sec) : (s.modSec f).mem = s.mem := rfl
@[simp] theorem State.modSec_time (f : Sec → Sec) : (s.modSec f).time = s.time := rfl
@[simp] theorem State.modSec_power (f : Sec → Sec) : (s.modSec f).power = s.power := rfl
@[simp] theorem State.modSec_boot (f : Sec → Sec) : (s.modSec f).boot = s.boot := rfl
@[simp] theorem State.modSec_cfg (f : Sec → Sec) : (s.modSec f).cfg = s.cfg := rfl
@[simp] theorem State.modSec_flags (f : Sec → Sec) : (s.modSec f).flags = s.flags := rfl
@[simp] theorem State.modSec_counts (f : Sec → Sec) : (s.modSec f).counts = s.counts := rfl
@[simp] theorem State.modSec_cxl (f : Sec → Sec) : (s.modSec f).cxl = s.cxl := rfl
@[simp] theorem State.modSec_box (f : Sec → Sec) : (s.modSec f).box = s.box := rfl
@[simp] theorem State.modSec_tenants (f : Sec → Sec) : (s.modSec f).tenants = s.tenants := rfl
@[simp] theorem State.modSec_store (f : Sec → Sec) : (s.modSec f).store = s.store := rfl
@[simp] theorem State.modSec_images (f : Sec → Sec) : (s.modSec f).images = s.images := rfl
@[simp] theorem State.modSec_inv (f : Sec → Sec) : (s.modSec f).inv = s.inv := rfl
@[simp] theorem State.modSec_work (f : Sec → Sec) : (s.modSec f).work = s.work := rfl
@[simp] theorem State.modSec_flyer (f : Sec → Sec) : (s.modSec f).flyer = s.flyer := rfl
@[simp] theorem State.modSec_pfx (f : Sec → Sec) : (s.modSec f).pfx = s.pfx := rfl
@[simp] theorem State.modSec_creel (f : Sec → Sec) : (s.modSec f).creel = s.creel := rfl
@[simp] theorem State.modSec_rel (f : Sec → Sec) : (s.modSec f).rel = s.rel := rfl
@[simp] theorem State.modSec_side (f : Sec → Sec) : (s.modSec f).side = s.side := rfl

/-! ## modCfg -/

@[simp] theorem State.modCfg_cfg (f : Cfg → Cfg) : (s.modCfg f).cfg = f s.cfg := rfl
@[simp] theorem State.modCfg_pending (f : Cfg → Cfg) : (s.modCfg f).pending = s.pending := rfl
@[simp] theorem State.modCfg_freeCount (f : Cfg → Cfg) : (s.modCfg f).freeCount = s.freeCount := rfl
@[simp] theorem State.modCfg_out (f : Cfg → Cfg) : (s.modCfg f).out = s.out := rfl
@[simp] theorem State.modCfg_mem (f : Cfg → Cfg) : (s.modCfg f).mem = s.mem := rfl
@[simp] theorem State.modCfg_time (f : Cfg → Cfg) : (s.modCfg f).time = s.time := rfl
@[simp] theorem State.modCfg_power (f : Cfg → Cfg) : (s.modCfg f).power = s.power := rfl
@[simp] theorem State.modCfg_boot (f : Cfg → Cfg) : (s.modCfg f).boot = s.boot := rfl
@[simp] theorem State.modCfg_flags (f : Cfg → Cfg) : (s.modCfg f).flags = s.flags := rfl
@[simp] theorem State.modCfg_counts (f : Cfg → Cfg) : (s.modCfg f).counts = s.counts := rfl
@[simp] theorem State.modCfg_cxl (f : Cfg → Cfg) : (s.modCfg f).cxl = s.cxl := rfl
@[simp] theorem State.modCfg_box (f : Cfg → Cfg) : (s.modCfg f).box = s.box := rfl
@[simp] theorem State.modCfg_tenants (f : Cfg → Cfg) : (s.modCfg f).tenants = s.tenants := rfl
@[simp] theorem State.modCfg_store (f : Cfg → Cfg) : (s.modCfg f).store = s.store := rfl
@[simp] theorem State.modCfg_images (f : Cfg → Cfg) : (s.modCfg f).images = s.images := rfl
@[simp] theorem State.modCfg_inv (f : Cfg → Cfg) : (s.modCfg f).inv = s.inv := rfl
@[simp] theorem State.modCfg_work (f : Cfg → Cfg) : (s.modCfg f).work = s.work := rfl
@[simp] theorem State.modCfg_flyer (f : Cfg → Cfg) : (s.modCfg f).flyer = s.flyer := rfl
@[simp] theorem State.modCfg_pfx (f : Cfg → Cfg) : (s.modCfg f).pfx = s.pfx := rfl
@[simp] theorem State.modCfg_creel (f : Cfg → Cfg) : (s.modCfg f).creel = s.creel := rfl
@[simp] theorem State.modCfg_rel (f : Cfg → Cfg) : (s.modCfg f).rel = s.rel := rfl
@[simp] theorem State.modCfg_sec (f : Cfg → Cfg) : (s.modCfg f).sec = s.sec := rfl
@[simp] theorem State.modCfg_side (f : Cfg → Cfg) : (s.modCfg f).side = s.side := rfl

/-! ## setLd -/

@[simp] theorem State.setLd_cxl (d : Nat) (x : Ld) : (s.setLd d x).cxl = { s.cxl with lds := tset s.cxl.lds d x } := rfl
@[simp] theorem State.setLd_pending (d : Nat) (x : Ld) : (s.setLd d x).pending = s.pending := rfl
@[simp] theorem State.setLd_freeCount (d : Nat) (x : Ld) : (s.setLd d x).freeCount = s.freeCount := rfl
@[simp] theorem State.setLd_out (d : Nat) (x : Ld) : (s.setLd d x).out = s.out := rfl
@[simp] theorem State.setLd_mem (d : Nat) (x : Ld) : (s.setLd d x).mem = s.mem := rfl
@[simp] theorem State.setLd_time (d : Nat) (x : Ld) : (s.setLd d x).time = s.time := rfl
@[simp] theorem State.setLd_power (d : Nat) (x : Ld) : (s.setLd d x).power = s.power := rfl
@[simp] theorem State.setLd_boot (d : Nat) (x : Ld) : (s.setLd d x).boot = s.boot := rfl
@[simp] theorem State.setLd_cfg (d : Nat) (x : Ld) : (s.setLd d x).cfg = s.cfg := rfl
@[simp] theorem State.setLd_flags (d : Nat) (x : Ld) : (s.setLd d x).flags = s.flags := rfl
@[simp] theorem State.setLd_counts (d : Nat) (x : Ld) : (s.setLd d x).counts = s.counts := rfl
@[simp] theorem State.setLd_box (d : Nat) (x : Ld) : (s.setLd d x).box = s.box := rfl
@[simp] theorem State.setLd_tenants (d : Nat) (x : Ld) : (s.setLd d x).tenants = s.tenants := rfl
@[simp] theorem State.setLd_store (d : Nat) (x : Ld) : (s.setLd d x).store = s.store := rfl
@[simp] theorem State.setLd_images (d : Nat) (x : Ld) : (s.setLd d x).images = s.images := rfl
@[simp] theorem State.setLd_inv (d : Nat) (x : Ld) : (s.setLd d x).inv = s.inv := rfl
@[simp] theorem State.setLd_work (d : Nat) (x : Ld) : (s.setLd d x).work = s.work := rfl
@[simp] theorem State.setLd_flyer (d : Nat) (x : Ld) : (s.setLd d x).flyer = s.flyer := rfl
@[simp] theorem State.setLd_pfx (d : Nat) (x : Ld) : (s.setLd d x).pfx = s.pfx := rfl
@[simp] theorem State.setLd_creel (d : Nat) (x : Ld) : (s.setLd d x).creel = s.creel := rfl
@[simp] theorem State.setLd_rel (d : Nat) (x : Ld) : (s.setLd d x).rel = s.rel := rfl
@[simp] theorem State.setLd_sec (d : Nat) (x : Ld) : (s.setLd d x).sec = s.sec := rfl
@[simp] theorem State.setLd_side (d : Nat) (x : Ld) : (s.setLd d x).side = s.side := rfl

/-! ## setJob -/

@[simp] theorem State.setJob_work (id : Nat) (j : Job) : (s.setJob id j).work = { s.work with jobs := tset s.work.jobs id j } := rfl
@[simp] theorem State.setJob_pending (id : Nat) (j : Job) : (s.setJob id j).pending = s.pending := rfl
@[simp] theorem State.setJob_freeCount (id : Nat) (j : Job) : (s.setJob id j).freeCount = s.freeCount := rfl
@[simp] theorem State.setJob_out (id : Nat) (j : Job) : (s.setJob id j).out = s.out := rfl
@[simp] theorem State.setJob_mem (id : Nat) (j : Job) : (s.setJob id j).mem = s.mem := rfl
@[simp] theorem State.setJob_time (id : Nat) (j : Job) : (s.setJob id j).time = s.time := rfl
@[simp] theorem State.setJob_power (id : Nat) (j : Job) : (s.setJob id j).power = s.power := rfl
@[simp] theorem State.setJob_boot (id : Nat) (j : Job) : (s.setJob id j).boot = s.boot := rfl
@[simp] theorem State.setJob_cfg (id : Nat) (j : Job) : (s.setJob id j).cfg = s.cfg := rfl
@[simp] theorem State.setJob_flags (id : Nat) (j : Job) : (s.setJob id j).flags = s.flags := rfl
@[simp] theorem State.setJob_counts (id : Nat) (j : Job) : (s.setJob id j).counts = s.counts := rfl
@[simp] theorem State.setJob_cxl (id : Nat) (j : Job) : (s.setJob id j).cxl = s.cxl := rfl
@[simp] theorem State.setJob_box (id : Nat) (j : Job) : (s.setJob id j).box = s.box := rfl
@[simp] theorem State.setJob_tenants (id : Nat) (j : Job) : (s.setJob id j).tenants = s.tenants := rfl
@[simp] theorem State.setJob_store (id : Nat) (j : Job) : (s.setJob id j).store = s.store := rfl
@[simp] theorem State.setJob_images (id : Nat) (j : Job) : (s.setJob id j).images = s.images := rfl
@[simp] theorem State.setJob_inv (id : Nat) (j : Job) : (s.setJob id j).inv = s.inv := rfl
@[simp] theorem State.setJob_flyer (id : Nat) (j : Job) : (s.setJob id j).flyer = s.flyer := rfl
@[simp] theorem State.setJob_pfx (id : Nat) (j : Job) : (s.setJob id j).pfx = s.pfx := rfl
@[simp] theorem State.setJob_creel (id : Nat) (j : Job) : (s.setJob id j).creel = s.creel := rfl
@[simp] theorem State.setJob_rel (id : Nat) (j : Job) : (s.setJob id j).rel = s.rel := rfl
@[simp] theorem State.setJob_sec (id : Nat) (j : Job) : (s.setJob id j).sec = s.sec := rfl
@[simp] theorem State.setJob_side (id : Nat) (j : Job) : (s.setJob id j).side = s.side := rfl

/-! ## setDoff -/

@[simp] theorem State.setDoff_store (i : Nat) (d : Doff) : (s.setDoff i d).store = { s.store with doffs := tset s.store.doffs i d } := rfl
@[simp] theorem State.setDoff_pending (i : Nat) (d : Doff) : (s.setDoff i d).pending = s.pending := rfl
@[simp] theorem State.setDoff_freeCount (i : Nat) (d : Doff) : (s.setDoff i d).freeCount = s.freeCount := rfl
@[simp] theorem State.setDoff_out (i : Nat) (d : Doff) : (s.setDoff i d).out = s.out := rfl
@[simp] theorem State.setDoff_mem (i : Nat) (d : Doff) : (s.setDoff i d).mem = s.mem := rfl
@[simp] theorem State.setDoff_time (i : Nat) (d : Doff) : (s.setDoff i d).time = s.time := rfl
@[simp] theorem State.setDoff_power (i : Nat) (d : Doff) : (s.setDoff i d).power = s.power := rfl
@[simp] theorem State.setDoff_boot (i : Nat) (d : Doff) : (s.setDoff i d).boot = s.boot := rfl
@[simp] theorem State.setDoff_cfg (i : Nat) (d : Doff) : (s.setDoff i d).cfg = s.cfg := rfl
@[simp] theorem State.setDoff_flags (i : Nat) (d : Doff) : (s.setDoff i d).flags = s.flags := rfl
@[simp] theorem State.setDoff_counts (i : Nat) (d : Doff) : (s.setDoff i d).counts = s.counts := rfl
@[simp] theorem State.setDoff_cxl (i : Nat) (d : Doff) : (s.setDoff i d).cxl = s.cxl := rfl
@[simp] theorem State.setDoff_box (i : Nat) (d : Doff) : (s.setDoff i d).box = s.box := rfl
@[simp] theorem State.setDoff_tenants (i : Nat) (d : Doff) : (s.setDoff i d).tenants = s.tenants := rfl
@[simp] theorem State.setDoff_images (i : Nat) (d : Doff) : (s.setDoff i d).images = s.images := rfl
@[simp] theorem State.setDoff_inv (i : Nat) (d : Doff) : (s.setDoff i d).inv = s.inv := rfl
@[simp] theorem State.setDoff_work (i : Nat) (d : Doff) : (s.setDoff i d).work = s.work := rfl
@[simp] theorem State.setDoff_flyer (i : Nat) (d : Doff) : (s.setDoff i d).flyer = s.flyer := rfl
@[simp] theorem State.setDoff_pfx (i : Nat) (d : Doff) : (s.setDoff i d).pfx = s.pfx := rfl
@[simp] theorem State.setDoff_creel (i : Nat) (d : Doff) : (s.setDoff i d).creel = s.creel := rfl
@[simp] theorem State.setDoff_rel (i : Nat) (d : Doff) : (s.setDoff i d).rel = s.rel := rfl
@[simp] theorem State.setDoff_sec (i : Nat) (d : Doff) : (s.setDoff i d).sec = s.sec := rfl
@[simp] theorem State.setDoff_side (i : Nat) (d : Doff) : (s.setDoff i d).side = s.side := rfl

/-! ## setReload -/

@[simp] theorem State.setReload_store (i : Nat) (r : Reload) : (s.setReload i r).store = { s.store with reloads := tset s.store.reloads i r } := rfl
@[simp] theorem State.setReload_pending (i : Nat) (r : Reload) : (s.setReload i r).pending = s.pending := rfl
@[simp] theorem State.setReload_freeCount (i : Nat) (r : Reload) : (s.setReload i r).freeCount = s.freeCount := rfl
@[simp] theorem State.setReload_out (i : Nat) (r : Reload) : (s.setReload i r).out = s.out := rfl
@[simp] theorem State.setReload_mem (i : Nat) (r : Reload) : (s.setReload i r).mem = s.mem := rfl
@[simp] theorem State.setReload_time (i : Nat) (r : Reload) : (s.setReload i r).time = s.time := rfl
@[simp] theorem State.setReload_power (i : Nat) (r : Reload) : (s.setReload i r).power = s.power := rfl
@[simp] theorem State.setReload_boot (i : Nat) (r : Reload) : (s.setReload i r).boot = s.boot := rfl
@[simp] theorem State.setReload_cfg (i : Nat) (r : Reload) : (s.setReload i r).cfg = s.cfg := rfl
@[simp] theorem State.setReload_flags (i : Nat) (r : Reload) : (s.setReload i r).flags = s.flags := rfl
@[simp] theorem State.setReload_counts (i : Nat) (r : Reload) : (s.setReload i r).counts = s.counts := rfl
@[simp] theorem State.setReload_cxl (i : Nat) (r : Reload) : (s.setReload i r).cxl = s.cxl := rfl
@[simp] theorem State.setReload_box (i : Nat) (r : Reload) : (s.setReload i r).box = s.box := rfl
@[simp] theorem State.setReload_tenants (i : Nat) (r : Reload) : (s.setReload i r).tenants = s.tenants := rfl
@[simp] theorem State.setReload_images (i : Nat) (r : Reload) : (s.setReload i r).images = s.images := rfl
@[simp] theorem State.setReload_inv (i : Nat) (r : Reload) : (s.setReload i r).inv = s.inv := rfl
@[simp] theorem State.setReload_work (i : Nat) (r : Reload) : (s.setReload i r).work = s.work := rfl
@[simp] theorem State.setReload_flyer (i : Nat) (r : Reload) : (s.setReload i r).flyer = s.flyer := rfl
@[simp] theorem State.setReload_pfx (i : Nat) (r : Reload) : (s.setReload i r).pfx = s.pfx := rfl
@[simp] theorem State.setReload_creel (i : Nat) (r : Reload) : (s.setReload i r).creel = s.creel := rfl
@[simp] theorem State.setReload_rel (i : Nat) (r : Reload) : (s.setReload i r).rel = s.rel := rfl
@[simp] theorem State.setReload_sec (i : Nat) (r : Reload) : (s.setReload i r).sec = s.sec := rfl
@[simp] theorem State.setReload_side (i : Nat) (r : Reload) : (s.setReload i r).side = s.side := rfl

end Sys2Proof.Machine
end

