-- ==== Sys2Proof/Laws/Pool.lean ====
section
/-!
SUPPORT. What the allocators answer, whatever the free value they start from: a free index, a free slot of the pool, free
units of the queue window, a new ring, a free block of the creel, and what a growing skein or an APPEND takes.
-/
namespace Sys2Proof.Machine

/-! ## Indices -/

/-- An empty table always has a free index. -/
theorem pick_empty {α : Type} (s : State) {n : Nat} (h : 0 < n) :
    s.pick ([] : Table α) n = some (Config.freeValue s.freeCount % n, { s with freeCount := s.freeCount + 1 }) := by
  have : List.range (min n (([] : Table α).length + 1)) = [0] := by
    rw [show min n (([] : Table α).length + 1) = 1 by simp only [List.length_nil]; omega]; rfl
  simp only [State.pick, State.free, this]
  simp [thas, tget]

/-- Residues of consecutive numbers differ. -/
theorem mod_add_inj {n i a b : Nat} (ha : a < n) (hb : b < n) (h : (i + a) % n = (i + b) % n) : a = b := by
  have h1 : (i + a) ≡ (i + b) [MOD n] := h
  have h2 := Nat.ModEq.add_left_cancel' i h1
  have h3 : a % n = b % n := h2
  rwa [Nat.mod_eq_of_lt ha, Nat.mod_eq_of_lt hb] at h3

/-- What a table has at an index is one of its entries. -/
theorem mem_of_tget {α : Type} {i : Nat} {x : α} : ∀ {t : Table α}, tget t i = some x → (i, x) ∈ t
  | (k, v) :: t, h => by
    rw [tget] at h
    split at h
    · rename_i hk; cases h; subst hk; exact List.mem_cons_self
    · exact List.mem_cons_of_mem _ (mem_of_tget h)

/-- A table with room has a free index. -/
theorem pick_ok {α : Type} (s : State) {t : Table α} {n : Nat} (h : t.length < n) :
    ∃ i, s.pick t n = some (i, { s with freeCount := s.freeCount + 1 }) := by
  simp only [State.pick, State.free]
  rw [show min n (t.length + 1) = t.length + 1 by omega]
  cases hf : (List.range (t.length + 1)).find? fun i => !thas t ((Config.freeValue s.freeCount % n + i) % n) with
  | some i => exact ⟨_, rfl⟩
  | none =>
    exfalso
    have hnd : ((List.range (t.length + 1)).map fun j => (Config.freeValue s.freeCount % n + j) % n).Nodup := by
      refine List.Nodup.map_on ?_ List.nodup_range
      intro a ha b hb h
      simp only [List.mem_range] at ha hb
      exact mod_add_inj (by omega) (by omega) h
    have hsub : ((List.range (t.length + 1)).map fun j => (Config.freeValue s.freeCount % n + j) % n) ⊆ t.map (·.1) := by
      intro p hp
      obtain ⟨j, hj, rfl⟩ := List.mem_map.1 hp
      have := List.find?_eq_none.1 hf j hj
      simp only [Bool.not_eq_true', Bool.not_eq_false, thas] at this
      obtain ⟨x, hx⟩ := Option.isSome_iff_exists.1 this
      exact List.mem_map.2 ⟨_, mem_of_tget hx, rfl⟩
    have := (hnd.subperm hsub).length_le
    simp at this

/-- Some of as many blocks in a row as the map names, and one more, has no use. -/
theorem some_block_free {blocks : Table BlkUse} (i : Nat) {n : Nat} (h : blocks.length < n) (hd : n ≤ dataBlocks) :
    ((List.range n).map (fun j => (i + j) % dataBlocks)).filter (fun b => !thas blocks b) ≠ [] := by
  intro hf
  have hnd : ((List.range n).map fun j => (i + j) % dataBlocks).Nodup := by
    refine List.Nodup.map_on ?_ List.nodup_range
    intro a ha b hb h
    simp only [List.mem_range] at ha hb
    exact mod_add_inj (by omega) (by omega) h
  have hsub : ((List.range n).map fun j => (i + j) % dataBlocks) ⊆ blocks.map (·.1) := by
    intro p hp
    have := List.filter_eq_nil_iff.1 hf p hp
    simp only [Bool.not_eq_true', Bool.not_eq_false, thas] at this
    obtain ⟨x, hx⟩ := Option.isSome_iff_exists.1 this
    exact List.mem_map.2 ⟨_, mem_of_tget hx, rfl⟩
  have := (hnd.subperm hsub).length_le
  simp at this
  omega

/-- A free block is taken where the creel has one. -/
theorem takeBlock_ok {s : State} {u : BlkUse} (h : s.creel.freeBlocks ≠ 0)
    (hd : s.creel.blocks.length + s.creel.tlcErases.length + s.creel.slcErases.length < dataBlocks) : ∃ b t, s.takeBlock u = some (b, t) := by
  have hmin : ∀ (f : Option Nat → Nat → Option Nat), (∀ a b, (f a b).isSome = true) → ∀ (l : List Nat) (a : Option Nat), (l ≠ [] ∨ a.isSome = true) →
      (l.foldl f a).isSome = true := by
    intro f hf l
    induction l with
    | nil => intro a ha; simpa using ha
    | cons x xs ih => intro a _; exact ih _ (Or.inr (hf a x))
  have hne := some_block_free (blocks := s.creel.blocks) (Config.freeValue s.freeCount % dataBlocks)
    (n := s.creel.blocks.length + s.creel.tlcErases.length + s.creel.slcErases.length + 1) (by omega) (by omega)
  have hs : (s.takeBlock u).isSome = true := by
    simp only [State.takeBlock, State.free, if_neg h, Option.isSome_map]
    refine hmin _ ?_ _ none (Or.inl hne)
    intro a b
    cases a
    · rfl
    · dsimp only; split <;> rfl
  obtain ⟨x, hx⟩ := Option.isSome_iff_exists.1 hs
  exact ⟨x.1, x.2, hx⟩

/-! ## Slots of the pool -/

/-- A search that fails has met only slots that cannot be given out. -/
theorem findSlot_none {s : State} : ∀ {fuel i : Nat}, s.findSlot fuel i = none →
    ∀ j, j < fuel → s.slotFree (poolBase + (i + j) % s.openSlots) = false
  | fuel + 1, i, h, j, hj => by
    rw [State.findSlot] at h
    split at h
    · cases h
    · rename_i hf
      cases j with
      | zero => simpa using hf
      | succ j => have := findSlot_none h j (by omega); rwa [show i + 1 + j = i + (j + 1) by omega] at this

/-- A search that succeeds gives a slot that can be given out. -/
theorem findSlot_some {s : State} {p : Nat} : ∀ {fuel i : Nat}, s.findSlot fuel i = some p → s.slotFree p = true
  | fuel + 1, i, h => by
    rw [State.findSlot] at h
    split at h
    · rename_i hf; cases h; exact hf
    · exact findSlot_some h

/-- With no channel group withdrawn and no band waiting, a slot that is not in use can be given out. -/
theorem findSlot_isSome {s : State} {i : Nat} (hw : s.store.withdrawn = []) (hl : s.store.lentWaiter = none)
    (hu : s.store.dramUsed.length < s.store.poolSlots) : ∃ p, s.findSlot ((s.store.dramUsed.length + 1) * 64) i = some p := by
  cases hf : s.findSlot ((s.store.dramUsed.length + 1) * 64) i with
  | some p => exact ⟨p, rfl⟩
  | none =>
    exfalso
    have ho : s.openSlots = s.store.poolSlots := by simp [State.openSlots, hl]
    have hall := findSlot_none hf
    rw [ho] at hall
    let xs := (List.range (s.store.dramUsed.length + 1)).map fun j => poolBase + (i + j) % s.store.poolSlots
    have hnd : xs.Nodup := by
      refine List.Nodup.map_on ?_ List.nodup_range
      intro a ha b hb h
      simp only [List.mem_range] at ha hb
      exact mod_add_inj (n := s.store.poolSlots) (i := i) (by omega) (by omega) (by omega)
    have hsub : xs ⊆ s.store.dramUsed := by
      intro p hp
      obtain ⟨j, hj, rfl⟩ := List.mem_map.1 hp
      simp only [List.mem_range] at hj
      have h := hall j (by omega)
      have hlt : (i + j) % s.store.poolSlots < s.store.poolSlots := Nat.mod_lt _ (by omega)
      have ha : poolBase ≤ poolBase + (i + j) % s.store.poolSlots ∧
          poolBase + (i + j) % s.store.poolSlots < poolBase + s.store.poolSlots := ⟨by omega, by omega⟩
      simp only [State.slotFree, ho, hw, List.contains_nil, Bool.not_false, Bool.and_true] at h
      rw [decide_eq_true ha, Bool.and_true] at h
      simpa using h
    have := (hnd.subperm hsub).length_le
    simp [xs] at this

/-- What taking slots leaves: only the list of slots in use changes in the tiers, and what needs no memory stays. -/
def Took (s t : State) (n : Nat) : Prop :=
  t.store = { s.store with dramUsed := t.store.dramUsed } ∧ t.store.dramUsed.length = s.store.dramUsed.length + n ∧
    t.tenants = s.tenants ∧ t.cxl.slabs = s.cxl.slabs ∧ t.cfg = s.cfg ∧ t.box = s.box

/-- With no channel group withdrawn and no band waiting, a slot that is not in use can be taken. -/
theorem takeSlot_ok {s : State} (hw : s.store.withdrawn = []) (hl : s.store.lentWaiter = none)
    (hu : s.store.dramUsed.length < s.store.poolSlots) : ∃ p t, s.takeSlot = some (p, t) ∧ Took s t 1 := by
  obtain ⟨p, hp⟩ := findSlot_isSome (s := { s with freeCount := s.freeCount + 1 })
    (i := Config.freeValue s.freeCount % s.openSlots) hw hl hu
  obtain ⟨t, ht, hor⟩ : ∃ t, s.takeSlot = some (p, t) ∧
      let u := { s with freeCount := s.freeCount + 1, store := { s.store with dramUsed := p :: s.store.dramUsed } }.zeroSlot 1 p
      (t = u ∨ t = u.setFlag Flag.lowWaterHit) := by
    simp only [State.takeSlot, State.free, hp]
    refine ⟨_, rfl, ?_⟩
    exact (ite_eq_or_eq _ _ _).symm
  refine ⟨p, t, ht, ?_⟩
  rcases hor with rfl | rfl <;> exact ⟨rfl, rfl, rfl, rfl, rfl, rfl⟩

/-- With no channel group withdrawn and no band waiting, slots that are not in use can be taken. -/
theorem takeSlots_ok : ∀ {n : Nat} {s : State}, s.store.withdrawn = [] → s.store.lentWaiter = none →
    s.store.dramUsed.length + n ≤ s.store.poolSlots → ∃ a t, State.takeSlots n s = some (a, t) ∧ a.length = n ∧ Took s t n
  | 0, s, _, _, _ => ⟨[], s, rfl, rfl, rfl, rfl, rfl, rfl, rfl, rfl⟩
  | n + 1, s, hw, hl, hu => by
    obtain ⟨p, t, h, h1, h2, h3, h4, h5, h6⟩ := takeSlot_ok hw hl (by omega)
    have hw' : t.store.withdrawn = [] := by rw [h1]; exact hw
    have hl' : t.store.lentWaiter = none := by rw [h1]; exact hl
    have hp' : t.store.poolSlots = s.store.poolSlots := by rw [h1]
    obtain ⟨a, u, g, g0, g1, g2, g3, g4, g5, g6⟩ := takeSlots_ok (n := n) hw' hl' (by omega)
    refine ⟨p :: a, u, by simp [State.takeSlots, h, g], by simp [g0], ?_, by omega, by rw [g3, h3], by rw [g4, h4], by rw [g5, h5],
      by rw [g6, h6]⟩
    rw [g1, h1]

/-- Whether a tenant may take slots is known from its use, the tiers and the number of slots in use. -/
theorem dramNeed_of {s t : State} {tag : W16} {n : Nat} (h : t.store = { s.store with dramUsed := t.store.dramUsed })
    (hw : s.store.withdrawn = []) (hc : t.cfg = s.cfg) : t.dramNeed tag n =
      ({ s with tenants := t.tenants, store := { s.store with dramUsed := List.replicate t.store.dramUsed.length 0 } } : State).dramNeed tag n := by
  have hs : t.store.skeins = s.store.skeins := by rw [h]
  have hp : t.store.pins = s.store.pins := by rw [h]
  have hr : t.store.reloads = s.store.reloads := by rw [h]
  have hn : t.store.poolSlots = s.store.poolSlots := by rw [h]
  have hw' : t.store.withdrawn = [] := by rw [h]; exact hw
  have hall : ∀ l : List Nat, (l.filter fun _ => true) = l := fun l => List.filter_eq_self.2 fun _ _ => rfl
  simp only [State.dramNeed, State.overQuota, State.useOf, State.quotaOf, State.reserved, State.throttles, State.belowLow, State.belowMark,
    State.poolFree, hs, hp, hr, hn, hw', hw, hc, State.pinLeft, State.countLeaves, List.contains_nil, Bool.not_false, hall,
    List.length_replicate]
  rfl

/-! ## The queue window -/

/-- A search over all places fails only where no place is free. -/
theorem findWindow_none {s : State} {n : Nat} : ∀ {fuel i : Nat}, s.findWindow n fuel i = none →
    ∀ j, j < fuel → s.windowFree ((i + j) % windowUnits) n = false
  | fuel + 1, i, h, j, hj => by
    rw [State.findWindow] at h
    split at h
    · cases h
    · rename_i hf
      cases j with
      | zero => simpa using hf
      | succ j => have := findWindow_none h j (by omega); rwa [show i + 1 + j = i + (j + 1) by omega] at this

/-- An area is mapped where some place of the window is free. -/
theorem mapArea_ok {s : State} {m : Nat} {tenant : Option Nat} {a : Area} {w : Nat} (hw : w < windowUnits)
    (h : s.windowFree w a.length = true) : ∃ u t, s.mapArea m tenant a = some (u * slotBytes, t) ∧
      t.cxl.slabs = s.cxl.slabs ++ [{ mb := m, woff := u, area := a, tenant }] ∧ t.store = s.store ∧ t.tenants = s.tenants ∧
      t.cfg = s.cfg ∧ t.box = s.box := by
  simp only [State.mapArea, State.free]
  cases hf : ({ s with freeCount := s.freeCount + 1 } : State).findWindow a.length windowUnits (Config.freeValue s.freeCount % windowUnits) with
  | some u => exact ⟨u, _, rfl, rfl, rfl, rfl, rfl, rfl⟩
  | none =>
    exfalso
    have hlt : Config.freeValue s.freeCount % windowUnits < windowUnits := Nat.mod_lt _ (by decide)
    have := findWindow_none hf ((w + windowUnits - Config.freeValue s.freeCount % windowUnits) % windowUnits) (Nat.mod_lt _ (by decide))
    rw [show (Config.freeValue s.freeCount % windowUnits + (w + windowUnits - Config.freeValue s.freeCount % windowUnits) % windowUnits)
      % windowUnits = w by simp only [windowUnits] at *; omega] at this
    exact Bool.noConfusion (h.symm.trans this)

/-- A ring within quota and pool, where some place of the window is free, is made and charged. -/
theorem newRing_ok {s : State} {m bytes : Nat} {tag : W16} (w : Nat) (hq : s.dramNeed tag (slotsFor bytes) = .ok ())
    (hw : s.store.withdrawn = []) (hl : s.store.lentWaiter = none) (hu : s.store.dramUsed.length + slotsFor bytes ≤ s.store.poolSlots)
    (hlt : w < windowUnits) (hf : s.windowFree w (slotsFor bytes) = true) :
    ∃ a u t, s.newRing m tag bytes = .ok (a, u * slotBytes, t) ∧ a.length = slotsFor bytes ∧
      t.store = { s.store with dramUsed := t.store.dramUsed } ∧ t.store.dramUsed.length = s.store.dramUsed.length + slotsFor bytes ∧
      t.tenants = (s.charge tag qDram (slotsFor bytes)).tenants ∧
      t.cxl.slabs = s.cxl.slabs ++ [{ mb := m, woff := u, area := a, tenant := some (tidOf tag) }] ∧ t.cfg = s.cfg ∧ t.box = s.box := by
  obtain ⟨a, t, h, h0, h1, h2, h3, h4, h5, h6⟩ := takeSlots_ok hw hl hu
  have hf' : t.windowFree w a.length = true := by rw [h0]; simpa [State.windowFree, h4] using hf
  obtain ⟨u, v, g, g1, g2, g3, g4, g5⟩ := mapArea_ok (m := m) (tenant := some (tidOf tag)) hlt hf'
  refine ⟨a, u, v.charge tag qDram (slotsFor bytes), ?_, h0, ?_⟩
  · simp only [State.newRing, hq, h, g, bind, Except.bind]
  · simp only [State.charge, State.modTenant, g1, g2, g3, g4, g5, h2, h3, h4, h5, h6, and_self, and_true]
    rw [h1]

/-- Slabs within quota and pool are taken and charged. -/
theorem takeSlabs_ok {s : State} {tag : W16} {n : Nat} (hq : s.dramNeed tag n = .ok ()) (hw : s.store.withdrawn = [])
    (hl : s.store.lentWaiter = none) (hu : s.store.dramUsed.length + n ≤ s.store.poolSlots) :
    ∃ a t, s.takeSlabs tag n = .ok (a, t) ∧ t.store = { s.store with dramUsed := t.store.dramUsed } ∧
      t.store.dramUsed.length = s.store.dramUsed.length + n ∧ t.tenants = (s.charge tag qDram n).tenants ∧ t.cfg = s.cfg := by
  obtain ⟨a, t, h, h0, h1, h2, h3, h4, h5, h6⟩ := takeSlots_ok hw hl hu
  refine ⟨a, t.charge tag qDram n, ?_, ?_⟩
  · simp only [State.takeSlabs, hq, h, bind, Except.bind]; rfl
  · simp only [State.charge, State.modTenant, h2, h3, h5, and_self, and_true]
    rw [h1]

/-- A skein whose tables, reel and history can have their slots grows. -/
theorem grow_ok {s : State} {idx : Nat} {g : Growth} {k : Skein} (hk : s.skein? idx = some k) (hw : s.store.withdrawn = [])
    (hl : s.store.lentWaiter = none) (hu : s.store.dramUsed.length + g.slots k ≤ s.store.poolSlots) : ∃ t, s.grow idx g = some t := by
  obtain ⟨a, t, h, -⟩ := takeSlots_ok hw hl hu
  simp only [State.grow, hk, h]
  exact ⟨_, rfl⟩

/-- What a skein is set to is what it is. -/
theorem skein_set (s : State) (i : Nat) (k : Skein) : (s.setSkein i k).skein? i = some k := by
  simp [State.setSkein, State.skein?]

/-- Carding the first tokens of a new bobbin takes a slot where there is one. -/
theorem cardBobbin_new {s : State} {idx : Nat} {a : Append} {b lo hi : Nat} {k : Skein} (hk : s.skein? idx = some k)
    (hl : tget k.leaves (a.row * 65536 + b) = none) (hw : s.store.withdrawn = []) (hl' : s.store.lentWaiter = none)
    (hu : s.store.dramUsed.length < s.store.poolSlots) :
    ∃ (t : State) (l : Skein), s.cardBobbin idx a true b lo hi = some (t.setSkein idx l) := by
  obtain ⟨p, t, h, -⟩ := takeSlot_ok hw hl' hu
  simp only [State.cardBobbin, hk, State.appendBobbin, hl, State.slubsFor, true_or, if_true, h, bind, Option.bind, pure]
  exact ⟨_, _, rfl⟩

/-- An APPEND to an empty row that stays within its first bobbin is written where there are slots. -/
theorem writeAppend_new {s : State} {idx hi : Nat} {a : Append} {g : Growth} {k : Skein} (hk : s.skein? idx = some k)
    (hs : s.shedFor k (k.withReel a) = s) (hn : k.rowLength a.row = 0) (hb : bobbinRanges k.cap 0 a.last = [(0, 0, hi)])
    (hl : tget k.leaves (a.row * 65536) = none) (hw : s.store.withdrawn = []) (hl' : s.store.lentWaiter = none)
    (hu : s.store.dramUsed.length + g.slots k < s.store.poolSlots) : ∃ u, s.writeAppend idx k a g = some u := by
  obtain ⟨c, t, h, -, h1, h2, -⟩ := takeSlots_ok hw hl' (Nat.le_of_lt hu)
  have hp : t.store.poolSlots = s.store.poolSlots := by rw [h1]
  obtain ⟨k1, w, hg, hwk, hws, hk1⟩ : ∃ (k1 : Skein) (w : State), s.grow idx g = some w ∧ w.skein? idx = some k1 ∧
      w.store = (t.setSkein idx k1).store ∧ k1.leaves = k.leaves := by
    simp only [State.grow, hk, h]
    refine ⟨_, _, rfl, skein_set t idx _, rfl, rfl⟩
  obtain ⟨v, l, hv⟩ := cardBobbin_new (idx := idx) (a := a) (b := 0) (lo := 0) (hi := hi) hwk (by rw [hk1, Nat.add_zero]; exact hl)
    (by rw [hws, State.setSkein_store, h1]; exact hw) (by rw [hws, State.setSkein_store, h1]; exact hl')
    (by rw [hws, State.setSkein_store]; show t.store.dramUsed.length < t.store.poolSlots; omega)
  simp only [State.writeAppend, hs, hn, hg, hb, List.foldlM, hv, bind, Option.bind, beq_self_eq_true, skein_set, pure]
  exact ⟨_, rfl⟩

end Sys2Proof.Machine
end

