-- ==== Sys2Proof/Laws/Power.lean ====
section
/-!
SUPPORT. Stops, link power, sensors, low water and margin sweeps: what each leaves alone.
-/
namespace Sys2Proof.Machine

/-- the sweep's fold -/
def sweepOne (points : List (Nat × Nat)) (vl vh fl fh : Int) (n : Nat) (acc : List (List Byte) × Nat × State) (i : Nat) : List (List Byte) × Nat × State :=
    let (v, s) := sweepAt acc.2.2 vl vh n i
    let (f, s) := sweepAt s fl fh n i
    let (e, o, s) := match points[i]? with
      | some p => (p.1 % 2 ^ 32, p.2 % 2 ^ 64, s)
      | none =>
        let (e, s) := s.free (2 ^ 32)
        let (o, s) := s.free (2 ^ 64)
        (e, o, s)
    (acc.1 ++ [toLe 2 (BitVec.ofInt 16 v).toNat ++ toLe 2 (BitVec.ofInt 16 f).toNat ++ toLe 4 e ++ toLe 8 o],
      acc.2.1 + (if e = 0 then 0 else 1), s)

/-- A measured point changes no more than the count of free values. -/
theorem sweepAt_state (s : State) (l h : Int) (n i : Nat) : ∃ k, (sweepAt s l h n i).2 = { s with freeCount := k } := by
  simp only [sweepAt]
  split
  · exact ⟨s.freeCount, rfl⟩
  · split
    · exact ⟨s.freeCount, rfl⟩
    · exact ⟨_, rfl⟩

theorem sweepOne_eq (points : List (Nat × Nat)) (vl vh fl fh : Int) (n : Nat) (acc : List (List Byte) × Nat × State) (i : Nat) :
    ∃ b k f, b.length = 16 ∧ f ≤ 1 ∧ (∀ p, points[i]? = some p → p.1 < 2 ^ 32 → f = if p.1 = 0 then 0 else 1) ∧
      sweepOne points vl vh fl fh n acc i = (acc.1 ++ [b], acc.2.1 + f, { acc.2.2 with freeCount := k }) := by
  obtain ⟨k1, h1⟩ := sweepAt_state acc.2.2 vl vh n i
  obtain ⟨k2, h2⟩ := sweepAt_state { acc.2.2 with freeCount := k1 } fl fh n i
  generalize hv : (sweepAt acc.2.2 vl vh n i).1 = v
  generalize hf : (sweepAt { acc.2.2 with freeCount := k1 } fl fh n i).1 = f
  cases hp : points[i]? with
  | some p =>
    refine ⟨toLe 2 (BitVec.ofInt 16 v).toNat ++ toLe 2 (BitVec.ofInt 16 f).toNat ++ toLe 4 (p.1 % 2 ^ 32) ++ toLe 8 (p.2 % 2 ^ 64), k2,
      if p.1 % 2 ^ 32 = 0 then 0 else 1, by simp [toLe_length], by split <;> decide, ?_, ?_⟩
    · intro p' e l; cases e; rw [Nat.mod_eq_of_lt l]
    · simp only [sweepOne, h1, h2, hp, hv, hf]
  | none =>
    refine ⟨toLe 2 (BitVec.ofInt 16 v).toNat ++ toLe 2 (BitVec.ofInt 16 f).toNat ++ toLe 4 (Config.freeValue k2 % 2 ^ 32) ++
      toLe 8 (Config.freeValue (k2 + 1) % 2 ^ 64), k2 + 2, if Config.freeValue k2 % 2 ^ 32 = 0 then 0 else 1, by simp [toLe_length], by split <;> decide, ?_, ?_⟩
    · intro p' e l; cases e
    · simp only [sweepOne, h1, h2, hp, hv, hf, State.free]

/-- A margin sweep measures each point once: 16 bytes a point, and no other field of the state changes. -/
theorem sweep_fold (points : List (Nat × Nat)) (vl vh fl fh : Int) (n : Nat) (l : List Nat) (acc : List (List Byte) × Nat × State) :
    ∃ R k f, R.flatten.length = 16 * l.length ∧ f ≤ l.length ∧
    ((∀ i ∈ l, i < points.length) → (∀ p ∈ points, p.1 < 2 ^ 32) → f = l.countP (fun i => decide ((points.getD i (0,0)).1 ≠ 0))) ∧
    l.foldl (sweepOne points vl vh fl fh n) acc = (acc.1 ++ R, acc.2.1 + f, { acc.2.2 with freeCount := k }) := by
  induction l generalizing acc with
  | nil => exact ⟨[], acc.2.2.freeCount, 0, rfl, by simp, by simp, by simp⟩
  | cons i l ih =>
    obtain ⟨b, k1, f1, hb, hf1, hc1, e1⟩ := sweepOne_eq points vl vh fl fh n acc i
    obtain ⟨R, k, f, hR, hf, hc, e⟩ := ih (sweepOne points vl vh fl fh n acc i)
    refine ⟨b :: R, k, f1 + f, by simp [hR, hb]; omega, by simp; omega, ?_, ?_⟩
    · intro q q2
      have hi : i < points.length := q i (by simp)
      rw [List.countP_cons, ← hc (fun j hj => q j (by simp [hj])) q2, hc1 points[i] (List.getElem?_eq_getElem hi) (q2 _ (List.getElem_mem hi))]
      simp only [List.getD_eq_getElem?_getD, List.getElem?_eq_getElem hi, Option.getD_some]
      by_cases z : points[i].1 = 0 <;> simp [z] <;> omega
    · rw [List.foldl_cons, e, e1]
      simp only [List.append_assoc, List.singleton_append, Nat.add_assoc]

/-- A note of low water changes the tier flags alone. -/
theorem noteLow_kept (s : State) (was : Bool) : (s.noteLow was).cfg = s.cfg ∧ (s.noteLow was).store = s.store := by
  unfold State.noteLow; split <;> exact ⟨rfl, rfl⟩

theorem cxlFull_kept (s : State) : ∃ c, s.cxlFull = { s with cxl := c } := by
  unfold State.cxlFull; split <;> exact ⟨_, rfl⟩

/-- An L0p request is granted or leaves the link as it is. -/
theorem l0p_kept (s : State) (n : Nat) : (s.requestL0p n = s ∨
    (s.cxl.flit256 = true ∧ [1, 2, 4, 8].contains n = true ∧ n < s.cxl.width ∧ s.requestL0p n = { s with cxl := { s.cxl with linkState := 3, width := n } })) := by
  unfold State.requestL0p
  split
  · next h => exact .inr ⟨h.1, h.2.2.1, h.2.2.2, rfl⟩
  · exact .inl rfl

/-- A flush writes the creel alone. -/
theorem flush_kept (s : State) : ∃ n c, s.flush = { s with freeCount := n, creel := c } := ⟨_, _, rfl⟩

/-- A stop loses what volatile memory held and keeps the rest. -/
theorem stop_kept (s : State) : ∃ n c b, s.stop = State.modPower (State.lose { s with freeCount := n, creel := c, boot := b })
    fun p => { p with stopped := true, state := .run, target := .run } := by
  have core : ∀ (v : State), v = s.flush ∨ v = s → ∃ n c b, ({ v with boot := { v.boot with fromStandby := false, standbyTarget := .run } } : State) = { s with freeCount := n, creel := c, boot := b } := by
    intro v h
    rcases h with h | h
    · obtain ⟨n, c, e⟩ := flush_kept s; rw [h, e]; exact ⟨_, _, _, rfl⟩
    · rw [h]; exact ⟨_, _, _, rfl⟩
  obtain ⟨n, c, b, e⟩ := core (if ((s.boot.state == .ready || s.boot.state == .activating) && s.power.state != .standby) = true then s.flush else s) (by split <;> simp)
  refine ⟨n, c, b, ?_⟩
  rw [← e]; rfl

/-- The sensors' thresholds (R507). -/
theorem throttle_cases (n : Nat) : (throttleAt n, tripAt n) = if n = 1 then (some 100, some 115) else if 2 ≤ n ∧ n ≤ 9 then (some 90, some 105)
    else if n = 10 then (some 75, some 90) else if 11 ≤ n ∧ n ≤ 14 then (some 80, some 95) else if n = 15 then (some 110, some 125) else (none, none) := by
  unfold throttleAt tripAt
  repeat' split
  all_goals first | rfl | omega

theorem tenantDrained_writeSystem (s : State) (a : SysArea) (n : Nat) : (s.writeSystem a n).tenants = s.tenants := rfl

theorem lentFold_tenants (l : List (Nat × Nat)) (s : State) : (l.foldl State.zeroLent s).tenants = s.tenants := by
  induction l generalizing s with
  | nil => rfl
  | cons a l ih => exact (ih _).trans rfl

end Sys2Proof.Machine
end

