-- ==== Sys2Proof/Laws/Turn.lean ====
section
/-!
SUPPORT. What a mailbox command's row does at its turn: the command's own body runs, and its outcome is answered; and how the checks of
a body go on one after another. The claims about commands rest on these.
-/
namespace Sys2Proof.Machine

theorem cmdRow_turn {op m slot s c tag} (body : Ctx → State → CmdM) (h : Turn op m slot s c tag) :
   cmdRow op body m slot s = .next (match body {c, tag} s with
     | .error (st, detail, slots) => s.completeCmd 8 c st detail (s.retryFor st slots) []
     | .ok (.done s' result) => s'.completeCmd 8 c St.ok 0 0 result
     | .ok (.ended s' st result) => s'.completeCmd 8 c st 0 0 result
     | .ok (.wait s') => s'.commitCmd c
     | .ok (.pend s') => s').fetchAll := by
  obtain ⟨hb, ht, hs, ⟨sp, h1, h2, h3⟩, he⟩ := h
  have ho : c.opcode = op := by
    have := List.find?_some ht
    simp at this; exact this.1.2
  subst ho
  have hb' : ¬ (m ≥ 1024) := by omega
  rw [cmdRow, if_neg hb', ht]; dsimp only; rw [if_pos hs]
  simp only [State.runCmd, found, h1, h2, h3, State.gateByState, he, if_true, bind, Except.bind]
  all_goals rfl

/-- A command whose own part ends it is answered ST_OK with its result. -/
theorem done_of {op m slot s c tag s' r} {body : Ctx → State → CmdM} (h : Turn op m slot s c tag) (hb : body {c, tag} s = .ok (.done s' r)) :
    cmdRow op body m slot s = .next (s'.answered c St.ok r) := by rw [cmdRow_turn body h, hb]; rfl

/-- A command whose own part ends it with a status is answered with that status. -/
theorem ended_of {op m slot s c tag s' st r} {body : Ctx → State → CmdM} (h : Turn op m slot s c tag) (hb : body {c, tag} s = .ok (.ended s' st r)) :
    cmdRow op body m slot s = .next (s'.answered c st r) := by rw [cmdRow_turn body h, hb]; rfl

/-- A command that goes on is committed and answered later. -/
theorem wait_of {op m slot s c tag s'} {body : Ctx → State → CmdM} (h : Turn op m slot s c tag) (hb : body {c, tag} s = .ok (.wait s')) :
    cmdRow op body m slot s = .next (s'.commitCmd c).fetchAll := by rw [cmdRow_turn body h, hb]

/-- A command that stays before its commit point leaves the state its own part gives. -/
theorem pend_of {op m slot s c tag s'} {body : Ctx → State → CmdM} (h : Turn op m slot s c tag) (hb : body {c, tag} s = .ok (.pend s')) :
    cmdRow op body m slot s = .next s'.fetchAll := by rw [cmdRow_turn body h, hb]

/-- A refused command is answered with the refusal's status, detail and retry hint. -/
theorem err_of {op m slot s c tag st d n} {body : Ctx → State → CmdM} (h : Turn op m slot s c tag) (hb : body {c, tag} s = .error (st, d, n)) :
    cmdRow op body m slot s = .next (s.completeCmd 8 c st d (s.retryFor st n) []).fetchAll := by rw [cmdRow_turn body h, hb]

/-- A refusal without a detail, other than ST_BACKPRESSURE, is answered as an end with that status. -/
theorem err0_of {op m slot s c tag st} {body : Ctx → State → CmdM} (h : Turn op m slot s c tag) (hb : body {c, tag} s = .error (st, 0, 0))
    (hn : st ≠ St.backpressure) : cmdRow op body m slot s = .next (s.answered c st []) := by
  rw [err_of h hb, State.retryFor, if_neg hn]; rfl

/-- A check that passes goes on to the next. -/
theorem ok_bind {ε α β} (x : α) (f : α → Except ε β) : (Except.ok x >>= f) = f x := rfl

/-- A check that fails ends the sequence. -/
theorem err_bind {ε α β} (x : ε) (f : α → Except ε β) : ((Except.error x : Except ε α) >>= f) = Except.error x := rfl

theorem pure_ok {ε α} (x : α) : (pure x : Except ε α) = Except.ok x := rfl

@[simp] theorem need_true (st : Nat) : need true st = .ok () := rfl

@[simp] theorem req_true (st : Nat) : req true st = .ok () := rfl

@[simp] theorem req_false (st : Nat) : req false st = .error (st, 0, 0) := rfl

/-- A requirement that holds goes on. -/
theorem req_then {α} {c : Bool} {st : Nat} {f : Unit → Except CmdErr α} (h : c = true) : (req c st >>= f) = f () := by subst h; rfl

theorem mode_then {α} {c : Bool} {f : Unit → Except CmdErr α} (h : c = true) : (mode c >>= f) = f () := by subst h; rfl

theorem inRange_then {α} {c : Bool} {o : Nat} {f : Unit → Except CmdErr α} (h : c = true) : (inRange c o >>= f) = f () := by subst h; rfl

theorem found_then {α β} {x : Option β} {y : β} {st : Nat} {f : β → Except CmdErr α} (h : x = some y) : (found st x >>= f) = f y := by subst h; rfl

theorem within_then {α β} {x : Res β} {y : β} {n : Nat} {f : β → Except CmdErr α} (h : x = .ok y) : (within n x >>= f) = f y := by subst h; rfl

theorem need_then {α} {c : Bool} {st : Nat} {f : Unit → Res α} (h : c = true) : (need c st >>= f) = f () := by subst h; rfl

theorem ite_then {α} {c : Prop} [Decidable c] {e : CmdErr} {f : Unit → Except CmdErr α} (h : c) :
  ((if c then Except.ok () else Except.error e) >>= f) = f () := by rw [if_pos h]; rfl

end Sys2Proof.Machine
end

