-- ==== Sys2Proof/Laws/Work.lean ====
section
/-!
SUPPORT. Rows of queues, whorls and messages: when they run, and the operations they share.
-/
namespace Sys2Proof.Machine

/-- A job-queue row whose turn it is takes the head entry. -/
theorem head_row {mine : List Byte → Bool} {q s j e es b f} (h : AtHead s q j e es b) (hm : mine b = true) :
    headRow mine q s f = .next (f { j with entries := es } e b (s.popped q es)) := by
  have h1 := h.there; have h2 := h.turn; have h3 := h.awake; have h4 := h.entries; have h5 := h.reads; have h6 := h.bytes; have h7 := h.goes
  subst h6
  simp only [headRow, h1]
  rw [if_neg (by simp [h2, h3])]
  simp only [h4, h5, hm, h7]
  simp only [State.popped]; rfl

/-- A list of results that are all good is good. -/
theorem mapM_ok {α β ε : Type} (f : α → Except ε β) (g : α → β) : ∀ (l : List α), (∀ a ∈ l, f a = .ok (g a)) → l.mapM f = .ok (l.map g)
  | [], _ => rfl
  | a :: l, h => by
    rw [List.mapM_cons, h a (by simp), mapM_ok f g l (fun x hx => h x (by simp [hx]))]; rfl

theorem whorl_row {ops : Nat → Bool} {q s j e es b f} (h : AtHead s q j e es b) (hr : s.power.state = .run) (t : field b 0 1 = 0x12) (ho : ops (wcOp b) = true) :
    whorlRow ops q s f = .next (let x := f j.tenant e b (s.popped q es); x.2.completeEntry q e b x.1 (x.2.retryFor x.1 (wcKeys b).length)) := by
  rw [whorlRow, if_neg (by simp [hr])]
  rw [head_row h (by simp [t, ho])]

/-- A message row at the head of its connection runs the message. -/
theorem msg_row {c seq op s k r f} (h : s.ready? c seq op = some (k, r)) : msgRow c seq op s f = .next (f k r r.payload s) := by
  rw [msgRow, h]

/-- A message row whose message is not the next changes nothing (R296). -/
theorem not_ready {c seq : Nat} {s : State} {k : Conn} {r : Reasm} (op : Nat) (h1 : s.conn? c = some k) (h2 : s.reasm? c seq false = some r)
    (h : k.state = .error ∨ seq ≠ (k.lcs + 1) % 2 ^ 32 ∨ r.opcode ≠ op ∨ r.total ≠ some r.got ∨ s.awake = false) : s.ready? c seq op = none := by
  simp only [State.ready?, h1, h2]
  refine if_neg fun g => ?_
  simp only [Bool.and_eq_true, bne_iff_ne, beq_iff_eq, Reasm.received] at g
  obtain ⟨⟨⟨⟨g1, g2⟩, g3⟩, g4⟩, g5⟩ := g
  rcases h with h | h | h | h | h
  · exact g1 h
  · exact h g3
  · exact h g4
  · exact h g5
  · exact Bool.noConfusion (h.symm.trans g2)

theorem endReasm_time (s : State) (c seq : Nat) (b : Bool) : (s.endReasm c seq b).time = s.time := by
  unfold State.endReasm
  split
  · rfl
  · dsimp only; split <;> rfl

/-- A response is matched to its request and completes it. -/
theorem take_response {c seq : Nat} {s : State} {k : Conn} {r : Reasm} {m : Msg} {op : Nat} (h1 : s.conn? c = some k)
    (h2 : s.reasm? c seq true = some r) (h3 : k.unacked.find? (fun m => m.seq == seq) = some m) (h4 : r.total = some r.got)
    (h5 : s.awake = true) (h6 : r.opcode = op) :
    let t := (s.endReasm c seq true).modConn c fun k => { k with unacked := k.unacked.filter fun x => x.seq != seq }
    s.takeResponse c seq op = if r.payload.length ≠ m.bytes then (t.endMsg c m St.lengthRange 0).settle c
        else match t.placeLocal k.tenant m.lkey m.loff r.payload with
          | .ok s => (s.endMsg c m St.ok 0).settle c
          | .error st => (t.endMsg c m st 0).settle c := by
  intro t
  simp only [State.takeResponse, h1, h2, h3]
  exact if_neg (by simp [Reasm.received, h4, h5, h6])

theorem run_atomic {s : State} {c seq : Nat} {k : Conn} {r : Reasm} {p swap old t} (h : s.atomicFor k.tenant r.key r.roff p swap = .ok (old, t)) :
    s.runAtomic c seq k r p swap = ((t.modConn c fun k => k.recordAtomic seq old).respond c Op.atomicResponse seq (toLe 8 old.toNat)).completeRx c seq r.ackReq St.ok 0 := by
  rw [State.runAtomic, h]

theorem atomic_on_buffer {s : State} {tag : W16} {key : W32} {roff : W64} {p : List Byte} {g : Region} (swap : Bool)
    (h1 : s.regionGrant tag key rightAtomic = .ok g) (h2 : g.kind = 1) (h3 : p.length = 16) (h4 : roff.toNat % 8 = 0)
    (h5 : roff.toNat + 8 ≤ g.length) (h6 : swap = true ∨ (BitVec.ofNat 64 (field p 8 8) : W64) = 0) :
    let a : W64 := BitVec.ofNat 64 (field p 0 8)
    let b : W64 := BitVec.ofNat 64 (field p 8 8)
    s.atomicFor tag key roff p swap = .ok (s.atomicBuffer g roff.toNat fun old => if swap then (if old = b then a else old) else old + a) := by
  intro a b
  refine (congrArg (· >>= _) h1).trans ((ok_bind _ _).trans ?_)
  refine (need_then (by simp [h3])).trans ?_
  refine (need_then (by rcases h6 with h | h <;> simp [h])).trans ?_
  refine (need_then (by simp [h2])).trans ?_
  refine (need_then (by simp [h4, Region.size, h2, h5])).trans ?_
  rw [if_neg (by simp [h2])]; rfl

theorem atomic_on_lease {s : State} {tag : W16} {key : W32} {p : List Byte} {g : Region} {sk : Skein}
    (h1 : s.regionGrant tag key rightAtomic = .ok g) (h2 : g.kind = 3) (h3 : p.length = 16) (h4 : s.skeinFor tag g.skein = some sk) :
    s.atomicFor tag key 0 p true = match s.swapLease (skIndex g.skein) (BitVec.ofNat 64 (field p 8 8)) (BitVec.ofNat 64 (field p 0 8)) with
      | none => .error St.versionConflict
      | some (old, _, s) => .ok (old, s) := by
  refine (congrArg (· >>= _) h1).trans ((ok_bind _ _).trans ?_)
  refine (need_then (by simp [h3])).trans ?_
  refine (need_then (by simp)).trans ?_
  refine (need_then (by simp)).trans ?_
  refine (need_then (by simp [Region.size, h2])).trans ?_
  rw [if_pos h2]
  refine (need_then (by simp)).trans ?_
  show (match s.skeinFor tag g.skein with | none => _ | some _ => _) = _
  rw [h4]; rfl

theorem skein_modSkein (s : State) (i j : Nat) (f : Skein → Skein) : (s.modSkein i f).skein? j = if j = i then (s.skein? j).map f else s.skein? j :=
  tget_tmod _ _ _ _

theorem take_ctl {s : State} {c : Nat} {k : Conn} {x : Ctl} {rest : List Ctl} {nak : Bool} (h1 : s.conn? c = some k) (h2 : k.ctl = x :: rest)
    (h3 : x.nak = nak) (h4 : s.awake = true) :
    s.takeCtl c nak = some (k, x, s.modConn c fun k => { k with ctl := rest, credit := some x.credit }) := by
  simp only [State.takeCtl, h1, h2]; rw [if_pos (by simp [h3, h4])]

theorem hold_out {s : State} {a : HeldAction} (h0 : a.gone = false) (h1 : s.targetOk a.tenant a.bytes a.target = true) :
    s.holdOut a = if s.targetRoom a.bytes a.target = 0 then (false, s)
      else (true, (s.modWork fun w => { w with hold := w.hold.erase a }).deliver a.bytes a.target a.query a.trig) := by
  simp only [State.holdOut, h0, h1]; rfl

theorem deliver_hold (s : State) (b t q r) : (s.deliver b t q r).work.hold = s.work.hold := by
  simp only [State.deliver]; split <;> rfl

theorem drain_one {s : State} {a : HeldAction} (h : s.work.hold.find? (fun b => b.firing == a.firing) = some a) (n : Nat) :
    s.drainHold (n + 1) a.firing = if a.due ≤ s.time.now then (match s.holdOut a with
        | (true, s) => s.drainHold n a.firing
        | (false, s) => s) else s := by
  rw [State.drainHold, h] <;> rfl

theorem drain_none {s : State} {f : Nat} (h : s.work.hold.find? (fun b => b.firing == f) = none) : ∀ n, s.drainHold n f = s
  | 0 => rfl
  | n + 1 => by rw [State.drainHold, h]

end Sys2Proof.Machine
end

