-- ==== Sys2Proof/WellFormed.lean ====
section
/-!
DEFINITION. Which commands name units that the module has (R17, R22, R119, R280, R337, R374): every operand that is an
index lies below the number of its kind. A Breus instruction obeys what the load checks ask of a word alone (R184–R186).
-/
namespace Sys2Proof

/-- Whether every unit that a command names exists, and a Breus word is none that R184–R186 shut out. -/
def Instr.wf : Instr → Bool
  | .sqTailWrite ld m _ => decide (ld < 16) && decide (m < 1024)
  | .cqHeadWrite ld m _ => decide (ld < 16) && decide (m < 1024)
  | .eventHeadWrite ld m _ => decide (ld < 16) && decide (m < 1024)
  | .jobQueueDoorbell ld m _ => decide (ld < 16) && decide (m < 1024)
  | .sendQueueDoorbell ld m _ => decide (ld < 16) && decide (m < 1024)
  | .triggerRingDoorbell ld m _ => decide (ld < 16) && decide (m < 1024)
  | .srqDoorbell ld m _ => decide (ld < 16) && decide (m < 1024)
  | .cqHeadUpdate ld m _ => decide (ld < 16) && decide (m < 1024)
  | .w1cFlagWrite ld row _ _ => decide (ld < 16) && decide (row < 13)
  | .rcCounterRead ld row first _ _ => decide (ld < 16) && decide (row < 13) && decide (first < 32)
  | .timeNowLowRead ld => decide (ld < 16)
  | .timeNowHighRead ld => decide (ld < 16)
  | .recoveryGo ld _ => decide (ld < 16)
  | .registerWrite ld _ _ => decide (ld < 16)
  | .probeRead ld idx => decide (ld < 16) && decide (idx < 4194304)
  | .probeWrite ld idx => decide (ld < 16) && decide (idx < 4194304)
  | .lentRead ld _ => decide (ld < 16)
  | .lentWrite ld _ _ => decide (ld < 16)
  | .queueWindowAccess ld _ _ _ => decide (ld < 16)
  | .hdmDecoderCommit ld dec _ _ => decide (ld < 16) && decide (dec < 8)
  | .getInterfaceVersion m slot => decide (m < 1024) && decide (slot < 4096)
  | .setInterfaceVersion m slot => decide (m < 1024) && decide (slot < 4096)
  | .moduleInfo m slot => decide (m < 1024) && decide (slot < 4096)
  | .moduleConfigure m slot => decide (m < 1024) && decide (slot < 4096)
  | .ldConfigure m slot => decide (m < 1024) && decide (slot < 4096)
  | .mailboxBind m slot => decide (m < 1024) && decide (slot < 4096)
  | .mailboxUnbind m slot => decide (m < 1024) && decide (slot < 4096)
  | .tenantCreate m slot => decide (m < 1024) && decide (slot < 4096)
  | .tenantDestroy m slot => decide (m < 1024) && decide (slot < 4096)
  | .quotaSet m slot => decide (m < 1024) && decide (slot < 4096)
  | .tenantInfo m slot => decide (m < 1024) && decide (slot < 4096)
  | .skeinCreate m slot => decide (m < 1024) && decide (slot < 4096)
  | .skeinDestroy m slot => decide (m < 1024) && decide (slot < 4096)
  | .skeinInfo m slot => decide (m < 1024) && decide (slot < 4096)
  | .skeinSetHint m slot => decide (m < 1024) && decide (slot < 4096)
  | .leaseSwap m slot => decide (m < 1024) && decide (slot < 4096)
  | .programLoad m slot => decide (m < 1024) && decide (slot < 4096)
  | .programUnload m slot => decide (m < 1024) && decide (slot < 4096)
  | .tableLoad m slot => decide (m < 1024) && decide (slot < 4096)
  | .tableUnload m slot => decide (m < 1024) && decide (slot < 4096)
  | .cqCreate m slot => decide (m < 1024) && decide (slot < 4096)
  | .cqDestroy m slot => decide (m < 1024) && decide (slot < 4096)
  | .jobQueueCreate m slot => decide (m < 1024) && decide (slot < 4096)
  | .jobQueueDestroy m slot => decide (m < 1024) && decide (slot < 4096)
  | .jobCancel m slot => decide (m < 1024) && decide (slot < 4096)
  | .combineRelease m slot => decide (m < 1024) && decide (slot < 4096)
  | .queueStatus m slot => decide (m < 1024) && decide (slot < 4096)
  | .triggerListCreate m slot => decide (m < 1024) && decide (slot < 4096)
  | .triggerListDestroy m slot => decide (m < 1024) && decide (slot < 4096)
  | .triggerPost m slot => decide (m < 1024) && decide (slot < 4096)
  | .triggerCancel m slot => decide (m < 1024) && decide (slot < 4096)
  | .triggerResume m slot => decide (m < 1024) && decide (slot < 4096)
  | .connCreate m slot => decide (m < 1024) && decide (slot < 4096)
  | .connModify m slot => decide (m < 1024) && decide (slot < 4096)
  | .connDrain m slot => decide (m < 1024) && decide (slot < 4096)
  | .connDestroy m slot => decide (m < 1024) && decide (slot < 4096)
  | .srqCreate m slot => decide (m < 1024) && decide (slot < 4096)
  | .srqDestroy m slot => decide (m < 1024) && decide (slot < 4096)
  | .regionRegister m slot => decide (m < 1024) && decide (slot < 4096)
  | .regionDeregister m slot => decide (m < 1024) && decide (slot < 4096)
  | .linkSpare m slot => decide (m < 1024) && decide (slot < 4096)
  | .portConfigure m slot => decide (m < 1024) && decide (slot < 4096)
  | .shaperSet m slot => decide (m < 1024) && decide (slot < 4096)
  | .gateSet m slot => decide (m < 1024) && decide (slot < 4096)
  | .runCreate m slot => decide (m < 1024) && decide (slot < 4096)
  | .runAttach m slot => decide (m < 1024) && decide (slot < 4096)
  | .runRelease m slot => decide (m < 1024) && decide (slot < 4096)
  | .prefixInsert m slot => decide (m < 1024) && decide (slot < 4096)
  | .prefixRemove m slot => decide (m < 1024) && decide (slot < 4096)
  | .prefixProbe m slot => decide (m < 1024) && decide (slot < 4096)
  | .skeinDoff m slot => decide (m < 1024) && decide (slot < 4096)
  | .skeinReload m slot => decide (m < 1024) && decide (slot < 4096)
  | .tierPin m slot => decide (m < 1024) && decide (slot < 4096)
  | .tierUnpin m slot => decide (m < 1024) && decide (slot < 4096)
  | .lentGrant m slot => decide (m < 1024) && decide (slot < 4096)
  | .lentRevoke m slot => decide (m < 1024) && decide (slot < 4096)
  | .hostFence m slot => decide (m < 1024) && decide (slot < 4096)
  | .publicationCreate m slot => decide (m < 1024) && decide (slot < 4096)
  | .publicationDelete m slot => decide (m < 1024) && decide (slot < 4096)
  | .lentPublish m slot => decide (m < 1024) && decide (slot < 4096)
  | .publicationGet m slot => decide (m < 1024) && decide (slot < 4096)
  | .unitService m slot => decide (m < 1024) && decide (slot < 4096)
  | .marginSweep m slot _ => decide (m < 1024) && decide (slot < 4096)
  | .auditSet m slot => decide (m < 1024) && decide (slot < 4096)
  | .budgetSet m slot => decide (m < 1024) && decide (slot < 4096)
  | .healthRead m slot => decide (m < 1024) && decide (slot < 4096)
  | .sampleSet m slot => decide (m < 1024) && decide (slot < 4096)
  | .telemetryRead m slot => decide (m < 1024) && decide (slot < 4096)
  | .statsRead m slot => decide (m < 1024) && decide (slot < 4096)
  | .timeConfigure m slot => decide (m < 1024) && decide (slot < 4096)
  | .timeInfo m slot => decide (m < 1024) && decide (slot < 4096)
  | .powerStateSet m slot => decide (m < 1024) && decide (slot < 4096)
  | .powerCapSet m slot => decide (m < 1024) && decide (slot < 4096)
  | .dozeConfigure m slot => decide (m < 1024) && decide (slot < 4096)
  | .powerInfo m slot => decide (m < 1024) && decide (slot < 4096)
  | .firmwareStage m slot => decide (m < 1024) && decide (slot < 4096)
  | .firmwareActivate m slot _ => decide (m < 1024) && decide (slot < 4096)
  | .firmwareInfo m slot => decide (m < 1024) && decide (slot < 4096)
  | .svnCommit m slot => decide (m < 1024) && decide (slot < 4096)
  | .attestReport m slot => decide (m < 1024) && decide (slot < 4096)
  | .sessionOpen m slot _ => decide (m < 1024) && decide (slot < 4096)
  | .sessionClose m slot => decide (m < 1024) && decide (slot < 4096)
  | .jobAdmission q => decide (q < 65536)
  | .jobAdmissionResume _ => true
  | .admitWaitExpiry _ => true
  | .sketchWaitDone _ => true
  | .launchCountReached _ => true
  | .leaArrival _ _ lea spindle _ => decide (lea < 4) && decide (spindle < 8)
  | .spindleItemComplete _ _ => true
  | .spindleBarrierArrive _ spindle => decide (spindle < 8)
  | .jobStreamComplete _ _ => true
  | .spindleLeavesService spindle => decide (spindle < 8)
  | .combineDescriptorPost q => decide (q < 65536)
  | .copy q => decide (q < 65536)
  | .compact q => decide (q < 65536)
  | .verify q => decide (q < 65536)
  | .waitDescriptor kind q => decide (kind < 2) && decide (q < if kind = 0 then 65536 else 262144)
  | .waitCounterChange kind q => decide (kind < 2) && decide (q < if kind = 0 then 65536 else 262144)
  | .waitTimeoutExpiry kind q => decide (kind < 2) && decide (q < if kind = 0 then 65536 else 262144)
  | .workRequestPost c => decide (c < 262144)
  | .linkFrameReceive port _ _ => decide (port < 4)
  | .writeExecute c _ => decide (c < 262144)
  | .importWrite c _ => decide (c < 262144)
  | .readExecute c _ => decide (c < 262144)
  | .readResponseReceive c _ => decide (c < 262144)
  | .sendExecute c _ => decide (c < 262144)
  | .fetchAddExecute c _ => decide (c < 262144)
  | .compareSwapExecute c _ => decide (c < 262144)
  | .atomicResponseReceive c _ => decide (c < 262144)
  | .queryExecute c _ => decide (c < 262144)
  | .plyExecute c _ => decide (c < 262144)
  | .appendExecute c _ => decide (c < 262144)
  | .appendComplete c _ => decide (c < 262144)
  | .sketchUpdate stack => decide (stack < 8)
  | .blockHashCompute idx _ => decide (idx < 4194304)
  | .ackReceive c => decide (c < 262144)
  | .nakReceive c => decide (c < 262144)
  | .ackCoalesceExpiry c => decide (c < 262144)
  | .ackTimeoutExpiry c _ => decide (c < 262144)
  | .reassemblyTimeoutExpiry c _ => decide (c < 262144)
  | .timedHoldDelivery _ => true
  | .heldActionSlotFree _ => true
  | .frameTransmitEnd port => decide (port < 4)
  | .gateEntryChange port => decide (port < 4)
  | .gateListSwitch port => decide (port < 4)
  | .samplePeriodBoundary => true
  | .linkAckReceive port _ => decide (port < 4)
  | .replayReqReceive port _ => decide (port < 4)
  | .linkAckTimer port => decide (port < 4)
  | .linkReplayTimeout port => decide (port < 4)
  | .retrainLimitExpiry port => decide (port < 4)
  | .switchReceive port _ _ => decide (port < 4)
  | .wavelengthFailure port wl => decide (port < 4) && decide (wl < 9)
  | .laserBankFailure port => decide (port < 4)
  | .lossOfLight port => decide (port < 4)
  | .lossOfLightExpiry port => decide (port < 4)
  | .wakeRequestReceive port _ => decide (port < 4)
  | .resumedReceive port _ => decide (port < 4)
  | .enteringLowRateReceive port _ => decide (port < 4)
  | .syncReceive port _ _ => decide (port < 4)
  | .delayReqReceive port _ => decide (port < 4)
  | .delayRespReceive port _ _ => decide (port < 4)
  | .delayRespLimitExpiry port => decide (port < 4)
  | .syncInterval port => decide (port < 4)
  | .syncLossExpiry => true
  | .timeRefEdge => true
  | .referenceEdgeLoss => true
  | .handshakePacketReceive port _ _ _ => decide (port < 4)
  | .sessionRekey sess => decide (sess < 16384)
  | .keyPhaseOverlapExpiry sess => decide (sess < 16384)
  | .leaseExpiry idx => decide (idx < 4194304)
  | .orphanHoldEnd idx => decide (idx < 4194304)
  | .combineTimeoutExpiry id => decide (id < 16384)
  | .sweepStart => true
  | .bobbinMoveCommit _ => true
  | .bobbinMoveAbandon _ _ => true
  | .doffEnd idx => decide (idx < 4194304)
  | .reloadEnd idx => decide (idx < 4194304)
  | .damagedDemotion idx _ _ _ => decide (idx < 4194304)
  | .slotFree tier _ => decide (tier < 3)
  | .skeinRetirementEnd idx => decide (idx < 4194304)
  | .prefixShiftComplete => true
  | .prefixShadowCompare _ => true
  | .lentBandChangeComplete => true
  | .hostFenceDrain ld => decide (ld < 16)
  | .lentRevokeDrain entry => decide (entry < 4096)
  | .patrolBudgetPeriod _ _ => true
  | .calibrationStep chan _ _ => decide (chan < 1088)
  | .channelSpareCopyComplete stack chan => decide (stack < 8) && decide (chan < 128)
  | .channelFailure stack chan => decide (stack < 8) && decide (chan < 128)
  | .columnSelfTestComplete spindle failed => decide (spindle < 8) && failed.all fun c => decide (c < 516)
  | .healthRecompute _ => true
  | .shadowAudit _ _ lea auditor rows => decide (lea < 4) && decide (auditor < 8) && rows.all fun r => decide (r.2 < 516)
  | .auditArbiterComplete _ _ _ _ => true
  | .mergeStart _ => true
  | .mergeComplete _ => true
  | .mergeDestFail _ => true
  | .creelProgramFail _ => true
  | .creelEraseFail _ => true
  | .creelEraseComplete _ => true
  | .creelScanComplete _ => true
  | .creelPatrolPeriod _ _ _ => true
  | .inputMeasurement _ => true
  | .inputQualified => true
  | .senseBreak => true
  | .powerCapGovernorStep _ => true
  | .sensorThresholdCrossing sensor _ => decide (sensor < 256)
  | .hardTrip sensor _ => decide (sensor < 256)
  | .hardTripRailsOff => true
  | .coolantCheck _ _ _ => true
  | .holdEntryComplete => true
  | .dozeEntryReady => true
  | .dozeSample _ => true
  | .cxlWakeRequest ld _ _ _ _ => decide (ld < 16)
  | .dozeExitComplete => true
  | .moduleResetNAssert _ => true
  | .moduleResetNRelease => true
  | .perstNAssert => true
  | .cxlLinkReset => true
  | .ldReset ld => decide (ld < 16)
  | .cxlLaneFailure _ _ => true
  | .ideIntegrityFailure _ => true
  | .spdmDoeMessage ld _ => decide (ld < 16)
  | .tspRequest ld _ => decide (ld < 16)
  | .fmApiCommand _ => true
  | .commandBoundExpiry m slot => decide (m < 1024) && decide (slot < 4096)
  | .controlCoreWatchdog core => decide (core < 4)
  | .controlCoreRestart core => decide (core < 4)
  | .liveActivationHandoff => true
  | .liveActivationBudgetExpiry => true
  | .coldStart _ => true
  | .skeinRestoration => true
  | .teardownZeroingComplete tid => decide (tid < 4096)
  | .batchWindowClose => true
  | .bottomTreeBuilt => true
  | .rngHealthFailure _ => true
  | .statusRead => true
  | .pldmRequest _ _ _ => true
  | .mctpControlRequest _ _ => true
  | .i3cAddressAssign _ => true
  | .nop => true
  | .endProg => true
  | .trap _ => true
  | .brz _ offset => decide (1 ≤ offset.toNat)
  | .brnz _ offset => decide (1 ≤ offset.toNat)
  | .brany _ offset => decide (1 ≤ offset.toNat)
  | .brnone _ offset => decide (1 ≤ offset.toNat)
  | .rep length count => decide (1 ≤ length.toNat ∧ length.toNat ≤ 64) && decide (1 ≤ count.toNat ∧ count.toNat ≤ 4096)
  | .reps _ length => decide (1 ≤ length.toNat ∧ length.toNat ≤ 64)
  | .ldk _ _ => true
  | .ldkx _ _ => true
  | .sli _ _ => true
  | .sadd _ _ _ => true
  | .saddi _ _ _ => true
  | .ssub _ _ _ => true
  | .smul _ _ _ => true
  | .sand _ _ _ => true
  | .sor _ _ _ => true
  | .sxor _ _ _ => true
  | .ssh _ _ _ kind => kind != 3
  | .sshi _ _ kind _ => kind != 3
  | .smin _ _ _ => true
  | .smax _ _ _ => true
  | .sminu _ _ _ => true
  | .smaxu _ _ _ => true
  | .sslt _ _ _ => true
  | .ssltu _ _ _ => true
  | .vadd _ _ _ => true
  | .vsub _ _ _ => true
  | .vmul _ _ _ => true
  | .vdiv _ _ _ => true
  | .vmax _ _ _ => true
  | .vmin _ _ _ => true
  | .vabs _ _ => true
  | .vneg _ _ => true
  | .vexp _ _ => true
  | .vtanh _ _ => true
  | .vsel _ _ _ _ => true
  | .vldk _ _ => true
  | .vbcst _ _ => true
  | .vbcsti _ _ => true
  | .vlane _ => true
  | .vext _ _ _ => true
  | .vredadd _ _ _ => true
  | .vredmax _ _ _ => true
  | .pcmp _ _ _ cond => cond != 3
  | .plog _ _ _ _ => true
  | .pnot _ _ => true
  | .prange _ _ _ => true
  | .pcnt _ _ => true
  | .perstNRelease _ _ _ => true
  | .portRetrainComplete port => decide (port < 4)
  | .lightReturn port => decide (port < 4)
  | .laserFailoverComplete port => decide (port < 4)
  | .shaperTokenAccrual tid cls port => decide (tid < 4096) && decide (cls < 8) && decide (port < 4)
  | .msixEnable ld => decide (ld < 16)
  | .hardTripRestart _ => true
  | .ppsOutPulse => true
  | .batchWindowOpen => true

end Sys2Proof
end

