-- ==== Sys2Proof/Tests/Slice0.lean ====
section
/-!
SUPPORT. The author's tests: ill-formed commands that WellFormed refuses, worked examples of the spec, and small states
that meet the hypotheses of the statements (`meets_<Claim>`, one theorem for each claim that has hypotheses).
-/
namespace Sys2Proof.Tests

open Sys2Proof.Machine

/-! ## WellFormed: a command that each check refuses -/

theorem test_wf_host : Instr.wf (.sqTailWrite 16 0 0) = false ∧ Instr.wf (.sqTailWrite 0 1024 0) = false ∧
    Instr.wf (.w1cFlagWrite 0 13 0 0) = false ∧ Instr.wf (.rcCounterRead 0 0 32 1 0) = false ∧
    Instr.wf (.probeRead 0 4194304) = false ∧ Instr.wf (.hdmDecoderCommit 0 8 0 0) = false := by decide

theorem test_wf_mailbox : Instr.wf (.tenantCreate 1024 0) = false ∧ Instr.wf (.tenantCreate 0 4096) = false := by decide

theorem test_wf_units : Instr.wf (.leaArrival 0 0 4 0 0) = false ∧ Instr.wf (.spindleLeavesService 8) = false ∧
    Instr.wf (.lossOfLight 4) = false ∧ Instr.wf (.wavelengthFailure 0 9) = false ∧ Instr.wf (.sketchUpdate 8) = false ∧
    Instr.wf (.channelFailure 0 128) = false ∧ Instr.wf (.calibrationStep 1088 0 false) = false ∧
    Instr.wf (.controlCoreWatchdog 4) = false ∧ Instr.wf (.slotFree 3 0) = false := by decide

theorem test_wf_objects : Instr.wf (.jobAdmission 65536) = false ∧ Instr.wf (.workRequestPost 262144) = false ∧
    Instr.wf (.waitDescriptor 2 0) = false ∧ Instr.wf (.waitDescriptor 0 65536) = false ∧ Instr.wf (.sessionRekey 16384) = false ∧
    Instr.wf (.leaseExpiry 4194304) = false ∧ Instr.wf (.combineTimeoutExpiry 16384) = false ∧
    Instr.wf (.teardownZeroingComplete 4096) = false ∧ Instr.wf (.lentRevokeDrain 4096) = false := by decide

theorem test_wf_breus : Instr.wf (.brz 0 0) = false ∧ Instr.wf (.rep 65 1) = false ∧ Instr.wf (.rep 1 0) = false ∧
    Instr.wf (.reps 0 0) = false ∧ Instr.wf (.ssh 0 0 0 3) = false ∧ Instr.wf (.pcmp 0 0 0 3) = false := by decide

/-! ## Worked examples of the spec -/

/-- The staple-6 group of 03, R60: 11.0, -2.3, 0.8125, 0.375 and 6.9 with the scale byte 0x80. -/
theorem test_encode_group :
    (encodeGroup .e2m3 [some ⟨11, 0⟩, some ⟨-2411724, -20⟩, some ⟨13, -4⟩, some ⟨3, -3⟩, some ⟨7235175, -20⟩, some ⟨0, 0⟩]) =
      (0x80, [0x1B, 0x29, 0x03, 0x02, 0x16, 0x00]) := by decide

/-- The packing of the same codes, R56. -/
theorem test_pack_codes : packCodes 6 [0x1B, 0x29, 0x03, 0x02, 0x16, 0x00, 0x00, 0x00] = [0x5B, 0x3A, 0x08, 0x16, 0x00, 0x00] := by decide

/-- The merge of 05: m = 2, l = 3, acc = 6 with m = 0, l = 1, acc = 5; the second factor is exp(-2) (R104). -/
theorem test_merge_example : RowState.merge ⟨0x40000000, 0x40400000, [0x40C00000]⟩ ⟨0, 0x3F800000, [0x40A00000]⟩ =
    ⟨0x40000000, 0x4048A955, [0x40D5A755]⟩ := by decide

/-- An EMPTY third ply changes nothing (R84, R104). -/
theorem test_merge_empty : RowState.merge ⟨0x40000000, 0x4048A955, [0x40D5A755]⟩ (RowState.empty 1) =
    ⟨0x40000000, 0x4048A955, [0x40D5A755]⟩ := by decide

/-- C of reference model A: d = 400, C = 128 (R69, the example of R405). -/
theorem test_capacity : capacity 512 6 = 128 := by decide

set_option maxRecDepth 4000
set_option Elab.async false

/-! ## States and commands for the witnesses

Each theorem `meets_<Claim>` below shows that the hypotheses of the claim of that name hold together, of a small state and of
operands at a boundary of their ranges; where a claim has several clauses, for each of them. -/

/-- Tenant 1 of generation 1. -/
def tagA : W16 := 0x1001

/-- A module that runs, with a pool of 64 slots, mailbox 0 of the administrator, and mailbox 1 of tenant 1, both on LD 0;
each has a slab for data buffers, at units 8 and 9 of the window. -/
def base : State :=
  { boot := { state := .ready }
    cxl := { lds := [(0, { bound := true })]
             slabs := [{ mb := 0, woff := 8, area := [32772], tenant := none }, { mb := 1, woff := 9, area := [32773], tenant := some 1 }] }
    box := { boxes := [(0, { state := .active, bound := true, depth := 16, ld := some 0, sqArea := [32768], cqArea := [32769] }),
                       (1, { state := .active, bound := true, tenant := tagA, depth := 16, ld := some 0, sqArea := [32770], cqArea := [32771] })] }
    tenants := [(1, { gen := 1, live := true, quota := [8, 60, 64, 8, 8, 8, 8, 8], use := [0, 3, 0, 0, 0, 0, 0, 0] })]
    store := { poolSlots := 64, dramUsed := [32768, 32769, 32770, 32771, 32772, 32773] } }

/-- Window offsets of the data buffers of mailboxes 0 and 1. -/
def buf0 : Nat := 8 * 65536
def buf1 : Nat := 9 * 65536

/-- Skein 7 of tenant 1 under generation 1: one row of one full, good bobbin in DRAM. -/
def skA : Skein :=
  { handle := 0x00400007, tenant := tagA, layers := 1, heads := 1, elements := 32, format := 6, cap := 1024, prefixHash := true,
    leaves := [(0, { check := .good, count := 1024, format := 6, pbn := 32780 })], tableSlabs := [32781] }

/-- Connection 1 of tenant 1 over session 0, on path 0, with 16 slots and completion queue 3. -/
def connA : Conn :=
  { handle := 0x00040001, tenant := tagA, sess := 0, peerNode := 9, peerConn := 0x00040005, paths := [(0, 0)], cls := 0, stopOnError := false,
    retryLimit := 7, sqDepth := 16, rxBuffer := 4, srq := none, cq := 3, ackTimeout := 50, area := [32784] }

/-- One object of tenant 1 of each kind. -/
def cqA : Cq := { tenant := tagA, entries := 16, area := [32782], written := 2 }
def jqA : Jq := { tenant := tagA, depth := 16, cq := 3, admitWait := 20000, area := [32783] }
def listA : TrigList := { tenant := tagA, store := 1, staging := 1, ringDepth := 16, area := [32786] }
def entryA : TrigEntry := { list := 4, handle := 0x00100005, header := zeros 64, actions := [], order := 0 }
def entryH : TrigEntry := { entryA with halted := true }
def combA : Combine := { tenant := tagA, queue := 2, bytes := zeros 128, step := 0, startedAt := some 0 }
def sesA : Session := { peer := 9, peerIndex := 0, hybrid := true, keyNo := 0 }
def srqA : Srq := { tenant := tagA, entries := 16, area := [32785] }
def regA : Region := { kind := 1, rights := 7, tenant := tagA, key := 0x301, skein := 0, length := 65536, area := [32787] }
def runA : Run :=
  { handle := 0x00040001, tenant := tagA, layers := 1, heads := 1, elements := 32, format := 6, cap := 1024, modelId := 0, bobbins := 1,
    length := 1024, hashes := [11, 12], leaves := [(0, { check := .good, count := 1024, format := 6, pbn := 32780 })], source := 7 }
def progA : Prog := { version := 1, code := [0], consts := [], digest := zeros 48, bound := [tagA] }
def tableA : TableImg := { kind := 1, tenant := tagA, version := 1, image := zeros 64, digest := zeros 48, leas := 1, slots := [5120] }

/-- `base` with one object of each kind. -/
def full : State :=
  { base with
    store := { base.store with skeins := [(7, skA)], skeinPool := { fresh := 8 }, dramUsed := base.store.dramUsed ++ [32780, 32781, 32782, 32783, 32784, 32785, 32786, 32787] }
    creel := { state := .online }
    work := { cqs := [(3, cqA)], jqs := [(2, jqA)], lists := [(4, listA)], entries := [(5, entryA)], trigPool := { fresh := 6 },
              combines := [(6, combA)] }
    flyer := { sessions := [(0, sesA)], conns := [(1, connA)], connPool := { fresh := 2 }, srqs := [(2, srqA)], regions := [(3, regA)],
               regionPool := { fresh := 4 }, ports := [(0, { state := .up, map := 0xFF }), (1, {}), (2, {}), (3, {})] }
    pfx := { runs := [(1, runA)], runPool := { fresh := 2 } }
    images := { score := [(0, progA)], tables := [(8, tableA)] } }

/-- Connection 1 DRAINING, without a peer connection yet and with shared receive queue 2; and behind a wait. -/
def connN : Conn := { connA with state := .draining, peerConn := 0, srq := some 2 }
def waitA : Wait := { tag := 0, sourceKind := 0, source := 2, threshold := 1, failLimit := 1, cancelNext := 0, deadline := some 100, trig := none }
def connW : Conn := { connA with wait := some waitA }
def fullN : State := { full with flyer := { full.flyer with conns := [(1, connN)] } }
def fullW : State := { full with flyer := { full.flyer with conns := [(1, connW)] } }
/-- Run 1 without its creator's reference; skein 8, which is empty; skein 7 with its bobbin in the creel. -/
def runR : Run := { runA with creator := false }
def skE : Skein := { skA with handle := 0x00400008, leaves := [], tableSlabs := [32788] }
def skD : Skein := { skA with leaves := [(0, { check := .good, count := 1024, format := 6, pbn := 0, tier := 2 })] }
def fullE : State := { full with store := { full.store with skeins := [(7, skA), (8, skE)] } }

/-- A lent window of 1 GiB, of which LD 0 may read and write the first slab under tenant 1's key, and a publication of version 2. -/
def hostA : HostEntry := { write := true, read := true, ld := 0, hostGen := 1, keySlot := 1, base := 0, length := 65536 }
def pubN : Publication := { base := 0, length := 64 }
def pubA : Publication := { base := 0, length := 64, version := 2, digest := zeros 48 }
def lentA : State :=
  { full with cfg := { lentGib := 1 }, cxl := { full.cxl with hostTable := [(0, hostA)], pubs := [(3, pubA)] } }

/-- `full` with spindles and stacks in service, and skein 7 with one token in an open bobbin. -/
def leafB : Leaf := { check := .opened, count := 1, format := 6, pbn := 32780 }
def skB : Skein := { skA with leaves := [(0, leafB)] }
def live : State :=
  { full with
    rel := { spindles := List.replicate 8 { state := 0 }, stackUnits := List.replicate 8 { state := 0, whorls := 16 } }
    store := { full.store with skeins := [(7, skB)] } }

/-- An action entry of a queue, and `live` with such an entry at the head of job queue 2. -/
def qe (b : List Byte) : QEntry := { bytes := b }
def jqWith (b : List Byte) : Jq := { jqA with entries := [qe b] }
def withQ (x : State) (b : List Byte) : State := { x with work := { x.work with jqs := [(2, jqWith b)] } }

/-- A job of one row over skein 7 up to its tail, whose query lies at the start of region 0x301 and whose rows go there. -/
def jobB : List Byte :=
  padTo 128 ([0x10, 1, 2, 0] ++ toLe 4 0xC00010 ++ zeros 24 ++ toLe 4 0x00400007 ++ toLe 2 1 ++ zeros 18 ++ toLe 2 1 ++ toLe 2 32 ++ toLe 2 32 ++
    zeros 38 ++ toLe 4 0x301 ++ zeros 4 ++ toLe 4 0x301)
/-- The same job, admitted. -/
def entB : JobEntry := { skein := 0x00400007, first := 0, last := 1, rowFirst := 0, rowCount := 1, len := 1, cap := 1024, elements := 32, plan := [0], groups := [[0]] }
def itemB : Item := { entry := 0, pass := 0, bobbin := 0, leaf := leafB }
def jobA : Job :=
  { queue := 2, tenant := tagA, bytes := jobB, phase := .streaming, query := zeros 64, querySlub := 0, trig := none, staging := none,
    entries := [entB], items := [itemB] }
def jobW : Job := { jobA with phase := .waiting, waitUntil := some 0 }
def jobC : Job := { jobA with phase := .cacheWait }
def jobK : Job := { jobA with phase := .cacheWait, key := [1] }
def jobS : Job := { jobA with phase := .sketchWait, sketchSeq := 1 }
def jobL (n : W64) : Job := { jobA with phase := .launchWait, launch := n }
def jobBar : Job := { jobA with phase := .barrier, bytes := jobB.set 87 0x81 }
def itemS : Item := { itemB with sub := some 448 }
def itemE : Item := { itemB with sub := some 448, leas := 1 }
def itemD : Item := { itemB with done := true }
def jobI (i : Item) : Job := { jobA with items := [i] }
def jobWh : Job := { jobA with whorls := true }
def jobP : Job := { jobA with bytes := (zeros 128).set 96 1 }
def jobR : Job := { jobA with bytes := (jobB.take 108) ++ toLe 4 0x401 ++ zeros 16 }
def withJob (x : State) (j : Job) : State := { x with work := { x.work with jobs := [(0, j)], nextJob := 1 } }

/-- A combine of one row of one input at ID 7 to connection 1; whorl commands over bobbin 0 of skein 7; a WAIT on queue 2. -/
def cdB : List Byte := padTo 128 ([0x11, 1, 1, 0] ++ zeros 20 ++ toLe 2 7 ++ toLe 2 1 ++ toLe 2 1 ++ toLe 2 0 ++ toLe 2 32 ++ zeros 6 ++ toLe 4 0x00040001)
def wcB (op fmt : Nat) (dst : Nat := 0) : List Byte :=
  padTo 128 ([0x12, 1, 1, 0] ++ toLe 4 op ++ zeros 8 ++ toLe 4 0x00400007 ++ toLe 4 dst ++ toLe 2 0 ++ toLe 2 1 ++ toLe 2 0 ++ toLe 2 1 ++ toLe 4 0 ++
    toLe 4 1 ++ toLe 1 fmt)
def waitB (n : Nat) : List Byte := padTo 128 ([0x13, 1, 1, 0] ++ zeros 12 ++ toLe 4 2 ++ zeros 4 ++ toLe 8 n ++ toLe 8 1)
def waitJ (n : Nat) : Wait := { tag := 0, sourceKind := 0, source := 2, threshold := n, failLimit := 1, cancelNext := 0, deadline := none, trig := none }
/-- Connection 1 with an entry at the head of its send queue; job queue 2 behind a wait. -/
def connQ (b : List Byte) : Conn := { connA with sq := [qe b] }
def withS (x : State) (k : Conn) : State := { x with flyer := { x.flyer with conns := [(1, k)] } }
def withWait (x : State) (w : Wait) : State := { x with work := { x.work with jqs := [(2, { jqA with wait := some w })] } }
def jqWait (w : Wait) : Jq := { jqA with wait := some w }
/-- `live` with the empty skein 8 as well. -/
def liveE : State := { live with store := { live.store with skeins := [(7, skB), (8, skE)] } }

/-- A state with bytes in the data buffer of mailbox 0 or of mailbox 1. -/
def put0 (s : State) (bs : List Byte) : State := { s with mem := s.mem.writeN (slotAddr 1 32772) bs }
def put1 (s : State) (bs : List Byte) : State := { s with mem := s.mem.writeN (slotAddr 1 32773) bs }

/-- A command of mailbox `mb` with an opcode, its PARAMS and its data buffer (R383). -/
def cmdOf (mb op : Nat) (params : List Byte) (len off : Nat := 0) : Cmd :=
  { mb, slot := 0, ld := 0, seq := 0,
    bytes := [1, 1, 1, 0] ++ toLe 2 op ++ toLe 2 7 ++ toLe 4 0 ++ toLe 4 len ++ toLe 8 off ++ padTo 40 params }

/-- PARAMS of an administrator's command that carries TENANT 1 (R396). -/
def forA (params : List Byte) : List Byte := padTo 38 params ++ toLe 2 0x1001

/-- A state in which one command has been fetched. -/
def sent (s : State) (c : Cmd) : State := { s with box := { s.box with inflight := [c] } }

/-- `Turn` as a check. -/
def turnOk (op m slot : Nat) (s : State) (c : Cmd) (tag : W16) : Bool :=
  decide (m < 1024) && s.fetched? op m slot == some c && s.startable c && s.executes op &&
    match cmdSpec? op with
    | none => false
    | some sp => match s.authority c sp, s.dataCheck c sp tag with
      | .ok t, .ok _ => t == tag
      | _, _ => false

theorem turn_of_turnOk {op m slot s c tag} (h : turnOk op m slot s c tag = true) : Turn op m slot s c tag := by
  simp only [turnOk, Bool.and_eq_true, decide_eq_true_eq, beq_iff_eq] at h
  obtain ⟨⟨⟨⟨h1, h2⟩, h3⟩, h4⟩, h5⟩ := h
  refine ⟨h1, h2, h3, ?_, h4⟩
  split at h5
  · cases h5
  · rename_i sp hsp
    refine ⟨sp, hsp, ?_⟩
    split at h5
    · rename_i t _ ha hd
      exact ⟨by rw [ha, beq_iff_eq.1 h5], by rw [hd]⟩
    · cases h5

/-- A command has its turn in `x` with it fetched, and `P` holds of that state and the command. -/
def Goes (x : State) (op m : Nat) (c : Cmd) (tag : W16) (P : State → Cmd → Prop) : Prop := Turn op m 0 (sent x c) c tag ∧ P (sent x c) c

theorem goes {x op m c tag P} (h : turnOk op m 0 (sent x c) c tag = true) (hp : P (sent x c) c) : Goes x op m c tag P := ⟨turn_of_turnOk h, hp⟩


/-- Message 1 of connection 1, received whole; with a key; and `live` with it. -/
def rx (op : Nat) (p : List Byte) (key : W32 := 0x301) (roff : W64 := 0) : Reasm :=
  { conn := 1, seq := 1, opcode := op, ackReq := false, parts := [(0, p)], got := p.length, total := some p.length, start := 0, key, roff }
def withR (x : State) (r : Reasm) : State := { x with flyer := { x.flyer with reasm := [r] } }
/-- A work request on region 0x301, of 64 bytes from its start. -/
def wrB (op : Nat) (len : Nat := 64) : List Byte := [0x20, 1, 1, 0, BitVec.ofNat 8 op] ++ zeros 11 ++ toLe 4 0x301 ++ toLe 4 0 ++ toLe 4 len ++
  (if op = 1 ∨ op = 2 then toLe 4 0x301 else zeros 4) ++ zeros 32
/-- Connection 1 with its last credit spent; with an entry that the module posted; in ERROR; with one entry to cancel; being destroyed. -/
def connZ (b : List Byte) : Conn := { connQ b with credit := some 0 }
def ownE : QEntry := { source := some (2, 0), payload := zeros 64 }
def connO : Conn := { connA with sq := [ownE] }
def connOE : Conn := { connO with state := .error }
def connOC : Conn := { connO with cancelNext := 1 }
def connOD : Conn := { connO with destroyWaiter := some (0, 7) }
/-- A region of the IMPORT right over skein 7, and one over its lease. -/
def regI : Region := { kind := 2, rights := 63, tenant := tagA, key := 0x301, skein := 0x00400007, length := 0, area := [] }
def regL : Region := { kind := 3, rights := 63, tenant := tagA, key := 0x301, skein := 0x00400007, length := 16, area := [] }
def withG (x : State) (g : Region) : State := { x with flyer := { x.flyer with regions := [(3, g)] } }
/-- A WRITE of 16 bytes that is unacknowledged, and READ, whose response is here. -/
def msgW : Msg := { seq := 1, opcode := Op.write, ackReq := true, signal := true, tag := 5, payload := zeros 16, key := 0x301 }
def msgR : Msg := { seq := 1, opcode := Op.read, ackReq := false, signal := true, tag := 5, payload := zeros 8, lkey := 0x301, len := 8 }
def ctlA : Ctl := { nak := false, ackSeq := 1, msgSeq := 0, status := 0, credit := 4, retry := 0, bitmap := 0 }
def ctlN (st : Nat) : Ctl := { nak := true, ackSeq := 0, msgSeq := 1, status := st, credit := 4, retry := 9, bitmap := 0 }
def connU (m : Msg) (ctl : List Ctl := []) : Conn := { connA with unacked := [m], ctl }
def connS : Conn := { connA with srq := some 2 }
def srqF : Srq := { srqA with fifo := [0] }
/-- A QUERY of one row about skein 7, an entry that it matches, with one WAIT for queue 2, and `live` with such an entry. -/
def qyB : List Byte := toLe 4 0x00400007 ++ [0, 0] ++ toLe 2 1 ++ zeros 8 ++ [0, 0] ++ toLe 2 32 ++ zeros 44 ++ zeros (vectorSize 32 0 false)
def hdB : List Byte := [0x14, 1, 3, 0] ++ toLe 4 1 ++ toLe 4 0x00400007 ++ zeros 36 ++ toLe 4 2 ++ zeros 12
def actW : List Byte := waitB 1
def entM : TrigEntry := { list := 4, handle := 0x00100005, header := hdB, actions := [actW], order := 0 }
def withM (x : State) (e : TrigEntry) : State := { x with work := { x.work with entries := [(5, e)] } }
/-- `live` with a job queue that is full. -/
def jqF : Jq := { jqA with entries := List.replicate 16 (qe []) }
def withF (x : State) : State := { x with work := { x.work with jqs := [(2, jqF)] } }
/-- A combine of one row of one input at ID 7, or of two inputs; a PLY of one empty row for it. -/
def combM (n : Byte) : Combine := { tenant := tagA, queue := 2, bytes := cdB.set 26 n, step := 0 }
def withC (x : State) (c : Combine) : State := { x with work := { x.work with combines := [(7, c)] } }
def plyB : List Byte :=
  plyHeader 1 0 false 32 ++ toLe 4 0x00400007 ++ zeros 12 ++ zeros 4 ++ zeros 8 ++ toLe 2 7 ++ zeros 2 ++ toLe 4 negInf.toNat ++ zeros 4 ++ zeros (vectorSize 32 0 false)
/-- An APPEND of one token at an index of row 0 of skein 7, or of skein 8. -/
def apB (t0 : Nat) (h : Nat := 0x00400007) : List Byte :=
  toLe 4 h ++ [0, 0] ++ toLe 2 1 ++ toLe 4 t0 ++ zeros 4 ++ toLe 2 32 ++ zeros 46 ++ toLe 64 99 ++ zeros 64
/-- 128 entries of a reel, four zero words, and an action in the timed hold. -/
def reelN : Table W32 := (List.range 128).map fun i => (i, 9)
def zeros4 : List W32 := List.replicate 32 0
def heldA (due : W64) : HeldAction :=
  { entry := 0x00100005, list := 4, firing := 0, bytes := actW, target := 2, due, query := none, trig := { entry := 0x00100005, list := 4, errConn := none, halt := false }, cq := 3, tenant := tagA }
/-- Skein 7 with its token's history record; skein 8 with its first token's. -/
def apA : Sys2Proof.Machine.Append := { conn := 1, seq := 1, skein := 0x00400007, layer := 0, hg := 0, t0 := 0, ids := [99], epoch := 0, values := List.replicate 32 0 }
def skH : Skein := { skB with history := [(histKey 0 0, (0, tokenCheck (List.replicate 32 0)))] }

/-- Port 0 of `live` in another state; a port in service. -/
def onPort (x : State) (p : Port) : State := { x with flyer := { x.flyer with ports := tset x.flyer.ports 0 p } }
def upP : Port := { state := .up, map := 0xFF }
/-- A good frame of 106 bytes; a frame for this node over session 0 from node 0. -/
def okF : List Byte := closeFrame (zeros 98) 0
def pkF (s : State) (sess : Nat) : List Byte := s.mac s.nodeNo ++ zeros 6 ++ [0x81, 0, 0, 0, 0x88, 0xB5] ++ zeros 30 ++ toLe 2 (2 * sess) ++ zeros 32 ++ zeros 24
/-- A request header of an opcode and MSG_SEQ. -/
def hdN (op seq : Nat) : List Byte := toLe 16 op ++ toLe 48 seq
/-- A frame of 122 bytes of tenant 1 in a class. -/
def frN (cls : Nat) : TxFrame := { tid := 1, cls, conn := 1, sess := 0, dst := 9, pathTag := 0, body := zeros 80, queuedAt := 0 }

/-- A follower whose exchange with port 0 is under way, and skein 7 under a lease of owner 5; skein 7 retiring; moves of its bobbin. -/
def exA : Exchange := { t1 := 100, t2 := 200, t3 := some 300, deadline := 10000 }
def timed (x : State) (u : TimeUnit) : State := { x with time := u }
def skL : Skein := { skA with lease := 0x100000005, expiry := 1000, leaseMs := 1 }
def skO : Skein := { skA with lease := 0x280000005, orphanUntil := some 100 }
def skOR : Skein := { skO with orphanRelease := true }
def skR : Skein := { skA with state := .retiring }
def withK (x : State) (k : Skein) : State := { x with store := { x.store with skeins := [(7, k)] } }
def skM : Skein := { skA with leaves := [(0, { check := .good, count := 1024, format := 6, pbn := 32780, move := true })] }
def skX : Skein := { skA with leaves := [(0, { check := .damaged, count := 1024, format := 6, pbn := 32780, move := true })] }
def mvA : Move := { skein := 7, key := 0, srcTier := 1, srcPbn := 32780, dstTier := 1, dstPbn := 32790, why := .doff }
def skT : Skein := { skA with leaves := [(0, { check := .opened, count := 1, format := 6, pbn := 32780, move := true })] }
def combT : Combine := { tenant := tagA, queue := 2, bytes := cdB.set 52 1, step := 0, startedAt := some 0 }
def peA : PEntry := { priority := 1, run := 0x00040001, tenant := tagA, modelId := 0, hash := 11 }

/-- `live` with a part of its reliability or creel state put in. -/
def withRel (x : State) (f : Rel → Rel) : State := { x with rel := f x.rel }
def withCr (x : State) (f : Creel → Creel) : State := { x with creel := f x.creel }
/-- A stack with one vacant channel; with 65; a spindle in self-test. -/
def stV : Stack := { state := 0, whorls := 16, vacant := [5] }
def stG : Stack := { state := 0, whorls := 16, vacant := List.range 65 }
def stG64 : Stack := { state := 0, whorls := 16, vacant := List.range 64 }
def spT : Spindle := { state := 4, selfTest := true }
/-- A job whose item was streamed by spindle 7 whole. -/
def itemF : Item := { itemB with sub := some 448, leas := 4 }
def auA : AuditRec := { original := 0, auditor := 1, index := 1, rows := [(0, 0)], fold := 0, busy := 0, job := 0, key := [], jobTag := 0, step := 0, skein := 0x00400007, layer := 0 }

/-- `P` holds of the state `x`. -/
abbrev At (x : State) (P : State → Prop) : Prop := P x

/-- The error of a result that is one. -/
def errOf {ε α : Type} : Except ε α → Option ε
  | .ok _ => none
  | .error e => some e

/-- A result is one of success, and `p` holds of it. -/
def okWith {ε α : Type} (x : Except ε α) (p : α → Bool) : Bool := match x with
  | .ok a => p a
  | .error _ => false

/-- An image of a program of one word, for a place, with its digest; an image of a table of one row of one value. -/
def imgOf (pl : Byte) : List Byte :=
  let b : List Byte := toLe 4 0x55455242 ++ [1, pl] ++ toLe 2 1 ++ toLe 2 0 ++ toLe 2 0 ++ toLe 4 7 ++ zeros 48 ++ toLe 4 0
  b ++ sha384 b
def rescaleImg : List Byte := [1, 0, 32, 0] ++ toLe 4 5 ++ zeros 56 ++ zeros 128
/-- A trigger entry of one action, a work request. -/
def postB : List Byte := [0x14, 1, 2, 0] ++ toLe 4 1 ++ zeros 40 ++ toLe 4 0x00040001 ++ zeros 12 ++ ([0x20, 1, 1, 0] ++ zeros 60)
/-- A program of the score place that holds the digest of `imgOf 1`. -/
def progD : Prog := { progA with digest := (imgOf 1).drop 68 }
def fullP : State := { full with images := { score := [(0, progD)] } }
def tenA : Tenant := { gen := 1, live := true, quota := [8, 60, 64, 8, 8, 8, 8, 8], use := [0, 3, 0, 0, 0, 0, 0, 0] }

/-- A handshake that proves its peer, and one that does not. -/
def hsYes : Handshake := { authentic := true, hybrid := true, peerIndex := 2, leafHead := [] }
def hsNo : Handshake := { authentic := false, hybrid := true, peerIndex := 2, leafHead := [] }

/-- The QUERY `qyB` read; skein 8's append; skein 7 with a reel of one token, with 98 or 99. -/
def apE : Sys2Proof.Machine.Append := { apA with skein := 0x00400008 }
def skF (id : W32) : Skein := { skH with reel := [(0, id)] }
def msgK : Reasm := rx 10 (apB 0)
def doneA (b : Bool) : State := { withR live msgK with store := { live.store with appends := [{ apA with applied := b }] } }

def movesA : State :=
  { live with store := { live.store with doffs := [(7, { waiters := [(0, 3)] })], reloads := [(7, { waiters := [(0, 4)] })],
                                         moves := [(1, mvA), (2, { mvA with why := .reload })] } }

def stopsA : State :=
  { live with store := { live.store with doffs := [(7, { stopping := true, waiters := [(0, 3)] })],
                                         reloads := [(7, { status := 41, whole := false, waiters := [(0, 4)] })] } }

def updA : SketchUpd := { skein := 7, key := 0, values := zeros4, seq := 1 }

def sketchA : State := { live with store := { live.store with sketchQ := [(3, updA)] } }

def teleA : Telemetry := { period := 10, portMask := 1, classMask := 1, tenants := [1], records := 16, area := [32800], next := 7 }

def sampling (t : Telemetry) : State := { live with flyer := { live.flyer with tele := t } }

/-- `full` with a sketch program of tenant 1 in slot 0, which skein 7 names. -/
def whorlImg : State :=
  { full with images := { whorl := [(0, progA)] }, store := { full.store with skeins := [(7, { skA with sketchProgram := some 0 })] } }

/-- Tenant 1 of `base`, by itself. -/
def tenOne : Tenant := { gen := 1, live := true, quota := [8, 60, 64, 8, 8, 8, 8, 8], use := [0, 3, 0, 0, 0, 0, 0, 0] }

/-- Connection `connS` with a buffer of 64 bytes at the front of its shared receive queue. -/
def srqS : State :=
  { withS live connS with flyer := { (withS live connS).flyer with srqs := [(2, srqF)] },
                          mem := live.mem.areaWrite [32785] 0 (toLe 4 0x301 ++ zeros 8 ++ toLe 4 64) }

theorem meets_GetInterfaceVersion : Goes base 0x100 0 (cmdOf 0 0x0100 []) 0 (fun _ _ => True) :=
    goes (by decide +kernel) (trivial)

theorem meets_SetInterfaceVersion :
    (Goes base 0x101 0 (cmdOf 0 0x0101 [0,1]) 0 (fun s c => c.param 0 2 = 256 ∧ s.inflightOf c.mb = 1)) ∧
    (Goes base 0x101 1 (cmdOf 1 0x0101 [1,1]) tagA (fun _ c => c.param 0 2 ≠ 256)) :=
  ⟨goes (by decide +kernel) (by decide +kernel),
   goes (by decide +kernel) (by decide +kernel)⟩

theorem meets_ModuleInfo : Goes base 0x102 0 (cmdOf 0 0x0102 []) 0 (fun _ _ => True) := goes (by decide +kernel) (trivial)

theorem meets_ModuleConfigure :
    (Goes base 0x103 0 (cmdOf 0 0x0103 ([1,0,0,0,0,0,0,0] ++ toLe 8 1023)) 0 (fun s c => c.param 0 2 = 1 ∧ c.param 8 8 < 1024 ∧
        s.flyer.sessions = [])) ∧
    (Goes base 0x103 0 (cmdOf 0 0x0103 ([2,0,0,0,0,0,0,0] ++ toLe 8 0xFFFFFF)) 0 (fun s c => c.param 0 2 = 2 ∧
        c.param 8 8 < 2 ^ 24 ∧ s.flyer.sessions = [])) ∧
    (Goes base 0x103 0 (cmdOf 0 0x0103 ([3,0,0,0,0,0,0,0] ++ toLe 8 0)) 0 (fun s c => c.param 0 2 = 3 ∧ c.param 8 8 < 16 ∧
        (s.ld (c.param 8 8)).bound = true)) ∧
    (Goes base 0x103 0 (cmdOf 0 0x0103 ([4,0,0,0,0,0,0,0] ++ toLe 8 896)) 0 (fun s c => c.param 0 2 = 4 ∧ 64 ≤ c.param 8 8 ∧
        c.param 8 8 ≤ 896 ∧ s.tableMoveBusy (c.param 8 8) = false)) ∧
    (Goes base 0x103 0 (cmdOf 0 0x0103 ([5,0,0,0,0,0,0,0] ++ toLe 8 0xC0200400)) 0 (fun _ c => c.param 0 2 = 5 ∧
        c.param 8 8 < 2 ^ 40 ∧ bits 9 0 (c.param 8 8) < bits 19 10 (c.param 8 8) ∧
        bits 19 10 (c.param 8 8) < bits 29 20 (c.param 8 8) ∧ bits 29 20 (c.param 8 8) < bits 39 30 (c.param 8 8))) ∧
    (Goes base 0x103 0 (cmdOf 0 0x0103 ([6,0,0,0,0,0,0,0] ++ toLe 8 0)) 0 (fun s c => c.param 0 2 = 6 ∧ c.param 8 8 ≤ 512 ∧
        s.store.lentWaiter = none ∧ c.param 8 8 = s.cfg.lentGib)) ∧
    (Goes { base with cfg := { lentGib := 512 } } 0x103 0 (cmdOf 0 0x0103 ([6,0,0,0,0,0,0,0] ++ toLe 8 511)) 0 (fun s c =>
        c.param 0 2 = 6 ∧ c.param 8 8 < s.cfg.lentGib ∧ c.param 8 8 ≤ 512 ∧ s.store.lentWaiter = none ∧
        s.lentCovered 0 ((s.cfg.lentGib - c.param 8 8) * 2 ^ 30) = false)) ∧
    (Goes { base with store := { base.store with poolSlots := 65536 } } 0x103 0 (cmdOf 0 0x0103 ([6,0,0,0,0,0,0,0] ++ toLe 8 1))
        0 (fun s c => c.param 0 2 = 6 ∧ s.cfg.lentGib < c.param 8 8 ∧ c.param 8 8 ≤ 512 ∧ s.store.lentWaiter = none ∧
        s.store.dramUsed.length ≤ s.store.poolSlots - (c.param 8 8 - s.cfg.lentGib) * 16384 ∧
        s.cfg.lowWater * (s.store.poolSlots - (c.param 8 8 - s.cfg.lentGib) * 16384) ≤
        (s.store.poolSlots - (c.param 8 8 - s.cfg.lentGib) * 16384 - s.store.dramUsed.length) * 1024)) ∧
    (Goes base 0x103 0 (cmdOf 0 0x0103 ([7,0,0,0,0,0,0,0] ++ toLe 8 600000)) 0 (fun _ c => c.param 0 2 = 7 ∧ 1 ≤ c.param 8 8 ∧
        c.param 8 8 ≤ 600000)) ∧
    (Goes base 0x103 0 (cmdOf 0 0x0103 ([8,0,0,0,0,0,0,0] ++ toLe 8 60)) 0 (fun _ c => c.param 0 2 = 8 ∧ 60 ≤ c.param 8 8 ∧
        c.param 8 8 ≤ 604800)) :=
  ⟨goes (by decide +kernel) (by decide +kernel),
   goes (by decide +kernel) (by decide +kernel),
   goes (by decide +kernel) (by decide +kernel),
   goes (by decide +kernel) (by decide +kernel),
   goes (by decide +kernel) (by decide +kernel),
   goes (by decide +kernel) (by decide +kernel),
   goes (by decide +kernel) (by decide +kernel),
   goes (by decide +kernel) (by decide +kernel),
   goes (by decide +kernel) (by decide +kernel),
   goes (by decide +kernel) (by decide +kernel)⟩

theorem meets_LdConfigure :
    (Goes base 0x104 0 (cmdOf 0 0x0104 [1,0,15]) 0 (fun s c => 1 ≤ c.param 0 2 ∧ c.param 0 2 ≤ 1023 ∧
        (c.param 2 1 ≤ 15 ∨ c.param 2 1 = 255) ∧ s.ldLocked (s.mbox (c.param 0 2)).ld = false ∧
        (s.ldLocked (if c.param 2 1 = 255 then none else some (c.param 2 1)) = false) ∧
        (s.mbox (c.param 0 2)).state ≠ MboxState.draining ∧ (s.mbox (c.param 0 2)).bound = true ∧ c.param 2 1 ≤ 15)) ∧
    (Goes base 0x104 0 (cmdOf 0 0x0104 [0xFF,3,0xFF]) 0 (fun s c => 1 ≤ c.param 0 2 ∧ c.param 0 2 ≤ 1023 ∧
        (c.param 2 1 ≤ 15 ∨ c.param 2 1 = 255) ∧ s.ldLocked (s.mbox (c.param 0 2)).ld = false ∧
        (s.ldLocked (if c.param 2 1 = 255 then none else some (c.param 2 1)) = false) ∧
        (s.mbox (c.param 0 2)).state ≠ MboxState.draining ∧ ((s.mbox (c.param 0 2)).bound = false ∨ c.param 2 1 = 255))) ∧
    (Goes (base.modMbox 1 fun b => { b with state := .draining }) 0x104 0 (cmdOf 0 0x0104 [1,0,0xFF]) 0 (fun s c =>
        1 ≤ c.param 0 2 ∧ c.param 0 2 ≤ 1023 ∧ (c.param 2 1 ≤ 15 ∨ c.param 2 1 = 255) ∧ s.ldLocked (s.mbox (c.param 0 2)).ld =
        false ∧ (s.ldLocked (if c.param 2 1 = 255 then none else some (c.param 2 1)) = false) ∧ (s.mbox (c.param 0 2)).state =
        MboxState.draining)) :=
  ⟨goes (by decide +kernel) (by decide +kernel),
   goes (by decide +kernel) (by decide +kernel),
   goes (by decide +kernel) (by decide +kernel)⟩

theorem meets_MailboxUnbind : Goes base 0x106 0 (cmdOf 0 0x0106 [1,0,1]) 0 (fun s c => c.param 2 1 < 2 ∧ 1 ≤ c.param 0 2 ∧
    c.param 0 2 ≤ 1023 ∧ (s.mbox (c.param 0 2)).bound = true) := goes (by decide +kernel) (by decide +kernel)

theorem meets_TenantCreate : Goes base 0x200 0 (cmdOf 0 0x0200 (padTo 38 [] ++ toLe 2 0xFFF)) 4095 (fun s c =>
    BitVec.toNat c.tenantField < 4096 ∧ (∀ k < 8, c.param (4 * k) 4 ≤ quotaMax k) ∧
    ((tget s.tenants (BitVec.toNat c.tenantField)).getD { : Tenant }).live = false ∧ s.sec.rngFailed = false) :=
    goes (by decide +kernel) (by decide +kernel)

theorem meets_QuotaSet : Goes base 0x202 0 (cmdOf 0 0x0202 (forA ([7,0,0,0] ++ toLe 4 1))) tagA (fun _ c => c.param 0 1 ≤ 7 ∧
    c.param 4 4 ≤ quotaMax (c.param 0 1)) := goes (by decide +kernel) (by decide +kernel)

theorem meets_TenantInfo : Goes base 0x203 1 (cmdOf 1 0x0203 [] 64 buf1) tagA (fun _ c => 64 ≤ c.dataLen) :=
    goes (by decide +kernel) (by decide +kernel)

theorem meets_CqDestroy :
    (Goes full 0x501 1 (cmdOf 1 0x0501 [3,0]) tagA (fun s c => s.cqFor tagA (c.param 0 2) = some cqA ∧ s.cqNamed (c.param 0 2) =
        true)) ∧
    (Goes { full with work := { full.work with jqs := [] }, flyer := {} } 0x501 1 (cmdOf 1 0x0501 [3,0]) tagA (fun s c =>
        s.cqFor tagA (c.param 0 2) = some cqA ∧ s.cqNamed (c.param 0 2) = false)) :=
  ⟨goes (by decide +kernel) (by decide +kernel),
   goes (by decide +kernel) (by decide +kernel)⟩

theorem meets_JobQueueDestroy : Goes full 0x503 1 (cmdOf 1 0x0503 [2,0]) tagA (fun s c => (s.jqFor tagA (c.param 0 2)).isSome =
    true ∧ ((s.destroyJq (c.param 0 2) (some c.ref)).endQueue (c.param 0 2)).1.isSome = true) :=
    goes (by decide +kernel) (by decide +kernel)

theorem meets_CombineRelease : Goes full 0x505 1 (cmdOf 1 0x0505 [6,0]) tagA (fun s c => tget s.work.combines (c.param 0 2) =
    some combA ∧ combA.tenant = tagA) := goes (by decide +kernel) (by decide +kernel)

theorem meets_QueueStatus :
    (Goes full 0x506 1 (cmdOf 1 0x0506 [1,0,0,0,2]) tagA (fun s c => c.param 0 1 = 1 ∧ c.param 4 4 < 65536 ∧
        s.jqFor tagA (c.param 4 4) = some jqA)) ∧
    (Goes full 0x506 1 (cmdOf 1 0x0506 [2,0,0,0,1,0,4,0]) tagA (fun s c => c.param 0 1 = 2 ∧
        s.connFor tagA (BitVec.ofNat 32 (c.param 4 4)) = some (1, connA))) :=
  ⟨goes (by decide +kernel) (by decide +kernel),
   goes (by decide +kernel) (by decide +kernel)⟩

theorem meets_TriggerListDestroy : Goes full 0x508 1 (cmdOf 1 0x0508 [4,0]) tagA (fun s c =>
    (s.listFor tagA (c.param 0 2)).isSome = true) := goes (by decide +kernel) (by decide +kernel)

theorem meets_TriggerCancel : Goes full 0x50a 1 (cmdOf 1 0x050A [5,0,0x10,0]) tagA (fun s c =>
    tget s.work.entries (trIndex (BitVec.ofNat 32 (c.param 0 4))) = some entryA ∧ entryA.handle = BitVec.ofNat 32 (c.param 0 4) ∧
    tget s.work.lists entryA.list = some listA ∧ listA.tenant = tagA) := goes (by decide +kernel) (by decide +kernel)

theorem meets_TriggerResume :
    (Goes full 0x50b 1 (cmdOf 1 0x050B [5,0,0x10,0]) tagA (fun s c =>
        tget s.work.entries (trIndex (BitVec.ofNat 32 (c.param 0 4))) = some entryA ∧ entryA.handle =
        BitVec.ofNat 32 (c.param 0 4) ∧ tget s.work.lists entryA.list = some listA ∧ listA.tenant = tagA ∧ entryA.halted =
        false)) ∧
    (Goes { full with work := { full.work with entries := [(5, entryH)] } } 0x50b 1 (cmdOf 1 0x050B [5,0,0x10,0]) tagA
        (fun s c => tget s.work.entries (trIndex (BitVec.ofNat 32 (c.param 0 4))) = some entryH ∧ entryH.handle =
        BitVec.ofNat 32 (c.param 0 4) ∧ tget s.work.lists entryH.list = some listA ∧ listA.tenant = tagA ∧ entryH.halted =
        true)) :=
  ⟨goes (by decide +kernel) (by decide +kernel),
   goes (by decide +kernel) (by decide +kernel)⟩

theorem meets_SkeinDestroy : Goes full 0x301 1 (cmdOf 1 0x0301 [7,0,0x40,0]) tagA (fun s c =>
    s.skeinOf tagA (BitVec.ofNat 32 (c.param 0 4)) = Except.ok skA) := goes (by decide +kernel) (by decide +kernel)

theorem meets_SkeinInfo :
    (Goes full 0x302 1 (cmdOf 1 0x0302 [7,0,0x40,0]) tagA (fun s c => s.skeinOf tagA (BitVec.ofNat 32 (c.param 0 4)) =
        Except.ok skA ∧ c.dataLen = 0)) ∧
    (Goes full 0x302 1 (cmdOf 1 0x0302 [7,0,0x40,0] 4 buf1) tagA (fun s c => s.skeinOf tagA (BitVec.ofNat 32 (c.param 0 4)) =
        Except.ok skA ∧ c.dataLen ≠ 0 ∧ 4 * (skA.layers * skA.heads) ≤ c.dataLen)) :=
  ⟨goes (by decide +kernel) (by decide +kernel),
   goes (by decide +kernel) (by decide +kernel)⟩

theorem meets_SkeinSetHint : Goes full 0x303 1 (cmdOf 1 0x0303 [7,0,0x40,0,9]) tagA (fun s c =>
    s.skeinOf tagA (BitVec.ofNat 32 (c.param 0 4)) = Except.ok skA) := goes (by decide +kernel) (by decide +kernel)

theorem meets_LeaseSwap : Goes full 0x304 1 (cmdOf 1 0x0304 ([7,0,0x40,0,0,0,0,0] ++ zeros 8 ++ toLe 8 0x100000001)) tagA
    (fun s c => s.skeinOf tagA (BitVec.ofNat 32 (c.param 0 4)) = Except.ok skA ∧
    s.swapLease (skIndex (BitVec.ofNat 32 (c.param 0 4))) (BitVec.ofNat 64 (c.param 8 8)) (BitVec.ofNat 64 (c.param 16 8)) =
    none) := goes (by decide +kernel) (by decide +kernel)

theorem meets_TableUnload : Goes full 0x403 1 (cmdOf 1 0x0403 [8,0]) tagA (fun s c => s.tableFor tagA (c.param 0 2) =
    some tableA) := goes (by decide +kernel) (by decide +kernel)

theorem meets_ProgramUnload :
    (Goes full 0x401 1 (cmdOf 1 0x0401 [1,0]) tagA (fun s c => placeOf (c.param 0 1) = some Place.score ∧
        Place.score ≠ Place.tier ∧ (c.mb = 0 → (s.tenant? c.tenantField).isSome = true) ∧
        tget (s.images.store Place.score) (c.param 1 1) = some progA ∧ progA.bound.contains tagA = true ∧
        (Place.score = Place.score ∨ (List.any s.store.skeins fun (k : Nat × Skein) =>
        k.2.tenant == tagA && k.2.state != SkState.retiring && k.2.sketchProgram == some (c.param 1 1)) = false))) ∧
    (Goes { full with images := { tier := some progA } } 0x401 0 (cmdOf 0 0x0401 [3,0]) 0 (fun s c => c.param 0 1 = 3 ∧
        c.mb = 0 ∧ c.tenantField = 0 ∧ c.param 1 1 = 0 ∧ (s.images.tier.isSome || s.images.tierNext.isSome) = true)) ∧
    (Goes whorlImg 0x401 1 (cmdOf 1 0x0401 [2,0]) tagA (fun s c => placeOf (c.param 0 1) = some Place.whorl ∧
        Place.whorl ≠ Place.tier ∧ (c.mb = 0 → (s.tenant? c.tenantField).isSome = true) ∧
        tget (s.images.store Place.whorl) (c.param 1 1) = some progA ∧ progA.bound.contains tagA = true ∧ Place.whorl =
        Place.whorl ∧ ((List.any s.store.skeins fun (k : Nat × Skein) =>
        k.2.tenant == tagA && k.2.state != SkState.retiring && k.2.sketchProgram == some (c.param 1 1)) = true))) :=
  ⟨goes (by decide +kernel) (by decide +kernel),
   goes (by decide +kernel) (by decide +kernel),
   goes (by decide +kernel) (by decide +kernel)⟩

theorem meets_ConnModify :
    (Goes full 0x601 1 (cmdOf 1 0x0601 ([1,0,4,0,1,0,0,0,0,0x80,0,0,0,0,0,0,0,0,0,0])) tagA (fun s c =>
        s.connFor tagA (BitVec.ofNat 32 (c.param 0 4)) = some (1, connA) ∧ connA.state ≠ ConnState.error ∧
        (pathsOf (List.map (fun (i : Nat) => c.param (8 + 2 * i) 2) (List.range 4)) = some [(0, 0)]) ∧ c.param 4 1 = 1)) ∧
    (Goes fullN 0x601 1 (cmdOf 1 0x0601 ([1,0,4,0,2,0,0,0,0,0,0,0,0,0,0,0,5,0,4,0])) tagA (fun s c =>
        s.connFor tagA (BitVec.ofNat 32 (c.param 0 4)) = some (1, connN) ∧ connN.state ≠ ConnState.error ∧ c.param 4 1 = 2 ∧
        connN.peerConn = 0)) ∧
    (Goes fullN 0x601 1 (cmdOf 1 0x0601 ([1,0,4,0,3,0,0,0,0,0x80,0,0,0,0,0,0,5,0,4,0])) tagA (fun s c =>
        s.connFor tagA (BitVec.ofNat 32 (c.param 0 4)) = some (1, connN) ∧ connN.state ≠ ConnState.error ∧
        (pathsOf (List.map (fun (i : Nat) => c.param (8 + 2 * i) 2) (List.range 4)) = some [(0, 0)]) ∧ c.param 4 1 = 3 ∧
        connN.peerConn = 0)) :=
  ⟨goes (by decide +kernel) (by decide +kernel),
   goes (by decide +kernel) (by decide +kernel),
   goes (by decide +kernel) (by decide +kernel)⟩

theorem meets_ConnDrain :
    (Goes full 0x602 1 (cmdOf 1 0x0602 ([1,0,4,0])) tagA (fun s c => s.connFor tagA (BitVec.ofNat 32 (c.param 0 4)) =
        some (1, connA) ∧ connA.state = ConnState.ready)) ∧
    (Goes fullN 0x602 1 (cmdOf 1 0x0602 ([1,0,4,0])) tagA (fun s c => s.connFor tagA (BitVec.ofNat 32 (c.param 0 4)) =
        some (1, connN) ∧ connN.state ≠ ConnState.ready)) :=
  ⟨goes (by decide +kernel) (by decide +kernel),
   goes (by decide +kernel) (by decide +kernel)⟩

theorem meets_ConnDestroy :
    (Goes full 0x603 1 (cmdOf 1 0x0603 ([1,0,4,0])) tagA (fun s c => s.connFor tagA (BitVec.ofNat 32 (c.param 0 4)) =
        some (1, connA) ∧ connA.destroyWaiter = none ∧ connA.wait = none)) ∧
    (Goes fullW 0x603 1 (cmdOf 1 0x0603 ([1,0,4,0])) tagA (fun s c => s.connFor tagA (BitVec.ofNat 32 (c.param 0 4)) =
        some (1, connW) ∧ connW.destroyWaiter = none ∧ connW.wait = some waitA)) :=
  ⟨goes (by decide +kernel) (by decide +kernel),
   goes (by decide +kernel) (by decide +kernel)⟩

theorem meets_SrqDestroy :
    (Goes full 0x605 1 (cmdOf 1 0x0605 ([2,0])) tagA (fun s c => s.srqFor tagA (c.param 0 2) = some srqA ∧
        ((List.any s.flyer.conns fun (k : Nat × Conn) => k.2.srq == some (c.param 0 2)) = false))) ∧
    (Goes fullN 0x605 1 (cmdOf 1 0x0605 ([2,0])) tagA (fun s c => s.srqFor tagA (c.param 0 2) = some srqA ∧
        ((List.any s.flyer.conns fun (k : Nat × Conn) => k.2.srq == some (c.param 0 2)) = true))) :=
  ⟨goes (by decide +kernel) (by decide +kernel),
   goes (by decide +kernel) (by decide +kernel)⟩

theorem meets_RegionDeregister : Goes full 0x607 1 (cmdOf 1 0x0607 ([1,3])) tagA (fun s c =>
    s.regionFor tagA (BitVec.ofNat 32 (c.param 0 4)) = some regA) := goes (by decide +kernel) (by decide +kernel)

theorem meets_LinkSpare : Goes full 0x608 0 (cmdOf 0 0x0608 ([0,7])) 0 (fun s c => c.param 0 1 < 4 ∧ c.param 1 1 ≤ 8 ∧
    (s.portAt (c.param 0 1)).state = PortState.up ∧ (s.portAt (c.param 0 1)).map.getLsbD (c.param 1 1) = true ∧
    (s.portAt (c.param 0 1)).spare.isSome = true ∧ s.budgetLeft kWavelength (c.param 0 1 * 9 + c.param 1 1) = true) :=
    goes (by decide +kernel) (by decide +kernel)

theorem meets_PortConfigure : Goes full 0x609 0 (cmdOf 0 0x0609 ([3,20,0,0] ++ toLe 4 9472 ++ toLe 4 1048576)) 0 (fun _ c =>
    c.param 0 1 < 4 ∧ (∀ q ∈ List.map (fun (i : Nat) => c.param (4 + 4 * i) 4) (List.range 7), q = 0 ∨ 9472 ≤ q ∧
    q ≤ 1048576)) := goes (by decide +kernel) (by decide +kernel)

theorem meets_ShaperSet : Goes full 0x60a 0 (cmdOf 0 0x060A (forA ([7,3,255,0] ++ toLe 4 1600000 ++ toLe 4 16384))) tagA
    (fun _ c => c.param 0 1 ≤ 7 ∧ 1 ≤ c.param 2 1 ∧ 1 ≤ c.param 4 4 ∧ c.param 4 4 ≤ 1600000 ∧ 16 ≤ c.param 8 4 ∧
    c.param 8 4 ≤ 16384) := goes (by decide +kernel) (by decide +kernel)

theorem meets_RunRelease :
    (Goes full 0x702 1 (cmdOf 1 0x0702 ([1,0,4,0])) tagA (fun s c => s.runFor tagA (BitVec.ofNat 32 (c.param 0 4)) = some runA ∧
        runA.creator = true)) ∧
    (Goes { full with pfx := { runs := [(1, runR)] } } 0x702 1 (cmdOf 1 0x0702 ([1,0,4,0])) tagA (fun s c =>
        s.runFor tagA (BitVec.ofNat 32 (c.param 0 4)) = some runR ∧ runR.creator = false)) :=
  ⟨goes (by decide +kernel) (by decide +kernel),
   goes (by decide +kernel) (by decide +kernel)⟩

theorem meets_PrefixRemove : Goes full 0x704 1 (cmdOf 1 0x0704 ([1,0,4,0])) tagA (fun s c =>
    s.runFor tagA (BitVec.ofNat 32 (c.param 0 4)) = some runA ∧ c.param 8 4 ≤ 1024 ∧ (c.param 8 4 = 0 → c.param 4 4 = 0) ∧
    (c.param 8 4 = 0 ∨ c.param 4 4 + c.param 8 4 ≤ runA.hashes.length) ∧
    (∃ a b, (s.removeEntries (rcIndex runA.handle) fun (e : PEntry) =>
    c.param 8 4 == 0 || (List.take (c.param 8 4) (List.drop (c.param 4 4) runA.hashes)).contains e.hash) = (a, b))) :=
    goes (by decide +kernel) (⟨by decide +kernel, by decide +kernel, by decide +kernel, by decide +kernel, ⟨_, _, rfl⟩⟩)

theorem meets_PrefixProbe :
    (Goes full 0x705 1 (cmdOf 1 0x0705 ([0,0,1]) 12 buf1) tagA (fun s c => 1 ≤ c.param 2 1 ∧ c.param 2 1 ≤ 64 ∧
        12 * c.param 2 1 ≤ c.dataLen ∧ (List.filterMap id (List.takeWhile (fun (x : Option PEntry) =>
        x.isSome) (List.map (s.searchPrefix tagA (BitVec.ofNat 16 (c.param 0 2))) (List.map (fun (i : Nat) =>
        field (s.windowRead c.ld c.dataOff c.dataLen) (12 * i) 12) (List.range (c.param 2 1))))) = []))) ∧
    (Goes (put1 { full with pfx := { full.pfx with entries := [(0, ⟨5, 0x40001, tagA, 0, 11⟩)] } } [11]) 0x705 1
        (cmdOf 1 0x0705 ([0,0,1]) 12 buf1) tagA (fun s c => 1 ≤ c.param 2 1 ∧ c.param 2 1 ≤ 64 ∧ 12 * c.param 2 1 ≤ c.dataLen ∧
        ((List.filterMap id (List.takeWhile (fun (x : Option PEntry) =>
        x.isSome) (List.map (s.searchPrefix tagA (BitVec.ofNat 16 (c.param 0 2))) (List.map (fun (i : Nat) =>
        field (s.windowRead c.ld c.dataOff c.dataLen) (12 * i) 12) (List.range (c.param 2 1)))))).getLast? =
        some { priority := 5, run := 262145, tenant := tagA, modelId := 0, hash := 11 : PEntry }))) :=
  ⟨goes (by decide +kernel) (by decide +kernel),
   goes (by decide +kernel) (by decide +kernel)⟩

theorem meets_SkeinDoff :
    (Goes full 0x800 1 (cmdOf 1 0x0800 ([7,0,0x40,0])) tagA (fun s c => s.skeinOf tagA (BitVec.ofNat 32 (c.param 0 4)) =
        Except.ok skA ∧ s.creelServes = true ∧ thas s.store.reloads (skIndex (BitVec.ofNat 32 (c.param 0 4))) = false)) ∧
    (Goes { full with creel := {} } 0x800 1 (cmdOf 1 0x0800 ([7,0,0x40,0])) tagA (fun s c =>
        s.skeinOf tagA (BitVec.ofNat 32 (c.param 0 4)) = Except.ok skA ∧ s.creelServes = false)) ∧
    (Goes { full with store := { full.store with reloads := [(7, {})] } } 0x800 1 (cmdOf 1 0x0800 ([7,0,0x40,0])) tagA
        (fun s c => s.skeinOf tagA (BitVec.ofNat 32 (c.param 0 4)) = Except.ok skA ∧ s.creelServes = true ∧
        thas s.store.reloads (skIndex (BitVec.ofNat 32 (c.param 0 4))) = true)) :=
  ⟨goes (by decide +kernel) (by decide +kernel),
   goes (by decide +kernel) (by decide +kernel),
   goes (by decide +kernel) (by decide +kernel)⟩

theorem meets_SkeinReload :
    (Goes full 0x801 1 (cmdOf 1 0x0801 ([7,0,0x40,0])) tagA (fun s c => s.skeinOf tagA (BitVec.ofNat 32 (c.param 0 4)) =
        Except.ok skA ∧ s.creelServes = true ∧
        (skA.toReload = 0 ∧ (thas s.store.doffs (skIndex (BitVec.ofNat 32 (c.param 0 4))) || List.any s.store.moves fun (v :
        Nat × Move) => v.2.skein == skIndex (BitVec.ofNat 32 (c.param 0 4)) && v.2.dstTier == 2) = false ∧
        thas s.store.reloads (skIndex (BitVec.ofNat 32 (c.param 0 4))) = false))) ∧
    (Goes { full with store := { full.store with skeins := [(7, skD)] } } 0x801 1 (cmdOf 1 0x0801 ([7,0,0x40,0])) tagA
        (fun s c => s.skeinOf tagA (BitVec.ofNat 32 (c.param 0 4)) = Except.ok skD ∧ s.creelServes = true ∧
        (¬(skD.toReload = 0 ∧ (thas s.store.doffs (skIndex (BitVec.ofNat 32 (c.param 0 4))) || List.any s.store.moves fun (v :
        Nat × Move) => v.2.skein == skIndex (BitVec.ofNat 32 (c.param 0 4)) && v.2.dstTier == 2) = false ∧
        thas s.store.reloads (skIndex (BitVec.ofNat 32 (c.param 0 4))) = false)) ∧ s.dramNeed tagA skD.toReload =
        Except.ok ())) :=
  ⟨goes (by decide +kernel) (by decide +kernel),
   goes (by decide +kernel) (by decide +kernel)⟩

theorem meets_TierUnpin : Goes full 0x803 1 (cmdOf 1 0x0803 ([7,0,0x40,0,0,0,1,0,0,0,1,0,0,0,0,0,1,0,0,0])) tagA (fun s c => s.skeinOf tagA (BitVec.ofNat 32 (c.param 0 4)) = Except.ok skA ∧ tierRange ({ c := c, tag := tagA } : Ctx) skA = Except.ok [0] ∧ (s.dramNeed tagA (List.filter (fun (key : Nat) => match tget skA.leaves key with | some l => l.tier == 0 && !l.lock | none => false) (List.filter (fun (key : Nat) => match tget skA.leaves key with | some l => l.pin | none => false) [0])).length = Except.ok ())) := goes (by decide +kernel) (by decide +kernel)

theorem meets_LentRevoke : Goes lentA 0x901 0 (cmdOf 0 0x0901 [0,0]) 0 (fun s c => c.param 0 2 < 4096 ∧
    tget s.cxl.hostTable (c.param 0 2) = some hostA ∧ s.ldLocked (some hostA.ld) = false) :=
    goes (by decide +kernel) (by decide +kernel)

theorem meets_HostFence : Goes lentA 0x902 0 (cmdOf 0 0x0902 [15]) 0 (fun _ c => c.param 0 1 < 16) :=
    goes (by decide +kernel) (by decide +kernel)

theorem meets_PublicationDelete : Goes lentA 0x904 0 (cmdOf 0 0x0904 [3,0]) 0 (fun s c => c.param 0 2 < 1024 ∧
    (tget s.cxl.pubs (c.param 0 2)).isSome = true) := goes (by decide +kernel) (by decide +kernel)

theorem meets_LentPublish :
    (Goes lentA 0x905 1 (cmdOf 1 0x0905 [3,0,0,0,0,0,0,0,3] 48 buf1) tagA (fun s c => 48 ≤ c.dataLen ∧ c.param 0 2 < 1024 ∧
        tget s.cxl.pubs (c.param 0 2) = some pubA ∧ s.mayPublish c.ld pubA.base pubA.length = true ∧
        BitVec.toNat pubA.version < c.param 8 8)) ∧
    (Goes lentA 0x905 1 (cmdOf 1 0x0905 [3,0,0,0,0,0,0,0,2] 48 buf1) tagA (fun s c => 48 ≤ c.dataLen ∧ c.param 0 2 < 1024 ∧
        tget s.cxl.pubs (c.param 0 2) = some pubA ∧ s.mayPublish c.ld pubA.base pubA.length = true ∧ c.param 8 8 =
        BitVec.toNat pubA.version ∧ List.take 48 (s.windowRead c.ld c.dataOff c.dataLen) = pubA.digest)) ∧
    (Goes (put1 lentA [1]) 0x905 1 (cmdOf 1 0x0905 [3,0,0,0,0,0,0,0,2] 48 buf1) tagA (fun s c => 48 ≤ c.dataLen ∧
        c.param 0 2 < 1024 ∧ tget s.cxl.pubs (c.param 0 2) = some pubA ∧ s.mayPublish c.ld pubA.base pubA.length = true ∧
        (c.param 8 8 < BitVec.toNat pubA.version ∨ c.param 8 8 = BitVec.toNat pubA.version ∧
        List.take 48 (s.windowRead c.ld c.dataOff c.dataLen) ≠ pubA.digest) ∧ pubA.version ≠ 0)) ∧
    (Goes (put1 { lentA with cxl := { lentA.cxl with pubs := [(3, pubN)] } } [1]) 0x905 1 (cmdOf 1 0x0905 [3,0,0,0,0,0,0,0,0] 48
        buf1) tagA (fun s c => 48 ≤ c.dataLen ∧ c.param 0 2 < 1024 ∧ tget s.cxl.pubs (c.param 0 2) = some pubN ∧
        s.mayPublish c.ld pubN.base pubN.length = true ∧ c.param 8 8 = 0 ∧ pubN.version = 0 ∧
        List.take 48 (s.windowRead c.ld c.dataOff c.dataLen) ≠ pubN.digest)) ∧
    (Goes { lentA with cxl := { lentA.cxl with hostTable := [] } } 0x905 1 (cmdOf 1 0x0905 [3,0,0,0,0,0,0,0,3] 48 buf1) tagA
        (fun s c => 48 ≤ c.dataLen ∧ c.param 0 2 < 1024 ∧ tget s.cxl.pubs (c.param 0 2) = some pubA ∧
        s.mayPublish c.ld pubA.base pubA.length = false)) :=
  ⟨goes (by decide +kernel) (by decide +kernel),
   goes (by decide +kernel) (by decide +kernel),
   goes (by decide +kernel) (by decide +kernel),
   goes (by decide +kernel) (by decide +kernel),
   goes (by decide +kernel) (by decide +kernel)⟩

theorem meets_PublicationGet : Goes lentA 0x906 1 (cmdOf 1 0x0906 [3,0] 64 buf1) tagA (fun s c => 64 ≤ c.dataLen ∧
    c.param 0 2 < 1024 ∧ tget s.cxl.pubs (c.param 0 2) = some pubA) := goes (by decide +kernel) (by decide +kernel)

theorem meets_UnitService :
    (Goes { full with rel := { suspect := [(1, 7)] } } 0xa00 0 (cmdOf 0 0x0A00 [1,3,7,0]) 0 (fun s c => 1 ≤ c.param 0 1 ∧
        c.param 0 1 ≤ 3 ∧ c.param 1 1 = 3 ∧ (c.param 2 2 < if c.param 0 1 = 1 then 8 else if c.param 0 1 = 2 then 1024 else 36) ∧
        (s.rel.suspect.contains (c.param 0 1, if c.param 0 1 = 2 then s.physOf (c.param 2 2) else c.param 2 2) = true))) ∧
    (Goes { full with rel := { spindles := List.replicate 8 { state := 1 } } } 0xa00 0 (cmdOf 0 0x0A00 [1,1,7,0]) 0 (fun s c =>
        c.param 0 1 = 1 ∧ (c.param 1 1 = 1 ∨ c.param 1 1 = 2) ∧ c.param 2 2 < 8 ∧
        (s.serveSpindle (c.param 1 1) (c.param 2 2)).toOption.isSome = true)) ∧
    (Goes { full with rel := { stackUnits := List.replicate 8 { state := 0, whorls := 16 } } } 0xa00 0 (cmdOf 0 0x0A00 [2,1,7,0])
        0 (fun s c => c.param 0 1 = 2 ∧ c.param 1 1 = 1 ∧ c.param 2 2 < 1024 ∧
        (s.serveChannel (c.param 2 2) c.ref).toOption.isSome = true)) ∧
    (Goes full 0xa00 0 (cmdOf 0 0x0A00 [3,1,7,0]) 0 (fun s c => c.param 0 1 = 3 ∧ (c.param 1 1 = 1 ∨ c.param 1 1 = 2) ∧
        c.param 2 2 < 36 ∧ (s.serveWavelength (c.param 1 1) (c.param 2 2)).toOption.isSome = true)) :=
  ⟨goes (by decide +kernel) (by decide +kernel),
   goes (by decide +kernel) (by decide +kernel),
   goes (by decide +kernel) (by decide +kernel),
   goes (by decide +kernel) (by decide +kernel)⟩

theorem meets_AuditSet : Goes full 0xa02 0 (cmdOf 0 0x0A02 [24,0]) 0 (fun _ c => c.param 0 1 ≤ 24 ∧ c.param 1 1 ≤ 24) :=
    goes (by decide +kernel) (by decide +kernel)

theorem meets_BudgetSet : Goes full 0xa03 0 (cmdOf 0 0x0A03 ([5,0,0,0] ++ toLe 4 1100)) 0 (fun _ c => 1 ≤ c.param 0 1 ∧
    c.param 0 1 ≤ 5 ∧ [16, 5243, 32, 1049, 1100].getD (c.param 0 1 - 1) 0 ≤ c.param 4 4 ∧ c.param 4 4 ≤ 2 ^ 20) :=
    goes (by decide +kernel) (by decide +kernel)

theorem meets_HealthRead : Goes full 0xa04 0 (cmdOf 0 0x0A04 [] 42080 buf0) 0 (fun _ c => 42080 ≤ c.dataLen) :=
    goes (by decide +kernel) (by decide +kernel)

theorem meets_TelemetryRead :
    (Goes full 0xb01 0 (cmdOf 0 0x0B01 (toLe 4 1) 32 buf0) 0 (fun _ c => 1 ≤ c.param 0 4 ∧ c.param 0 4 ≤ c.dataLen / 32 ∧
        (c.mb == 0 && 0 == 0) = true)) ∧
    (Goes full 0xb01 1 (cmdOf 1 0x0B01 (toLe 4 1) 32 buf1) tagA (fun s c => 1 ≤ c.param 0 4 ∧ c.param 0 4 ≤ c.dataLen / 32 ∧
        (c.mb == 0 && tagA == 0) = false ∧ (s.tenant? tagA).isSome = true)) :=
  ⟨goes (by decide +kernel) (by decide +kernel),
   goes (by decide +kernel) (by decide +kernel)⟩

theorem meets_StatsRead :
    (Goes full 0xb02 0 (cmdOf 0 0x0B02 [1,0] 4096 buf0) 0 (fun s c => 1 ≤ c.param 0 2 ∧ c.param 0 2 ≤ 5 ∧
        (c.mb = 0 ∧ 0 = 0 ∨ (s.tenant? 0).isSome = true) ∧ c.mb = 0 ∧ c.param 0 2 = 1 ∧
        16 * s.sensorStats.1.length ≤ c.dataLen)) ∧
    (Goes full 0xb02 0 (cmdOf 0 0x0B02 [4,0] 65536 buf0) 0 (fun s c => 1 ≤ c.param 0 2 ∧ c.param 0 2 ≤ 5 ∧
        (c.mb = 0 ∧ 0 = 0 ∨ (s.tenant? 0).isSome = true) ∧ c.mb = 0 ∧ c.param 0 2 = 4 ∧ 16 * s.relStats.length ≤ c.dataLen)) ∧
    (Goes full 0xb02 1 (cmdOf 1 0x0B02 [5,0]) tagA (fun s c => 1 ≤ c.param 0 2 ∧ c.param 0 2 ≤ 5 ∧
        (c.mb = 0 ∧ tagA = 0 ∨ (s.tenant? tagA).isSome = true) ∧ (c.mb ≠ 0 ∨ c.param 0 2 = 2 ∨ c.param 0 2 = 3 ∨ c.param 0 2 =
        5) ∧ 16 * ([] : List Nat).length ≤ c.dataLen)) :=
  ⟨goes (by decide +kernel) (by decide +kernel),
   goes (by decide +kernel) (by decide +kernel),
   goes (by decide +kernel) (by decide +kernel)⟩

theorem meets_TimeConfigure :
    (Goes full 0xc00 0 (cmdOf 0 0x0C00 [0,15]) 0 (fun _ c => c.param 0 1 = 0 ∧ BitVec.ofNat 64 (c.param 8 8) = 0 ∧
        c.param 1 1 ≠ 0)) ∧
    (Goes full 0xc00 0 (cmdOf 0 0x0C00 [1,1,0,0,0,0,0,0,9]) 0 (fun _ c => c.param 0 1 = 1 ∧ c.param 1 1 ≠ 0)) ∧
    (Goes full 0xc00 0 (cmdOf 0 0x0C00 [2,0,0,0,0,0,0,0,9]) 0 (fun _ c => c.param 0 1 = 2)) :=
  ⟨goes (by decide +kernel) (by decide +kernel),
   goes (by decide +kernel) (by decide +kernel),
   goes (by decide +kernel) (by decide +kernel)⟩

theorem meets_TimeInfo : Goes full 0xc01 1 (cmdOf 1 0x0C01 []) tagA (fun s _ => -32768 ≤ s.time.lastOffset ∧
    s.time.lastOffset ≤ 32767) := goes (by decide +kernel) (by decide +kernel)

theorem meets_PowerStateSet :
    (Goes full 0xd00 0 (cmdOf 0 0x0D00 [0]) 0 (fun s c => s.power.waiter = none ∧ (∀ d ∈ s.box.inflight, d.seq = c.seq ∨
        d.committed = false ∧ c.seq ≤ d.seq) ∧ PState.ofCode (c.param 0 1) = some PState.run ∧ PState.run = s.power.state ∧
        s.power.inTransition = false)) ∧
    (Goes full 0xd00 0 (cmdOf 0 0x0D00 [1]) 0 (fun s c => s.power.waiter = none ∧ (∀ d ∈ s.box.inflight, d.seq = c.seq ∨
        d.committed = false ∧ c.seq ≤ d.seq) ∧ PState.ofCode (c.param 0 1) = some PState.hold ∧ PState.hold = PState.hold ∧
        (s.power.state = PState.run ∨ s.power.state = PState.hold ∧ s.power.inTransition = true))) ∧
    (Goes full 0xd00 0 (cmdOf 0 0x0D00 [2]) 0 (fun s c => s.power.waiter = none ∧ (∀ d ∈ s.box.inflight, d.seq = c.seq ∨
        d.committed = false ∧ c.seq ≤ d.seq) ∧ PState.ofCode (c.param 0 1) = some PState.doze ∧ PState.doze = PState.doze ∧
        (s.power.state = PState.run ∨ s.power.state = PState.hold))) ∧
    (Goes full 0xd00 0 (cmdOf 0 0x0D00 [3]) 0 (fun s c => s.power.waiter = none ∧ (∀ d ∈ s.box.inflight, d.seq = c.seq ∨
        d.committed = false ∧ c.seq ≤ d.seq) ∧ PState.ofCode (c.param 0 1) = some PState.standby ∧ PState.standby =
        PState.standby ∧ s.power.state ≠ PState.standby)) ∧
    (Goes { full with power := { state := .standby } } 0xd00 0 (cmdOf 0 0x0D00 [0]) 0 (fun s c => s.power.waiter = none ∧
        (∀ d ∈ s.box.inflight, d.seq = c.seq ∨ d.committed = false ∧ c.seq ≤ d.seq) ∧ PState.ofCode (c.param 0 1) =
        some PState.run ∧ PState.run ≠ s.power.state ∧ s.power.state = PState.standby)) ∧
    (Goes { full with power := { state := .hold } } 0xd00 0 (cmdOf 0 0x0D00 [0]) 0 (fun s c => s.power.waiter = none ∧
        (∀ d ∈ s.box.inflight, d.seq = c.seq ∨ d.committed = false ∧ c.seq ≤ d.seq) ∧ PState.ofCode (c.param 0 1) =
        some PState.run ∧ PState.run = PState.run ∧ s.power.state = PState.hold)) ∧
    (Goes { full with power := { state := .doze } } 0xd00 0 (cmdOf 0 0x0D00 [1]) 0 (fun s c => s.power.waiter = none ∧
        (∀ d ∈ s.box.inflight, d.seq = c.seq ∨ d.committed = false ∧ c.seq ≤ d.seq) ∧ PState.ofCode (c.param 0 1) =
        some PState.hold ∧ (PState.hold = PState.run ∨ PState.hold = PState.hold) ∧ s.power.state = PState.doze)) :=
  ⟨goes (by decide +kernel) (by decide +kernel),
   goes (by decide +kernel) (by decide +kernel),
   goes (by decide +kernel) (by decide +kernel),
   goes (by decide +kernel) (by decide +kernel),
   goes (by decide +kernel) (by decide +kernel),
   goes (by decide +kernel) (by decide +kernel),
   goes (by decide +kernel) (by decide +kernel)⟩

theorem meets_PowerCapSet : Goes full 0xd01 0 (cmdOf 0 0x0D01 (toLe 2 1600)) 0 (fun _ c => (c.param 0 2 = 0 ∨ 500 ≤ c.param 0 2 ∧
    c.param 0 2 ≤ 1600)) := goes (by decide +kernel) (by decide +kernel)

theorem meets_DozeConfigure : Goes full 0xd02 0 (cmdOf 0 0x0D02 (toLe 2 1000 ++ [110,0])) 0 (fun _ c => 1 ≤ c.param 0 2 ∧
    c.param 0 2 ≤ 1000 ∧ 40 ≤ c.param 2 1 ∧ c.param 2 1 ≤ 110) := goes (by decide +kernel) (by decide +kernel)

theorem meets_PowerInfo : Goes full 0xd03 1 (cmdOf 1 0x0D03 []) tagA (fun _ _ => True) := goes (by decide +kernel) (trivial)

theorem meets_FirmwareStage :
    (Goes full 0xe00 0 (cmdOf 0 0x0E00 ([0,0,0,0] ++ toLe 4 16777216) 64 buf0) 0 (fun s c => 0 < c.dataLen ∧
        (c.param 0 4 = 0 ∨ c.param 0 4 = s.boot.staging.length) ∧ c.param 0 4 + c.dataLen ≤ c.param 4 4 ∧
        c.param 4 4 ≤ imageMax ∧ (c.param 0 4 = 0 ∨ c.param 4 4 = s.boot.stagingTotal) ∧
        (((if c.param 0 4 = 0 then [] else s.boot.staging) ++ s.windowRead c.ld c.dataOff c.dataLen).length < c.param 4 4))) ∧
    (Goes full 0xe00 0 (cmdOf 0 0x0E00 ([0,0,0,0] ++ toLe 4 64) 64 buf0) 0 (fun s c => 0 < c.dataLen ∧
        (c.param 0 4 = 0 ∨ c.param 0 4 = s.boot.staging.length) ∧ c.param 0 4 + c.dataLen ≤ c.param 4 4 ∧
        c.param 4 4 ≤ imageMax ∧ (c.param 0 4 = 0 ∨ c.param 4 4 = s.boot.stagingTotal) ∧
        (c.param 4 4 ≤ ((if c.param 0 4 = 0 then [] else s.boot.staging) ++ s.windowRead c.ld c.dataOff c.dataLen).length))) :=
  ⟨goes (by decide +kernel) (by decide +kernel),
   goes (by decide +kernel) (by decide +kernel)⟩

theorem meets_FirmwareActivate :
    (Goes { full with boot := { state := .ready, stagedValid := true } } 0xe01 0 (cmdOf 0 0x0E01 [2]) 0 (fun s c =>
        s.boot.stagedValid = true ∧ c.param 0 1 = 2)) ∧
    (Goes { full with boot := { state := .ready, stagedValid := true } } 0xe01 0 (cmdOf 0 0x0E01 [1]) 0 (fun s c =>
        s.boot.stagedValid = true ∧ c.param 0 1 = 1 ∧ s.boot.state = BootState.ready ∧ true = true)) ∧
    (Goes { full with boot := { state := .ready, stagedValid := true } } 0xe01 0 (cmdOf 0 0x0E01 [1]) 0 (fun s c =>
        s.boot.stagedValid = true ∧ c.param 0 1 = 1 ∧ s.boot.state = BootState.ready ∧ false = false)) :=
  ⟨goes (by decide +kernel) (by decide +kernel),
   goes (by decide +kernel) (by decide +kernel),
   goes (by decide +kernel) (by decide +kernel)⟩

theorem meets_FirmwareInfo : Goes full 0xe02 0 (cmdOf 0 0x0E02 []) 0 (fun _ _ => True) := goes (by decide +kernel) (trivial)

theorem meets_SvnCommit :
    (Goes { full with boot := { state := .ready, svn := 5 }, sec := { svnRecords := List.replicate 63 4 } } 0xe03 0
        (cmdOf 0 0x0E03 []) 0 (fun s _ => s.sec.floor ≠ s.boot.svn ∧ s.sec.svnRecords.length < 64)) ∧
    (Goes { full with boot := { state := .ready, svn := 5 }, sec := { svnRecords := [5] } } 0xe03 0 (cmdOf 0 0x0E03 []) 0
        (fun s _ => s.sec.floor = s.boot.svn)) ∧
    (Goes { full with boot := { state := .ready, svn := 5 }, sec := { svnRecords := List.replicate 64 4 } } 0xe03 0
        (cmdOf 0 0x0E03 []) 0 (fun s _ => s.sec.floor ≠ s.boot.svn ∧ 64 ≤ s.sec.svnRecords.length)) :=
  ⟨goes (by decide +kernel) (by decide +kernel),
   goes (by decide +kernel) (by decide +kernel),
   goes (by decide +kernel) (by decide +kernel)⟩

theorem meets_SessionClose : Goes full 0xe06 0 (cmdOf 0 0x0E06 [0,0]) 0 (fun s c => tget s.flyer.sessions (c.param 0 2) =
    some sesA) := goes (by decide +kernel) (by decide +kernel)

theorem meets_TenantDestroy : Goes full 0x201 0 (cmdOf 0 0x0201 (forA [])) tagA (fun s c =>
    tget s.tenants (tidOf c.tenantField) = some tenOne ∧ tenOne.live = true ∧ tenOne.gen = tgenOf c.tenantField ∧
    tenOne.teardown = false) := goes (by decide +kernel) (by decide +kernel)

theorem meets_SqTailWrite :
    (At base fun s => 0 < 16 ∧ 1 < 1024 ∧ (s.mbox 1).ld = some 0 ∧ (s.mbox 1).state = MboxState.active ∧ 15 < (s.mbox 1).depth) ∧
    (At base fun s => 0 < 16 ∧ 1 < 1024 ∧ (s.mbox 1).ld = some 0 ∧ ((s.mbox 1).state ≠ MboxState.active ∨ (s.mbox 1).depth ≤ 16))
        ∧
    (At base fun s => 1 < 16 ∧ 1 < 1024 ∧ (s.mbox 1).ld ≠ some 1) :=
  ⟨by decide +kernel,
   by decide +kernel,
   by decide +kernel⟩

theorem meets_CqHeadWrite :
    (At base fun s => 0 < 16 ∧ 1 < 1024 ∧ (s.mbox 1).ld = some 0 ∧ (s.mbox 1).state = MboxState.active ∧ 15 < (s.mbox 1).depth) ∧
    (At base fun s => 0 < 16 ∧ 1 < 1024 ∧ (s.mbox 1).ld = some 0 ∧ ((s.mbox 1).state ≠ MboxState.active ∨ (s.mbox 1).depth ≤ 16))
        ∧
    (At base fun s => 1 < 16 ∧ 1 < 1024 ∧ (s.mbox 1).ld ≠ some 1) :=
  ⟨by decide +kernel,
   by decide +kernel,
   by decide +kernel⟩

theorem meets_EventHeadWrite :
    (At base fun s => 0 < 16 ∧ 1 < 1024 ∧ (s.mbox 1).ld = some 0 ∧ (s.mbox 1).state = MboxState.active ∧ 255 < 256) ∧
    (At base fun s => 0 < 16 ∧ 1 < 1024 ∧ (s.mbox 1).ld = some 0 ∧ ((s.mbox 1).state ≠ MboxState.active ∨ 256 ≤ 256)) ∧
    (At base fun s => 1 < 16 ∧ 1 < 1024 ∧ (s.mbox 1).ld ≠ some 1) :=
  ⟨by decide +kernel,
   by decide +kernel,
   by decide +kernel⟩

theorem meets_DoorbellEffects :
    (At full fun s => s.jqFor tagA 2 = some jqA ∧ 2 < 65536 ∧ 15 < jqA.depth) ∧
    (At full fun s => s.srqFor tagA 2 = some srqA ∧ 2 < 65536 ∧ 15 < srqA.entries) ∧
    (At full fun s => s.connFor tagA 262145#32 = some (1, connA) ∧ 15 < connA.sqDepth) ∧
    (At full fun s => s.cqFor tagA 3 = some cqA ∧ 3 < 65536 ∧ 2 < cqA.entries ∧
        cqA.consumed + (2 + cqA.entries - cqA.consumed % cqA.entries) % cqA.entries ≤ cqA.written) ∧
    (At full fun s => s.listFor tagA 4 = some listA ∧ 4 < 65536 ∧ 1 < listA.ringDepth) :=
  ⟨by decide +kernel,
   by decide +kernel,
   by decide +kernel,
   by decide +kernel,
   by decide +kernel⟩

theorem meets_DoorbellsAsleep :
    (At { base with power := { state := .standby } } fun s => 0 < 16 ∧ 1 < 1024 ∧ (s.mbox 1).ld = some 0 ∧
        (1, Instr.jobQueueDoorbell 0 1 0) ∈ [(1, Instr.jobQueueDoorbell 0 1 0), (2, Instr.sendQueueDoorbell 0 1 0),
        (3, Instr.triggerRingDoorbell 0 1 0), (4, Instr.srqDoorbell 0 1 0), (5, Instr.cqHeadUpdate 0 1 0)] ∧ s.power.state =
        PState.standby) ∧
    (At { base with power := { state := .doze } } fun s => 0 < 16 ∧ 1 < 1024 ∧ (s.mbox 1).ld = some 0 ∧
        (1, Instr.jobQueueDoorbell 0 1 0) ∈ [(1, Instr.jobQueueDoorbell 0 1 0), (2, Instr.sendQueueDoorbell 0 1 0),
        (3, Instr.triggerRingDoorbell 0 1 0), (4, Instr.srqDoorbell 0 1 0), (5, Instr.cqHeadUpdate 0 1 0)] ∧ s.power.state =
        PState.doze ∧ (∀ d ∈ s.cxl.doorbellLatch, ¬(fun (d : Nat × Nat × W64) => BitVec.toNat d.2.2 / 65536 =
        (BitVec.ofNat 64 ((1, Instr.jobQueueDoorbell 0 1 0).1 * 2 ^ 60 + 0)).toNat / 65536) d) ∧
        s.cxl.doorbellLatch.length < 4096) ∧
    (At { base with power := { state := .doze }, cxl := { base.cxl with doorbellLatch := [(0, 1, 0x1000000000000007)] } } fun s
        => 0 < 16 ∧ 1 < 1024 ∧ (s.mbox 1).ld = some 0 ∧ (1, Instr.jobQueueDoorbell 0 1 0) ∈ [(1, Instr.jobQueueDoorbell 0 1 0),
        (2, Instr.sendQueueDoorbell 0 1 0), (3, Instr.triggerRingDoorbell 0 1 0), (4, Instr.srqDoorbell 0 1 0),
        (5, Instr.cqHeadUpdate 0 1 0)] ∧ s.power.state = PState.doze ∧ (∃ d ∈ s.cxl.doorbellLatch, (fun (d : Nat × Nat × W64) =>
        BitVec.toNat d.2.2 / 65536 = (BitVec.ofNat 64 ((1, Instr.jobQueueDoorbell 0 1 0).1 * 2 ^ 60 + 0)).toNat / 65536) d)) :=
  ⟨by decide +kernel,
   by decide +kernel,
   by decide +kernel⟩

theorem meets_W1cFlagWrite : At { base with flags := [(12, 5)] } fun _ => 0 < 16 ∧ 12 < 13 := by decide +kernel

theorem meets_RcCounterRead : At { base with counts := [(384, 5)] } fun _ => 15 < 16 ∧ 12 < 13 := by decide +kernel

theorem meets_TimeNowReads :
    (At { base with time := { now := 0x500000007, latch := [(3, 4)] } } fun _ => 3 < 16) ∧
    (At { base with time := { now := 0x500000007, latch := [(3, 4)] } } fun s => 3 < 16 ∧ tget s.time.latch 3 = some 4) ∧
    (At { base with time := { now := 0x500000007, latch := [(3, 4)] } } fun _ => 4 < 16) ∧
    (At { base with time := { now := 0x500000007, latch := [(3, 4)] } } fun s => 4 < 16 ∧ tget s.time.latch 4 = none) :=
  ⟨by decide +kernel,
   by decide +kernel,
   by decide +kernel,
   by decide +kernel⟩

theorem meets_RecoveryGo :
    (At { base with boot := { state := .recovery } } fun s => s.boot.state = BootState.recovery ∧ s.boot.recoveryResult ≠ 1 ∧
        s.boot.recoveryResult ≠ 2 ∧ (8388609 = 0 ∨ 8388608 < 8388609)) ∧
    (At { base with boot := { state := .recovery } } fun s => s.boot.state = BootState.recovery ∧ s.boot.recoveryResult ≠ 1 ∧
        s.boot.recoveryResult ≠ 2 ∧ 0 < 64 ∧ 64 ≤ 8388608) ∧
    (At base fun s => s.boot.state ≠ BootState.recovery) :=
  ⟨by decide +kernel,
   by decide +kernel,
   by decide +kernel⟩

theorem meets_RegisterWrite :
    (At { base with boot := { state := .recovery } } fun _ => 0 < 16 ∧ 1 < 1024) ∧
    (At { base with boot := { state := .recovery } } fun _ => 0 < 16 ∧ 12 < 13) ∧
    (At { base with boot := { state := .recovery } } fun _ => 0 < 16) ∧
    (At { base with boot := { state := .recovery } } fun s => 0 < 16 ∧ 33554432 ≤ 33554432 ∧ 33554432 + [1].length ≤ 41943040 ∧
        s.boot.state = BootState.recovery) ∧
    (At { base with boot := { state := .recovery } } fun _ => 0 < 16 ∧ 66880 + [1].length ≤ 67108864 ∧ (66880 < 48 ∨ 56 ≤ 66880 ∧
        66880 < 66048 ∨ 66880 ≤ 66880 ∧ 66880 < 1048576 ∨ 5242880 ≤ 66880 ∧ 66880 < 33554432 ∨ 41943040 ≤ 66880)) :=
  ⟨by decide +kernel,
   by decide +kernel,
   by decide +kernel,
   by decide +kernel,
   by decide +kernel⟩

theorem meets_ProbeWindow :
    (At full fun s => 0 < 16 ∧ 7 < 4194304 ∧ s.power.state ≠ PState.standby ∧ (s.expireLease 7).skein? 7 = some skA ∧
        (s.expireLease 7).ldReaches 0 skA.tenant = true) ∧
    (At full fun s => 0 < 16 ∧ 7 < 4194304 ∧ s.power.state ≠ PState.standby) ∧
    (At full fun s => 1 < 16 ∧ 7 < 4194304 ∧ s.power.state ≠ PState.standby ∧
        (Option.all (fun (k : Skein) => !(s.expireLease 7).ldReaches 1 k.tenant) ((s.expireLease 7).skein? 7) = true)) ∧
    (At full fun s => 1 < 16 ∧ 7 < 4194304 ∧ s.power.state ≠ PState.standby) ∧
    (At { full with power := { state := .standby } } fun s => 1 < 16 ∧ 4194303 < 4194304 ∧ s.power.state = PState.standby) :=
  ⟨by decide +kernel,
   by decide +kernel,
   by decide +kernel,
   by decide +kernel,
   by decide +kernel⟩

theorem meets_LentRead :
    (At lentA fun s => 0 < 16 ∧ 65472 % 64 = 0 ∧ 65472 < s.cfg.lentGib * 2 ^ 30 ∧ s.cfg.lentGib ≤ 512 ∧
        s.power.state ≠ PState.standby ∧ s.holdsRequests = false ∧
        (hostA ∈ List.map (fun (x : Nat × HostEntry) => x.2) s.cxl.hostTable) ∧ hostA.ld = 0 ∧ hostA.hostGen = (s.ld 0).hostGen ∧
        hostA.base ≤ 65472 ∧ 65472 < hostA.base + hostA.length ∧ hostA.read = true ∧ s.cxl.badLines.contains (s.lentAddr 65472) =
        false ∧ (Option.all (fun (k : Nat) => k == s.lentKey 0 65472) (tget s.cxl.lineKeys (s.lentAddr 65472)) = true)) ∧
    (At { lentA with cxl := { lentA.cxl with badLines := [lentA.lentAddr 65472] } } fun s => 0 < 16 ∧ 65472 % 64 = 0 ∧
        65472 < s.cfg.lentGib * 2 ^ 30 ∧ s.cfg.lentGib ≤ 512 ∧ s.power.state ≠ PState.standby ∧ s.holdsRequests = false ∧
        (hostA ∈ List.map (fun (x : Nat × HostEntry) => x.2) s.cxl.hostTable) ∧ hostA.ld = 0 ∧ hostA.hostGen = (s.ld 0).hostGen ∧
        hostA.base ≤ 65472 ∧ 65472 < hostA.base + hostA.length ∧ hostA.read = true ∧ s.cxl.badLines.contains (s.lentAddr 65472) =
        true) :=
  ⟨by decide +kernel,
   by decide +kernel⟩

theorem meets_LentWrite :
    (At lentA fun s => 0 < 16 ∧ 65472 % 64 = 0 ∧ 65472 < s.cfg.lentGib * 2 ^ 30 ∧ s.cfg.lentGib ≤ 512 ∧
        s.power.state ≠ PState.standby ∧ s.holdsRequests = false ∧
        (hostA ∈ List.map (fun (x : Nat × HostEntry) => x.2) s.cxl.hostTable) ∧ hostA.ld = 0 ∧ hostA.hostGen = (s.ld 0).hostGen ∧
        hostA.base ≤ 65472 ∧ 65472 < hostA.base + hostA.length ∧ hostA.write = true ∧ (List.replicate 64 7).length = 64) ∧
    (At lentA fun s => 0 < 16 ∧ 65472 % 64 = 0 ∧ 65472 < s.cfg.lentGib * 2 ^ 30 ∧ s.cfg.lentGib ≤ 512 ∧
        s.power.state ≠ PState.standby ∧ s.holdsRequests = false ∧
        (hostA ∈ List.map (fun (x : Nat × HostEntry) => x.2) s.cxl.hostTable) ∧ hostA.ld = 0 ∧ hostA.hostGen = (s.ld 0).hostGen ∧
        hostA.base ≤ 65472 ∧ 65472 < hostA.base + hostA.length ∧ hostA.write = true ∧ (List.replicate 64 7).length = 64 ∧
        s.mem.wf = true) :=
  ⟨by decide +kernel,
   by decide +kernel⟩

theorem meets_LentDenied :
    (At lentA fun s => 0 < 16 ∧ 65536 % 64 = 0 ∧ 65536 < 512 * 2 ^ 30 ∧ s.power.state ≠ PState.standby ∧ s.holdsRequests =
        false ∧ s.lentStep 0 65536 false ≠ 0) ∧
    (At lentA fun s => 0 < 16 ∧ 65536 % 64 = 0 ∧ 65536 < 512 * 2 ^ 30 ∧ s.power.state ≠ PState.standby ∧ s.holdsRequests =
        false ∧ s.lentStep 0 65536 true ≠ 0) ∧
    (At lentA fun s => 0 < 16 ∧ 65536 % 64 = 0 ∧ 65536 < 512 * 2 ^ 30 ∧ s.power.state ≠ PState.standby ∧ s.holdsRequests =
        false) :=
  ⟨by decide +kernel,
   by decide +kernel,
   by decide +kernel⟩

theorem meets_QueueWindow :
    (At base fun s => 0 < 16 ∧ s.holdsRequests = false ∧ s.cxl.badLines = [] ∧ (true = (List.range 64).all fun (i : Nat) =>
        (s.slabAt 0 (524288 + i)).isSome) ∧ 524288 + 64 ≤ 64 * 2 ^ 30) ∧
    (At base fun s => 0 < 16 ∧ s.holdsRequests = false ∧ s.cxl.badLines = [] ∧
        (true = (List.range [1, 2].length).all fun (i : Nat) => (s.slabAt 0 (524288 + i)).isSome) ∧
        524288 + [1, 2].length ≤ 64 * 2 ^ 30) ∧
    (At base fun s => 0 < 16 ∧ s.holdsRequests = false ∧ s.cxl.badLines = [] ∧ 63 < 64) ∧
    (At base fun s => 0 < 16 ∧ s.holdsRequests = false ∧ s.cxl.badLines = [] ∧ (false = (List.range 64).all fun (i : Nat) =>
        (s.slabAt 0 (0 + i)).isSome) ∧ 0 + 64 ≤ 64 * 2 ^ 30) ∧
    (At base fun s => 0 < 16 ∧ s.holdsRequests = false ∧ s.cxl.badLines = [] ∧ (false = (List.range [1, 2].length).all fun (i :
        Nat) => (s.slabAt 0 (0 + i)).isSome) ∧ 0 + [1, 2].length ≤ 64 * 2 ^ 30) :=
  ⟨by decide +kernel,
   by decide +kernel,
   by decide +kernel,
   by decide +kernel,
   by decide +kernel⟩

theorem meets_HdmDecoderCommit :
    (At base fun s => 0 < 16 ∧ 7 < 8 ∧ ((if 7 = 0 then 0 else if 7 = 1 then 268435456 else 137438953472) ≤ 137438953472) ∧
        0 < 549755813888 ∧ (137438953472 + 549755813888 ≤ if 7 = 0 then 268435456 else if 7 =
        1 then 68987912192 else 687194767360) ∧ (s.ld 0).ascending 7 137438953472 549755813888 = true) ∧
    (At base fun s => 0 < 16 ∧ 0 < 8 ∧ ((0 < if 0 = 0 then 0 else if 0 = 1 then 268435456 else 137438953472) ∨ 268435457 = 0 ∨
        (if 0 = 0 then 268435456 else if 0 = 1 then 68987912192 else 687194767360) < 0 + 268435457 ∨
        (s.ld 0).ascending 0 0 268435457 = false)) :=
  ⟨by decide +kernel,
   by decide +kernel⟩

theorem meets_JobHeader :
    (At live fun _ => field (zeros 128) 0 1 ≠ 16) ∧
    (At live fun _ => field [16, 2, 2, 0] 0 1 = 16 ∧ field [16, 2, 2, 0] 1 1 ≠ 1) ∧
    (At live fun _ => field [16, 1, 1, 0] 0 1 = 16 ∧ field [16, 1, 1, 0] 1 1 = 1 ∧ field [16, 1, 1, 0] 2 1 ≠ 2) ∧
    (At live fun _ => field [16, 1, 2, 1] 0 1 = 16 ∧ field [16, 1, 2, 1] 1 1 = 1 ∧ field [16, 1, 2, 1] 2 1 = 2 ∧
        jobZeros [16, 1, 2, 1] = false) ∧
    (At live fun _ => field (padTo 128 [16, 1, 2, 0, 0, 0, 128, 1]) 0 1 = 16 ∧
        field (padTo 128 [16, 1, 2, 0, 0, 0, 128, 1]) 1 1 = 1 ∧ field (padTo 128 [16, 1, 2, 0, 0, 0, 128, 1]) 2 1 = 2 ∧
        jobZeros (padTo 128 [16, 1, 2, 0, 0, 0, 128, 1]) = true ∧ jobExcluded (padTo 128 [16, 1, 2, 0, 0, 0, 128, 1]) = true) :=
  ⟨by decide +kernel,
   by decide +kernel,
   by decide +kernel,
   by decide +kernel,
   by decide +kernel⟩

theorem meets_PlainAdmission : At (withJob live jobC) fun s => jdCache jobC.bytes = false ∧ jdSelective jobC.bytes = false ∧
    (∀ e ∈ jobC.entries, (s.skein? (skIndex e.skein)).isSome = true) ∧
    (∀ e ∈ List.map (fun (e : JobEntry) =>
    { e with plan := match s.skein? (skIndex e.skein) with | some k => List.map (fun (x : Nat × Nat × Nat) => x.1) (bobbinRanges k.cap e.first e.last) | none => [] }) jobC.entries, s.reloadsOf jobC.bytes e = []) := by decide +kernel

theorem meets_JobAdmissionResume :
    (At (withJob live jobW) fun s => s.job? 0 = some jobW ∧ s.awake = true ∧ jobW.phase = JobPhase.waiting ∧
        (∀ e ∈ jobW.entries, s.reloadsOf jobW.bytes e = [])) ∧
    (At (withJob { live with store := { full.store with skeins := [(7, skD)] } } jobW) fun s => s.job? 0 = some jobW ∧
        s.awake = true ∧ jobW.phase = JobPhase.waiting ∧ (∃ e ∈ jobW.entries, s.reloadsOf jobW.bytes e ≠ [])) ∧
    (At (withJob live jobC) fun s => s.job? 0 = some jobC ∧ s.awake = true ∧ jobC.phase = JobPhase.cacheWait ∧ s.keyRuns 0 jobC =
        false) ∧
    (At { live with work := { live.work with jobs := [(0, jobK), (1, { jobA with key := [1] })] } } fun s =>
        s.job? 0 = some jobK ∧ s.awake = true ∧ jobK.phase = JobPhase.cacheWait ∧ s.keyRuns 0 jobK = true) :=
  ⟨by decide +kernel,
   by decide +kernel,
   by decide +kernel,
   by decide +kernel⟩

theorem meets_AdmitWaitExpiry : At (withJob live jobW) fun s => s.job? 0 = some jobW ∧ jobW.phase = JobPhase.waiting ∧
    jobW.waitUntil = some 0 ∧ 0 ≤ s.time.localNow ∧ s.awake = true := by decide +kernel

theorem meets_SketchWaitDone :
    (At (withJob live jobS) fun s => s.job? 0 = some jobS ∧ jobS.phase = JobPhase.sketchWait ∧ s.awake = true ∧
        s.sketchPending jobS = false) ∧
    (At (withJob { live with store := { live.store with sketchQ := [(7, { skein := 7, key := 0, values := [], seq := 0 })] } }
        jobS) fun s => s.job? 0 = some jobS ∧ jobS.phase = JobPhase.sketchWait ∧ s.awake = true ∧ s.sketchPending jobS = true) :=
  ⟨by decide +kernel,
   by decide +kernel⟩

theorem meets_LaunchCountReached :
    (At (withJob live (jobL 1)) fun s => s.job? 0 = some (jobL 1) ∧ (jobL 1).phase = JobPhase.launchWait ∧
        s.time.now < (jobL 1).launch) ∧
    (At (withJob live (jobL 0)) fun s => s.job? 0 = some (jobL 0) ∧ (jobL 0).phase = JobPhase.launchWait ∧
        (jobL 0).launch ≤ s.time.now) :=
  ⟨by decide +kernel,
   by decide +kernel⟩

theorem meets_SpindleBarrierArrive : At (withJob live jobBar) fun s => 7 < 8 ∧ s.job? 0 = some jobBar ∧ s.barrierOf 7 = some 0 ∧
    7 ∉ jobBar.barrier ∧ (∀ f ∈ s.flying, f / 64 ≠ 7) ∧ s.spindleServes 7 = true ∧ s.awake = true := by decide +kernel

theorem meets_ItemDealt : At (withJob { live with power := { state := .hold } } jobA) fun s => 7 < 8 ∧ s.job? 0 = some jobA ∧
    jobA.items[0]? = some itemB ∧ jobA.entries[itemB.entry]? = some entB ∧ jobA.whorls = false ∧ jobA.phase =
    JobPhase.streaming ∧ itemB.done = false ∧ itemB.leas = 0 ∧ 0 < leasOf entB.cap itemB.leaf.count ∧ itemB.sub = none ∧
    s.takesItem jobA itemB 7 0 = false := by decide +kernel

theorem meets_SpindleItemComplete : At (withJob live (jobI itemE)) fun s => s.job? 0 = some (jobI itemE) ∧
    (jobI itemE).items[0]? = some itemE ∧ itemE.sub = some 448 ∧ (jobI itemE).entries[itemE.entry]? = some entB ∧ itemE.done =
    false ∧ leasOf entB.cap itemE.leaf.count ≤ itemE.leas := by decide +kernel

theorem meets_JobStreamComplete :
    (At (withJob live (jobI itemD)) fun s => s.job? 0 = some (jobI itemD) ∧ (jobI itemD).phase = JobPhase.streaming ∧
        s.awake = true ∧ (jobI itemD).whorls = false ∧ (∀ i ∈ (jobI itemD).items, i.done = true)) ∧
    (At (withJob live jobA) fun s => s.job? 0 = some jobA ∧ jobA.phase = JobPhase.streaming ∧ s.awake = true ∧ jobA.whorls =
        false ∧ (∃ i ∈ jobA.items, i.done = false)) :=
  ⟨by decide +kernel,
   by decide +kernel⟩

theorem meets_WhorlJob : At (withJob live jobWh) fun s => s.job? 0 = some jobWh ∧ jobWh.phase = JobPhase.streaming ∧
    s.awake = true ∧ jobWh.whorls = true ∧ s.power.state = PState.run ∧ ((∀ i ∈ jobWh.items, i.leaf.tier ≠ 0) ∨
    s.spindlesInService ≠ 0) ∧ (s.whorlItems jobWh [0]).toOption.isSome = true := by decide +kernel

theorem meets_SpindleLeavesService :
    (At (withJob live jobA) fun s => 7 < 8 ∧ s.rel.spindles[7]? = some { state := 0 : Spindle } ∧ s.awake = true ∧
        { state := 0 : Spindle }.state ≤ 2) ∧
    (At live fun s => 7 < 8 ∧ s.rel.spindles[7]? = some { state := 0 : Spindle } ∧ s.awake = true ∧
        { state := 0 : Spindle }.state ≤ 2 ∧ s.work.jobs = []) ∧
    (At full fun s => 7 < 8 ∧ s.rel.spindles[7]? = some { : Spindle } ∧ s.awake = true ∧ 2 < { : Spindle }.state) :=
  ⟨by decide +kernel,
   by decide +kernel,
   by decide +kernel⟩

theorem meets_Copy :
    (At (withQ liveE (wcB 1 1)) fun s => AtHead s 2 (jqWith (wcB 1 1)) (qe (wcB 1 1)) [] (wcB 1 1) ∧ s.power.state = PState.run ∧
        field (wcB 1 1) 0 1 = 18 ∧ wcOp (wcB 1 1) = 1 ∧ errOf ((s.popped 2 []).whorlChecks (jqWith (wcB 1 1)).tenant (wcB 1 1)) =
        some St.reservedNonzero) ∧
    (At (withQ liveE (wcB 1 0 0x00400007)) fun s => AtHead s 2 (jqWith (wcB 1 0 4194311)) (qe (wcB 1 0 4194311)) []
        (wcB 1 0 4194311) ∧ s.power.state = PState.run ∧ field (wcB 1 0 4194311) 0 1 = 18 ∧ wcOp (wcB 1 0 4194311) = 1 ∧
        (s.popped 2 []).whorlChecks (jqWith (wcB 1 0 4194311)).tenant (wcB 1 0 4194311) = Except.ok (skB, some skB) ∧
        errOf ((s.popped 2 []).copyChecks (wcB 1 0 4194311) skB skB) = some St.lengthRange) ∧
    (At (withQ liveE (wcB 1 0 0x00400008)) fun s => AtHead s 2 (jqWith (wcB 1 0 4194312)) (qe (wcB 1 0 4194312)) []
        (wcB 1 0 4194312) ∧ s.power.state = PState.run ∧ field (wcB 1 0 4194312) 0 1 = 18 ∧ wcOp (wcB 1 0 4194312) = 1 ∧
        (s.popped 2 []).whorlChecks (jqWith (wcB 1 0 4194312)).tenant (wcB 1 0 4194312) = Except.ok (skB, some skE) ∧
        (s.popped 2 []).copyChecks (wcB 1 0 4194312) skB skE = Except.ok () ∧
        (∃ a b, (s.popped 2 []).copyKeys (skIndex (wcSkein (wcB 1 0 4194312))) (skIndex (wcDest (wcB 1 0 4194312)))
        (wcKeys (wcB 1 0 4194312)) = (a, b))) :=
  ⟨⟨⟨by decide +kernel, by decide +kernel, by decide +kernel, by decide +kernel, by decide +kernel, by decide +kernel,
      by decide +kernel⟩, by decide +kernel, by decide +kernel, by decide +kernel, by decide +kernel⟩,
   ⟨⟨by decide +kernel, by decide +kernel, by decide +kernel, by decide +kernel, by decide +kernel, by decide +kernel,
       by decide +kernel⟩, by decide +kernel, by decide +kernel, by decide +kernel, by decide +kernel, by decide +kernel⟩,
   ⟨⟨by decide +kernel, by decide +kernel, by decide +kernel, by decide +kernel, by decide +kernel, by decide +kernel,
       by decide +kernel⟩, by decide +kernel, by decide +kernel, by decide +kernel, by decide +kernel, by decide +kernel,
       ⟨_, _, rfl⟩⟩⟩

theorem meets_Verify :
    (At (withQ live (wcB 3 0)) fun s => AtHead s 2 (jqWith (wcB 3 0)) (qe (wcB 3 0)) [] (wcB 3 0) ∧ s.power.state = PState.run ∧
        field (wcB 3 0) 0 1 = 18 ∧ wcOp (wcB 3 0) = 3 ∧ (s.popped 2 []).whorlChecks (jqWith (wcB 3 0)).tenant (wcB 3 0) =
        Except.ok (skB, none)) ∧
    (At (withQ { live with store := { live.store with skeins := [(7, skA)] } } (wcB 3 0)) fun s =>
        AtHead s 2 (jqWith (wcB 3 0)) (qe (wcB 3 0)) [] (wcB 3 0) ∧ s.power.state = PState.run ∧ field (wcB 3 0) 0 1 = 18 ∧
        wcOp (wcB 3 0) = 3 ∧ (s.popped 2 []).whorlChecks (jqWith (wcB 3 0)).tenant (wcB 3 0) = Except.ok (skA, none)) :=
  ⟨⟨⟨by decide +kernel, by decide +kernel, by decide +kernel, by decide +kernel, by decide +kernel, by decide +kernel,
      by decide +kernel⟩, by decide +kernel, by decide +kernel, by decide +kernel, by decide +kernel⟩,
   ⟨⟨by decide +kernel, by decide +kernel, by decide +kernel, by decide +kernel, by decide +kernel, by decide +kernel,
       by decide +kernel⟩, by decide +kernel, by decide +kernel, by decide +kernel, by decide +kernel⟩⟩

theorem meets_Compact :
    (At (withQ live (wcB 2 3)) fun s => AtHead s 2 (jqWith (wcB 2 3)) (qe (wcB 2 3)) [] (wcB 2 3) ∧ field (wcB 2 3) 0 1 = 18 ∧
        wcOp (wcB 2 3) = 2 ∧ (s.popped 2 []).whorlChecks (jqWith (wcB 2 3)).tenant (wcB 2 3) = Except.ok (skB, none) ∧
        reencodable skB.format (wcFormat (wcB 2 3)) = false) ∧
    (At (withQ live (wcB 2 6)) fun s => AtHead s 2 (jqWith (wcB 2 6)) (qe (wcB 2 6)) [] (wcB 2 6) ∧ field (wcB 2 6) 0 1 = 18 ∧
        wcOp (wcB 2 6) = 2 ∧ (s.popped 2 []).whorlChecks (jqWith (wcB 2 6)).tenant (wcB 2 6) = Except.ok (skB, none) ∧
        reencodable skB.format (wcFormat (wcB 2 6)) = true) :=
  ⟨⟨⟨by decide +kernel, by decide +kernel, by decide +kernel, by decide +kernel, by decide +kernel, by decide +kernel,
      by decide +kernel⟩, by decide +kernel, by decide +kernel, by decide +kernel, by decide +kernel⟩,
   ⟨⟨by decide +kernel, by decide +kernel, by decide +kernel, by decide +kernel, by decide +kernel, by decide +kernel,
       by decide +kernel⟩, by decide +kernel, by decide +kernel, by decide +kernel, by decide +kernel⟩⟩

theorem meets_WaitJobQueue :
    (At (withQ live (waitB 1)) fun s => AtHead s 2 (jqWith (waitB 1)) (qe (waitB 1)) [] (waitB 1) ∧ 0 = 0 ∧ field (waitB 1) 0 1 =
        19 ∧ (s.popped 2 []).parseWait (jqWith (waitB 1)).tenant (qe (waitB 1)) (waitB 1) = Except.ok (waitJ 1) ∧
        (((s.popped 2 []).modJq 2 fun (j : Jq) => { j with wait := some (waitJ 1) }).testWait (jqWith (waitB 1)).tenant (waitJ 1)
        = none)) ∧
    (At (withQ live (waitB 1)) fun s => AtHead s 2 (jqWith (waitB 1)) (qe (waitB 1)) [] (waitB 1) ∧ 0 = 0 ∧ field (waitB 1) 0 1 =
        19 ∧ (s.popped 2 []).parseWait (jqWith (waitB 1)).tenant (qe (waitB 1)) (waitB 1) = Except.ok (waitJ 1)) ∧
    (At (withQ live (waitB 0)) fun s => AtHead s 2 (jqWith (waitB 0)) (qe (waitB 0)) [] (waitB 0) ∧ 0 = 0 ∧ field (waitB 0) 0 1 =
        19 ∧ (s.popped 2 []).parseWait (jqWith (waitB 0)).tenant (qe (waitB 0)) (waitB 0) = Except.ok (waitJ 0) ∧
        (((s.popped 2 []).modJq 2 fun (j : Jq) => { j with wait := some (waitJ 0) }).testWait (jqWith (waitB 0)).tenant (waitJ 0)
        = some St.ok)) :=
  ⟨⟨⟨by decide +kernel, by decide +kernel, by decide +kernel, by decide +kernel, by decide +kernel, by decide +kernel,
      by decide +kernel⟩, by decide +kernel, by decide +kernel, by decide +kernel, by decide +kernel⟩,
   ⟨⟨by decide +kernel, by decide +kernel, by decide +kernel, by decide +kernel, by decide +kernel, by decide +kernel,
       by decide +kernel⟩, by decide +kernel, by decide +kernel, by decide +kernel⟩,
   ⟨⟨by decide +kernel, by decide +kernel, by decide +kernel, by decide +kernel, by decide +kernel, by decide +kernel,
       by decide +kernel⟩, by decide +kernel, by decide +kernel, by decide +kernel, by decide +kernel⟩⟩

theorem meets_WaitEnds :
    (At (withWait live (waitJ 1)) fun s => tget s.work.jqs 2 = some (jqWait (waitJ 1)) ∧ (jqWait (waitJ 1)).wait =
        some (waitJ 1) ∧ s.awake = true ∧ s.testWait (jqWait (waitJ 1)).tenant (waitJ 1) = none) ∧
    (At (withWait live (waitJ 1)) fun s => tget s.work.jqs 2 = some (jqWait (waitJ 1)) ∧ (jqWait (waitJ 1)).wait =
        some (waitJ 1) ∧ s.awake = true ∧ (waitJ 1).deadline = none) ∧
    (At (withWait live (waitJ 0)) fun s => tget s.work.jqs 2 = some (jqWait (waitJ 0)) ∧ (jqWait (waitJ 0)).wait =
        some (waitJ 0) ∧ s.awake = true ∧ s.testWait (jqWait (waitJ 0)).tenant (waitJ 0) = some St.ok) ∧
    (At (withWait live (waitJ 0)) fun s => tget s.work.jqs 2 = some (jqWait (waitJ 0)) ∧ (jqWait (waitJ 0)).wait =
        some (waitJ 0) ∧ s.awake = true ∧ (waitJ 0).deadline = none) ∧
    (At (withWait live waitA) fun s => tget s.work.jqs 2 = some (jqWait waitA) ∧ (jqWait waitA).wait = some waitA ∧
        s.awake = true ∧ s.testWait (jqWait waitA).tenant waitA = none) ∧
    (At (withWait live waitA) fun s => tget s.work.jqs 2 = some (jqWait waitA) ∧ (jqWait waitA).wait = some waitA ∧
        s.awake = true ∧ waitA.deadline = some 100 ∧ s.time.localNow < 100) ∧
    (At (withWait { live with time := { localNow := 100 } } waitA) fun s => tget s.work.jqs 2 = some (jqWait waitA) ∧
        (jqWait waitA).wait = some waitA ∧ s.awake = true ∧ waitA.deadline = some 100 ∧ 100 ≤ s.time.localNow) :=
  ⟨by decide +kernel,
   by decide +kernel,
   by decide +kernel,
   by decide +kernel,
   by decide +kernel,
   by decide +kernel,
   by decide +kernel⟩

theorem meets_MessageOrder : At (withR live (rx 2 [])) fun s => s.conn? 1 = some connA ∧ s.reasm? 1 1 false = some (rx 2 []) :=
    by decide +kernel

theorem meets_SendQueueTurns :
    (At (withS live connO) fun s => s.conn? 1 = some connO ∧ connO.wait = none ∧ s.awake = true ∧ connO.sq = [ownE] ∧
        (ownE.source.isSome = true ∨ s.sqBad connO ownE = true ∨ field (s.sqBytes connO ownE) 0 1 ≠ 19) ∧ ownE.source =
        some (2, 0) ∧ connO.state = ConnState.ready ∧ connO.cancelNext = 0 ∧ connO.destroyWaiter = none ∧ connO.peerConn ≠ 0 ∧
        connO.mayTake (ownMsg ownE (2, 0)).opcode ownE.payload.length = true) ∧
    (At (withS live connOE) fun s => s.conn? 1 = some connOE ∧ connOE.wait = none ∧ s.awake = true ∧ connOE.sq = [ownE] ∧
        (ownE.source.isSome = true ∨ s.sqBad connOE ownE = true ∨ field (s.sqBytes connOE ownE) 0 1 ≠ 19) ∧ connOE.state =
        ConnState.error) ∧
    (At (withS live connOC) fun s => s.conn? 1 = some connOC ∧ connOC.wait = none ∧ s.awake = true ∧ connOC.sq = [ownE] ∧
        (ownE.source.isSome = true ∨ s.sqBad connOC ownE = true ∨ field (s.sqBytes connOC ownE) 0 1 ≠ 19) ∧
        connOC.state ≠ ConnState.error ∧ 0 < connOC.cancelNext) ∧
    (At (withS live connOD) fun s => s.conn? 1 = some connOD ∧ connOD.wait = none ∧ s.awake = true ∧ connOD.sq = [ownE] ∧
        (ownE.source.isSome = true ∨ s.sqBad connOD ownE = true ∨ field (s.sqBytes connOD ownE) 0 1 ≠ 19) ∧
        connOD.state ≠ ConnState.error ∧ connOD.cancelNext = 0 ∧ connOD.destroyWaiter.isSome = true) :=
  ⟨by decide +kernel,
   by decide +kernel,
   by decide +kernel,
   by decide +kernel⟩

theorem meets_WriteExecute :
    (At (withR live (rx 1 (zeros 64))) fun s => s.ready? 1 1 Op.write = some (connA, rx 1 (zeros 64)) ∧
        s.importKey connA (rx 1 (zeros 64)) = false) ∧
    (At (withR (withG live regI) (rx 1 (zeros 64))) fun s => s.ready? 1 1 Op.write = some (connA, rx 1 (zeros 64)) ∧
        s.importKey connA (rx 1 (zeros 64)) = true) :=
  ⟨by decide +kernel,
   by decide +kernel⟩

theorem meets_Atomics :
    (At (withR live (rx 5 (toLe 16 7))) fun s => s.regionGrant connA.tenant (rx 5 (toLe 16 7)).key rightAtomic = Except.ok regA ∧
        regA.kind = 1 ∧ (rx 5 (toLe 16 7)).payload.length = 16 ∧ BitVec.toNat (rx 5 (toLe 16 7)).roff % 8 = 0 ∧
        BitVec.toNat (rx 5 (toLe 16 7)).roff + 8 ≤ regA.length ∧ s.ready? 1 1 Op.fetchAdd = some (connA, rx 5 (toLe 16 7)) ∧
        BitVec.ofNat 64 (field (rx 5 (toLe 16 7)).payload 8 8) = 0) ∧
    (At (withR live (rx 7 (toLe 16 7))) fun s => s.regionGrant connA.tenant (rx 7 (toLe 16 7)).key rightAtomic = Except.ok regA ∧
        regA.kind = 1 ∧ (rx 7 (toLe 16 7)).payload.length = 16 ∧ BitVec.toNat (rx 7 (toLe 16 7)).roff % 8 = 0 ∧
        BitVec.toNat (rx 7 (toLe 16 7)).roff + 8 ≤ regA.length ∧ s.ready? 1 1 Op.compareSwap = some (connA, rx 7 (toLe 16 7)) ∧
        BitVec.ofNat 64 (ofLe (s.bufRead regA (BitVec.toNat (rx 7 (toLe 16 7)).roff) 8)) =
        BitVec.ofNat 64 (field (rx 7 (toLe 16 7)).payload 8 8)) ∧
    (At (withR live (rx 7 (List.replicate 16 7))) fun s =>
        s.regionGrant connA.tenant (rx 7 (List.replicate 16 7)).key rightAtomic = Except.ok regA ∧ regA.kind = 1 ∧
        (rx 7 (List.replicate 16 7)).payload.length = 16 ∧ BitVec.toNat (rx 7 (List.replicate 16 7)).roff % 8 = 0 ∧
        BitVec.toNat (rx 7 (List.replicate 16 7)).roff + 8 ≤ regA.length ∧ s.ready? 1 1 Op.compareSwap =
        some (connA, rx 7 (List.replicate 16 7)) ∧
        BitVec.ofNat 64 (ofLe (s.bufRead regA (BitVec.toNat (rx 7 (List.replicate 16 7)).roff) 8)) ≠ BitVec.ofNat 64
        (field (rx 7 (List.replicate 16 7)).payload 8 8)) :=
  ⟨by decide +kernel,
   by decide +kernel,
   by decide +kernel⟩

theorem meets_SendExecute :
    (At (withR live (rx 4 (zeros 64))) fun s => s.ready? 1 1 Op.send = some (connA, rx 4 (zeros 64)) ∧
        errOf (s.takeReceive connA (rx 4 (zeros 64)).payload) = some St.noReceive) ∧
    (At (withR live (rx 4 (zeros 64))) fun s => s.ready? 1 1 Op.send = some (connA, rx 4 (zeros 64)) ∧ connA.srq = none) ∧
    (At (withR srqS (rx 4 (zeros 64))) fun s => s.ready? 1 1 Op.send = some (connS, rx 4 (zeros 64)) ∧
        (s.takeReceive connS (rx 4 (zeros 64)).payload).toOption.isSome = true ∧
        ((match tget s.work.cqs connS.cq with | some q => q.full || !q.held.isEmpty | none => false) = false)) ∧
    (At (withR { srqS with work := { live.work with cqs := [(3, { cqA with held := [{ kind := 1 }] })] } } (rx 4 (zeros 64))) fun
        s => s.ready? 1 1 Op.send = some (connS, rx 4 (zeros 64)) ∧
        (s.takeReceive connS (rx 4 (zeros 64)).payload).toOption.isSome = true ∧
        ((match tget s.work.cqs connS.cq with | some q => q.full || !q.held.isEmpty | none => false) = true)) :=
  ⟨by decide +kernel,
   by decide +kernel,
   by decide +kernel,
   by decide +kernel⟩

theorem meets_SketchUpdate :
    (At sketchA fun s => (List.find? (fun (q : Nat × SketchUpd) => q.1 == 3) s.store.sketchQ = some (3, updA)) ∧ s.awake = true ∧
        s.skein? (3, updA).2.skein = some skB ∧ tget skB.leaves (3, updA).2.key = some leafB ∧ s.power.state = PState.run ∧
        leafB.tier = 1) ∧
    (At { live with store := { live.store with skeins := [(7, skD)], sketchQ := [(3, updA)] } } fun s =>
        (List.find? (fun (q : Nat × SketchUpd) => q.1 == 3) s.store.sketchQ = some (3, updA)) ∧ s.awake = true ∧
        s.skein? (3, updA).2.skein = some skD ∧ tget skD.leaves (3, updA).2.key =
        some { check := Check.good, count := 1024, format := 6, pbn := 0, tier := 2 : Leaf } ∧ s.power.state = PState.run ∧
        { check := Check.good, count := 1024, format := 6, pbn := 0, tier := 2 : Leaf }.tier ≠ 1) :=
  ⟨by decide +kernel,
   by decide +kernel⟩

theorem meets_AckReceive : At (withS live (connU msgW [ctlA])) fun s => s.conn? 1 = some (connU msgW [ctlA]) ∧
    (connU msgW [ctlA]).ctl = [ctlA] ∧ ctlA.nak = false ∧ s.awake = true := by decide +kernel

theorem meets_NakReceive :
    (At (withS live (connU msgW [ctlN 41])) fun s => s.conn? 1 = some (connU msgW [ctlN 41]) ∧ (connU msgW [ctlN 41]).ctl =
        [ctlN 41] ∧ (ctlN 41).nak = true ∧ s.awake = true ∧
        (List.find? (fun (m : Msg) => m.seq == (ctlN 41).msgSeq) (connU msgW [ctlN 41]).unacked = some msgW) ∧
        (ctlN 41).status ≠ St.reassemblyTimeout ∧ (ctlN 41).status ≠ St.staleHandle ∧ (ctlN 41).status ≠ St.connError) ∧
    (At (withS live (connU msgW [ctlN St.reassemblyTimeout])) fun s =>
        s.conn? 1 = some (connU msgW [ctlN St.reassemblyTimeout]) ∧ (connU msgW [ctlN St.reassemblyTimeout]).ctl =
        [ctlN St.reassemblyTimeout] ∧ (ctlN St.reassemblyTimeout).nak = true ∧ s.awake = true ∧
        (List.find? (fun (m : Msg) => m.seq == (ctlN St.reassemblyTimeout).msgSeq)
        (connU msgW [ctlN St.reassemblyTimeout]).unacked = some msgW) ∧ (ctlN St.reassemblyTimeout).status =
        St.reassemblyTimeout) ∧
    (At (withS live (connU msgW [ctlN St.staleHandle])) fun s => s.conn? 1 = some (connU msgW [ctlN St.staleHandle]) ∧
        (connU msgW [ctlN St.staleHandle]).ctl = [ctlN St.staleHandle] ∧ (ctlN St.staleHandle).nak = true ∧ s.awake = true ∧
        (List.find? (fun (m : Msg) => m.seq == (ctlN St.staleHandle).msgSeq) (connU msgW [ctlN St.staleHandle]).unacked =
        some msgW) ∧ ((ctlN St.staleHandle).status = St.staleHandle ∨ (ctlN St.staleHandle).status = St.connError)) :=
  ⟨by decide +kernel,
   by decide +kernel,
   by decide +kernel⟩

theorem meets_TimedHold :
    (At { live with work := { live.work with hold := [heldA 0] } } fun s => s.work.hold[0]? = some (heldA 0) ∧ s.awake = true ∧
        (heldA 0).gone = false ∧ (∀ b ∈ s.work.hold, b.firing = (heldA 0).firing → b = heldA 0) ∧
        List.count (heldA 0) s.work.hold = 1 ∧ (heldA 0).due ≤ s.time.now ∧
        s.targetOk (heldA 0).tenant (heldA 0).bytes (heldA 0).target = true ∧ 0 < s.targetRoom (heldA 0).bytes (heldA 0).target) ∧
    (At { withF live with work := { (withF live).work with hold := [heldA 0] } } fun s => s.work.hold[0]? = some (heldA 0) ∧
        s.awake = true ∧ (heldA 0).gone = false ∧ (∀ b ∈ s.work.hold, b.firing = (heldA 0).firing → b = heldA 0) ∧
        List.count (heldA 0) s.work.hold = 1 ∧ (heldA 0).due ≤ s.time.now ∧
        s.targetOk (heldA 0).tenant (heldA 0).bytes (heldA 0).target = true ∧ s.targetRoom (heldA 0).bytes (heldA 0).target = 0) ∧
    (At { live with work := { live.work with hold := [heldA 1] } } fun s => s.work.hold[0]? = some (heldA 1) ∧ s.awake = true ∧
        (heldA 1).gone = false ∧ (∀ b ∈ s.work.hold, b.firing = (heldA 1).firing → b = heldA 1) ∧
        List.count (heldA 1) s.work.hold = 1 ∧ s.time.now < (heldA 1).due) :=
  ⟨by decide +kernel,
   by decide +kernel,
   by decide +kernel⟩

theorem meets_LinkFrameReceive :
    (At live fun s => 0 < 4 ∧ (s.portAt 0).state = PortState.up ∧ (s.portAt 0).light = true ∧ (s.portAt 0).failover = false ∧
        106 ≤ okF.length ∧ okF.length ≤ 9216 ∧ field okF (okF.length - 4) 4 =
        BitVec.toNat (crc32 (List.take (okF.length - 4) okF)) ∧ field okF (okF.length - 8) 1 = BitVec.toNat (s.portAt 0).expSeq ∧
        (s.portAt 0).sinceAck < 15) ∧
    (At live fun s => 0 < 4 ∧ (s.portAt 0).state = PortState.up ∧ (s.portAt 0).light = true ∧ (s.portAt 0).failover = false) ∧
    (At (onPort live { upP with sinceAck := 15 }) fun s => 0 < 4 ∧ (s.portAt 0).state = PortState.up ∧ (s.portAt 0).light =
        true ∧ (s.portAt 0).failover = false ∧ 106 ≤ okF.length ∧ okF.length ≤ 9216 ∧ field okF (okF.length - 4) 4 =
        BitVec.toNat (crc32 (List.take (okF.length - 4) okF)) ∧ field okF (okF.length - 8) 1 = BitVec.toNat (s.portAt 0).expSeq ∧
        15 ≤ (s.portAt 0).sinceAck) ∧
    (At live fun s => 0 < 4 ∧ (s.portAt 0).state = PortState.up ∧ (s.portAt 0).light = true ∧ (s.portAt 0).failover = false ∧
        ¬(106 ≤ (zeros 105).length ∧ (zeros 105).length ≤ 9216 ∧ field (zeros 105) ((zeros 105).length - 4) 4 =
        BitVec.toNat (crc32 (List.take ((zeros 105).length - 4) (zeros 105))) ∧ field (zeros 105) ((zeros 105).length - 8) 1 =
        BitVec.toNat (s.portAt 0).expSeq)) :=
  ⟨by decide +kernel,
   by decide +kernel,
   by decide +kernel,
   by decide +kernel⟩

theorem meets_FramesAsleep :
    (At (onPort live { upP with state := .lowRate }) fun s => 0 < 4 ∧ (s.portAt 0).state = PortState.lowRate) ∧
    (At live fun s => 3 < 4 ∧ (s.portAt 3).state ≠ PortState.lowRate ∧ ((s.portAt 3).state ≠ PortState.up ∨ (s.portAt 3).light =
        false ∨ (s.portAt 3).failover = true)) :=
  ⟨by decide +kernel,
   by decide +kernel⟩

theorem meets_PacketWindow :
    (At live fun _ => field (hdN 1 1) 0 1 ∉ [3, 6, 16, 17] ∧ connA.state ≠ ConnState.error ∧
        1 ≤ seqDist connA.lcs (field (hdN 1 1) 16 4) ∧ seqDist connA.lcs (field (hdN 1 1) 16 4) ≤ 64) ∧
    (At live fun _ => field (hdN 1 64) 0 1 ∉ [3, 6, 16, 17] ∧ connA.state ≠ ConnState.error ∧
        1 ≤ seqDist connA.lcs (field (hdN 1 64) 16 4) ∧ seqDist connA.lcs (field (hdN 1 64) 16 4) ≤ 64) ∧
    (At live fun _ => field (hdN 1 65) 0 1 ∉ [3, 6, 16, 17] ∧ connA.state ≠ ConnState.error ∧
        64 < seqDist connA.lcs (field (hdN 1 65) 16 4) ∧ seqDist connA.lcs (field (hdN 1 65) 16 4) < 2 ^ 31) ∧
    (At live fun _ => field (hdN 1 0) 0 1 ∉ [3, 6, 16, 17] ∧ connA.state ≠ ConnState.error ∧
        (seqDist connA.lcs (field (hdN 1 0) 16 4) = 0 ∨ 2 ^ 31 ≤ seqDist connA.lcs (field (hdN 1 0) 16 4))) ∧
    (At live fun _ => field (hdN 1 2147483648) 0 1 ∉ [3, 6, 16, 17] ∧ connA.state ≠ ConnState.error ∧
        (seqDist connA.lcs (field (hdN 1 2147483648) 16 4) = 0 ∨ 2 ^ 31 ≤ seqDist connA.lcs (field (hdN 1 2147483648) 16 4))) ∧
    (At (withS live connOE) fun _ => field (hdN 1 1) 0 1 ∉ [16, 17] ∧ connOE.state = ConnState.error) ∧
    (At (withS live connOE) fun _ => (field (hdN 17 1) 0 1 = 16 ∨ field (hdN 17 1) 0 1 = 17) ∧ connOE.state = ConnState.error) :=
  ⟨by decide +kernel,
   by decide +kernel,
   by decide +kernel,
   by decide +kernel,
   by decide +kernel,
   by decide +kernel,
   by decide +kernel⟩

theorem meets_LinkAckReceive :
    (At (onPort live { upP with replay := [(0, okF), (1, okF)] }) fun s => 0 < 4 ∧ (s.portAt 0).replay =
        [(0, okF)] ++ [(1, okF)] ∧ (∀ b ∈ [(0, okF)], b.1 ≠ 1)) ∧
    (At (onPort live { upP with replay := [(0, okF), (1, okF)] }) fun s => 0 < 4 ∧ (∀ b ∈ (s.portAt 0).replay, b.1 ≠ 2)) :=
  ⟨by decide +kernel,
   by decide +kernel⟩

theorem meets_Replay :
    (At { onPort live { upP with replay := [(0, okF), (1, okF)], replays := 14 } with time := { localNow := 500 } } fun s =>
        0 < 4 ∧ ((s.portAt 0).state = PortState.up ∨ (s.portAt 0).state = PortState.lowRate) ∧ (s.portAt 0).failover = false ∧
        (s.portAt 0).light = true ∧ (s.portAt 0).replays < 16 ∧ (s.portAt 0).replay = [(0, okF)] ++ [(1, okF)] ∧
        (∀ b ∈ [(0, okF)], b.1 ≠ 1)) ∧
    (At { onPort live { upP with replay := [(0, okF), (1, okF)], replays := 14 } with time := { localNow := 500 } } fun s =>
        0 < 4 ∧ ((s.portAt 0).state = PortState.up ∨ (s.portAt 0).state = PortState.lowRate) ∧ (s.portAt 0).failover = false ∧
        (s.portAt 0).light = true ∧ (s.portAt 0).replays < 16 ∧ (s.portAt 0).replay ≠ [] ∧
        (s.portAt 0).oldestAt + 500 ≤ s.time.localNow) ∧
    (At { onPort live { upP with replay := [(0, okF), (1, okF)], replays := 14 } with time := { localNow := 499 } } fun s =>
        0 < 4 ∧ ((s.portAt 0).state = PortState.up ∨ (s.portAt 0).state = PortState.lowRate) ∧ (s.portAt 0).failover = false ∧
        (s.portAt 0).light = true ∧ (s.portAt 0).replays < 16 ∧ s.time.localNow < (s.portAt 0).oldestAt + 500) :=
  ⟨by decide +kernel,
   by decide +kernel,
   by decide +kernel⟩

theorem meets_LinkAckTimer :
    (At { onPort live { upP with ackBy := some 100 } with time := { localNow := 100 } } fun s => 0 < 4 ∧ (s.portAt 0).ackBy =
        some 100 ∧ 100 ≤ s.time.localNow ∧ (s.portAt 0).failover = false ∧ (s.portAt 0).light = true) ∧
    (At { onPort live { upP with ackBy := some 100 } with time := { localNow := 99 } } fun s => 0 < 4 ∧ (s.portAt 0).ackBy =
        some 100 ∧ s.time.localNow < 100) :=
  ⟨by decide +kernel,
   by decide +kernel⟩

theorem meets_Retraining :
    (At { onPort live { upP with state := .retraining } with time := { localNow := 1000000 } } fun s => 0 < 4 ∧
        (s.portAt 0).state = PortState.retraining ∧ (s.portAt 0).retrainStart + 1000000 ≤ s.time.localNow) ∧
    (At { onPort live { upP with state := .retraining } with time := { localNow := 1000000 } } fun s => 0 < 4 ∧
        (s.portAt 0).state = PortState.retraining) ∧
    (At { onPort live { upP with state := .retraining } with time := { localNow := 999999 } } fun s => 0 < 4 ∧
        (s.portAt 0).state = PortState.retraining ∧ s.time.localNow < (s.portAt 0).retrainStart + 1000000) :=
  ⟨by decide +kernel,
   by decide +kernel,
   by decide +kernel⟩

theorem meets_SwitchReceive : At live fun s => 0 < 4 ∧ ((s.portAt 0).state = PortState.up ∨ (s.portAt 0).state =
    PortState.lowRate) ∧ 0 = 0 := by decide +kernel

theorem meets_WavelengthFailure :
    (At live fun s => 0 < 4 ∧ 7 < 9 ∧ (s.portAt 0).map.getLsbD 7 = true) ∧
    (At live fun s => 0 < 4 ∧ 8 < 9 ∧ (s.portAt 0).map.getLsbD 8 = false ∧ 8 ∉ (s.portAt 0).failedWl) ∧
    (At (onPort live { upP with failedWl := [8] }) fun s => 0 < 4 ∧ 8 < 9 ∧ (s.portAt 0).map.getLsbD 8 = false ∧
        8 ∈ (s.portAt 0).failedWl) :=
  ⟨by decide +kernel,
   by decide +kernel,
   by decide +kernel⟩

theorem meets_LaserBanks :
    (At (onPort live { upP with standbyOk := true }) fun s => 0 < 4 ∧ (s.portAt 0).state ≠ PortState.down ∧
        (s.portAt 0).standbyOk = true ∧ (s.portAt 0).failover = false) ∧
    (At (onPort live { upP with standbyOk := true }) fun s => 0 < 4 ∧ (s.portAt 0).failover = false) ∧
    (At live fun s => 0 < 4 ∧ ((s.portAt 0).standbyOk = false ∨ (s.portAt 0).failover = true)) ∧
    (At (onPort live { upP with failover := true }) fun s => 0 < 4 ∧ (s.portAt 0).failover = true) :=
  ⟨by decide +kernel,
   by decide +kernel,
   by decide +kernel,
   by decide +kernel⟩

theorem meets_LossOfLight :
    (At live fun s => 0 < 4 ∧ (s.portAt 0).light = true) ∧
    (At live fun s => 0 < 4 ∧ s.time.localNow ≤ (s.portAt 0).lightLostAt + 25000) ∧
    (At { onPort live { upP with light := false } with time := { localNow := 25001 } } fun s => 0 < 4 ∧ (s.portAt 0).light =
        false) ∧
    (At { onPort live { upP with light := false } with time := { localNow := 25001 } } fun s => 0 < 4 ∧ (s.portAt 0).light =
        false ∧ (s.portAt 0).state ≠ PortState.retraining) ∧
    (At { onPort live { upP with light := false } with time := { localNow := 25001 } } fun s => 0 < 4 ∧ (s.portAt 0).light =
        false ∧ (s.portAt 0).lightLostAt + 25000 < s.time.localNow) :=
  ⟨by decide +kernel,
   by decide +kernel,
   by decide +kernel,
   by decide +kernel,
   by decide +kernel⟩

theorem meets_WakeBlocks :
    (At live fun s => 0 < 4 ∧ s.power.state = PState.run ∧ s.awake = true ∧ s.enteringDoze = false ∧ (s.portAt 0).failover =
        false ∧ (s.portAt 0).light = true) ∧
    (At live fun _ => 0 < 4) ∧
    (At { live with power := { state := .doze } } fun s => 0 < 4 ∧ s.power.state = PState.doze) :=
  ⟨by decide +kernel,
   by decide +kernel,
   by decide +kernel⟩

theorem meets_TransmitEnd : At (onPort live { upP with sending := some (frN 0) }) fun _ => 0 < 4 := by decide +kernel

theorem meets_NoStart : At live fun s => (s.portAt 0).stalls = false ∧ ((s.portAt 0).canStart = false ∨ (s.portAt 0).queue =
    []) := by decide +kernel

theorem meets_FrameStarts : At live fun s => tget s.flyer.sessions (frN 0).sess = some sesA := by decide +kernel

theorem meets_GateEntryChange :
    (At live fun s => 0 < 4 ∧ (s.portAt 0).gates = []) ∧
    (At { onPort live { upP with gates := [(10, 1), (10, 2)] } with time := { now := 100 } } fun s => 0 < 4 ∧
        (s.portAt 0).gates ≠ [] ∧ s.awake = true) :=
  ⟨by decide +kernel,
   by decide +kernel⟩

theorem meets_GateListSwitch :
    (At { onPort live { upP with standby := some ([(10, 1)], 5) } with time := { now := 5 } } fun s => 0 < 4 ∧
        (s.portAt 0).standby = some ([(10, 1)], 5) ∧ s.awake = true ∧ (s.portAt 0).gates = [] ∧ 5 ≤ s.time.now) ∧
    (At { onPort live { upP with standby := some ([(10, 1)], 5) } with time := { now := 4 } } fun s => 0 < 4 ∧
        (s.portAt 0).standby = some ([(10, 1)], 5) ∧ s.awake = true ∧ (s.portAt 0).gates = [] ∧ s.time.now < 5) ∧
    (At { onPort live { upP with standby := some ([(10, 1)], 150), gates := [(10, 1)] } with time := { now := 200 } } fun s =>
        0 < 4 ∧ (s.portAt 0).standby = some ([(10, 1)], 150) ∧ s.awake = true ∧ (s.portAt 0).gates ≠ [] ∧
        (s.portAt 0).gateStart < 150 ∧ 2 = (BitVec.toNat (150 - (s.portAt 0).gateStart) + gateCycle (s.portAt 0).gates - 1) /
        gateCycle (s.portAt 0).gates ∧ (s.portAt 0).gateStart + BitVec.ofNat 64 (2 * gateCycle (s.portAt 0).gates) ≤
        s.time.now) :=
  ⟨by decide +kernel,
   by decide +kernel,
   by decide +kernel⟩

theorem meets_SamplePeriodBoundary :
    (At live fun s => (s.flyer.tele.period = 0 ∨ s.time.now < s.flyer.tele.next ∨ s.awake = false)) ∧
    (At { sampling teleA with time := { now := 7 } } fun s => s.flyer.tele.period ≠ 0 ∧ s.flyer.tele.next ≤ s.time.now ∧
        s.awake = true) :=
  ⟨by decide +kernel,
   by decide +kernel⟩

theorem meets_TelemetryRing :
    (At (sampling teleA) fun s => s.flyer.tele.written < s.flyer.tele.readPos + s.flyer.tele.records) ∧
    (At (sampling { teleA with written := 16 }) fun s => s.flyer.tele.readPos + s.flyer.tele.records ≤ s.flyer.tele.written) :=
  ⟨by decide +kernel,
   by decide +kernel⟩

theorem meets_SyncReceive :
    (At live fun s => 0 < 4 ∧ s.time.role = 0 ∧ s.syncs 0 = true ∧ (∀ (x : Exchange), tget s.time.exchanges 0 = some x →
        x.t3 = none ∨ x.deadline < s.time.localNow)) ∧
    (At (timed live { role := 1 }) fun s => 0 < 4 ∧ (s.time.role ≠ 0 ∨ s.syncs 0 = false)) ∧
    (At (timed live { exchanges := [(0, exA)], localNow := 10000 }) fun s => 0 < 4 ∧ s.time.role = 0 ∧ s.syncs 0 = true ∧
        (∃ (x : Exchange), tget s.time.exchanges 0 = some x ∧ x.t3 ≠ none ∧ s.time.localNow ≤ x.deadline)) :=
  ⟨by decide +kernel,
   by decide +kernel,
   by decide +kernel⟩

theorem meets_DelayReqReceive :
    (At (timed live { role := 1, now := 0x7000000000007 }) fun s => 0 < 4 ∧ s.time.role ≠ 0 ∧ s.syncs 0 = true ∧
        (s.portAt 0).failover = false ∧ (s.portAt 0).light = true) ∧
    (At live fun s => 0 < 4 ∧ s.time.role = 0) :=
  ⟨by decide +kernel,
   by decide +kernel⟩

theorem meets_Discipline :
    (At live fun s => s.time.firstDone = false ∧ (1001 < -1000 ∨ 1000 < 1001)) ∧
    (At live fun s => (s.time.firstDone = true ∨ -1000 ≤ -1000 ∧ -1000 ≤ 1000)) :=
  ⟨by decide +kernel,
   by decide +kernel⟩

theorem meets_TimeLock :
    (At (timed live { locked := true }) fun s => s.time.locked = true ∧ (51 < -50 ∨ 50 < 51)) ∧
    (At (timed live { goodRun := 15 }) fun s => s.time.locked = false ∧ (16 ≤ if -4 ≤ 4 ∧ 4 ≤ 4 then s.time.goodRun + 1 else 0)) ∧
    (At (timed live { locked := true }) fun s => s.time.locked = true ∧ -50 ≤ -50 ∧ -50 ≤ 50) ∧
    (At (timed live { goodRun := 15 }) fun s => s.time.locked = false ∧
        ((if -4 ≤ 5 ∧ 5 ≤ 4 then s.time.goodRun + 1 else 0) < 16)) :=
  ⟨by decide +kernel,
   by decide +kernel,
   by decide +kernel,
   by decide +kernel⟩

theorem meets_DelayRespLimit :
    (At (timed live { exchanges := [(0, exA)], localNow := 10001 }) fun s => 0 < 4 ∧ tget s.time.exchanges 0 = some exA ∧
        exA.deadline < s.time.localNow) ∧
    (At (timed live { exchanges := [(0, exA)], localNow := 10000 }) fun s => 0 < 4 ∧ tget s.time.exchanges 0 = some exA ∧
        s.time.localNow ≤ exA.deadline) :=
  ⟨by decide +kernel,
   by decide +kernel⟩

theorem meets_SyncInterval :
    (At (timed live { role := 1, syncSentAt := [(0, 7)], localNow := 250007 }) fun s => 0 < 4 ∧ s.time.role ≠ 0 ∧
        s.syncs 0 = true ∧ (s.portAt 0).failover = false ∧ (s.portAt 0).light = true ∧ (∀ (t : Nat), tget s.time.syncSentAt 0 =
        some t → t + 250000 ≤ s.time.localNow)) ∧
    (At (timed live { role := 1, syncSentAt := [(0, 7)], localNow := 250006 }) fun s => 0 < 4 ∧ s.time.role ≠ 0 ∧
        (∃ (t : Nat), tget s.time.syncSentAt 0 = some t ∧ s.time.localNow < t + 250000)) ∧
    (At live fun s => 0 < 4 ∧ s.time.role = 0) :=
  ⟨by decide +kernel,
   by decide +kernel,
   by decide +kernel⟩

theorem meets_SyncLoss :
    (At live fun s => (s.time.role ≠ 0 ∨ s.time.localNow < s.time.lastSyncLocal + 10000000)) ∧
    (At (timed live { localNow := 10000000, locked := true }) fun s => s.time.role = 0 ∧
        s.time.lastSyncLocal + 10000000 ≤ s.time.localNow) :=
  ⟨by decide +kernel,
   by decide +kernel⟩

theorem meets_TimeRefEdge :
    (At live fun s => s.time.role ≠ 1) ∧
    (At (timed live { role := 1, initial := some 7 }) fun s => s.time.role = 1 ∧ s.time.initial = some 7) ∧
    (At (timed live { role := 1, refBase := some 7, now := 1000001007 }) fun s => s.time.role = 1 ∧ s.time.initial = none ∧
        s.time.refBase = some 7 ∧ BitVec.toNat (s.time.now - 7) % 1000000000 ≤ 1000) ∧
    (At (timed live { role := 1, refBase := some 7, now := 999999007 }) fun s => s.time.role = 1 ∧ s.time.initial = none ∧
        s.time.refBase = some 7 ∧ 999999000 ≤ BitVec.toNat (s.time.now - 7) % 1000000000) ∧
    (At (timed live { role := 1, refBase := some 7, now := 1000001008 }) fun s => s.time.role = 1 ∧ s.time.initial = none ∧
        s.time.refBase = some 7 ∧ 1000 < BitVec.toNat (s.time.now - 7) % 1000000000 ∧
        BitVec.toNat (s.time.now - 7) % 1000000000 < 999999000) :=
  ⟨by decide +kernel,
   by decide +kernel,
   by decide +kernel,
   by decide +kernel,
   by decide +kernel⟩

theorem meets_ReferenceEdgeLoss :
    (At (timed live { role := 1, localNow := 3000000000 }) fun s => s.time.role = 1 ∧ s.time.holdover = false ∧
        s.time.lastEdgeLocal + 3000000000 ≤ s.time.localNow) ∧
    (At (timed live { role := 1, localNow := 2999999999 }) fun s => s.time.role = 1 ∧ (s.time.holdover = true ∨
        s.time.localNow < s.time.lastEdgeLocal + 3000000000)) :=
  ⟨by decide +kernel,
   by decide +kernel⟩

theorem meets_PpsOut :
    (At (timed live { now := 2 }) fun s => (BitVec.toNat s.time.now % 1000000000 ≤ 2 ∨
        999999998 ≤ BitVec.toNat s.time.now % 1000000000) ∧ s.time.pps = false) ∧
    (At (timed live { now := 3 }) fun s => (2 < BitVec.toNat s.time.now % 1000000000 ∧
        BitVec.toNat s.time.now % 1000000000 < 999999998 ∨ s.time.pps = true)) :=
  ⟨by decide +kernel,
   by decide +kernel⟩

theorem meets_SessionLost : At live fun s => (∀ c ∈ s.flyer.conns, c.2.sess ≠ 1) := by decide +kernel

theorem meets_LeaseExpiry :
    (At { withK live skL with time := { now := 1000 } } fun s => s.skein? 7 = some skL ∧ skL.state ≠ SkState.retiring ∧
        leaseOwner skL.lease ≠ 0 ∧ leaseOrphaned skL.lease = false ∧ skL.expiry ≤ s.time.now) ∧
    (At { withK live skL with time := { now := 999 } } fun s => s.skein? 7 = some skL ∧ (leaseOwner skL.lease = 0 ∨
        leaseOrphaned skL.lease = true ∨ s.time.now < skL.expiry)) :=
  ⟨by decide +kernel,
   by decide +kernel⟩

theorem meets_OrphanHoldEnd :
    (At { withK live skO with time := { localNow := 100 } } fun s => s.skein? 7 = some skO ∧ skO.orphanUntil = some 100 ∧
        100 ≤ s.time.localNow ∧ skO.state ≠ SkState.retiring ∧ skO.orphanRelease = false) ∧
    (At { withK live skOR with time := { localNow := 100 } } fun s => s.skein? 7 = some skOR ∧ skOR.orphanUntil = some 100 ∧
        100 ≤ s.time.localNow ∧ skOR.state ≠ SkState.retiring ∧ skOR.orphanRelease = true) ∧
    (At { withK live skO with time := { localNow := 99 } } fun s => s.skein? 7 = some skO ∧ skO.orphanUntil = some 100 ∧
        (s.time.localNow < 100 ∨ skO.state = SkState.retiring)) :=
  ⟨by decide +kernel,
   by decide +kernel,
   by decide +kernel⟩

theorem meets_CombineTimeout :
    (At { withC live combT with time := { localNow := 1000 } } fun s => tget s.work.combines 7 = some combT ∧ s.awake = true ∧
        combT.startedAt = some 0 ∧ cdTimeout combT.bytes ≠ 0 ∧ 0 + cdTimeout combT.bytes * 1000 ≤ s.time.localNow) ∧
    (At { withC live combT with time := { localNow := 999 } } fun s => tget s.work.combines 7 = some combT ∧ s.awake = true ∧
        combT.startedAt = some 0 ∧ s.time.localNow < 0 + cdTimeout combT.bytes * 1000) ∧
    (At (withC live (combM 1)) fun s => tget s.work.combines 7 = some (combM 1) ∧ s.awake = true ∧
        (cdTimeout (combM 1).bytes = 0 ∨ (combM 1).startedAt = none)) :=
  ⟨by decide +kernel,
   by decide +kernel,
   by decide +kernel⟩

theorem meets_BobbinMoveAbandon :
    (At { withK live skM with store := { (withK live skM).store with moves := [(4, mvA)] } } fun s => tget s.store.moves 4 =
        some mvA ∧ s.awake = true ∧ s.skein? mvA.skein = some skM) ∧
    (At { withK live skM with store := { (withK live skM).store with moves := [(4, mvA)] } } fun s => tget s.store.moves 4 =
        some mvA ∧ s.awake = true ∧ s.skein? mvA.skein = some skM ∧ mvA.dstTier = 1 ∧ mvA.srcTier = 1) :=
  ⟨by decide +kernel,
   by decide +kernel⟩

theorem meets_DoffReloadEnd :
    (At stopsA fun s => s.awake = true ∧ tget s.store.doffs 7 = some { waiters := [(0, 3)], stopping := true : Doff } ∧
        s.doffDone 7 { waiters := [(0, 3)], stopping := true : Doff } = true) ∧
    (At stopsA fun s => s.awake = true ∧ tget s.store.reloads 7 =
        some { waiters := [(0, 4)], whole := false, status := 41 : Reload } ∧
        s.reloadDone 7 { waiters := [(0, 4)], whole := false, status := 41 : Reload } = true) ∧
    (At movesA fun s => s.awake = true ∧ tget s.store.doffs 7 = some { waiters := [(0, 3)] : Doff } ∧
        (∃ m ∈ s.store.moves, m.2.skein = 7 ∧ m.2.why = MoveFor.doff)) ∧
    (At movesA fun s => s.awake = true ∧ tget s.store.reloads 7 = some { waiters := [(0, 4)] : Reload } ∧
        (∃ m ∈ s.store.moves, m.2.skein = 7 ∧ m.2.why = MoveFor.reload)) ∧
    (At movesA fun s => s.awake = true ∧ tget s.store.reloads 7 = some { waiters := [(0, 4)] : Reload } ∧
        { waiters := [(0, 4)] : Reload }.status = 0) :=
  ⟨by decide +kernel,
   by decide +kernel,
   by decide +kernel,
   by decide +kernel,
   by decide +kernel⟩

theorem meets_DamagedDemotion :
    (At { live with store := { live.store with damaged := [(7, 0, 0)] } } fun s => s.fetching = true ∧
        (∃ d ∈ s.store.damaged, d.1 = 7 ∧ d.2.1 = leafKey 0 0 0)) ∧
    (At { live with store := { live.store with damaged := [(7, 0, 0)] } } fun s => s.skein? 7 = some skB ∧
        tget skB.leaves (leafKey 0 0 0) = some leafB ∧ leafB.tier ≠ 3 ∧ leafB.lock = false ∧
        (∀ m ∈ s.store.moves, ¬(m.2.skein = 7 ∧ m.2.key = leafKey 0 0 0))) ∧
    (At live fun s => (∀ d ∈ s.store.damaged, ¬(d.1 = 7 ∧ d.2.1 = leafKey 0 0 0))) :=
  ⟨by decide +kernel,
   by decide +kernel,
   by decide +kernel⟩

theorem meets_SlotFree :
    (At live fun s => (∀ p ∈ s.store.pendingFree, ¬(p.1 = 1 ∧ p.2.1 = 32780))) ∧
    (At { live with store := { live.store with pendingFree := [(1, 32780, 0, 7)] } } fun s =>
        (List.find? (fun (p : Nat × Nat × Nat × Nat) => p.1 == 1 && p.2.1 == 32780) s.store.pendingFree =
        some (1, 32780, 0, 7)) ∧ s.holdersPast (1, 32780, 0, 7).2.2.1 = true ∧ 1 = 1) ∧
    (At { withJob live jobA with store := { live.store with pendingFree := [(1, 32780, 1, 7)] } } fun s =>
        (List.find? (fun (p : Nat × Nat × Nat × Nat) => p.1 == 1 && p.2.1 == 32780) s.store.pendingFree =
        some (1, 32780, 1, 7)) ∧ s.holdersPast (1, 32780, 1, 7).2.2.1 = false) :=
  ⟨by decide +kernel,
   by decide +kernel,
   by decide +kernel⟩

theorem meets_SkeinRetirementEnd :
    (At (withK live skR) fun s => s.skein? 7 = some skR ∧ skR.state = SkState.retiring ∧
        (∀ p ∈ s.store.pendingFree, p.2.2.2 ≠ 7)) ∧
    (At live fun s => s.skein? 7 = some skB ∧ (skB.state ≠ SkState.retiring ∨ ∃ p ∈ s.store.pendingFree, p.2.2.2 = 7)) :=
  ⟨by decide +kernel,
   by decide +kernel⟩

theorem meets_PrefixShift : At live fun s => s.pfx.inserts = [] := by decide +kernel

theorem meets_PrefixShadow : At live fun s => s.time.localNow < s.pfx.lastCompare + 10000000000 := by decide +kernel

theorem meets_LentBandChange :
    (At { live with cfg := { lentGib := 2 }, store := { live.store with lentWaiter := some ((0, 3), 1) } } fun s =>
        s.store.lentWaiter = some ((0, 3), 1) ∧ s.awake = true ∧ 1 < s.cfg.lentGib) ∧
    (At { live with cfg := { lentGib := 2 }, store := { live.store with lentWaiter := some ((0, 3), 1) } } fun s =>
        s.store.lentWaiter = some ((0, 3), 1) ∧ s.awake = true) ∧
    (At { live with store := { live.store with lentWaiter := some ((0, 3), 743) } } fun s => s.store.lentWaiter =
        some ((0, 3), 743) ∧ s.awake = true ∧ s.cfg.lentGib ≤ 743 ∧ s.bandBobbins (12189696 - 743 * 16384) ≠ []) ∧
    (At { live with store := { live.store with lentWaiter := some ((0, 3), 743) } } fun s => s.store.lentWaiter =
        some ((0, 3), 743) ∧ s.awake = true) ∧
    (At { live with store := { live.store with lentWaiter := some ((0, 3), 1) } } fun s => s.store.lentWaiter =
        some ((0, 3), 1) ∧ s.awake = true ∧ s.cfg.lentGib ≤ 1 ∧ s.bandBobbins (12189696 - 1 * 16384) = [] ∧
        (∀ p ∈ s.store.dramUsed, p < 12189696 - 1 * 16384)) :=
  ⟨by decide +kernel,
   by decide +kernel,
   by decide +kernel,
   by decide +kernel,
   by decide +kernel⟩

theorem meets_LentDrains :
    (At { live with cxl := { live.cxl with lds := [(0, { fenceWaiters := [((0, 3), 7)] })], revokeWaiters := [(5, (0, 4))] } }
        fun s => 0 < ldCount ∧ (s.ld 0).fenceWaiters = [((0, 3), 7)]) ∧
    (At { live with cxl := { live.cxl with lds := [(0, { fenceWaiters := [((0, 3), 7)] })], revokeWaiters := [(5, (0, 4))] } }
        fun _ => ldCount ≤ 16) ∧
    (At { live with cxl := { live.cxl with lds := [(0, { fenceWaiters := [((0, 3), 7)] })], revokeWaiters := [(5, (0, 4))] } }
        fun s => tget s.cxl.revokeWaiters 5 = some (0, 4)) ∧
    (At { live with cxl := { live.cxl with lds := [(0, { fenceWaiters := [((0, 3), 7)] })], revokeWaiters := [(5, (0, 4))] } }
        fun s => tget s.cxl.revokeWaiters 6 = none) :=
  ⟨by decide +kernel,
   by decide +kernel,
   by decide +kernel,
   by decide +kernel⟩

theorem meets_PatrolPeriod :
    (At live fun s => s.awake = true ∧ s.power.state = PState.run) ∧
    (At { live with power := { state := .hold } } fun s => s.awake = true ∧ s.power.state ≠ PState.run) ∧
    (At { live with power := { state := .doze } } fun s => s.awake = false) :=
  ⟨by decide +kernel,
   by decide +kernel,
   by decide +kernel⟩

theorem meets_PatrolPass :
    (At (withRel live fun r => { r with patrolDone := patrolBytes }) fun s => patrolBytes ≤ s.rel.patrolDone) ∧
    (At { live with time := { localNow := 86400000000000 } } fun s => s.rel.patrolDone < patrolBytes ∧
        s.rel.patrolStart + 86400000000000 ≤ s.time.localNow ∧ s.rel.dutyLate = false) ∧
    (At { live with time := { localNow := 86399999999999 } } fun s => s.rel.patrolDone < patrolBytes ∧
        (s.time.localNow < s.rel.patrolStart + 86400000000000 ∨ s.rel.dutyLate = true)) :=
  ⟨by decide +kernel,
   by decide +kernel,
   by decide +kernel⟩

theorem meets_LineErrors :
    (At live fun _ => slotAddr 1 0 ≤ { addr := slotAddr 1 32780, symbols := 1 : LineError }.addr ∧
        { addr := slotAddr 1 32780, symbols := 1 : LineError }.addr < slotAddr 1 12582912 ∧
        { addr := slotAddr 1 32780, symbols := 1 : LineError }.symbols = 1) ∧
    (At live fun _ => slotAddr 1 0 ≤ { addr := slotAddr 1 12582911, symbols := 2 : LineError }.addr ∧
        { addr := slotAddr 1 12582911, symbols := 2 : LineError }.addr < slotAddr 1 12582912 ∧
        1 < { addr := slotAddr 1 12582911, symbols := 2 : LineError }.symbols) ∧
    (At live fun _ => slotAddr 1 0 ≤ { addr := slotAddr 1 0, symbols := 0 : LineError }.addr ∧
        { addr := slotAddr 1 0, symbols := 0 : LineError }.addr < slotAddr 1 12582912 ∧
        { addr := slotAddr 1 0, symbols := 0 : LineError }.symbols = 0) :=
  ⟨by decide +kernel,
   by decide +kernel,
   by decide +kernel⟩

theorem meets_BobbinLineLost : At live fun s => poolBase ≤ ((slotAddr 1 32780 + 65535) / 64 * 64 - slotAddr 1 0) / slotBytes ∧
    ((slotAddr 1 32780 + 65535) / 64 * 64 - slotAddr 1 0) / slotBytes < 12189696 ∧
    s.leavesAt (((slotAddr 1 32780 + 65535) / 64 * 64 - slotAddr 1 0) / slotBytes) ≠ [] ∧
    s.cxl.badLines.contains ((slotAddr 1 32780 + 65535) / 64 * 64) = false := by decide +kernel

theorem meets_ChannelFailure :
    (At live fun s => 7 < 8 ∧ 127 < 128 ∧ s.rel.stackUnits[7]? = some { state := 0, whorls := 16 : Stack } ∧
        { state := 0, whorls := 16 : Stack }.state ≠ 2 ∧ 127 ∉ { state := 0, whorls := 16 : Stack }.vacant ∧ s.power.stopped =
        false ∧ s.power.off = false ∧ tget s.rel.copies (7 * 128 + 127) = none ∧ s.spareFor (7 * 128 + 127) = some 1087) ∧
    (At (withRel live fun r => { r with spareUsed := (List.range 8).map fun r => 7 * 136 + 17 * r + 16 }) fun s => 7 < 8 ∧
        127 < 128 ∧ s.rel.stackUnits[7]? = some { state := 0, whorls := 16 : Stack } ∧
        { state := 0, whorls := 16 : Stack }.state ≠ 2 ∧ 127 ∉ { state := 0, whorls := 16 : Stack }.vacant ∧ s.power.stopped =
        false ∧ s.power.off = false ∧ tget s.rel.copies (7 * 128 + 127) = none ∧ s.spareFor (7 * 128 + 127) = none) :=
  ⟨by decide +kernel,
   by decide +kernel⟩

theorem meets_OwnSpareFirst :
    (At live fun s => 1023 < 1024 ∧ 1023 / 128 * 136 + 17 * (1023 % 128 / 16) + 16 ∉ s.rel.spareUsed ∧
        (kChannel, 1023 / 128 * 136 + 17 * (1023 % 128 / 16) + 16) ∉ s.rel.expelled) ∧
    (At (withRel live fun r => { r with spareUsed := (List.range 8).map fun r => 7 * 136 + 17 * r + 16 }) fun s => 1023 < 1024 ∧
        (∀ r < 8, 1023 / 128 * 136 + 17 * r + 16 ∈ s.rel.spareUsed)) :=
  ⟨by decide +kernel,
   by decide +kernel⟩

theorem meets_StackAfterVacancy :
    (At (withRel live fun r => { r with stackUnits := [stG64] }) fun s => s.rel.stackUnits[0]? = some stG64 ∧
        stG64.vacant.length ≤ 64 ∧ stG64.vacant ≠ []) ∧
    (At (withRel live fun r => { r with stackUnits := [stG] }) fun s => s.rel.stackUnits[0]? = some stG ∧
        64 < stG.vacant.length) :=
  ⟨by decide +kernel,
   by decide +kernel⟩

theorem meets_ColumnSelfTest :
    (At (withRel live fun r => { r with spindles := [spT] }) fun s => 0 < 8 ∧ s.rel.spindles[0]? = some spT ∧ spT.state = 4 ∧
        spT.selfTest = true ∧ (List.filter (fun (c : Nat) => decide (c < 516) && !spT.failed.contains c) [516] = [])) ∧
    (At (withRel live fun r => { r with spindles := [spT] }) fun s => 0 < 8 ∧ s.rel.spindles[0]? = some spT ∧ spT.state = 4 ∧
        spT.selfTest = true ∧ (List.filter (fun (c : Nat) => decide (c < 516) && !spT.failed.contains c) [515] ≠ [])) :=
  ⟨by decide +kernel,
   by decide +kernel⟩

theorem ring_full {s : State} {m bytes : Nat} {tag : W16} (h : s.dramNeed tag (slotsFor bytes) = .ok () ∧ s.store.withdrawn = [] ∧
    s.store.lentWaiter = none ∧ s.store.dramUsed.length + slotsFor bytes ≤ s.store.poolSlots ∧ s.windowFree 20 (slotsFor bytes) =
        true) :
    ∃ a w t, s.newRing m tag bytes = .ok (a, w, t) :=
  have ⟨a, u, t, h1, _⟩ := newRing_ok 20 h.1 h.2.1 h.2.2.1 h.2.2.2.1 (by decide) h.2.2.2.2
  ⟨a, _, t, h1⟩

theorem meets_CqCreate : Goes base 0x500 1 (cmdOf 1 0x0500 (toLe 4 16)) tagA (fun s c => pow2In 16 65536 (c.param 0 4) = true ∧
    (∃ a w s1, s.newRing c.mb tagA (c.param 0 4 * 32) = .ok (a, w, s1) ∧ ∃ i s2, s1.pick s.work.cqs 65536 = some (i, s2))) :=
  goes (by decide +kernel) ⟨by decide +kernel, have ⟨a, w, t, h⟩ := ring_full (by decide +kernel)
    ⟨a, w, t, h, have ⟨i, g⟩ := pick_ok t (by decide +kernel); ⟨i, _, g⟩⟩⟩

theorem meets_JobQueueCreate : Goes full 0x502 1 (cmdOf 1 0x0502 [16, 0, 0, 0, 3, 0, 0, 0]) tagA (fun s c =>
    (s.cqFor tagA (c.param 4 2)).isSome = true ∧ pow2In 16 65536 (c.param 0 4) = true ∧ c.param 8 4 ≤ 1000000 ∧
    (∃ a w s1, s.newRing c.mb tagA (c.param 0 4 * 128) = .ok (a, w, s1) ∧ ∃ i s2, s1.pick s.work.jqs 65536 = some (i, s2))) :=
  goes (by decide +kernel) ⟨by decide +kernel, by decide +kernel, by decide +kernel, have ⟨a, w, t, h⟩ := ring_full (by decide +kernel)
    ⟨a, w, t, h, have ⟨i, g⟩ := pick_ok t (by decide +kernel); ⟨i, _, g⟩⟩⟩

theorem meets_SrqCreate : Goes full 0x604 1 (cmdOf 1 0x0604 (toLe 4 16)) tagA (fun s c => 16 ≤ c.param 0 4 ∧ c.param 0 4 ≤ 65536 ∧
    (∃ a w s1, s.newRing c.mb tagA (c.param 0 4 * 16) = .ok (a, w, s1) ∧ ∃ i s2, s1.pick s.flyer.srqs 16384 = some (i, s2))) :=
  goes (by decide +kernel) ⟨by decide +kernel, by decide +kernel, have ⟨a, w, t, h⟩ := ring_full (by decide +kernel)
    ⟨a, w, t, h, have ⟨i, g⟩ := pick_ok t (by decide +kernel); ⟨i, _, g⟩⟩⟩

theorem meets_RegionRegister :
    Goes full 0x606 1 (cmdOf 1 0x0606 ([1, 7, 0, 0, 0, 0, 0, 0] ++ toLe 8 65536)) tagA (fun s c =>
      c.param 1 1 ||| kindRights (c.param 0 1) = kindRights (c.param 0 1) ∧ s.overQuota tagA qRegion 1 = false ∧
      s.flyer.regionPool.take 1048576 = some (4, { fresh := 5 }) ∧ c.param 0 1 = 1 ∧ 65536 ≤ c.param 8 8 ∧ c.param 8 8 ≤ 2 ^ 32 ∧
      c.param 8 8 % 65536 = 0 ∧ ∃ a w s1, s.newRing c.mb tagA (c.param 8 8) = .ok (a, w, s1)) ∧
    Goes full 0x606 1 (cmdOf 1 0x0606 ([3, 5, 0, 0, 7, 0, 0x40, 0] ++ zeros 8)) tagA (fun s c =>
      c.param 1 1 ||| kindRights (c.param 0 1) = kindRights (c.param 0 1) ∧ s.overQuota tagA qRegion 1 = false ∧
      s.flyer.regionPool.take 1048576 = some (4, { fresh := 5 }) ∧ c.param 0 1 = 3 ∧
      (s.skeinFor tagA (BitVec.ofNat 32 (c.param 4 4))).isSome = true) :=
  ⟨goes (by decide +kernel) ⟨by decide +kernel, by decide +kernel, by decide +kernel, by decide +kernel, by decide +kernel,
      by decide +kernel,
    by decide +kernel, ring_full (by decide +kernel)⟩, goes (by decide +kernel) (by decide +kernel)⟩

def ccB : List Byte :=
  toLe 2 9 ++ toLe 2 0 ++ toLe 4 0 ++ [0, 0x80, 0, 0, 0, 0, 0, 0] ++ [7, 1, 0, 0] ++ toLe 2 16 ++ toLe 2 1 ++ toLe 2 0xFFFF ++
      toLe 2 3 ++ toLe 2 0

theorem meets_ConnCreate : Goes full 0x600 1 (cmdOf 1 0x0600 ccB) tagA (fun s c =>
    (pathsOf ((List.range 4).map fun i => c.param (8 + 2 * i) 2) = some [(0, 0)] ∧ tget s.flyer.sessions (c.param 2 2) =
        some sesA ∧
     sesA.peer = c.param 0 2 ∧ c.param 24 2 = 0xFFFF ∧ (s.cqFor tagA (c.param 26 2)).isSome = true ∧ c.param 0 2 ≤ 1023 ∧
         c.param 16 1 ≤ 7 ∧
     c.param 18 1 ≤ 15 ∧ pow2In 16 4096 (c.param 20 2) = true ∧ 1 ≤ c.param 22 2 ∧ c.param 22 2 ≤ 1024 ∧ c.param 28 2 = 0 ∧
     (s.shaper (tidOf tagA) (c.param 16 1)).permitted = true ∧ s.overQuota tagA qConn 1 = false ∧
     s.dramNeed tagA (c.param 22 2 + slotsFor (c.param 20 2 * 64)) = .ok () ∧ s.flyer.connPool.take 262144 =
         some (2, { fresh := 3 })) ∧
    (∃ a w s1, s.newRing c.mb tagA (c.param 20 2 * 64) = .ok (a, w, s1) ∧ ∃ rx s2, s1.takeSlabs tagA (c.param 22 2) =
        .ok (rx, s2))) :=
  goes (by decide +kernel) ⟨by decide +kernel, by
    obtain ⟨a, u, t, h, h0, h1, h2, h3, h4, h5, h6⟩ := newRing_ok (s := sent full (cmdOf 1 0x0600 ccB)) (m := 1) (tag := tagA)
      (bytes := 1024) 20 (by decide +kernel) rfl rfl (by decide +kernel) (by decide) (by decide +kernel)
    have hd : t.dramNeed tagA 1 = .ok () := by
      rw [dramNeed_of h1 rfl h5, h2, h3]; decide +kernel
    obtain ⟨b, v, g, -⟩ := takeSlots_ok (s := t) (n := 1) (by rw [h1]; rfl) (by rw [h1]; rfl)
      (by rw [h2, show t.store.poolSlots = 64 by rw [h1]; rfl]; decide +kernel)
    refine ⟨a, _, t, h, b, v.charge tagA qDram 1, ?_⟩
    show t.takeSlabs tagA 1 = _
    simp only [State.takeSlabs, hd, g, bind, Except.bind]; rfl⟩

def tlB : List Byte := [1, 0, 1, 0, 16, 0]

theorem meets_TriggerListCreate : Goes base 0x507 1 (cmdOf 1 0x0507 tlB) tagA (fun s c =>
    (1 ≤ c.param 0 2 ∧ c.param 0 2 ≤ 1024 ∧ 1 ≤ c.param 2 2 ∧ c.param 2 2 ≤ 4096 ∧ pow2In 16 4096 (c.param 4 2) = true ∧
      s.dramNeed tagA (c.param 0 2 + c.param 2 2 + slotsFor (c.param 4 2 * 640)) = .ok ()) ∧
    ∃ a w s1, s.newRing c.mb tagA (c.param 4 2 * 640) = .ok (a, w, s1) ∧ ∃ sl s2, s1.takeSlabs tagA (c.param 0 2) = .ok (sl, s2) ∧
      ∃ sg s3, s2.takeSlabs tagA (c.param 2 2) = .ok (sg, s3) ∧ ∃ i s4, s3.pick s.work.lists 16384 = some (i, s4)) :=
  goes (by decide +kernel) ⟨by decide +kernel, by
    obtain ⟨a, u, t, h, h0, h1, h2, h3, h4, h5, h6⟩ := newRing_ok (s := sent base (cmdOf 1 0x0507 tlB)) (m := 1) (tag := tagA)
      (bytes := 10240) 20 (by decide +kernel) rfl rfl (by decide +kernel) (by decide) (by decide +kernel)
    have hp : t.store.poolSlots = 64 := by rw [h1]; rfl
    obtain ⟨b, v, g, g1, g2, g3, g4⟩ := takeSlabs_ok (s := t) (tag := tagA) (n :=
        1) (by rw [dramNeed_of h1 rfl h5, h2, h3]; decide +kernel)
      (by rw [h1]; rfl) (by rw [h1]; rfl) (by rw [h2, hp]; decide +kernel)
    have k1 : v.store = { (sent base (cmdOf 1 0x0507 tlB)).store with dramUsed := v.store.dramUsed } := by rw [g1, h1]
    have k3 : v.tenants = ((sent base (cmdOf 1 0x0507 tlB)).charge tagA qDram 1 |>.charge tagA qDram 1).tenants := by
      rw [g3]; simp only [State.charge, State.modTenant, h3]; rfl
    obtain ⟨d, x, f, -⟩ := takeSlabs_ok (s := v) (tag := tagA) (n := 1)
      (by rw [dramNeed_of k1 rfl (g4.trans h5), g2, h2, k3]; decide +kernel)
      (by rw [k1]; rfl) (by rw [k1]; rfl) (by rw [g2, h2, show v.store.poolSlots = 64 by rw [k1]; rfl]; decide +kernel)
    obtain ⟨i, p⟩ := pick_ok x (t := (sent base (cmdOf 1 0x0507 tlB)).work.lists) (n := 16384) (by decide +kernel)
    exact ⟨a, _, t, h, b, v, g, d, x, f, i, _, p⟩⟩

theorem meets_TriggerPost : Goes (put1 full postB) 0x509 1 (cmdOf 1 0x0509 [4, 0] 128 buf1) tagA (fun s c =>
    s.listFor tagA (c.param 0 2) = some listA ∧
    (s.postEntry (c.param 0 2) listA (padTo 576 ((s.windowRead c.ld c.dataOff c.dataLen).take 576))
        (some c.dataLen)).toOption.isSome = true) :=
  goes (by decide +kernel) (by decide +kernel)

theorem meets_TableLoad : Goes (put1 full rescaleImg) 0x402 1 (cmdOf 1 0x0402 [1] 192 buf1) tagA (fun s c =>
    (64 ≤ (s.windowRead c.ld c.dataOff c.dataLen).length ∧ c.param 0 1 = 1 ∧
        rescaleCheck (s.windowRead c.ld c.dataOff c.dataLen) = .ok () ∧
      s.overQuota tagA qSram (((s.windowRead c.ld c.dataOff c.dataLen).length + 16383) / 16384) = false) ∧
    ∃ i t, s.pick s.images.tables 4096 = some (i, t) ∧ t.tableSpace (slotsFor (s.windowRead c.ld c.dataOff c.dataLen).length) =
        some [5121]) :=
  goes (by decide +kernel) ⟨by decide +kernel,
    have ⟨i, g⟩ := pick_ok (sent (put1 full rescaleImg) (cmdOf 1 0x0402 [1] 192 buf1)) (t := full.images.tables) (n := 4096) (by decide +kernel)
    ⟨i, _, g, by decide +kernel⟩⟩

theorem meets_LentGrant : Goes lentA 0x900 0 (cmdOf 0 0x0900 ([0, 3, 1, 0, 0, 0, 0, 0] ++ toLe 8 65536 ++ toLe 8 1073676288)) 0
    (fun s c =>
    (tget s.tenants (c.param 2 2 % 4096) = some tenA ∧ tenA.live = true ∧ tenA.teardown = false ∧ c.param 0 1 < 16 ∧
        c.param 8 8 % 65536 = 0 ∧
      c.param 16 8 % 65536 = 0 ∧ 65536 ≤ c.param 16 8 ∧ c.param 8 8 + c.param 16 8 ≤ s.cfg.lentGib * 2 ^ 30 ∧
      s.ldLocked (some (c.param 0 1)) = false ∧ (∀ e ∈ s.cxl.hostTable, e.2.keySlot ≠ c.param 2 2 % 4096 →
        meets e.2.base e.2.length (c.param 8 8) (c.param 16 8) = false)) ∧
    ∃ i t, s.pick (s.cxl.hostTable.map (fun e => (e.1, ())) ++ s.cxl.revokeWaiters.map fun e => (e.1, ())) 4096 = some (i, t)) :=
  goes (by decide +kernel) ⟨by decide +kernel, have ⟨i, g⟩ := pick_ok _ (by decide +kernel); ⟨i, _, g⟩⟩

theorem meets_PublicationCreate : Goes lentA 0x903 0 (cmdOf 0 0x0903 (toLe 8 0 ++ toLe 8 1073741824)) 0 (fun s c =>
    (0 < c.param 8 8 ∧ c.param 0 8 + c.param 8 8 ≤ s.cfg.lentGib * 2 ^ 30) ∧ ∃ i t, s.pick s.cxl.pubs 1024 = some (i, t)) :=
  goes (by decide +kernel) ⟨by decide +kernel, have ⟨i, g⟩ := pick_ok _ (by decide +kernel); ⟨i, _, g⟩⟩

def scB : List Byte := [1, 0, 1, 0, 0, 2, 6, 0xFF, 0, 2, 0, 0, 0, 0, 10, 0]

theorem meets_SkeinCreate : Goes base 0x300 1 (cmdOf 1 0x0300 scB) tagA (fun s c =>
    (c.param 6 1 < 12 ∧ c.param 9 1 < 16 ∧ bit 3 (c.param 9 1) = false ∧ c.param 10 1 = 0 ∧ bit 0 (c.param 9 1) = false ∧
      1 ≤ c.param 0 2 ∧ c.param 0 2 ≤ 256 ∧ 1 ≤ c.param 2 2 ∧ c.param 2 2 ≤ 256 ∧ 32 ≤ c.param 4 2 ∧ c.param 4 2 ≤ 1024 ∧
      c.param 4 2 % fmtGroup (c.param 6 1) = 0 ∧ c.param 7 1 = 0xFF ∧ c.param 8 1 ≤ 7 ∧ 10 ≤ c.param 14 2 ∧ c.param 14 2 ≤ 10000 ∧
      s.overQuota tagA qSkein 1 = false ∧ s.dramNeed tagA 1 = .ok ()) ∧
    ∃ idx s1, s.takeSkeinIndex = some (idx, s1) ∧ ∃ slab s2, s1.takeSlots 1 = some (slab, s2)) :=
  goes (by decide +kernel) ⟨by decide +kernel, _, _, (Option.some_get (by decide +kernel)).symm,
    have ⟨a, t, h, _⟩ := takeSlots_ok (n := 1) (by decide +kernel) (by decide +kernel) (by decide +kernel); ⟨a, t, h⟩⟩

theorem meets_ProgramLoad :
    (Goes (put0 full (imgOf 3)) 0x400 0 (cmdOf 0 0x0400 [0] 116 buf0) 0 fun s c =>
      let img := s.windowRead c.ld c.dataOff c.dataLen
      field img 0 4 = 0x55455242 ∧ field img 4 1 = 1 ∧ placeOf (field img 5 1) = some .tier ∧ zeroIn img 10 2 = true ∧
          zeroIn img 16 48 = true ∧
      field img 6 2 = 1 ∧ field img 8 2 = 0 ∧ img.length = 116 ∧ sha384 (img.take 68) = img.drop 68 ∧ programCheck .tier [0] [] =
          none ∧
      c.tenantField = 0 ∧ s.images.tierNext.bind id = none ∧ s.images.tier = none) ∧
    (Goes (put1 fullP (imgOf 1)) 0x400 1 (cmdOf 1 0x0400 [0xFF] 116 buf1) tagA fun s c =>
      let img := s.windowRead c.ld c.dataOff c.dataLen
      field img 0 4 = 0x55455242 ∧ field img 4 1 = 1 ∧ placeOf (field img 5 1) = some .score ∧ zeroIn img 10 2 = true ∧
          zeroIn img 16 48 = true ∧
      field img 6 2 = 1 ∧ field img 8 2 = 0 ∧ img.length = 116 ∧ sha384 (img.take 68) = img.drop 68 ∧
          programCheck .score [0] [] = none ∧
      ((s.images.store .score).find? fun e => e.2.digest == img.drop 68 && !e.2.bound.isEmpty) = some (0, progD)) ∧
    (Goes (put1 full (imgOf 1)) 0x400 1 (cmdOf 1 0x0400 [1] 116 buf1) tagA fun s c =>
      let img := s.windowRead c.ld c.dataOff c.dataLen
      field img 0 4 = 0x55455242 ∧ field img 4 1 = 1 ∧ placeOf (field img 5 1) = some .score ∧ zeroIn img 10 2 = true ∧
          zeroIn img 16 48 = true ∧
      field img 6 2 = 1 ∧ field img 8 2 = 0 ∧ img.length = 116 ∧ sha384 (img.take 68) = img.drop 68 ∧
          programCheck .score [0] [] = none ∧
      ((s.images.store .score).find? fun e => e.2.digest == img.drop 68 && !e.2.bound.isEmpty) = none ∧
      storeUsed (s.images.store .score) + 1 ≤ Place.words .score ∧ c.param 0 1 < Place.slots .score ∧
      thas (s.images.store .score) (c.param 0 1) = false) ∧
    (Goes (put1 full (imgOf 1)) 0x400 1 (cmdOf 1 0x0400 [0xFF] 116 buf1) tagA fun s c =>
      let img := s.windowRead c.ld c.dataOff c.dataLen
      (field img 0 4 = 0x55455242 ∧ field img 4 1 = 1 ∧ placeOf (field img 5 1) = some .score ∧ zeroIn img 10 2 = true ∧
          zeroIn img 16 48 = true ∧
      field img 6 2 = 1 ∧ field img 8 2 = 0 ∧ img.length = 116 ∧ sha384 (img.take 68) = img.drop 68 ∧
          programCheck .score [0] [] = none ∧
      ((s.images.store .score).find? fun e => e.2.digest == img.drop 68 && !e.2.bound.isEmpty) = none ∧
      storeUsed (s.images.store .score) + 1 ≤ Place.words .score ∧ c.param 0 1 = 0xFF) ∧
      ∃ i t, s.pick (s.images.store .score) (Place.slots .score) = some (i, t)) :=
  ⟨goes (by decide +kernel) (by decide +kernel), goes (by decide +kernel) (by decide +kernel),
      goes (by decide +kernel) (by decide +kernel),
   goes (by decide +kernel) ⟨by decide +kernel, have ⟨i, g⟩ := pick_ok _ (by decide +kernel); ⟨i, _, g⟩⟩⟩

theorem meets_SampleSet : Goes full 0xB00 0 (cmdOf 0 0x0B00 (toLe 4 1000000 ++ [15, 0xFF, 0, 0] ++ toLe 4 4096)) 0 (fun s c =>
    (c.param 6 1 = 0 ∧ c.param 0 4 ≤ 1000000 ∧ c.param 4 1 < 16 ∧ 4096 ≤ c.param 8 4 ∧ c.param 8 4 ≤ 1048576) ∧
    ∃ a s1, (s.dropArea s.flyer.tele.area).takeSlots (slotsFor (c.param 8 4 * 32)) = some (a, s1) ∧
        ∃ w s2, s1.mapArea c.mb none a = some (w, s2)) :=
  goes (by decide +kernel) ⟨by decide +kernel, by
    obtain ⟨a, t, h, h0, -, -, -, h4, -⟩ := takeSlots_ok (n := 2)
      (s := (sent full (cmdOf 0 0x0B00 (toLe 4 1000000 ++ [15, 0xFF, 0, 0] ++ toLe 4 4096))).dropArea []) rfl rfl
          (by decide +kernel)
    obtain ⟨u, v, g, -⟩ := mapArea_ok (s := t) (m := 0) (tenant := none) (a := a) (w := 20) (by decide)
      (by rw [h0]; simp only [State.windowFree, h4]; decide +kernel)
    exact ⟨a, t, h, _, v, g⟩⟩

def mb0B : List Byte := [0, 0, 16, 0, 0]
def mb2B : List Byte := forA [2, 0, 16, 0, 1]

theorem meets_MailboxBind :
    Goes base 0x105 0 (cmdOf 0 0x0105 mb2B) tagA (fun s c =>
      (pow2In 16 4096 (c.param 2 2) = true ∧ c.param 4 1 < 2 ∧ c.param 0 2 ≤ 1023 ∧ c.param 0 2 ≠ 0 ∧
          (s.tenant? c.tenantField).isSome = true ∧
        (s.mbox (c.param 0 2)).bound = false ∧ (s.mbox (c.param 0 2)).state = .disabled ∧
        s.dramNeed c.tenantField (slotsFor (c.param 2 2 * 64) + slotsFor (c.param 2 2 * 32)) = .ok ()) ∧
      ∃ sq ws s1, s.newRing (c.param 0 2) c.tenantField (c.param 2 2 * 64) = .ok (sq, ws, s1) ∧
        ∃ cq wc s2, s1.newRing (c.param 0 2) c.tenantField (c.param 2 2 * 32) = .ok (cq, wc, s2)) ∧
    Goes base 0x105 0 (cmdOf 0 0x0105 mb0B) 0 (fun s c =>
      (pow2In 16 4096 (c.param 2 2) = true ∧ c.param 4 1 < 2 ∧ c.param 0 2 = 0 ∧ c.tenantField = 0 ∧ s.inflightOf 0 = 1) ∧
      ∃ sq s1, s.takeSlots (slotsFor (c.param 2 2 * 64)) = some (sq, s1) ∧ ∃ cq s2, s1.takeSlots (slotsFor (c.param 2 2 * 32)) =
          some (cq, s2) ∧
        ∃ ws s3, s2.mapArea 0 none sq = some (ws, s3) ∧ ∃ wc s4, s3.mapArea 0 none cq = some (wc, s4)) :=
  ⟨goes (by decide +kernel) ⟨by decide +kernel, by
    obtain ⟨a, u, t, h, h0, h1, h2, h3, h4, h5, h6⟩ := newRing_ok (s := sent base (cmdOf 0 0x0105 mb2B)) (m := 2) (tag := tagA)
      (bytes := 1024) 20 (by decide +kernel) rfl rfl (by decide +kernel) (by decide) (by decide +kernel)
    have hf : t.windowFree (if u = 20 then 21 else 20) 1 = true := by
      have h0' : a.length = 1 := h0
      rw [State.windowFree, h4]
      split <;> simp [h0', windowUnits, sent, base] <;> omega
    obtain ⟨b, w, v, g, -⟩ := newRing_ok (s := t) (m := 2) (tag := tagA) (bytes := 512) (if u = 20 then 21 else 20)
      (by rw [dramNeed_of h1 rfl h5, h2, h3]; decide +kernel) (by rw [h1]; rfl) (by rw [h1]; rfl)
      (by rw [h2, show t.store.poolSlots = 64 by rw [h1]; rfl]; decide +kernel) (by split <;> decide) hf
    exact ⟨a, _, t, h, b, _, v, g⟩⟩,
   goes (by decide +kernel) ⟨by decide +kernel, by
    obtain ⟨a, t, h, h0, h1, h2, -, h4, -⟩ := takeSlots_ok (s := sent base (cmdOf 0 0x0105 mb0B)) (n :=
        1) rfl rfl (by decide +kernel)
    obtain ⟨b, v, g, g0, -, -, -, g4, -⟩ := takeSlots_ok (s := t) (n := 1) (by rw [h1]; rfl) (by rw [h1]; rfl)
      (by rw [h2, show t.store.poolSlots = 64 by rw [h1]; rfl]; decide +kernel)
    obtain ⟨u, x, f, f1, -⟩ := mapArea_ok (s := v) (m := 0) (tenant := none) (a := a) (w := 20) (by decide)
      (by simp only [State.windowFree, g4, h4, h0]; decide +kernel)
    have hf : x.windowFree (if u = 20 then 21 else 20) b.length = true := by
      rw [State.windowFree, f1, g4, h4]
      split <;> simp [h0, g0, windowUnits, sent, base] <;> omega
    obtain ⟨w, y, p, -⟩ := mapArea_ok (s := x) (m := 0) (tenant := none) (by split <;> decide) hf
    exact ⟨a, t, h, b, v, g, _, x, f, _, y, p⟩⟩⟩

def raB : List Byte := [1, 0, 4, 0, 8, 0, 0x40, 0] ++ toLe 4 1024 ++ toLe 4 1 ++ toLe 12 12

theorem meets_RunAttach : Goes fullE 0x701 1 (cmdOf 1 0x0701 raB) tagA (fun s c =>
    (s.runFor tagA (BitVec.ofNat 32 (c.param 0 4)) = some runA ∧ s.skeinOf tagA (BitVec.ofNat 32 (c.param 4 4)) = .ok skE ∧
      runA.hashes[c.param 12 4]? = some (c.param 16 12) ∧ skE.layers = runA.layers ∧ skE.heads = runA.heads ∧ skE.elements =
          runA.elements ∧
      skE.format = runA.format ∧ skE.modelId = runA.modelId ∧ skE.leaves = [] ∧ c.param 8 4 = 1024 ∧ 1024 = runA.length ∧
          runA.cap = 1024 ∧
      runA.damaged = false) ∧
    let g := skE.growth ((runA.attached (c.param 8 4 / runA.cap)).map (·.1)) (List.range (c.param 8 4)) skE.rows
    let k := skE.addReel (runA.reel.filter fun e => decide (e.1 < c.param 8 4))
    s.dramNeed tagA (g.slots skE) = .ok () ∧ s.tailRoom skE k = true ∧
    ∃ t, (s.shedFor skE k).grow (skIndex (BitVec.ofNat 32 (c.param 4 4))) g = some t) :=
  goes (by decide +kernel) ⟨by decide +kernel, by decide +kernel, by decide +kernel,
    grow_ok (k := skE) (by decide +kernel) (by decide +kernel) (by decide +kernel) (by decide +kernel)⟩

theorem meets_CombineDescriptorPost :
    (At (withQ live cdB) fun s => (AtHead s 2 (jqWith cdB) (qe cdB) [] cdB ∧ field cdB 0 1 = 0x11 ∧ checkCombine cdB = .ok () ∧
      tget (s.popped 2 []).work.combines (cdId cdB) = none ∧ cdDest cdB = 0 ∧
      ((s.popped 2 []).connFor (jqWith cdB).tenant (cdConn cdB)).isSome = true ∧
      (s.popped 2 []).dramNeed (jqWith cdB).tenant (combineSlots cdB) = .ok ()) ∧
      ∃ area t, (s.popped 2 []).takeSlots (combineSlots cdB) = some (area, t)) ∧
    (At (withQ live (padTo 128 [0x11])) fun s => AtHead s 2 (jqWith (padTo 128 [17])) (qe (padTo 128 [17])) [] (padTo 128 [17]) ∧
      field (padTo 128 [17]) 0 1 = 0x11 ∧ errOf (checkCombine (padTo 128 [17])) = some St.versionUnsupported) :=
  ⟨⟨⟨⟨by decide +kernel, by decide +kernel, by decide +kernel, by decide +kernel, by decide +kernel, by decide +kernel,
      by decide +kernel⟩,
     by decide +kernel⟩, have ⟨a, t, h, _⟩ := takeSlots_ok (by decide +kernel) (by decide +kernel) (by decide +kernel); ⟨a, t, h⟩⟩,
   ⟨by decide +kernel, by decide +kernel, by decide +kernel, by decide +kernel, by decide +kernel, by decide +kernel,
       by decide +kernel⟩,
   by decide +kernel⟩

theorem sha384_le (bs : List Byte) : (sha384 bs).length ≤ 48 := by
  simp only [sha384, List.length_take]; omega

theorem addSession_some {s : State} {node port : Nat} {h : Handshake} (hl : s.flyer.sessions.length < sessionSlots) :
    ∃ i t, s.addSession node port h = some (i, t) := by
  obtain ⟨i, hi⟩ := pick_ok s hl
  simp only [State.addSession, hi]
  exact ⟨_, _, rfl⟩

theorem meets_GateSet : Goes (put0 full (List.flatten (List.replicate 32 (toLe 8 0x3FF)))) 0x60b 0 (cmdOf 0 0x060B [3] 256 buf0)
    0 (fun s c =>
    let bytes := s.windowRead c.ld c.dataOff c.dataLen
    let g : List Gate := (gateEntries bytes).map fun w => (bits 34 8 w, BitVec.ofNat 8 w)
    c.dataLen = 256 ∧ (∀ w ∈ gateWords bytes, bits 63 35 w = 0) ∧ c.param 0 1 < 4 ∧ (∀ e ∈ g, e.1 ≤ 100000000) ∧
        (g.map (·.1)).sum ≤ 100000000 ∧
    ∀ k, k < 8 → ∀ r ∈ shortestRun g k, 3 ≤ r) := goes (by decide +kernel) (by decide +kernel)

def repA : Report := { waiter := (1, 0), body := [], sig := [], out := 0, cap := 0, ld := 0 }
theorem report_fits {s : State} {c : Cmd} (h : ((s.digestEntries tagA).flatten).length + 3700 ≤ c.dataLen) :
    (s.reportBody tagA ((c.bytes.drop 24).take 32)).length + 3444 ≤ c.dataLen := by
  have h1 := sha384_le Config.certificateChains
  have h2 := sha384_le s.configRecord
  simp only [State.reportBody, List.length_append, toLe_length, padTo_length, zeros, List.length_replicate, List.length_cons,
      List.length_nil]
  omega
theorem meets_AttestReport :
    (Goes full 0xE04 1 (cmdOf 1 0x0E04 [] 65536 buf1) tagA fun s c => (s.tenant? tagA).isSome = true ∧
      (s.reportBody tagA ((c.bytes.drop 24).take 32)).length + 3444 ≤ c.dataLen ∧ s.sec.hssStopped = false ∧ s.sec.batch = none) ∧
    (Goes { full with sec := { batch := some (0, List.replicate 1024 repA) } } 0xE04 1 (cmdOf 1 0x0E04 [] 65536 buf1) tagA fun s
        c =>
      (s.tenant? tagA).isSome = true ∧ (s.reportBody tagA ((c.bytes.drop 24).take 32)).length + 3444 ≤ c.dataLen ∧
          s.sec.hssStopped = false ∧
      s.sec.batch = some (0, List.replicate 1024 repA)) ∧
    (Goes { full with sec := { batch := some (0, []) } } 0xE04 1 (cmdOf 1 0x0E04 [] 65536 buf1) tagA fun s c =>
      (s.tenant? tagA).isSome = true ∧ (s.reportBody tagA ((c.bytes.drop 24).take 32)).length + 3444 ≤ c.dataLen ∧
          s.sec.hssStopped = false ∧
      s.sec.batch = some (0, [])) :=
  ⟨goes (by decide +kernel) ⟨by decide +kernel, report_fits (by decide +kernel), rfl, rfl⟩,
   goes (by decide +kernel) ⟨by decide +kernel, report_fits (by decide +kernel), rfl, rfl⟩,
   goes (by decide +kernel) ⟨by decide +kernel, report_fits (by decide +kernel), rfl, rfl⟩⟩

theorem meets_SessionOpen :
    (Goes { full with cfg := { nodeId := some 1 } } 0xE05 0 (cmdOf 0 0x0E05 [9, 0, 3, 0, 0xFF, 0x0F]) 0 fun s c =>
        (c.param 0 2 < 0x3FF ∧
      c.param 2 1 = 3 ∧ c.param 4 2 < 4096 ∧ s.cfg.nodeId.isSome = true ∧ s.sec.rngFailed = false) ∧ hsYes.authentic = true ∧
      ∃ i u, (s.emit (.reply (16 + c.param 2 1) (Config.spdmReply (16 + c.param 2 1) []))).addSession (c.param 0 2) (c.param 2 1)
          hsYes = some (i, u)) ∧
    hsNo.authentic = false :=
  ⟨goes (by decide +kernel) ⟨by decide +kernel, rfl, addSession_some (by decide +kernel)⟩, rfl⟩

def shaken (n : Nat) : State := { (onPort live { upP with handshakes := List.replicate n 0 }) with cfg := { nodeId := some 1 } }
theorem meets_HandshakePacket :
    (At (shaken 1024) fun s => s.cfg.nodeId.isSome = true ∧ s.awake = true ∧
      1024 ≤ ((s.portAt 0).handshakes.filter fun t => decide (s.time.localNow < t + 1000000000)).length) ∧
    (At (shaken 1023) fun s => (s.cfg.nodeId.isSome = true ∧ s.awake = true ∧
      ((s.portAt 0).handshakes.filter fun t => decide (s.time.localNow < t + 1000000000)).length < 1024 ∧ s.sec.rngFailed =
          false ∧
      tget s.flyer.sessions 0 = some sesA ∧ sesA.peer = 9 ∧ hsYes.authentic = true ∧ hsNo.authentic = false) ∧
      ∃ i u, ((s.setPort 0 { s.portAt 0 with handshakes := ((s.portAt 0).handshakes.filter fun t => decide (s.time.localNow < t + 1000000000)) ++
        [s.time.localNow] }).emit (.reply 16 (Config.spdmReply 16 [1]))).addSession 9 0 hsYes = some (i, u)) ∧
    (At { shaken 1023 with sec := { rngFailed := true } } fun s => s.cfg.nodeId.isSome = true ∧ s.awake = true ∧
      ((s.portAt 0).handshakes.filter fun t => decide (s.time.localNow < t + 1000000000)).length < 1024 ∧ s.sec.rngFailed =
          true) :=
  ⟨by decide +kernel, ⟨by decide +kernel, addSession_some (by decide +kernel)⟩, by decide +kernel⟩

theorem meets_JobAdmission :
    (At (withQ live jobB) fun s => AtHead s 2 (jqWith jobB) (qe jobB) [] jobB ∧ field jobB 0 1 = 16 ∧
      ((s.popped 2 []).checkJob 2 (jqWith jobB).tenant (qe jobB) jobB).1.toOption.isSome = true) ∧
    (At (withQ live (zeros 128)) fun s => AtHead s 2 (jqWith (zeros 128)) (qe (zeros 128)) [] (zeros 128) ∧
        field (zeros 128) 0 1 = 0 ∧
      errOf ((s.popped 2 []).checkJob 2 (jqWith (zeros 128)).tenant (qe (zeros 128)) (zeros 128)).1 = some St.badType) :=
  ⟨⟨⟨by decide +kernel, by decide +kernel, by decide +kernel, by decide +kernel, by decide +kernel, by decide +kernel,
      by decide +kernel⟩,
     by decide +kernel, by decide +kernel⟩,
   ⟨⟨by decide +kernel, by decide +kernel, by decide +kernel, by decide +kernel, by decide +kernel, by decide +kernel,
       by decide +kernel⟩,
     by decide +kernel, by decide +kernel⟩⟩

def jobT : Job := { jobI itemS with bytes := jobB.set 81 0x80 }
def progT : Prog := { progA with code := [0x08000000] }
def streams (s : State) (j : Job) : Prop :=
  s.job? 0 = some j ∧ j.items[0]? = some itemS ∧ j.entries[itemS.entry]? = some entB ∧ j.whorls = false ∧ j.phase = .streaming ∧
    itemS.done = false ∧ 0 = itemS.leas ∧ 0 < leasOf entB.cap itemS.leaf.count ∧ itemS.sub = some (7 * 64 + 0) ∧ s.power.state =
        .run
def arrival (s : State) (j : Job) : State := s.checkTag j.tenant 7 (slotAddr itemS.leaf.tier itemS.leaf.pbn)
def folded (s : State) (j : Job) (toks : Table (List W32)) :=
  (arrival s j).blockRows j itemS.entry entB itemS.bobbin itemS.leaf.count toks (leaSlots entB.cap 0) (entB.passRows itemS.pass)
      fun r =>
    j.part (partKey j r itemS.bobbin 448)
theorem meets_LeaArrival :
    (At (withJob { live with cxl := { live.cxl with badLines := [slotAddr 1 32780] } } (jobI itemS)) fun s =>
        streams s (jobI itemS) ∧
      (arrival s (jobI itemS)).leaTokens (jobI itemS) entB itemS.leaf itemS.bobbin 0 = none) ∧
    (At (withJob live (jobI itemS)) fun s => streams s (jobI itemS) ∧
        ((arrival s (jobI itemS)).leaTokens (jobI itemS) entB itemS.leaf
      itemS.bobbin 0).any (fun toks => (folded s (jobI itemS) toks).toOption.isSome) = true) ∧
    (At (withJob { live with images := { live.images with score := [(0, progT)] } } jobT) fun s => streams s jobT ∧
      ((arrival s jobT).leaTokens jobT entB itemS.leaf itemS.bobbin 0).any (fun toks => (errOf (folded s jobT toks)).isSome) =
          true) :=
  ⟨by unfold streams; decide +kernel, by unfold streams; decide +kernel, by unfold streams; decide +kernel⟩

def sentJ (j : Job) : Job := { j with rows := zeros 64, replayed := false, phase := .sent, staging := none }
theorem meets_JobDelivery :
    (At (withJob live jobP) fun s => jobP.staging = none ∧ jdDest jobP.bytes = 0 ∧
      ((s.setJob 0 (sentJ jobP)).connAt jobP.tenant (jdConn jobP.bytes)).isSome = true) ∧
    (At (withJob live jobA) fun s => jobA.staging = none ∧ jdDest jobA.bytes = 1 ∧
      ((s.setJob 0 (sentJ jobA)).writeRows jobA.tenant (jdPlyKey jobA.bytes) (field jobA.bytes 112 4) (zeros 64)).toOption.isSome
          = true) ∧
    (At (withJob live jobR) fun s => jobR.staging = none ∧ jdDest jobR.bytes = 1 ∧
      errOf ((s.setJob 0 (sentJ jobR)).writeRows jobR.tenant (jdPlyKey jobR.bytes) (field jobR.bytes 112 4) (zeros 64)) =
          some St.staleKey) :=
  ⟨by decide +kernel, by decide +kernel, by decide +kernel⟩

def posts (s : State) (k : Conn) (e : QEntry) : Prop :=
  s.conn? 1 = some k ∧ k.wait = none ∧ s.awake = true ∧ k.sq = [e] ∧ k.state = .ready ∧ k.cancelNext = 0 ∧ k.destroyWaiter =
      none ∧
    k.peerConn ≠ 0 ∧ e.source = none ∧ s.sqBad k e = false ∧ field (s.sqBytes k e) 0 1 ≠ 0x13
theorem meets_WorkRequestPost :
    (At (withS live (connZ (wrB 4))) fun s => posts s (connZ (wrB 4)) (qe (wrB 4)) ∧
      (connZ (wrB 4)).mayTake (wrOpcode (s.sqBytes (connZ (wrB 4)) (qe (wrB 4))))
          (wrLen (s.sqBytes (connZ (wrB 4)) (qe (wrB 4)))) = false) ∧
    (At (withS live (connQ (wrB 1))) fun s => posts s (connQ (wrB 1)) (qe (wrB 1)) ∧
      (connQ (wrB 1)).mayTake (wrOpcode (s.sqBytes (connQ (wrB 1)) (qe (wrB 1))))
          (wrLen (s.sqBytes (connQ (wrB 1)) (qe (wrB 1)))) = true ∧
      (s.workRequest (connQ (wrB 1)).tenant (s.sqBytes (connQ (wrB 1)) (qe (wrB 1)))).1 = St.ok) ∧
    (At (withS live (connQ (wrB 3))) fun s => posts s (connQ (wrB 3)) (qe (wrB 3)) ∧
      (connQ (wrB 3)).mayTake (wrOpcode (s.sqBytes (connQ (wrB 3)) (qe (wrB 3))))
          (wrLen (s.sqBytes (connQ (wrB 3)) (qe (wrB 3)))) = true ∧
      (s.workRequest (connQ (wrB 3)).tenant (s.sqBytes (connQ (wrB 3)) (qe (wrB 3)))).1 ≠ St.ok) :=
  ⟨by unfold posts; decide +kernel, by unfold posts; decide +kernel, by unfold posts; decide +kernel⟩

theorem meets_ReadExecute :
    (At (withR live (rx 2 (toLe 8 64))) fun s => s.ready? 1 1 Op.read = some (connA, rx 2 (toLe 8 64)) ∧
      s.regionGrant connA.tenant (rx 2 (toLe 8 64)).key rightRead = .ok regA ∧ (s.readRegion regA 0 64).1 = St.ok) ∧
    (At (withR live (rx 2 (toLe 8 65537))) fun s => s.ready? 1 1 Op.read = some (connA, rx 2 (toLe 8 65537)) ∧
      s.regionGrant connA.tenant (rx 2 (toLe 8 65537)).key rightRead = .ok regA ∧ (s.readRegion regA 0 65537).1 =
          St.lengthRange) :=
  ⟨by decide +kernel, by decide +kernel⟩

theorem meets_LeaseAtomics :
    (At (withR (withG live regL) (rx 7 (toLe 16 7))) fun s => s.regionGrant connA.tenant (rx 7 (toLe 16 7)).key rightAtomic =
        .ok regL ∧
      s.skeinFor connA.tenant regL.skein = some skB ∧ s.ready? 1 1 Op.compareSwap = some (connA, rx 7 (toLe 16 7)) ∧
      (s.swapLease 7 0 7).isSome = true) ∧
    (At (withR (withG live regL) (rx 7 (toLe 16 (2 ^ 32)))) fun s =>
        s.regionGrant connA.tenant (rx 7 (toLe 16 (2 ^ 32))).key rightAtomic =
      .ok regL ∧ s.skeinFor connA.tenant regL.skein = some skB ∧ s.ready? 1 1 Op.compareSwap =
          some (connA, rx 7 (toLe 16 (2 ^ 32))) ∧
      s.swapLease 7 0 0x100000000 = none) ∧
    (At (withR (withG live regL) (rx 5 (toLe 16 7))) fun s => s.regionGrant connA.tenant (rx 5 (toLe 16 7)).key rightAtomic =
        .ok regL ∧
      s.skeinFor connA.tenant regL.skein = some skB ∧ s.ready? 1 1 Op.fetchAdd = some (connA, rx 5 (toLe 16 7)) ∧
      BitVec.ofNat 64 (field (rx 5 (toLe 16 7)).payload 8 8) = 0) :=
  ⟨by decide +kernel, by decide +kernel, by decide +kernel⟩

theorem meets_QueryExecute :
    (At (withR live (rx 8 (zeros 64))) fun s => s.ready? 1 1 Op.query = some (connA, rx 8 (zeros 64)) ∧
      errOf (parseQuery (rx 8 (zeros 64)).payload) = some St.lengthRange) ∧
    (At (withR { live with work := { live.work with entries := [] } } (rx 8 qyB)) fun s => s.ready? 1 1 Op.query =
        some (connA, rx 8 qyB) ∧
      (parseQuery (rx 8 qyB).payload).toOption.isSome = true ∧ s.work.entries = []) ∧
    (At (withR (withM live entM) (rx 8 qyB)) fun s => s.ready? 1 1 Op.query = some (connA, rx 8 qyB) ∧
      okWith (parseQuery (rx 8 qyB).payload) (fun q => s.earliest connA.tenant q (fun e => !e.halted) == some (5, entM)) =
          true) :=
  ⟨by decide +kernel, by decide +kernel, by decide +kernel⟩

def fires (s : State) : Prop :=
  tget s.work.lists entM.list = some listA ∧ entM.gone = [] ∧ entM.actions = [actW] ∧ field actW 0 1 ≠ 0x20 ∧ needsQuery actW =
      false ∧
    hdrLaunch entM.header = 0 ∧ s.targetOk tagA actW (hdrTarget entM.header 0) = true ∧ s.work.hold.length ≤ 4096
theorem meets_Firing :
    (At (withM (withF live) entM) fun s => fires s ∧ s.targetRoom actW (hdrTarget entM.header 0) = 0) ∧
    (At (withM live entM) fun s => fires s ∧ 0 < s.targetRoom actW (hdrTarget entM.header 0) ∧ field entM.header 14 2 = 0 ∧
      okWith (parseQuery qyB) (fun q => field (substitute entM.header q.step none actW) 0 1 == field actW 0 1) = true) :=
  ⟨by unfold fires; decide +kernel, by unfold fires; decide +kernel⟩

theorem meets_PlyExecute :
    (At (withR live (rx 9 (zeros 63))) fun s => s.ready? 1 1 Op.ply = some (connA, rx 9 (zeros 63)) ∧
      errOf (checkPly (rx 9 (zeros 63)).payload) = some St.lengthRange) ∧
    (At (withR live (rx 9 plyB)) fun s => s.ready? 1 1 Op.ply = some (connA, rx 9 plyB) ∧ checkPly (rx 9 plyB).payload =
        .ok (1, 0, false, 32) ∧
      errOf (s.takeRows connA.tenant 32 0 false (splitRows (plyRowSize 32 0 false) 1 ((rx 9 plyB).payload.drop 64))) =
          some St.staleHandle) ∧
    (∀ n : Fin 2, At (withR (withC live (combM (BitVec.ofNat 8 (n + 1)))) (rx 9 plyB)) fun s => s.ready? 1 1 Op.ply =
        some (connA, rx 9 plyB) ∧
      checkPly (rx 9 plyB).payload = .ok (1, 0, false, 32) ∧
      okWith (s.takeRows connA.tenant 32 0 false (splitRows (plyRowSize 32 0 false) 1 ((rx 9 plyB).payload.drop 64)))
        (fun x => (tget x.2.work.combines x.1).any fun y => y.full == decide (n = 0)) = true) :=
  ⟨by decide +kernel, by decide +kernel, by decide +kernel⟩

theorem meets_AppendChecks :
    ({ skB with lease := 0x100000005 } : Skein).leaseRefuses apA.epoch.toNat = true ∧
    (skB.leaseRefuses apA.epoch.toNat = false ∧ skB.rowLength apA.row < ({ apA with t0 := 2 } : Sys2Proof.Machine.Append).t0) ∧
    ((skF 98).leaseRefuses apA.epoch.toNat = false ∧ apA.t0 ≤ (skF 98).rowLength apA.row ∧ apA.last ≤ 65536 * (skF 98).cap ∧
      (99, 0) ∈ indexed apA.ids ∧ tget (skF 98).reel (apA.t0 + 0) = some 98 ∧ (98 : W32) ≠ 99) :=
  ⟨by decide +kernel, by decide +kernel, by decide +kernel⟩

theorem meets_AppendComplete :
    (At (doneA true) fun s => s.ready? 1 1 Op.append = some (connA, msgK) ∧ s.append? 1 1 = some { apA with applied := true }) ∧
    (At (doneA false) fun s => s.ready? 1 1 Op.append = some (connA, msgK) ∧ s.append? 1 1 = some { apA with applied := false })
        :=
  ⟨by decide +kernel, by decide +kernel⟩

def moving (k : Skein) : State := { withK live k with store := { (withK live k).store with moves := [(4, mvA)] } }
def leafX : Leaf := { check := .damaged, count := 1024, format := 6, pbn := 32780, move := true }
def leafT : Leaf := { check := .opened, count := 1, format := 6, pbn := 32780, move := true }
theorem meets_BobbinMoveCommit :
    (At (moving skT) fun s => tget s.store.moves 4 = some mvA ∧ s.awake = true ∧ s.skein? mvA.skein = some skT ∧
        tget skT.leaves mvA.key = some leafT ∧
      mvA.dstTier = 1 ∧ mvA.srcTier = 1 ∧ leafT.check ≠ .damaged ∧ moveSourceOk s.mem skT mvA leafT = true) ∧
    (At (moving skX) fun s => tget s.store.moves 4 = some mvA ∧ s.awake = true ∧ s.skein? mvA.skein = some skX ∧
        tget skX.leaves mvA.key = some leafX ∧
      mvA.dstTier = 1 ∧ mvA.srcTier = 1 ∧ leafX.check = .damaged) :=
  ⟨by decide +kernel, by decide +kernel⟩

theorem meets_SpareCopyComplete :
    (At (withRel live fun r => { r with copies := [(1023, (1087, none))] }) fun s => tget s.rel.copies (7 * 128 + 127) =
        some (1087, none) ∧
      s.awake = true ∧ s.power.state = .run) ∧
    (At (withRel live fun r => { r with copies := [(1023, (1087, some (0, 3)))] }) fun s => tget s.rel.copies (7 * 128 + 127) =
      some (1087, some (0, 3)) ∧ s.awake = true ∧ s.power.state = .run) ∧
    (At { (withRel live fun r => { r with copies := [(1023, (1087, none))] }) with power := { state := .hold } } fun s =>
      tget s.rel.copies (7 * 128 + 127) = some (1087, none) ∧ s.power.state ≠ .run) :=
  ⟨by decide +kernel, by decide +kernel, by decide +kernel⟩

theorem meets_ModuleConfigure_waiting : Goes { base with store := { base.store with lentWaiter := some ((0, 9), 1) } } 0x103 0
    (cmdOf 0 0x0103 ([6, 0, 0, 0, 0, 0, 0, 0] ++ toLe 8 512)) 0
    (fun s c => c.param 0 2 = 6 ∧ c.param 8 8 ≤ 512 ∧ s.store.lentWaiter.isSome = true) :=
        goes (by decide +kernel) (by decide +kernel)

theorem meets_JobQueueDestroy_waiting : Goes (withJob full jobA) 0x503 1 (cmdOf 1 0x0503 [2, 0]) tagA (fun s c =>
    (s.jqFor tagA (c.param 0 2)).isSome = true ∧ ((s.destroyJq (c.param 0 2) (some c.ref)).endQueue (c.param 0 2)).1 = none) :=
  goes (by decide +kernel) (by decide +kernel)

theorem meets_JobCancel : Goes (withJob full jobA) 0x504 1 (cmdOf 1 0x0504 [2, 0]) tagA (fun s c =>
    (s.jqFor tagA (c.param 0 2)).isSome = true ∧
    (s.cancelIn (c.param 0 2) (fun b => field b 8 8 == c.param 8 8) (fun g => g.toNat == c.param 8 8) true St.cancelled).1 = 1) :=
  goes (by decide +kernel) (by decide +kernel)

theorem meets_LeaseSwap_done : Goes full 0x304 1 (cmdOf 1 0x0304 ([7, 0, 0x40, 0, 0, 0, 0, 0] ++ zeros 8 ++ toLe 8 5)) tagA
    (fun s c =>
    s.skeinOf tagA (BitVec.ofNat 32 (c.param 0 4)) = .ok skA ∧
    (s.swapLease (skIndex (BitVec.ofNat 32 (c.param 0 4))) (BitVec.ofNat 64 (c.param 8 8))
        (BitVec.ofNat 64 (c.param 16 8))).isSome = true) :=
  goes (by decide +kernel) (by decide +kernel)

theorem meets_SvnCommit_floor (s : State) : ∃ t : State, t.sec.svnRecords = s.sec.svnRecords ++ [s.boot.svn] :=
  ⟨s.modSec fun y => { y with svnRecords := y.svnRecords ++ [s.boot.svn] }, rfl⟩

theorem meets_Doorbells : At base fun s => (s.mbox 1).ld = some 0 ∧ s.power.state = .run ∧ ringJq s (s.mbox 1).tenant 2 0 = none ∧
    (At full fun t => (ringJq t (t.mbox 1).tenant 2 15).isSome = true ∧ (ringSq t (t.mbox 1).tenant 0x00040001 15).isSome = true ∧
      (ringList t (t.mbox 1).tenant 4 0).isSome = true ∧ (ringSrq t (t.mbox 1).tenant 2 15).isSome = true ∧
      (ringCq t (t.mbox 1).tenant 3 2).isSome = true) := by decide +kernel

def latched : Cxl := { base.cxl with doorbellLatch := List.replicate 4096 (0, 1, 0x1000000000000000) }
theorem meets_DoorbellsAsleep_full : At { base with power := { state := .doze }, cxl := latched } fun s => (s.mbox 1).ld =
    some 0 ∧
      s.power.state = .doze ∧ (∀ d ∈ s.cxl.doorbellLatch, ¬ d.2.2.toNat / 65536 = (0x5000000000000007 : W64).toNat / 65536) ∧
      4096 ≤ s.cxl.doorbellLatch.length := by decide +kernel

def lentG (g : W16) (w : Bool) : State :=
    { lentA with cxl := { lentA.cxl with hostTable := [(0, { hostA with hostGen := g, write := w })] } }
theorem meets_LentChecks :
    (At (lentG 1 true) fun s => ∀ e ∈ s.cxl.hostTable.map (·.2), ¬ (e.ld = 0 ∧ e.base ≤ 65536 ∧ 65536 < e.base + e.length)) ∧
    (At (lentG 2 true) fun s => ∀ e ∈ s.cxl.hostTable.map (·.2), (e.ld = 0 ∧ e.base ≤ 65535 ∧ 65535 < e.base + e.length) ∧
      e.hostGen ≠ (s.ld 0).hostGen) ∧
    (At (lentG 1 false) fun s => ∀ e ∈ s.cxl.hostTable.map (·.2), (e.ld = 0 ∧ e.base ≤ 0 ∧ 0 < e.base + e.length) ∧
      e.hostGen = (s.ld 0).hostGen ∧ e.write = false) ∧
    (At (lentG 1 true) fun s => ∃ e ∈ s.cxl.hostTable.map (·.2), (e.ld = 0 ∧ e.base ≤ 0 ∧ 0 < e.base + e.length) ∧
      e.hostGen = (s.ld 0).hostGen ∧ e.write = true) ∧ (At (lentG 1 true) fun s => 65536 < s.cfg.lentGib * 2 ^ 30) :=
          by decide +kernel

def jobWT : Job := { jobWh with bytes := jobB.set 81 0x80 }
theorem meets_WhorlJob_traps : At (withJob { live with images := { live.images with score := [(0, progT)] } } jobWT) fun s =>
    s.job? 0 = some jobWT ∧ jobWT.phase = .streaming ∧ s.awake = true ∧ jobWT.whorls = true ∧ s.power.state = .run ∧
    (∀ i ∈ jobWT.items, i.leaf.tier ≠ 0) ∧ (errOf (s.whorlItems jobWT [0])).isSome = true := by decide +kernel

theorem meets_ItemDealt_taken : At (withJob live jobA) fun s => s.job? 0 = some jobA ∧ jobA.items[0]? = some itemB ∧
    jobA.entries[itemB.entry]? = some entB ∧ jobA.whorls = false ∧ jobA.phase = .streaming ∧ itemB.done = false ∧ itemB.leas = 0 ∧
    0 < leasOf entB.cap itemB.leaf.count ∧ itemB.sub = none ∧ s.takesItem jobA itemB 7 0 = true ∧
    let t := (s.setFold 7 jobA).checkTag jobA.tenant 7 (slotAddr itemB.leaf.tier itemB.leaf.pbn)
    (t.leaTokens jobA entB itemB.leaf itemB.bobbin 0).any (fun toks =>
        (t.blockRows jobA itemB.entry entB itemB.bobbin itemB.leaf.count toks
      (leaSlots entB.cap 0) (entB.passRows itemB.pass) fun r =>
          jobA.part (partKey jobA r itemB.bobbin (7 * 64 + 0))).toOption.isSome) = true := by
  decide +kernel

def regE : Region := { kind := 2, rights := 63, tenant := tagA, key := 0x301, skein := 0x00400008, length := 0, area := [] }
def rxI : Reasm :=
  { conn := 1, seq := 1, opcode := 1, ackReq := false, parts := [(0, zeros 65536)], got := 65536, total := some 65536, start := 0, key := 0x301,
    roff := 6 * 2 ^ 48 }
theorem meets_ImportWrite : At (withR (withG liveE regE) rxI) fun s => (s.ready? 1 1 Op.write = some (connA, rxI) ∧
    s.importKey connA rxI = true ∧
      rxI.failed = 0 ∧ s.regionGrant connA.tenant rxI.key rightImport = .ok regE ∧ s.skeinOf connA.tenant regE.skein = .ok skE) ∧
    skE.importChecks rxI.roff.toNat rxI.payload.length = .ok (0, 6) :=
  ⟨⟨rfl, by decide +kernel, rfl, by decide +kernel, by decide +kernel⟩, by
    have h : rxI.payload.length = 65536 := by
      rw [show rxI.payload = zeros 65536 ++ [] from rfl, List.append_nil, zeros, List.length_replicate]
    rw [h]; decide +kernel⟩

def skUpd : SketchUpd := updA
def sketching (p : PState) (used : Nat) : State :=
  withRel { live with power := { state := p }, store := { live.store with sketchQ := [(3, skUpd)] } } fun r =>
      { r with sketchUse := [(groupOf 32780, (0, used))] }
theorem meets_SketchUpdate_deferred :
    (At (sketching .run (2 ^ 40)) fun s => s.store.sketchQ.find? (fun q => q.1 == 3) = some (3, skUpd) ∧ s.awake = true ∧
        s.skein? 7 = some skB ∧
      tget skB.leaves 0 = some leafB ∧ s.power.state = .run ∧ leafB.tier = 1 ∧ s.sketchShare (groupOf leafB.pbn) = none) ∧
    (At (sketching .hold 0) fun s => s.store.sketchQ.find? (fun q => q.1 == 3) = some (3, skUpd) ∧ s.awake = true ∧ s.skein? 7 =
        some skB ∧
      tget skB.leaves 0 = some leafB ∧ s.power.state ≠ .run) := by decide +kernel

theorem meets_ReplayLimit :
    (At (onPort live { upP with replay := [(1, okF)], oldestAt := 0, replays := 16 }) fun s =>
      (s.portAt 0).replay ≠ [] ∧ (s.portAt 0).oldestAt + 500 ≤ 500 ∧ (s.portAt 0).state = .up) ∧
    (At { (onPort live { upP with replay := [(1, okF)], replays := 16 }) with time := { localNow := 500 } } fun s =>
        (s.portAt 0).replay ≠ [] ∧
      (s.portAt 0).oldestAt + 500 ≤ s.time.localNow ∧ (s.portAt 0).state = .up ∧ (s.portAt 0).failover = false ∧
          (s.portAt 0).light = true ∧
      16 ≤ (s.portAt 0).replays) ∧
    (At { (onPort live { upP with replay := [(1, okF)], failover := true }) with time := { localNow := 500 } } fun s =>
        (s.portAt 0).replay ≠ [] ∧
      (s.portAt 0).oldestAt + 500 ≤ s.time.localNow ∧ (s.portAt 0).failover = true) := by decide +kernel

theorem meets_LinkAckTimer_paused : At (onPort live { upP with ackBy := some 10, light := false }) fun s =>
    (s.portAt 0).ackBy = some 10 ∧ (s.portAt 0).light = false := by decide +kernel

theorem meets_SwitchReceive_units : At live fun s => (s.portAt 3).state = .down ∧ (s.portAt 0).state = .up := by decide +kernel

def switchP (m : BitVec 9) : Port := { upP with switching := some (m, 7) }
theorem meets_MapChange : (At (onPort live (switchP 0x1FE)) fun s => (s.portAt 0).switching = some (0x1FE, 7) ∧
    (0x1FE : BitVec 9) ≠ (s.portAt 0).map) ∧
    (At (onPort live (switchP 0xFF)) fun s => (s.portAt 0).switching = some (0xFF, 7) ∧ (0xFF : BitVec 9) = (s.portAt 0).map) ∧
    (At (onPort live (switchP 0)) fun s => (s.portAt 0).switching = some (0, 7) ∧ (0 : BitVec 9) ≠ (s.portAt 0).map) :=
        by decide +kernel

theorem meets_LaserBanks_down : At (onPort live { state := .down, standbyOk := true }) fun s => (s.portAt 0).state = .down ∧
    (s.portAt 0).standbyOk = true ∧ (s.portAt 0).failover = false := by decide +kernel

theorem meets_TimerPause : ({ upP with pausedAt := some 5 } : Port).failover = false ∧ ({ upP with pausedAt := some 5 } :
    Port).light = true ∧
    ({ upP with pausedAt := some 5 } : Port).pausedAt = some 5 ∧ upP.pausedAt = none := by decide +kernel

def gateP (start base : W64) : Port := { upP with gates := [(1000, 1)], gateStart := start, standby := some ([(10, 1)], base) }
theorem meets_GateListSwitch_again : At { onPort live (gateP 5 5) with time := { now := 5 } } fun s => (s.portAt 0).standby =
    some ([(10, 1)], 5) ∧ s.awake = true ∧
      (s.portAt 0).gates ≠ [] ∧ (5 : W64) ≤ (s.portAt 0).gateStart ∧ (s.portAt 0).gateStart ≤ s.time.now := by decide +kernel

theorem meets_SweepStart_under_way : At { live with store := { live.store with sweep := [7] } } fun s => s.awake = true ∧
    s.power.inTransition = false ∧ (∀ d ∈ s.store.doffs, d.2.bySweep = false) ∧ s.store.sweep ≠ [] := by decide +kernel

def mvD : Move := { mvA with srcTier := 2, srcPbn := 0 }
theorem meets_BobbinMoveAbandon_reload : At { withK live skM with store := { (withK live skM).store with moves := [(4, mvD)] } }
    fun s =>
    tget s.store.moves 4 = some mvD ∧ s.awake = true ∧ s.skein? mvD.skein = some skM ∧ mvD.dstTier = 1 ∧ mvD.srcTier ≠ 1 :=
        by decide +kernel

theorem meets_PrefixShadow_due : At { live with time := { localNow := 10000000000 }, pfx := { shadow := [(0, peA)] } } fun s =>
    s.pfx.lastCompare + 10000000000 ≤ s.time.localNow ∧ (0 : Nat) < prefixSlots ∧ tget s.pfx.shadow 0 = some peA ∧
    (∀ p ∈ [0, 1], p < prefixSlots) ∧ [0, 1] ≠ ([] : List Nat) := by decide +kernel

theorem meets_CalibrationStep :
    (At live fun s => s.awake = true ∧ s.calibrationDue 1087 = true ∧ tnum s.rel.calStep 1087 = 0) ∧
    (At (withRel live fun r => { r with calAt := [(1087, 0)] }) fun s => s.awake = true ∧ s.calibrationDue 1087 = false) ∧
    (At (withRel live fun r => { r with calStep := [(1087, 62)], calMin := [(1087, 9)] }) fun s => s.awake = true ∧
        s.calibrationDue 1087 = true ∧
      0 < tnum s.rel.calStep 1087 ∧ tnum s.rel.calStep 1087 < 63 ∧ tget s.rel.calMin 1087 = some 9) ∧
    (At (withRel live fun r => { r with calStep := [(1087, 63)], calMin := [(1087, 9)] }) fun s => s.awake = true ∧
        s.calibrationDue 1087 = true ∧
      tnum s.rel.calStep 1087 = 63 ∧ tget s.rel.calMin 1087 = some 9) := by decide +kernel

theorem meets_HealthRecompute : (At live fun s => s.time.localNow < s.rel.lastHealth + 1000000000) ∧
    (At { live with time := { localNow := 1000000000 } } fun s => s.awake = true ∧
        s.rel.lastHealth + 1000000000 ≤ s.time.localNow ∧
      (∀ e ∈ (s.waveNews []).scoresNow [], 96 ≤ e.2) ∧
      ∀ c ∈ s.rel.suspect, 160 ≤ (tget ((s.waveNews []).scoresNow []) (healthKey c.1 c.2)).getD 255) := by decide +kernel

theorem meets_Judgement :
    (At live fun s => s.serving kSpindle 8 = false ∧ s.serving kSpindle 7 = true ∧ s.expulsion kSpindle 7 = none) ∧
    (At live fun s => s.serving kColumn 516 = true ∧ (s.expulsion kColumn 516).any (fun t => t.attentionSet) = true) ∧
    (At (withRel live fun r => { r with spindles := [{ state := 0 }] }) fun s => s.serving kColumn 515 = true ∧ s.attentionSet =
        true ∧
      (s.expulsion kColumn 515).any (fun t => !t.attentionSet) = true) := by decide +kernel

def busy : State := withJob { live with rel := { live.rel with auditUse := [] } } (jobI itemF)
theorem meets_ShadowAudit :
    (At busy fun s => s.job? 0 = some (jobI itemF) ∧ (jobI itemF).items[0]? = some itemF ∧ itemF.sub = some 448 ∧
        (jobI itemF).whorls = false ∧
      (jobI itemF).phase = .streaming ∧ 3 < itemF.leas ∧ 3 ∉ itemF.lost ∧ 448 / 64 ≠ 0 ∧ s.spindleServes 0 = true ∧
          s.awake = true ∧
      (s.auditShare 0).any (fun t => t.thirdSpindle [7, 0]) = true) ∧
    (At (withRel busy fun r => { r with auditUse := [(0, 2 ^ 31)] }) fun s => s.job? 0 = some (jobI itemF) ∧
        (jobI itemF).items[0]? = some itemF ∧
      s.spindleServes 0 = true ∧ s.awake = true ∧ s.auditShare 0 = none) := by decide +kernel

theorem meets_AuditArbiter : At (withRel live fun r => { r with audits := [auA] }) fun s =>
    s.rel.audits.find? (fun a => a.index == 1 && !a.settled) = some auA ∧ 7 ≠ auA.original ∧ 7 ≠ auA.auditor ∧
        s.spindleServes 7 = true ∧
    (At (withRel live fun r => { r with spindles := [{ state := 0 }, { state := 0 }], audits := [auA] }) fun t =>
      t.thirdSpindle [auA.original, auA.auditor] = false) := by decide +kernel

def lbBusy (f : Creel → Creel) : State := withCr { live with store := { live.store with creelUsed := [0] } } fun c =>
    f { c with asked := [0] }
theorem meets_MergeStart :
    ((At (lbBusy id) fun s => s.awake = true ∧ s.creel.state = .online ∧ s.lbMapped 0 = true ∧ s.creel.destOf 0 = none ∧
        s.creel.mergeDue 0 = true) ∧
      ∃ b t, (lbBusy id).mergeBlock 0 = some (b, t)) ∧
    (At (lbBusy fun c => { c with state := .offline }) fun s => s.creel.state ≠ .online) :=
  ⟨⟨by decide +kernel, takeBlock_ok (by decide +kernel) (by decide +kernel)⟩, by decide +kernel⟩

def merging (st : CreelState) : State := withCr live fun c =>
    { c with state := st, blocks := [(9, .mergeDest 0)], spare := 50000 }
theorem meets_MergeComplete : At (merging .readOnly) fun s => s.creel.destOf 0 = some 9 ∧ s.awake = true ∧ s.creelServes =
    true := by decide +kernel

theorem meets_MergeDestFail :
    ((At (merging .online) fun s => s.creel.destOf 0 = some 9 ∧ s.awake = true ∧ s.creelServes = true ∧
        ((s.retireBlock 9 3).setFlag Flag.creelProgramFail).creel.state = .online) ∧
      ∃ x u, (((merging .online).retireBlock 9 3).setFlag Flag.creelProgramFail).takeBlock (.mergeDest 0) = some (x, u)) ∧
    (At (merging .readOnly) fun s => s.creel.destOf 0 = some 9 ∧ s.awake = true ∧ s.creelServes = true ∧
      ((s.retireBlock 9 3).setFlag Flag.creelProgramFail).creel.state ≠ .online) :=
  ⟨⟨by decide +kernel, takeBlock_ok (by decide +kernel) (by decide +kernel)⟩, by decide +kernel⟩

theorem meets_CreelProgramFail :
    (At live fun s => s.awake = true ∧ s.creelServes = true ∧ s.systemBlock dataBlocks = true ∧ s.systemBlock (dataBlocks - 1) =
        false ∧
      tget s.creel.blocks (dataBlocks - 1) = none) ∧
    (At (withCr live fun c => { c with blocks := [(9, .buffer)], bufferBlocks := [9] }) fun s => s.awake = true ∧ s.creelServes =
        true ∧
      s.systemBlock 9 = false ∧ tget s.creel.blocks 9 = some .buffer ∧ (s.relocate 9).isSome = true) := by decide +kernel

def erasing (slc : Bool) (n : Nat) : State := withCr live fun c => { c with blocks := [(9, .erasing slc)], tlcErases := [(9, n)] }
theorem new_wear (slc : Bool) : (erasing slc 2900).creel.wear 9 < 30000 := by
  have h : (erasing slc 2900).creel.wear 9 = 10 * min 29 Config.newWearRaw + 29000 := by
    simp [erasing, withCr, Creel.wear, tnum, tget]; rfl
  omega
theorem old_wear (slc : Bool) : 30000 ≤ (erasing slc 3000).creel.wear 9 := by
  have h : (erasing slc 3000).creel.wear 9 = 10 * min 29 Config.newWearRaw + 30000 := by
    simp [erasing, withCr, Creel.wear, tnum, tget]; rfl
  omega
theorem meets_CreelErase : ∀ slc : Bool,
    (At (erasing slc 2900) fun s => s.awake = true ∧ s.creelServes = true ∧ s.systemBlock 9 = false ∧ tget s.creel.blocks 9 =
        some (.erasing slc) ∧
      s.creel.wear 9 < 30000) ∧
    (At (erasing slc 3000) fun s => s.awake = true ∧ s.creelServes = true ∧ tget s.creel.blocks 9 = some (.erasing slc) ∧
      30000 ≤ s.creel.wear 9) ∧
    (At (erasing slc 0) fun s => s.systemBlock dataBlocks = true)
  | false => ⟨⟨rfl, rfl, by decide +kernel, rfl, new_wear false⟩, ⟨rfl, rfl, rfl, old_wear false⟩, by decide +kernel⟩
  | true => ⟨⟨rfl, rfl, by decide +kernel, rfl, new_wear true⟩, ⟨rfl, rfl, rfl, old_wear true⟩, by decide +kernel⟩

theorem meets_CreelScan : (At (withCr live fun c => { c with state := .rebuilding }) fun s => s.awake = true ∧ s.creel.state =
    .rebuilding) ∧
    (At live fun s => s.awake = true ∧ s.creel.state ≠ .rebuilding) := by decide +kernel

theorem meets_CreelPatrol : (At live fun s => s.awake = true ∧ s.creelServes = true ∧ s.power.state = .run) ∧
    (At { live with power := { state := .hold } } fun s => s.awake = true ∧ s.creelServes = true ∧ s.power.state ≠ .run) :=
        by decide +kernel

def powered (f : Power → Power) : State := { live with power := f live.power }
theorem meets_InputMeasurement :
    (At (powered id) fun s => s.power.off = false ∧ s.power.inputMv < 46000) ∧
    (At (powered fun p => { p with inputMv := 46000 }) fun s => s.power.off = false ∧ 46000 ≤ s.power.inputMv ∧
        s.power.inputMv ≤ 58000) := by
  decide +kernel
theorem meets_InputCut : At live fun s => s.power.off = false ∧ s.power.trip = none := by decide +kernel
theorem meets_InputQualified :
    (At { powered fun p => { p with off := true, inBandSince := some 0 } with time := { localNow := 100000000 } } fun s =>
      s.power.inBandSince = some 0 ∧ s.power.off = true ∧ 0 + 100000000 ≤ s.time.localNow) ∧
    (At (powered fun p => { p with inBandSince := some 0 }) fun s => s.power.inBandSince = some 0 ∧ s.power.off = false) :=
        by decide +kernel
theorem meets_GovernorStep :
    (At (powered id) fun s => s.power.off = false ∧ s.power.stopped = false ∧ s.power.throttling = [] ∧
      s.power.stackClock = List.replicate 8 64 ∧ s.power.cap < 1601 ∧ 16 < s.power.clock ∧ 1600 ≤ s.power.cap ∧
          s.power.cap < 1600 + 50) ∧
    (At (powered fun p => { p with clock := 63 }) fun s => 1550 + 50 ≤ s.power.cap ∧ s.power.clock < 64) ∧
    (At (powered fun p => { p with clock := 16 }) fun s => s.power.cap < 1601 ∧ s.power.clock = 16 ∧ s.power.floorSince = none) ∧
    (At { powered fun p => { p with clock := 16, floorSince := some 0 } with time := { localNow := 10000000 } } fun s =>
        s.power.cap < 1601 ∧
      s.power.clock = 16 ∧ s.power.floorSince = some 0 ∧ 0 + 10000000 ≤ s.time.localNow ∧ s.power.unmet = false) :=
          by decide +kernel
theorem meets_ClockSteps : At live fun s => s.power.off = false ∧ s.power.stopped = false := by decide +kernel
theorem meets_EffectiveCap : (live.power).inputLimit = false ∧ ({ live.power with inputLimit := true } : Power).inputLimit =
    true := by decide +kernel
theorem meets_SensorCrossing :
    (At live fun s => throttleAt 15 = some 110 ∧ s.power.off = false ∧ s.power.stopped = false ∧ tget s.power.lastThrottle 15 =
        none ∧ 105 + 5 ≤ 110) ∧
    (At (powered fun p => { p with lastThrottle := [(15, 0)] }) fun s => tget s.power.lastThrottle 15 = some 0 ∧
      s.time.localNow < 0 + 1000000000) := by decide +kernel
theorem meets_HardTrip : (At live fun s => tripAt 15 = some 125 ∧ s.power.trip = none ∧ s.power.off = false) ∧
    (At (powered fun p => { p with trip := some (1, 120, 0) }) fun s => s.power.trip ≠ none) := by decide +kernel
def cooled : List Nat := List.replicate 15 0
theorem meets_TripRestart :
    (At (powered fun p => { p with trip := some (1, 120, 0), railsOff := true, inputCycled := true, stopped := true }) fun s =>
        s.power.trip ≠ none ∧
      s.power.railsOff = true ∧ s.power.inputCycled = true ∧ s.power.off = false ∧ s.power.resetHeld = false ∧ cooled.length =
          15 ∧
      ∀ i < 15, ∀ r ∈ cooled[i]?, ∀ t ∈ tripAt (i + 1), r + 20 ≤ t) ∧ (At live fun s => s.power.trip = none) := by decide +kernel
theorem meets_CoolantCheck :
    (At (powered fun p => { p with inputW := 1600 }) fun s => s.power.off = false ∧ s.power.stopped = false ∧
      5967 * (500 - 400) ≤ s.power.inputW * 600 ∧ s.power.lastCoolant = none) ∧
    (At (powered fun p => { p with inputW := 1600, lastCoolant := some 0 }) fun s => s.power.lastCoolant = some 0 ∧
      s.time.localNow < 0 + 60000000000) := by decide +kernel
theorem meets_HoldEntry :
    (At (powered fun p => { p with inTransition := true, target := .hold }) fun s => s.power.state = .run ∧
        s.power.inTransition = true ∧
      s.streaming = false ∧ s.power.target = .hold) ∧
    (At (powered fun p => { p with inTransition := true, target := .doze }) fun s => s.streaming = false ∧ s.power.target =
        .doze) ∧
    (At (withJob (powered fun p => { p with inTransition := true, target := .hold }) (jobI itemE)) fun s => s.power.state = .run ∧
      s.power.inTransition = true ∧ s.streaming = true) := by decide +kernel
def toDoze (l : Bool) : State :=
    { base with power := { state := .hold, inTransition := true, target := .doze, wakeLatched := l } }
theorem meets_DozeEntry :
    (∀ l : Bool, At (toDoze l) fun s => s.power.state = .hold ∧ s.power.inTransition = true ∧ s.power.target = .doze ∧
        s.quiet = true ∧
      s.power.wakeLatched = l) ∧ (At (withJob (toDoze false) jobA) fun s => s.power.state = .hold ∧ s.power.inTransition = true ∧
          s.power.target = .doze ∧ s.quiet = false) := by
  decide +kernel
def dozing (f : Power → Power) : State := powered fun p => f { p with state := .doze }
theorem meets_WakeSources :
    (At (dozing id) fun s => s.power.state = .doze ∧ s.power.exiting = false) ∧
    (At (toDoze false) fun s => s.power.state ≠ .doze ∧ s.power.inTransition = true ∧ s.power.target = .doze ∧
        s.power.wakeLatched = false) ∧
    (At (toDoze true) fun s => s.power.state ≠ .doze ∧ s.power.wakeLatched = true) ∧
    (At (dozing fun p => { p with exiting := true }) fun s => s.power.exiting = true ∧ s.power.target ≠ .doze) ∧
    (At (dozing fun p => { p with waiter := some (0, 0) }) fun s => s.power.waiter = some (0, 0)) := by decide +kernel
theorem meets_DozeSample :
    (At (dozing id) fun s => s.power.state = .doze ∧ s.power.exiting = false ∧
        s.time.localNow < s.power.lastSample + s.power.dozeNow.1 * 1000000) ∧
    (∀ w : Bool, At { dozing fun p => { p with portWake := w } with time := { localNow := 1000000 } } fun s =>
      s.power.lastSample + s.power.dozeNow.1 * 1000000 ≤ s.time.localNow ∧ s.power.portWake = w ∧
          s.power.frameCount < max 1 s.power.dozeNow.2.2 ∧
      s.power.dozeNow.2.1 ≤ 40 ∧ 39 < s.power.dozeNow.2.1) ∧
    (At { dozing fun p => { p with frameCount := 1 } with time := { localNow := 1000000 } } fun s => s.power.portWake = false ∧
      max 1 s.power.dozeNow.2.2 ≤ s.power.frameCount) := by decide +kernel
theorem meets_CxlWake : (15 < ldCount ∧ lentSpan - 1 + 1 ≤ lentSpan) ∧ (At (dozing id) fun s => s.power.state = .doze) ∧
    (At live fun s => s.power.state ≠ .doze ∧ s.power.inTransition = false) := by decide +kernel
def stateCmd : Cmd := cmdOf 0 0x0C00 [1]
theorem meets_DozeExit :
    (At { dozing fun p => { p with exiting := true } with cxl := { live.cxl with linkState := 3 } } fun s => s.power.state =
        .doze ∧
      s.power.exiting = true ∧ s.power.waiter = none ∧ s.cxl.linkState = 3) ∧
    (At (sent (dozing fun p => { p with exiting := true, waiter := some stateCmd.ref }) stateCmd) fun s => s.power.state = .doze ∧
      s.power.exiting = true ∧ s.power.waiter = some stateCmd.ref ∧ s.box.inflight = [stateCmd] ∧ stateCmd.param 0 1 = 1 ∧
          s.cxl.linkState ≠ 3) ∧
    (At (onPort (dozing id) { upP with state := .lowRate }) fun s => s.power.exiting = false ∧ (s.portAt 0).state = .lowRate ∧
      (s.portAt 3).state ≠ .lowRate) := by decide +kernel
theorem meets_ResetPin : (At live fun s => s.power.off = false ∧ s.power.trip = none ∧ s.power.resetHeld = false) ∧
    (At (powered fun p => { p with trip := some (1, 120, 0), resetHeld := true }) fun s => s.power.off = false ∧
        s.power.trip ≠ none) ∧
    (At (powered fun p => { p with resetHeld := true }) fun s => s.power.resetHeld = true ∧ s.power.trip = none) :=
        by decide +kernel
def perst (b : Bool) : State := { live with boot := { live.boot with perstAsserted := b } }
theorem meets_LinkResets : (∀ b : Bool, At (perst b) fun s => s.cxlOut = true ∧ s.boot.perstAsserted = b) ∧ 15 < ldCount :=
    by decide +kernel
theorem meets_LinkResetsIgnored : At (powered fun p => { p with stopped := true }) fun s => s.cxlOut = false := by decide +kernel
def linked : State := { live with cxl := { live.cxl with linkState := 2, width := 16, rate := 5, trainedWidth := 16, trainedRate := 5 } }
theorem meets_LaneFailure : At linked fun s => s.cxlUp = true ∧ min s.cxl.trainedWidth (trainWidth 8) < s.cxl.trainedWidth ∧
    min s.cxl.trainedWidth (trainWidth 16) = s.cxl.trainedWidth ∧ min s.cxl.trainedRate (trainRate 5 s.cxl.flit256) =
        s.cxl.trainedRate := by
  decide +kernel
def ldWith (l : Ld) : State := { linked with cxl := { linked.cxl with lds := [(0, l)] } }

/-- A locked LD 0 with an entry of its host table. -/
def lockedLd (b : Bool) : State :=
  { ldWith { bound := true, doeSession := true, tspLocked := b } with
    cxl := { (ldWith { bound := true, doeSession := true, tspLocked := b }).cxl with hostTable := [(0, hostA)] } }
theorem meets_IdeAndMsix :
    (At { linked with cxl := { linked.cxl with ideMem := true } } fun s => s.cxl.ideMem = true) ∧
    (At (ldWith { bound := true, ioIde := true, heldVectors := [1] }) fun s => s.cxl.ideMem = false ∧ (s.ld 0).ioIde = true ∧
      (s.ld 15).ioIde = false ∧ (s.ld 0).heldVectors = [1] ∧ (s.mbox (1 % boxCount)).ld = some 0) ∧
    (At (ldWith { bound := true, heldVectors := [2] }) fun s => (s.ld 0).heldVectors = [2] ∧ (s.mbox (2 % boxCount)).ld ≠ some 0)
        := by decide +kernel
theorem meets_DoeMessages :
    (At live fun s => s.doeReaches = false) ∧
    (∀ b : Bool, At (ldWith { bound := true, doeSession := b }) fun s => s.doeReaches = true ∧ s.sec.rngFailed = false ∧
        (s.ld 0).doeSession = b) ∧
    hsYes.authentic = true ∧ hsNo.authentic = false ∧ (At { linked with sec := { rngFailed := true } } fun s => s.doeReaches =
        true ∧ s.sec.rngFailed = true) := by
  decide +kernel
theorem meets_TspRequests :
    (At linked fun s => s.doeReaches = true ∧ (s.ld 0).doeSession = false) ∧
    (∀ b : Bool, At (lockedLd b) fun s =>
      s.doeReaches = true ∧ (s.ld 0).doeSession = true ∧ (s.ld 0).tspLocked = b ∧ tget s.cxl.hostTable 0 = some hostA ∧
          hostA.ld = 0 ∧
      tget s.cxl.hostTable 4095 = none) := by decide +kernel
theorem meets_FmApi : At linked fun s => s.doeReaches = true := by decide +kernel
theorem meets_Sideband : (At (powered fun p => { p with off := true }) fun s => s.power.off = true) ∧
    (At live fun s => s.power.off = false ∧ (1 : Nat) ∈ sensorIds) := by decide +kernel
def oldCmd : Cmd := cmdOf 0 0x0100 []
theorem meets_BoundExpiry :
    (At { sent live oldCmd with time := { localNow := 10000000000 } } fun s =>
      s.box.inflight.find? (fun c => c.mb == 0 && c.slot == 0 && !c.committed) = some oldCmd ∧
      (cmdSpec? oldCmd.opcode).any (fun sp => sp.bound != 0 && decide (oldCmd.fetchedAt + sp.bound * 1000000 ≤ s.time.localNow))
          = true) ∧
    (At (sent live oldCmd) fun s => s.box.inflight.find? (fun c => c.mb == 0 && c.slot == 0 && !c.committed) = some oldCmd ∧
      (cmdSpec? oldCmd.opcode).any (fun sp => decide (s.time.localNow < oldCmd.fetchedAt + sp.bound * 1000000)) = true) :=
          by decide +kernel
theorem meets_ControlCores : At live fun s => s.power.waiter = none ∧ 3 ∉ s.boot.coresDown := by decide +kernel
def liveL : Live := { waiter := (0, 0), lastFetch := 0, oldVersion := 0, oldSvn := 0, oldDigest := [] }
def handing (c : List Cmd) (t : Nat) : State :=
  { live with boot := { live.boot with live := some liveL }, box := { live.box with inflight := c }, time := { localNow := t } }
theorem meets_LiveActivation :
    (At (handing [] 100000000) fun s => s.boot.live = some liveL ∧ s.drained liveL.waiter = true ∧
        liveL.lastFetch + 100000000 ≤ s.time.localNow) ∧
    (At (handing [{ oldCmd with seq := 1 }] 0) fun s => s.boot.live = some liveL ∧ s.drained liveL.waiter = false ∧
      s.time.localNow < liveL.lastFetch + 100000000) := by decide +kernel
def repS (rng : Bool) : StartReport :=
  { rngOk := rng, imageReadable := true, remainderOk := true, stackUnits := List.replicate 8 true, ports := List.replicate 4 0xFF,
    spindles := List.replicate 8 true, cxlWidth := 16, cxlRate := 5, flit256 := true, gensLost := [], reelsLost := [] }
theorem meets_ColdStart : (At State.reset fun s => s.boot.state = .booting ∧ s.power.off = false ∧ s.power.resetHeld = false ∧
    s.power.stopped = false ∧
    (repS false).rngOk = false ∧ (repS true).rngOk = true) ∧ (At live fun s => s.boot.state ≠ .booting) := by decide +kernel
theorem meets_SkeinRestoration : (At { live with boot := { live.boot with restorePending := true } } fun s =>
    s.boot.restorePending = true ∧
    s.creelServes = true ∧ s.boot.state = .ready ∧ s.awake = true) ∧ (At live fun s => s.boot.restorePending = false) :=
        by decide +kernel
def leaving (w : Option CmdRef) : Tenant := { gen := 1, teardown := true, waiter := w }
theorem meets_TeardownComplete :
    (At { base with tenants := [(1, leaving (some (0, 3)))] } fun s => tget s.tenants 1 = some (leaving (some (0, 3))) ∧
        s.tenantDrained 0x1001 = true) ∧
    (At { base with tenants := [(1, leaving none)] } fun s => tget s.tenants 1 = some (leaving none) ∧ s.tenantDrained 0x1001 =
        true) ∧
    (At full fun s => tget s.tenants 1 = some tenA ∧ tenA.teardown = false) := by decide +kernel
def batched (t : Nat) (b : Option (Nat × List Report)) (w : List Report) : State :=
  { live with sec := { batch := b, waiting := w }, time := { localNow := t } }
theorem meets_SecurityTimers :
    (At (batched 250000000 (some (0, [])) []) fun s => s.sec.batch = some (0, []) ∧ 0 + 250000000 ≤ s.time.localNow) ∧
    (At (batched 249999999 (some (0, [])) []) fun s => s.sec.batch = some (0, []) ∧ s.time.localNow < 0 + 250000000) ∧
    (At (batched 0 none []) fun s => s.sec.batch = none ∧ s.sec.waiting = []) ∧
    (At (batched 0 none [repA]) fun s => s.sec.waiting ≠ [] ∧ s.sec.waiting.length < 1024 ∧ s.sec.batch = none ∧ s.sec.lastOpen =
        none) := by
  decide +kernel

def runningInv : Inv := { running := true, code := List.replicate 4 0, consts := [1, 0x7FC00000] }
def running (f : Inv → Inv) : State := { base with inv := f runningInv }
theorem in_midst {s : State} {code : Nat} (h : s.inv.running = true ∧ s.inv.trap = none ∧ s.inv.place.accepts code = true ∧
    s.inv.executed < s.inv.place.budget ∧ s.inv.body = none ∧ s.inv.pc + 1 < s.inv.codeWords) : InMidst s s.inv code :=
  ⟨rfl, h.1, h.2.1, h.2.2.1, h.2.2.2.1, h.2.2.2.2.1, h.2.2.2.2.2⟩

theorem meets_BreusScalars : ∀ code ∈ [0x0B, 0x0C, 0x0D, 0x0E, 0x0F, 0x10, 0x11, 0x12, 0x13, 0x14, 0x15, 0x16, 0x17, 0x18, 0x19,
    0x1A],
    InMidst (running id) (running id).inv code := fun code h =>
        in_midst ((by decide +kernel : ∀ code ∈ [0x0B, 0x0C, 0x0D, 0x0E, 0x0F, 0x10, 0x11,
      0x12, 0x13, 0x14, 0x15, 0x16, 0x17, 0x18, 0x19, 0x1A], (running id).inv.running = true ∧ (running id).inv.trap = none ∧
      (running id).inv.place.accepts code = true ∧ (running id).inv.executed < (running id).inv.place.budget ∧
          (running id).inv.body = none ∧
      (running id).inv.pc + 1 < (running id).inv.codeWords) code h)
theorem meets_BreusConstants : (∀ code ∈ [0x00, 0x09, 0x0A, 0x2B], (running id).inv.place.accepts code = true) ∧
    InMidst (running id) (running id).inv 0 ∧
    (running id).inv.consts[(0 : BitVec 14).toNat]? = some 1 ∧ (running id).inv.consts[((running id).inv.sAt 0).toNat]? = some 1 ∧
    nonfinite32 1 = false := ⟨by decide +kernel, in_midst (by decide +kernel), rfl, rfl, rfl⟩
theorem meets_BreusVectors : (∀ code ∈ [0x20, 0x21, 0x22, 0x23, 0x24, 0x25, 0x26, 0x27, 0x28, 0x29, 0x2A, 0x2C, 0x2D, 0x2E],
      (running id).inv.place.accepts code = true) ∧ InMidst (running id) (running id).inv 0x20 ∧
          ((running id).inv.vAt 7).length = 64 ∧
    nonfinite32 ((running id).inv.sAt 15) = false := ⟨by decide +kernel, in_midst (by decide +kernel), by decide +kernel,
        by decide +kernel⟩
theorem meets_BreusReductions : (∀ code ∈ [0x2F, 0x30, 0x31], (running id).inv.place.accepts code = true) ∧
    InMidst (running id) (running id).inv 0x31 ∧ ((running id).inv.vAt 0).length = 64 ∧
    ((List.range 64).filter fun k => ((running id).inv.pAt 3).getLsbD k) = [] ∧
    ((List.range 64).filter fun k => ((running fun i => { i with p := [0, 0, 0, 5] }).inv.pAt 3).getLsbD k) = [0, 2] ∧
    InMidst (running fun i => { i with p := [0, 0, 0, 5] }) (running fun i => { i with p := [0, 0, 0, 5] }).inv 0x31 :=
  ⟨by decide +kernel, in_midst (by decide +kernel), by decide +kernel, by decide +kernel, by decide +kernel,
      in_midst (by decide +kernel)⟩
theorem meets_BreusPredicates : (∀ code ∈ [0x34, 0x35, 0x36, 0x37, 0x38], (running id).inv.place.accepts code = true) ∧
    InMidst (running id) (running id).inv 0x34 := ⟨by decide +kernel, in_midst (by decide +kernel)⟩
theorem meets_BreusBranches : (∀ code ∈ [3, 4, 5, 6], (running id).inv.place.accepts code = true) ∧
    InMidst (running id) (running id).inv 3 ∧
    (running id).inv.branchOk 2 = true ∧ (running id).inv.pc + 1 + (2 : BitVec 14).toNat < (running id).inv.codeWords :=
  ⟨by decide +kernel, in_midst (by decide +kernel), by decide +kernel, by decide +kernel⟩
theorem meets_BreusBodies : ∀ n ∈ [0, 1, 4096, 4097], (running fun i => { i with s := List.replicate 16 n }).inv.bodyOk 2 = true ∧
    InMidst (running fun i => { i with s := List.replicate 16 n }) (running fun i => { i with s := List.replicate 16 n }).inv 8 ∧
    ((running fun i => { i with s := List.replicate 16 n }).inv.sAt 15) = n ∧ (running id).inv.place.accepts 7 = true := by
  intro n h
  simp only [List.mem_cons, List.not_mem_nil, or_false] at h
  rcases h with rfl | rfl | rfl | rfl <;> exact ⟨by decide +kernel, in_midst (by decide +kernel), by decide +kernel,
      by decide +kernel⟩
theorem meets_BreusIterations : ∀ n : Fin 2, At (running fun i => { i with pc := 1, body := some (0, 2, n) }) fun s =>
    s.inv.running = true ∧
    s.inv.trap = none ∧ s.inv.executed < s.inv.place.budget ∧ s.inv.body = some (0, s.inv.pc + 1, n.1) ∧
        s.inv.pc + 1 < s.inv.codeWords := by
  decide +kernel
theorem meets_BreusEnds :
    (At (running fun i => { i with pc := 3 }) fun s => s.inv.running = true ∧ s.inv.trap = none ∧
        s.inv.executed < s.inv.place.budget ∧
      s.inv.body = none ∧ s.inv.place ≠ .whorl ∧ s.inv.codeWords ≤ s.inv.pc + 1) ∧
    (At (running fun i => { i with place := .whorl, s := List.replicate 16 0x7F800000 }) fun s => s.inv.running = true ∧
        s.inv.trap = none ∧
      s.inv.executed < s.inv.place.budget ∧ s.inv.body = none ∧ s.inv.place = .whorl ∧ nonfinite32 (s.inv.sAt 0) = true) :=
          by decide +kernel
theorem meets_BreusTraps :
    (∀ code ∈ [2, 0x0A, 0x2C], (running id).inv.place.accepts code = true) ∧
    InMidst (running fun i => { i with s := List.replicate 16 0x7F800000 }) (running fun i =>
        { i with s := List.replicate 16 0x7F800000 }).inv 2 ∧
    (At (running fun i => { i with s := List.replicate 16 0x7F800000 }) fun s => s.inv.consts.length ≤ (s.inv.sAt 1).toNat ∧
      nonfinite32 (s.inv.sAt 1) = true) ∧
    (At (running fun i => { i with executed := i.place.budget }) fun s => s.inv.running = true ∧ s.inv.executed =
        s.inv.place.budget) :=
  ⟨by decide +kernel, in_midst (by decide +kernel), by decide +kernel, by decide +kernel⟩
theorem meets_BreusTrapRecord : ({ runningInv with place := .tier } : Inv).job = none ∧ runningInv.job = none ∧
    runningInv.place = .score := by
  decide +kernel
theorem meets_BreusRefusals : (running fun i => { i with place := .tier }).invocation.place = .tier ∧
    (running fun i => { i with place := .whorl }).invocation.place = .whorl := by decide +kernel
theorem meets_BreusFresh : base.inv.running = false ∧ base.invocation.codeWords ≠ 1 := by decide +kernel

theorem meets_StepRunsFront : ({ base with pending := [.nop] } : State).pending = Instr.nop :: [] := rfl
def slewed (d : Int) : State := timed base { slew := d, localNow := 10000 }
theorem meets_IdleTick : (At base fun s => s.pending = [] ∧ s.time.slew = 0) ∧
    (At (slewed 1) fun s => s.pending = [] ∧ 0 < s.time.slew ∧ s.time.slewAt + 10000 ≤ s.time.localNow) ∧
    (At (slewed (-1)) fun s => s.pending = [] ∧ s.time.slew < 0 ∧ s.time.slewAt + 10000 ≤ s.time.localNow) := by decide +kernel
theorem meets_MemoryReadsBack : Mem.wf [(5, 1)] = true := by decide
theorem meets_MemoryCanonical : Mem.wf [(5, 1)] = true ∧ ∀ a, Mem.read [(5, 1)] a = Mem.read [(5, 1)] a :=
    ⟨by decide, fun _ => rfl⟩
theorem meets_FlagCounters : Flag.throttled.2 < 32 ∧ Flag.capUnmet.2 < 32 := by decide
theorem meets_InBandInterrupts : Ev.sessionEstablished.sev < 2 ∧ 2 ≤ Ev.rngFail.sev ∧ (At base fun s => s.box.lastInBand = none) ∧
    (At { base with box := { base.box with lastInBand := some 0 }, time := { localNow := 100000000 } } fun s =>
      s.box.lastInBand = some 0 ∧ 0 + 100000000 ≤ s.time.localNow) ∧
    (At { base with box := { base.box with lastInBand := some 0 } } fun s => s.box.lastInBand = some 0 ∧
        s.time.localNow < 0 + 100000000) := by
  decide +kernel
def evA : EventRec := { code := 1, severity := 0, tenant := 0, count := 1, time := 0, detail := [7] }
def ringFull (o : List (Nat × EventRec)) : State :=
  { base with box := { base.box with boxes := tmod base.box.boxes 1 fun b => { b with evWritten := 256 }, overflow := o } }
theorem meets_EventRecords :
    (At base fun s => (s.mbox 1).evWritten < (s.mbox 1).evRead + 256 ∧ (∀ x ∈ s.box.overflow, x.1 ≠ 1) ∧
        ∀ x ∈ s.box.summaries, x.1 ≠ 1) ∧
    (At (ringFull []) fun s => (s.mbox 1).evRead + 256 ≤ (s.mbox 1).evWritten ∧ s.box.overflow = []) ∧
    (At (ringFull [(0, evA), (1, evA)]) fun s => (s.mbox 1).evRead + 256 ≤ (s.mbox 1).evWritten ∧ s.box.overflow =
        [(0, evA)] ++ (1, evA) :: []) := by
  decide +kernel
theorem meets_Vectors : (At (ldWith { bound := true, msixEnabled := true }) fun s => (s.mbox 1).ld = some 0 ∧
    (s.ld 0).msixEnabled = true) ∧
    (At (ldWith { bound := true, heldVectors := [1] }) fun s => (s.mbox 1).ld = some 0 ∧ (s.ld 0).msixEnabled = false ∧
      1 ∈ (s.ld 0).heldVectors ∧ 1025 ∉ (s.ld 0).heldVectors) := by decide +kernel
theorem meets_ResponseFrame : At base fun s => s.mem.wf = true ∧
    (∀ i < 32, areaAddr? (s.mbox 1).cqArea ((s.mbox 1).cqBase + (s.mbox 1).cqWritten % (s.mbox 1).depth * 32 + i) ≠ none) ∧
    (∀ i < 32, ∀ j < 32, areaAddr? (s.mbox 1).cqArea ((s.mbox 1).cqBase + (s.mbox 1).cqWritten % (s.mbox 1).depth * 32 + i) =
      areaAddr? (s.mbox 1).cqArea ((s.mbox 1).cqBase + (s.mbox 1).cqWritten % (s.mbox 1).depth * 32 + j) → i = j) :=
          by decide +kernel
theorem meets_ServiceLevel : (At live fun s => s.boot.state = .ready ∧ s.levelNow ≠ s.boot.serviceLevel) ∧
    (At { live with boot := { live.boot with serviceLevel := live.levelNow } } fun s => s.boot.state = .ready ∧ s.levelNow =
        s.boot.serviceLevel) := by
  decide +kernel
theorem meets_StepHolds : (base.mem.wf = true ∧ base.inv.shaped = true) ∧ ∃ t, step base = .next t := ⟨by decide +kernel, _, rfl⟩
theorem meets_QueueIsKept : ∃ t, step ({ base with pending := [.nop] } : State) = .next t := ⟨_, rfl⟩
theorem meets_FloorStays : ∃ t, exec (.firmwareActivate 0 0 true) base = .next t := ⟨_, rfl⟩
theorem meets_Bar0Reads : (At base fun s => s.power.state ≠ .standby ∧ (s.mbox 1).ld = some 0 ∧ (s.mbox 1023).ld ≠ some 0) ∧
    (At { base with power := { state := .standby } } fun s => s.power.state = .standby ∧ (s.mbox 0).ld = some 0) :=
        by decide +kernel
def buffered : State := withCr live fun c => { c with bufferSize := 1, bufferBlocks := [9], blocks := [(9, .buffer)] }
theorem meets_PagesLand : (buffered.openUnit).any (fun x => x.1 == 9) = true := by decide +kernel

def rxE : Reasm := rx 10 (apB 0 0x00400008)
def growE : Growth := skE.growth (skE.newBobbins apE) ((List.range apE.ids.length).map (apE.t0 + ·)) [apE.row]
theorem meets_AppendExecute :
    (At (withR live (rx 10 (zeros 63))) fun s => s.ready? 1 1 Op.append = some (connA, rx 10 (zeros 63)) ∧ s.append? 1 1 = none ∧
      errOf (s.arrive connA.tenant 1 1 (rx 10 (zeros 63)).payload) = some St.lengthRange) ∧
    (At (withR liveE (rx 10 (apB 1 0x00400008))) fun s => s.ready? 1 1 Op.append = some (connA, rx 10 (apB 1 0x00400008)) ∧
      s.append? 1 1 = none ∧ okWith (s.arrive connA.tenant 1 1 (rx 10 (apB 1 0x00400008)).payload) (fun a =>
          a == { apE with t0 := 1 }) = true ∧
      (s.expireLease 8).skeinFor connA.tenant apE.skein = some skE ∧ skE.appendTail { apE with t0 := 1 } = none ∧
      errOf ((s.expireLease 8).appendChecks skE { apE with t0 := 1 }) = some St.lengthRange) ∧
    (At (withR (withK live skH) (rx 10 (apB 0))) fun s => s.ready? 1 1 Op.append = some (connA, rx 10 (apB 0)) ∧ s.append? 1 1 =
        none ∧
      okWith (s.arrive connA.tenant 1 1 (rx 10 (apB 0)).payload) (fun a => a == apA) = true ∧
          (s.expireLease 7).skeinFor connA.tenant apA.skein = some skH ∧
      skH.appendTail apA = none ∧ okWith ((s.expireLease 7).appendChecks skH apA) (fun g => g.isNone) = true) ∧
    ((At (withR liveE rxE) fun s => s.ready? 1 1 Op.append = some (connA, rxE) ∧ s.append? 1 1 = none ∧
        okWith (s.arrive connA.tenant 1 1 rxE.payload) (fun a => a == apE) = true ∧
            (s.expireLease 8).skeinFor connA.tenant apE.skein = some skE ∧
        skE.appendTail apE = none ∧ okWith ((s.expireLease 8).appendChecks skE apE) (fun g => g.any fun x =>
            x.tables == growE.tables && x.reel == growE.reel && x.hist == growE.hist) = true) ∧
      ∃ u, ((withR liveE rxE).expireLease 8).writeAppend 8 skE apE growE = some u) :=
  ⟨by decide +kernel, by decide +kernel, by decide +kernel, by decide +kernel,
   writeAppend_new (hi := 1) (by decide +kernel) rfl (by decide +kernel) (by decide +kernel) (by decide +kernel)
       (by decide +kernel) (by decide +kernel)
     (by decide +kernel)⟩
theorem meets_FourPorts : 4 ≤ 4 := by decide
theorem meets_SensorTables : throttleAt 0 = none ∧ throttleAt 16 = none ∧ throttleAt 15 = some 110 := by decide

theorem meets_RunCreate : ∀ t : Fin 2, Goes full 0x700 1 (cmdOf 1 0x0700 ([7, 0, 0x40, 0, 1, 0, 0, 0] ++ toLe 1 t)) tagA
    (fun s c =>
    c.param 8 1 = t ∧ c.param 4 4 = 1 ∧ s.skeinOf tagA (BitVec.ofNat 32 (c.param 0 4)) = .ok skA ∧ skA.prefixHash = true ∧
        64 ≤ 1 * skA.cap ∧
    (skA.rows.flatMap fun r => (List.range 1).map fun i => r * 65536 + i) = [0] ∧
    (tget skA.leaves 0).any (fun l => decide (l.tier ≤ 1) && l.check == .good && !l.lock) = true ∧ s.overQuota tagA qRun 1 =
        false ∧
    s.pfx.runPool.take 262144 = some (2, { fresh := 3 }) ∧ s.overQuota tagA qSram (4 * 1) = false ∧ 1 ≤ s.residenceFree)
  | 0 => goes (by decide +kernel) (by decide +kernel)
  | 1 => goes (by decide +kernel) (by decide +kernel)

def peB : PEntry := { priority := 5, run := 0x00040001, tenant := tagA, modelId := 0, hash := 11 }
def inserted (s : State) (c : Cmd) (es : List PEntry) : Prop :=
  s.runFor tagA (BitVec.ofNat 32 (c.param 0 4)) = some runA ∧ 1 ≤ c.param 8 4 ∧ c.param 8 4 ≤ 1024 ∧
      c.param 4 4 + c.param 8 4 ≤ runA.hashes.length ∧
    es = (List.range (c.param 8 4)).map (fun i =>
        { priority := c.param 12 1, run := runA.handle, tenant := tagA, modelId := runA.modelId,
                                                    hash := runA.hashes.getD (c.param 4 4 + i) 0 }) ∧ s.pfx.inserts = []
theorem meets_PrefixInsert :
    Goes full 0x703 1 (cmdOf 1 0x0703 [1, 0, 4, 0, 0, 0, 0, 0, 2, 0, 0, 0, 5]) tagA (fun s c =>
        inserted s c [peB, { peB with hash := 12 }] ∧
      s.pfx.entries = [] ∧ s.overQuota tagA qPrefix 2 = false) ∧
    Goes { full with pfx := { full.pfx with entries := [(0, peB)] } } 0x703 1 (cmdOf 1 0x0703 [1, 0, 4, 0, 0, 0, 0, 0, 1, 0, 0,
        0, 5]) tagA (fun s c =>
      inserted s c [peB] ∧ s.pfx.entries = [(0, peB)] ∧ s.overQuota tagA qPrefix 0 = false) :=
  ⟨goes (by decide +kernel) (by unfold inserted; decide +kernel), goes (by decide +kernel) (by unfold inserted; decide +kernel)⟩

theorem meets_TierPin : ∀ t : Fin 2, Goes full 0x802 1 (cmdOf 1 0x0802 ([7, 0, 0x40, 0, 0, 0, 1, 0, 0, 0, 1, 0, 0, 0, 0, 0, 1, 0,
    0, 0] ++ toLe 1 t)) tagA
    (fun s c => c.param 20 1 = t ∧ s.skeinOf tagA (BitVec.ofNat 32 (c.param 0 4)) = .ok skA ∧ tierRange { c, tag := tagA } skA =
        .ok [0] ∧
      (tget skA.leaves 0).any (fun l => l.tier == 1 && l.check == .good && !l.lock && !l.pin) = true ∧
          s.overQuota tagA qSram (4 * 1) = false ∧
      1 ≤ s.residenceFree ∧ s.dramNeed tagA 0 = .ok ())
  | 0 => goes (by decide +kernel) (by decide +kernel)
  | 1 => goes (by decide +kernel) (by decide +kernel)

theorem meets_MarginSweep : Goes { full with rel := { spindles := List.replicate 8 { state := 3 } } } 0xA01 0
    (cmdOf 0 0x0A01 ([1, 7, 1, 0] ++ zeros 8 ++ [1, 0]) 16 buf0) 0 (fun s c =>
      (c.param 0 1 = 1 ∧ 1 ≤ c.param 12 2 ∧ c.param 12 2 ≤ 3) ∧ c.param 1 1 < 8 ∧ c.param 2 2 = 1 ∧
          (∀ i ∈ [4, 6, 8, 10], ({ c, tag := 0 } : Ctx).signed i = 0) ∧
      c.param 16 4 = 0 ∧ 16 * 1 ≤ c.dataLen ∧ s.sweepable 1 (c.param 1 1) = true) := goes (by decide +kernel) (by decide +kernel)

def waits (s : State) (k : Conn) (e : QEntry) (w : Wait) : Prop :=
  s.conn? 1 = some k ∧ k.sq = [e] ∧ k.wait = none ∧ s.awake = true ∧ e.source = none ∧ s.sqBad k e = false ∧
      field (s.sqBytes k e) 0 1 = 0x13 ∧
    k.state = .ready ∧ k.cancelNext = 0 ∧ k.destroyWaiter = none ∧ okWith (s.parseWait k.tenant e (s.sqBytes k e)) (· == w) = true
def waited (s : State) (w : Wait) : State := (s.modConn 1 fun k => { k with sq := [] }).modConn 1 fun k =>
    { k with wait := some w }
theorem meets_WaitSendQueue :
    (At (withS live (connQ (waitB 1))) fun s => waits s (connQ (waitB 1)) (qe (waitB 1)) (waitJ 1) ∧
        (waited s (waitJ 1)).testWait tagA (waitJ 1) = none) ∧
    (At (withS live (connQ (waitB 0))) fun s => waits s (connQ (waitB 0)) (qe (waitB 0)) (waitJ 0) ∧
      (waited s (waitJ 0)).testWait tagA (waitJ 0) = some St.ok) := by unfold waits; decide +kernel

def jqFailed : Jq := { jqA with failed := 2 }
theorem meets_WaitTest :
    (At { live with work := { live.work with jqs := [(2, jqFailed)] } } fun s => (waitJ 0).sourceKind = 0 ∧
      s.jqFor tagA (waitJ 0).source.toNat = some jqFailed ∧ (waitJ 0).failLimit < jqFailed.failed) ∧
    (At live fun s => s.jqFor tagA (waitJ 0).source.toNat = some jqA ∧ jqA.failed ≤ (waitJ 0).failLimit ∧
        (waitJ 0).threshold ≤ jqA.completed ∧
      jqA.completed < (waitJ 1).threshold) := by decide +kernel

def ended (s : State) : State := (s.endReasm 1 1 false).modConn 1 fun k =>
  { k with lcs := 1, sinceAck := k.sinceAck + 1, creditZero := false, oldestUnacked := some (k.oldestUnacked.getD s.time.localNow) }
theorem meets_MessageCompletion : ∀ n ∈ [6, 7], ∀ b :
    Bool, At (withR (withS live { connA with sinceAck := n, stopOnError := b }) (rx 1 [])) fun s =>
    ((ended s).conn? 1).any (fun k => k.sinceAck == n + 1 && k.stopOnError == b) = true := by decide +kernel

def msgA : Msg := { msgR with opcode := 5, loff := 65530 }
def answered (s : State) : State := (s.endReasm 1 1 true).modConn 1 fun k =>
    { k with unacked := k.unacked.filter fun x => x.seq != 1 }
def responds (s : State) (m : Msg) (r : Reasm) : Prop :=
  s.conn? 1 = some (connU m) ∧ s.reasm? 1 1 true = some r ∧ (connU m).unacked.find? (fun m => m.seq == 1) = some m ∧
      r.total = some r.got ∧ s.awake = true
theorem meets_Responses :
    (At (withR (withS live (connU msgR)) (rx 3 (zeros 8))) fun s => responds s msgR (rx 3 (zeros 8)) ∧ (rx 3 (zeros 8)).opcode =
        Op.readResponse ∧
      (rx 3 (zeros 8)).payload.length = msgR.bytes ∧ ((answered s).placeLocal tagA msgR.lkey msgR.loff (zeros 8)).toOption.isSome
          = true) ∧
    (At (withR (withS live (connU msgA)) (rx 6 (zeros 8))) fun s => responds s msgA (rx 6 (zeros 8)) ∧ (rx 6 (zeros 8)).opcode =
        Op.atomicResponse ∧
      (rx 6 (zeros 8)).payload.length = msgA.bytes ∧ errOf ((answered s).placeLocal tagA msgA.lkey msgA.loff (zeros 8)) =
          some St.lengthRange) ∧
    (At (withR (withS live (connU msgR)) (rx 3 (zeros 9))) fun s => responds s msgR (rx 3 (zeros 9)) ∧
        (rx 3 (zeros 9)).payload.length ≠ msgR.bytes) := by
  unfold responds; decide +kernel

def skReel (t : Table Nat) : Skein := { skB with reel := reelN, blockHash := t }
theorem meets_BlockHashCompute :
    (At (withK live (skReel [])) fun s => s.skein? 7 = some (skReel []) ∧ s.awake = true ∧ (skReel []).prefixHash = true ∧
        (skReel []).state ≠ .retiring ∧
      tget (skReel []).blockHash 0 = none ∧ (skReel []).reelCovers (64 * 0) (64 * 0 + 64) = true) ∧
    (At (withK live (skReel [(0, 5)])) fun s => s.skein? 7 = some (skReel [(0, 5)]) ∧ s.awake = true ∧
        tget (skReel [(0, 5)]).blockHash 1 = none ∧
      (skReel [(0, 5)]).reelCovers (64 * 1) (64 * 1 + 64) = true ∧ tget (skReel [(0, 5)]).blockHash (1 - 1) = some 5) :=
          by decide +kernel

def connT (n : Nat) : Conn := { connU msgW with oldestUnacked := some n }
def part (op : Nat) : Reasm := { rx op [] with total := some 7 }
def atTime (x : State) (n : Nat) : State := { x with time := { localNow := n } }
theorem meets_ConnectionTimers :
    (At (atTime (withS live (connT 0)) 1000) fun s => s.conn? 1 = some (connT 0) ∧ s.awake = true ∧ (connT 0).oldestUnacked =
        some 0 ∧
      0 + 1000 ≤ s.time.localNow) ∧
    (At (atTime (withS live (connT 1)) 1000) fun s => s.conn? 1 = some (connT 1) ∧ s.time.localNow < 1 + 1000 ∧
      (connT 1).unacked.find? (fun m => m.seq == 1) = some msgW ∧ s.time.localNow < msgW.sentAt + (connT 1).ackTimeout * 1000) ∧
    (At (atTime (withS live (connT 1)) 50000) fun s => (connT 1).unacked.find? (fun m => m.seq == 1) = some msgW ∧
      msgW.sentAt + (connT 1).ackTimeout * 1000 ≤ s.time.localNow ∧ s.stillQueued 1 1 = false) ∧
    (At (atTime (withR live (part 1)) 200000) fun s => s.conn? 1 = some connA ∧ s.awake = true ∧ s.reasm? 1 1 false =
        some (part 1) ∧
      (part 1).total ≠ some (part 1).got ∧ (part 1).start + 200000 ≤ s.time.localNow) ∧
    (At (atTime (withR live (part 3)) 200000) fun s => s.reasm? 1 1 false = none ∧ s.reasm? 1 1 true = some (part 3) ∧
      (part 3).total ≠ some (part 3).got ∧ (part 3).start + 200000 ≤ s.time.localNow) ∧
    (At (atTime (withR live (part 1)) 199999) fun s => s.reasm? 1 1 false = some (part 1) ∧
        s.time.localNow < (part 1).start + 200000) := by
  decide +kernel

def forUs (s : State) (f : List Byte) : Bool :=
  f.take 6 == s.mac s.nodeNo && ofLe ((f.drop 12).take 2).reverse == 0x8100 && !bit 12 (ofLe ((f.drop 14).take 2).reverse) &&
    ofLe ((f.drop 16).take 2).reverse == 0x88B5
theorem meets_PacketDiscard : At live fun s => forUs s okF = false ∧ (∀ i ∈ [0, 5], forUs s (pkF s i) = true ∧
    field (((pkF s i).drop 18).take 64) 30 2 / 2 = i) ∧ tget s.flyer.sessions 5 = none ∧ tget s.flyer.sessions 0 = some sesA ∧
    sesA.peer ≠ field (((pkF s 0).drop 18).take 64) 4 2 := by decide +kernel

def queuedP : Port := { upP with queue := [frN 0, frN 7] }
theorem meets_ClassSevenFirst : ((onPort live queuedP).pickTenant queuedP 7).isSome = true := by decide +kernel

def shaped (n : Nat) : State :=
  { live with flyer := { live.flyer with shapers := [(8, { enable := true, milli := n, burst := 65536, rate := 0 })] } }
def gatedP : Port := { upP with gates := [(10, 1), (10, 2)] }
theorem meets_Eligible : At (shaped 142000) fun s => s.eligible gatedP (frN 0) = true ∧
    (openLeft gatedP.gates gatedP.gateStart s.time.now 0).isSome = true ∧
    (frN 0).unshaped = false ∧ (s.shaper 1 0).enable = true ∧ (shaped 141999).eligible gatedP (frN 0) = false := by decide +kernel

def heardState (s : State) (hops : Nat) : State :=
  (s.modTime fun u => { u with exchanges := tdel u.exchanges 0 }).modTime fun u =>
      { u with partnerHops := tset u.partnerHops 0 hops }
theorem meets_DelayRespReceive :
    (At (timed live { exchanges := [(0, exA)], now := 400, localNow := 10000 }) fun s => tget s.time.exchanges 0 = some exA ∧
        exA.t3 = some 300 ∧
      s.time.role = 0 ∧ (s.modTime fun u => { u with exchanges := tdel u.exchanges 0 }).syncs 0 = true ∧
          s.time.localNow ≤ exA.deadline ∧
      (heardState s 5).timeSource = some 0 ∧ (heardState s 63).timeSource ≠ some 0) ∧
    (At (timed live { exchanges := [(0, exA)], now := 400, localNow := 10001 }) fun s => exA.deadline < s.time.localNow) :=
        by decide +kernel

def sesK (a : Nat) : Session := { sesA with rekeyAt := 1, oldKeyUntil := some a }
def keyed (a : Nat) : State := { live with flyer := { live.flyer with sessions := [(0, sesK a)] } }
theorem meets_SessionKeys : (At live fun s => tget s.flyer.sessions 0 = some sesA ∧ sesA.rekeyAt ≤ s.time.localNow ∧
    sesA.oldKeyUntil = none) ∧
    (∀ a : Fin 2, At (keyed a) fun s => tget s.flyer.sessions 0 = some (sesK a) ∧ s.time.localNow < (sesK a).rekeyAt ∧
        (sesK a).txCount < 2 ^ 48 ∧
      (sesK a).oldKeyUntil = some a.1 ∧ s.time.localNow = 0) := by decide +kernel

def rankedOf (s : State) : State :=
  match s.sweepConfig.sweepTake.getLast? with
  | some k => (s.sweepConfig.rankAll s.sweepConfig.sweepTake).2.modStore fun t => { t with sweepPos := k.1 + 1 }
  | none => (s.sweepConfig.rankAll s.sweepConfig.sweepTake).2
theorem meets_SweepStart :
    (At live fun s => s.awake = true ∧ s.power.inTransition = false ∧ (∀ d ∈ s.store.doffs, d.2.bySweep = false) ∧
        s.store.sweep = [] ∧
      s.sweepCause = false) ∧
    (∀ b : Bool, At { live with creel := { state := if b then .online else .offline }, store := { live.store with poolSlots := 9 } } fun s =>
      s.awake = true ∧ s.power.inTransition = false ∧ (∀ d ∈ s.store.doffs, d.2.bySweep = false) ∧ s.store.sweep = [] ∧
          s.sweepCause = true ∧
      (rankedOf s).creelServes = b) := by decide +kernel

end Sys2Proof.Tests
end

section
/-!
The scalar operations of Breus (R182, R184). A scalar row in the midst of an invocation writes what its operation makes of
the present registers, whatever that operation is; the comparisons, minima and shifts of R182 are read as statements about
the integers that the registers hold.
-/
namespace Sys2Proof.Machine

/-- A signed minimum (R182). -/
theorem smin_eq_ite_toInt (x y : W32) : smin x y = if y.toInt < x.toInt then y else x := by
  simp only [smin, BitVec.slt_iff_toInt_lt]

/-- A signed maximum (R182). -/
theorem smax_eq_ite_toInt (x y : W32) : smax x y = if x.toInt < y.toInt then y else x := by
  simp only [smax, BitVec.slt_iff_toInt_lt]

/-- An unsigned minimum (R182). -/
theorem sminu_eq_ite_toNat (x y : W32) : sminu x y = if y.toNat < x.toNat then y else x := by
  simp only [sminu, BitVec.lt_def]

/-- An unsigned maximum (R182). -/
theorem smaxu_eq_ite_toNat (x y : W32) : smaxu x y = if x.toNat < y.toNat then y else x := by
  simp only [smaxu, BitVec.lt_def]

/-- A signed comparison's result (R182). -/
theorem oneIf_slt_eq_ite_toInt (x y : W32) : oneIf (x.slt y) = if x.toInt < y.toInt then 1 else 0 := by
  simp only [oneIf, BitVec.slt_iff_toInt_lt]

/-- An unsigned comparison's result (R182). -/
theorem oneIf_lt_eq_ite_toNat (x y : W32) : oneIf (x < y) = if x.toNat < y.toNat then 1 else 0 := by
  simp only [oneIf, decide_eq_true_eq, BitVec.lt_def]

/-- The low five bits of a five-bit amount are the amount. -/
theorem shift_toNat5 (kind : Nat) (x : W32) (n : BitVec 5) :
    shift kind x n.toNat = if kind = 0 then x <<< n.toNat else if kind = 1 then x >>> n.toNat else x.sshiftRight n.toNat := by
  have low : n.toNat % 32 = n.toNat := Nat.mod_eq_of_lt n.isLt
  simp only [shift, low]

/-- A row of one scalar result writes what it reads off the registers, the executed count aside. -/
theorem breusRow_bS {s : State} {i : Inv} {code : Nat} (h : InMidst s i code) {lawful : Inv → Bool} (hl : lawful i = true)
    (d : Nat) (f : Inv → W32) {w : W32} (hw : f { i with executed := i.executed + 1 } = w) :
    breusRow code lawful (bS d f) s = .next (s.onward (i.setS d w)) :=
  row_midS h hl (by rw [← hw]; rfl)

/-- A row of two scalar sources writes what its function makes of them. -/
theorem breusRow_bSS {s : State} {i : Inv} {code : Nat} (h : InMidst s i code) {lawful : Inv → Bool} (hl : lawful i = true)
    (d a b : Nat) (f : W32 → W32 → W32) {w : W32} (hw : f (i.sAt a) (i.sAt b) = w) :
    breusRow code lawful (bSS d a b f) s = .next (s.onward (i.setS d w)) :=
  breusRow_bS h hl d _ hw

/-- A shift by a register takes the low five bits of the amount, and its kind says which way (R182, R184). -/
theorem exec_ssh {s : State} {i : Inv} (h : InMidst s i 0x13) (d a b : Fin 16) (kind : Fin 4) (hk : (kind.val != 3) = true) :
    exec (.ssh d a b kind) s = .next (s.onward (i.setS d (shift kind (i.sAt a) (i.sAt b).toNat))) :=
  breusRow_bSS (lawful := fun _ => kind.val != 3) h hk d a b (fun x y => shift kind x y.toNat) rfl

/-- A shift by an immediate amount (R184). -/
theorem exec_sshi {s : State} {i : Inv} (h : InMidst s i 0x14) (d a : Fin 16) (kind : Fin 4) (n : BitVec 5)
    (hk : (kind.val != 3) = true) :
    exec (.sshi d a kind n) s = .next (s.onward (i.setS d (if kind.val = 0 then i.sAt a <<< n.toNat
      else if kind.val = 1 then i.sAt a >>> n.toNat else (i.sAt a).sshiftRight n.toNat))) :=
  breusRow_bS (lawful := fun _ => kind.val != 3) h hk d (fun j => shift kind (j.sAt a) n.toNat) (shift_toNat5 kind (i.sAt a) n)

/-- The claim of R182 and R184: each row is one result, read off the registers as the operation's value lemma says. -/
theorem breusScalars : Claims.BreusScalars := by
  intro s i d a b imm n x y put
  refine ⟨?sli, ?sadd, ?saddi, ?ssub, ?smul, ?sand, ?sor, ?sxor, ?ssh, ?sshi, ?smin, ?smax, ?sminu, ?smaxu, ?sslt, ?ssltu⟩
  case sli => exact fun h => breusRow_bS h rfl d _ rfl
  case sadd => exact fun h => breusRow_bSS h rfl d a b _ rfl
  case saddi => exact fun h => breusRow_bS h rfl d _ rfl
  case ssub => exact fun h => breusRow_bSS h rfl d a b _ rfl
  case smul => exact fun h => breusRow_bSS h rfl d a b _ rfl
  case sand => exact fun h => breusRow_bSS h rfl d a b _ rfl
  case sor => exact fun h => breusRow_bSS h rfl d a b _ rfl
  case sxor => exact fun h => breusRow_bSS h rfl d a b _ rfl
  case ssh => exact fun h => ⟨exec_ssh h d a b 0 rfl, exec_ssh h d a b 1 rfl, exec_ssh h d a b 2 rfl⟩
  case sshi => exact fun h => ⟨exec_sshi h d a 0 n rfl, exec_sshi h d a 1 n rfl, exec_sshi h d a 2 n rfl⟩
  case smin => exact fun h => breusRow_bSS h rfl d a b _ (smin_eq_ite_toInt x y)
  case smax => exact fun h => breusRow_bSS h rfl d a b _ (smax_eq_ite_toInt x y)
  case sminu => exact fun h => breusRow_bSS h rfl d a b _ (sminu_eq_ite_toNat x y)
  case smaxu => exact fun h => breusRow_bSS h rfl d a b _ (smaxu_eq_ite_toNat x y)
  case sslt => exact fun h => breusRow_bSS h rfl d a b _ (oneIf_slt_eq_ite_toInt x y)
  case ssltu => exact fun h => breusRow_bSS h rfl d a b _ (oneIf_lt_eq_ite_toNat x y)

/-- Settles O58: the scalar operations write one scalar register modulo 2^32 and go to the next word (R182, R184). -/
theorem breusScalarOperations : Obligations.BreusScalarOperations := breusScalars

end Sys2Proof.Machine
end

section
/-!
The lent window (R361–R366, R369, R238): the four checks of a lent access as one chain of tests over the entries that cover
a line, what a served read and write do once the checks have passed or failed, and the commands that write the host table.
-/
namespace Sys2Proof.Machine

/-! ## The four checks (R362) -/

/-- The entries of an LD that cover a lent offset (R362 step 2). -/
def State.lentCover (s : State) (ld off : Nat) : Table HostEntry :=
  s.cxl.hostTable.filter fun e => e.2.ld == ld && decide (e.2.base ≤ off ∧ off < e.2.base + e.2.length)

/-- Those of them at the LD's present host generation (R362 step 3). -/
def State.lentFresh (s : State) (ld off : Nat) : Table HostEntry :=
  (s.lentCover ld off).filter fun e => e.2.hostGen == (s.ld ld).hostGen

/-- The checks are tests of these two lists, in the order of R362. -/
theorem lentStep_eq (s : State) (ld off : Nat) (write : Bool) : s.lentStep ld off write =
    if off ≥ s.cfg.lentGib * 2 ^ 30 then 1 else if (s.lentCover ld off).isEmpty then 2 else if (s.lentFresh ld off).isEmpty then 3
    else if (s.lentFresh ld off).any fun e => if write then e.2.write else e.2.read then 0 else 4 := rfl

theorem mem_lentCover {s : State} {ld off : Nat} {e : HostEntry} : e ∈ (s.lentCover ld off).map (·.2) ↔
    e ∈ s.cxl.hostTable.map (·.2) ∧ e.ld = ld ∧ e.base ≤ off ∧ off < e.base + e.length := by
  simp [State.lentCover]

theorem mem_lentFresh {s : State} {ld off : Nat} {e : HostEntry} : e ∈ (s.lentFresh ld off).map (·.2) ↔
    e ∈ (s.lentCover ld off).map (·.2) ∧ e.hostGen = (s.ld ld).hostGen := by
  simp [State.lentFresh]

/-- A table is empty where no entry stands in it. -/
theorem table_isEmpty_iff {α : Type} {t : Table α} : t.isEmpty = true ↔ ∀ e, e ∉ t.map (·.2) := by
  rw [List.isEmpty_iff, ← List.eq_nil_iff_forall_not_mem, List.map_eq_nil_iff]

theorem table_not_isEmpty_iff {α : Type} {t : Table α} : ¬ t.isEmpty = true ↔ ∃ e, e ∈ t.map (·.2) := by
  rw [table_isEmpty_iff, not_forall_not]

theorem table_any_iff {α : Type} {t : Table α} {p : α → Bool} : (t.any fun e => p e.2) = true ↔ ∃ e, e ∈ t.map (·.2) ∧ p e = true := by
  rw [show (fun e : Nat × α => p e.2) = p ∘ (·.2) from rfl, ← List.any_map, List.any_eq_true]

/-- The claim of R362: each denial is the first test that fails. -/
theorem lentChecks : Claims.LentChecks := by
  intro s ld off write covers fresh grants inside
  have cover (e) : e ∈ (s.lentCover ld off).map (·.2) ↔ covers e := mem_lentCover
  have freshen (e) : e ∈ (s.lentFresh ld off).map (·.2) ↔ fresh e := mem_lentFresh.trans (and_congr_left' (cover e))
  have grant : ((s.lentFresh ld off).any fun e => if write then e.2.write else e.2.read) = true ↔ ∃ e, grants e :=
    (table_any_iff (p := fun e => if write then e.write else e.read)).trans (exists_congr fun e => and_congr_left' (freshen e))
  have cover_ne : (∃ e, covers e) → ¬ (s.lentCover ld off).isEmpty = true := fun ⟨e, h⟩ => table_not_isEmpty_iff.2 ⟨e, (cover e).2 h⟩
  have fresh_ne : (∃ e, fresh e) → ¬ (s.lentFresh ld off).isEmpty = true := fun ⟨e, h⟩ => table_not_isEmpty_iff.2 ⟨e, (freshen e).2 h⟩
  rw [lentStep_eq]
  refine ⟨fun out => ?out, fun within uncovered => ?uncovered, fun within covered stale => ?stale,
    fun within freshened ungranted => ?ungranted, fun within ⟨e, h⟩ => ?granted⟩
  case out => exact if_pos (Nat.le_of_not_lt out)
  all_goals rw [if_neg (Nat.not_le_of_lt within)]
  case uncovered => exact if_pos (table_isEmpty_iff.2 fun e h => uncovered e ((cover e).1 h))
  case stale => rw [if_neg (cover_ne covered), if_pos (table_isEmpty_iff.2 fun e h => stale e ((freshen e).1 h))]
  case ungranted =>
    rw [if_neg (cover_ne (freshened.imp fun _ h => h.1)), if_neg (fresh_ne freshened), if_neg fun h => (grant.1 h).elim ungranted]
  case granted => rw [if_neg (cover_ne ⟨e, h.1.1⟩), if_neg (fresh_ne ⟨e, h.1⟩), if_pos (grant.2 ⟨e, h⟩)]

/-- An entry of the LD's present generation that covers the offset and grants the access allows it. -/
theorem lentStep_of_entry {s : State} {ld off : Nat} {write : Bool} {e : HostEntry} (inside : off < s.cfg.lentGib * 2 ^ 30)
    (there : e ∈ s.cxl.hostTable.map (·.2)) (mine : e.ld = ld) (fresh : e.hostGen = (s.ld ld).hostGen) (above : e.base ≤ off)
    (below : off < e.base + e.length) (grants : (if write then e.write else e.read) = true) : s.lentStep ld off write = 0 := by
  obtain ⟨-, -, -, -, allowed⟩ := lentChecks s ld off write
  exact allowed inside ⟨e, ⟨⟨there, mine, above, below⟩, fresh⟩, grants⟩

/-! ## Reads and writes of the window (R362–R366) -/

/-- A line that the rows serve at once: an LD and an aligned offset that exist, in a module that neither sleeps nor holds
requests (R352, R499, R502). -/
structure LentServed (s : State) (ld off : Nat) : Prop where
  unit : ld < ldCount
  aligned : off % 64 = 0
  spanned : off < lentSpan
  wakes : s.power.state ≠ .standby
  serves : s.holdsRequests = false

theorem LentServed.of_inside {s : State} {ld off : Nat} (unit : ld < 16) (aligned : off % 64 = 0)
    (inside : off < s.cfg.lentGib * 2 ^ 30) (size : s.cfg.lentGib ≤ 512) (wakes : s.power.state ≠ .standby)
    (serves : s.holdsRequests = false) : LentServed s ld off :=
  ⟨unit, aligned, Nat.lt_of_lt_of_le inside (Nat.mul_le_mul_right _ size), wakes, serves⟩

theorem LentServed.line {s : State} {ld off : Nat} (h : LentServed s ld off) : off / 64 * 64 = off :=
  Nat.div_mul_cancel (Nat.dvd_of_mod_eq_zero h.aligned)

theorem exec_lentRead_served {s : State} {ld off : Nat} (h : LentServed s ld off) :
    exec (.lentRead ld off) s = .next (s.lentRead ld off) := by
  show execLentRead ld off s = _
  simp only [execLentRead, h.line]
  rw [if_neg (Nat.not_le_of_lt h.unit), if_neg (Nat.not_le_of_lt h.spanned), if_neg h.wakes, if_neg (by simp [h.serves])]

theorem exec_lentWrite_served {s : State} {ld off : Nat} (line : List Byte) (h : LentServed s ld off) :
    exec (.lentWrite ld off line) s = .next (s.lentWrite ld off line) := by
  show execLentWrite ld off line s = _
  simp only [execLentWrite, h.line]
  rw [if_neg (Nat.not_le_of_lt h.unit), if_neg (Nat.not_le_of_lt h.spanned), if_neg h.wakes, if_neg (by simp [h.serves])]

/-- A read that is denied gives zeros (R363). -/
theorem lentRead_denied {s : State} {ld off : Nat} (h : s.lentStep ld off false ≠ 0) :
    s.lentRead ld off = (s.denyLent ld off (s.lentStep ld off false)).emit (.readData ld (zeros 64)) := if_pos h

/-- A write that is denied stores nothing (R363). -/
theorem lentWrite_denied {s : State} {ld off : Nat} (line : List Byte) (h : s.lentStep ld off true ≠ 0) :
    s.lentWrite ld off line = s.denyLent ld off (s.lentStep ld off true) := if_pos h

/-- An allowed read of a good line under its own key gives the line (R361). -/
theorem lentRead_good {s : State} {ld off : Nat} (allowed : s.lentStep ld off false = 0)
    (good : s.cxl.badLines.contains (s.lentAddr off) = false)
    (key : ((tget s.cxl.lineKeys (s.lentAddr off)).all fun k => k == s.lentKey ld off) = true) :
    s.lentRead ld off = s.emit (.readData ld (s.mem.readN (s.lentAddr off) 64)) := by
  unfold State.lentRead
  rw [if_neg (not_not_intro allowed), if_neg (ne_true_of_eq_false good), if_neg]
  cases hk : tget s.cxl.lineKeys (s.lentAddr off) with
  | none => exact Bool.false_ne_true
  | some k => rw [hk] at key; simpa using key

/-- What a read of an uncorrectable line does apart from its data: the flag and the two events (R366, R444). -/
def State.lentUncorrectable (s : State) (ld off : Nat) : State :=
  ((s.setFlag Flag.lentUe).badLine ld (0x2000000000 + off) (s.lentAddr off)).raise Ev.lentUe .module [ld, off]

/-- An allowed read of an uncorrectable line gives zeros (R366). -/
theorem lentRead_bad {s : State} {ld off : Nat} (allowed : s.lentStep ld off false = 0)
    (bad : s.cxl.badLines.contains (s.lentAddr off) = true) :
    s.lentRead ld off = (s.lentUncorrectable ld off).emit (.readData ld (zeros 64)) := by
  unfold State.lentRead
  rw [if_neg (not_not_intro allowed), if_pos bad]; rfl

theorem lentUncorrectable_mem (s : State) (ld off : Nat) : (s.lentUncorrectable ld off).mem = s.mem :=
  (told_raise _ _ _ _).mem.trans (told_raise _ _ _ _).mem

theorem lentUncorrectable_flag (s : State) (ld off : Nat) : ((s.lentUncorrectable ld off).flagWord 11).getLsbD 5 = true := by
  have word : (s.lentUncorrectable ld off).flagWord 11 = (s.setFlag Flag.lentUe).flagWord Flag.lentUe.1 :=
    ((told_raise _ _ _ _).flagWord 11).trans ((told_raise _ _ _ _).flagWord 11)
  rw [word, flagWord_setFlag]
  simp [Flag.lentUe]

/-- An allowed write of a whole line stores it under the entry's key and heals it (R361, R443). -/
theorem lentWrite_allowed {s : State} {ld off : Nat} {line : List Byte} (allowed : s.lentStep ld off true = 0)
    (whole : line.length = 64) : s.lentWrite ld off line = { s with
      mem := s.mem.writeN (s.lentAddr off) line
      cxl := { s.cxl with lineKeys := tset s.cxl.lineKeys (s.lentAddr off) (s.lentKey ld off),
                          badLines := s.cxl.badLines.filter (· != s.lentAddr off) } } := by
  unfold State.lentWrite
  rw [if_neg (not_not_intro allowed), List.take_of_length_le whole.le]
  simp only [whole, ge_iff_le, le_refl, if_true]

/-- The claim of R361 to R366 for a read: an allowing entry leaves the good line's bytes or the bad line's zeros. -/
theorem lentRead : Claims.LentRead := by
  intro ld off e s unit aligned inside size wakes serves there mine fresh above below reads a
  have allowed : s.lentStep ld off false = 0 := lentStep_of_entry inside there mine fresh above below reads
  rw [exec_lentRead_served (.of_inside unit aligned inside size wakes serves)]
  refine ⟨fun good key => ?_, fun bad => ⟨s.lentUncorrectable ld off, ?_, lentUncorrectable_mem .., lentUncorrectable_flag ..⟩⟩
  · rw [lentRead_good allowed good key]; rfl
  · rw [lentRead_bad allowed bad]; rfl

/-- The claim of R361 to R363 and R443 for a write: the 64 bytes of the line change and no others. -/
theorem lentWrite : Claims.LentWrite := by
  intro ld off line e s unit aligned inside size wakes serves there mine fresh above below writes whole a cxl
  have allowed : s.lentStep ld off true = 0 := lentStep_of_entry inside there mine fresh above below writes
  refine ⟨?_, fun wf x far => Mem.writeN_far wf x (by rwa [whole])⟩
  rw [exec_lentWrite_served line (.of_inside unit aligned inside size wakes serves), lentWrite_allowed allowed whole]

/-- The claim of R362 and R363: a denied access moves no data and is counted. -/
theorem lentDenied : Claims.LentDenied := by
  intro ld off line s unit aligned spanned wakes serves
  have served : LentServed s ld off := ⟨unit, aligned, spanned, wakes, serves⟩
  refine ⟨fun denied => ?_, fun denied => ?_, denyLent_all s ld off⟩
  · rw [exec_lentRead_served served, lentRead_denied denied]; rfl
  · rw [exec_lentWrite_served line served, lentWrite_denied line denied]

/-! ## Commands on the host table, and their drains (R361, R364, R369) -/

/-- The claim of R361: past the command's checks, in their order, the entry takes a free index. -/
theorem lentGrant : Claims.LentGrant := by
  intro m slot s t c tag i x turn ld rights key base len tenant live stays unit aligned sized least inside unlocked apart picked e
  refine done_of turn (body := cmdLentGrant) ?_
  have free : (s.cxl.hostTable.any fun e => e.2.keySlot != key && meets e.2.base e.2.length base len) = false := by
    simpa [List.any_eq_false] using apart
  refine (req_then (by simp [tenant, live, stays, Ctx.p, key])).trans ?_
  refine (inRange_then (decide_eq_true unit)).trans ?_
  refine (inRange_then (beq_iff_eq.2 aligned)).trans ?_
  refine (inRange_then (Bool.and_eq_true_iff.2 ⟨beq_iff_eq.2 sized, decide_eq_true ⟨least, inside⟩⟩)).trans ?_
  refine (req_then (congrArg (!·) unlocked)).trans ?_
  refine (req_then (congrArg (!·) free)).trans ?_
  exact found_then picked

/-- The claim of R364: the entry goes at once and the command waits for the drain. -/
theorem lentRevoke : Claims.LentRevoke := by
  intro m slot s c tag e turn i unit there unlocked
  refine wait_of turn (body := cmdLentRevoke) ?_
  refine (inRange_then (decide_eq_true unit)).trans ?_
  refine (found_then there).trans ?_
  exact req_then (congrArg (!·) unlocked)

/-- Generations of 16 bits go on from 65,535 at 1 (R369). -/
theorem nextGen_hostGen (g : W16) : nextGen 65535 g.toNat = if g.toNat = 65535 then 1 else g.toNat + 1 := by
  have last : g.toNat ≥ 65535 ↔ g.toNat = 65535 := by have := g.isLt; omega
  simp only [nextGen, last]

/-- The claim of R369: the generation goes on at once and the command waits for the drain. -/
theorem hostFence : Claims.HostFence := by
  intro m slot s c tag turn ld g unit
  refine wait_of turn (body := cmdHostFence) ?_
  refine (inRange_then (decide_eq_true unit)).trans ?_
  simp only [g, ld, ← nextGen_hostGen]; rfl

/-- The claim of R364 and R369: a drain answers what waited for it (DESIGN CHOICE, log 31). -/
theorem lentDrains : Claims.LentDrains := by
  intro s
  refine ⟨fun ld w n unit waits => ?_, fun ld beyond => if_pos beyond, fun e w waits => ?_, fun e idle => ?_⟩
  · refine (if_neg (Nat.not_le_of_lt unit)).trans ?_
    rw [waits]; rfl
  · show execLentRevokeDrain e s = _
    rw [execLentRevokeDrain, waits]
  · show execLentRevokeDrain e s = _
    rw [execLentRevokeDrain, idle]

/-! ## Changes of the window's size (R238) -/

/-- The state in which a change of LENT_GIB is answered: the band between the two sizes is zeroed, and the window and the
pool have their new sizes (R238). -/
def State.lentResized (s : State) (gib : Nat) : State :=
  let t := s.zeroBand (12189696 - max s.cfg.lentGib gib * 16384) (12189696 - min s.cfg.lentGib gib * 16384)
  (({ t with cfg := { t.cfg with lentGib := gib } } : State).modStore fun u =>
    { u with lentWaiter := none, poolSlots := 12189696 - gib * 16384 - poolBase }).noteLow s.belowLow

/-- A change of size ends with its answer, the previous size (R402). -/
theorem setLent_eq (s : State) (w : CmdRef) (gib : Nat) : s.setLent w gib = (s.lentResized gib).answer w St.ok (toLe 8 s.cfg.lentGib) := rfl

theorem lentResized_cfg (s : State) (gib : Nat) : (s.lentResized gib).cfg = { s.cfg with lentGib := gib } := (noteLow_kept _ _).1

theorem lentResized_store (s : State) (gib : Nat) : (s.lentResized gib).store =
    { s.store with lentWaiter := none, poolSlots := 12189696 - gib * 16384 - poolBase } := (noteLow_kept _ _).2

/-- A change that waits in a working module: the end of a shrinking one, a further wait, or the end of a growing one once the
slabs of the band have moved (R238). -/
theorem exec_lentBandChangeComplete {s : State} {w : CmdRef} {gib : Nat} (waits : s.store.lentWaiter = some (w, gib))
    (awake : s.awake = true) : exec .lentBandChangeComplete s =
      if gib < s.cfg.lentGib then .next (s.lentDone w gib).runTier
      else if !(s.bandBobbins (12189696 - gib * 16384)).isEmpty then .next s.runTier
      else ((s.store.dramUsed.filter fun p => decide (12189696 - gib * 16384 ≤ p)).foldlM State.moveSlab s).elim (.next s)
        fun t => .next (t.lentDone w gib).runTier := by
  show execLentBandChangeComplete s = _
  rw [execLentBandChangeComplete, waits]
  dsimp only
  rw [if_neg (by rw [awake]; exact Bool.false_ne_true)]
  generalize (s.store.dramUsed.filter fun p => decide (12189696 - gib * 16384 ≤ p)).foldlM State.moveSlab s = moved
  cases moved <;> rfl

/-- The claim of R238 and R402: with no slab left in the band there is none to move, and the change ends (log 16). -/
theorem lentBandChange : Claims.LentBandChange := by
  intro s w gib waits awake first
  rw [exec_lentBandChangeComplete waits awake]
  refine ⟨fun shrinks => if_pos shrinks, fun grows bobbins => ?_, fun grows left clear => ?_,
    s.lentResized gib, setLent_eq s w gib, lentResized_cfg s gib, ?_, ?_⟩
  · rw [if_neg (Nat.not_lt_of_le grows), if_pos (by simpa using bobbins)]
  · have slabs : (s.store.dramUsed.filter fun p => decide (first ≤ p)) = [] :=
      List.filter_eq_nil_iff.2 fun p used => by rw [decide_eq_true_iff]; exact Nat.not_le_of_lt (clear p used)
    rw [if_neg (Nat.not_lt_of_le grows), if_neg (by simp [first, left]), slabs]; rfl
  · rw [lentResized_store]
  · rw [lentResized_store]

/-- Settles O23: lent entries, fences, the change of the window's size, and reads and writes of the window (R238, R361–R366,
R369). -/
theorem lentWindow : Obligations.LentWindow :=
  ⟨lentGrant, lentRevoke, hostFence, lentDrains, lentBandChange, lentChecks, lentRead, lentWrite, lentDenied⟩

end Sys2Proof.Machine
end

section
/-!
Publications between hosts (R367, R412). The commands that name a publication find it by one rule; a publish by an LD that
may write the whole range comes down to a comparison of versions, and a conflict tells the LDs concerned.
-/
namespace Sys2Proof.Machine

/-- A command that names a publication that exists finds it (R412). -/
theorem publication_found {x : Ctx} {s : State} {p : Publication} (named : x.c.param 0 2 < 1024)
    (there : tget s.cxl.pubs (x.c.param 0 2) = some p) : x.publication s = .ok p :=
  (inRange_then (decide_eq_true named)).trans (congrArg (found St.staleHandle) there)

/-- A command that names a publication goes on with it. -/
theorem publication_then {α : Type} {x : Ctx} {s : State} {p : Publication} {f : Publication → Except CmdErr α}
    (named : x.c.param 0 2 < 1024) (there : tget s.cxl.pubs (x.c.param 0 2) = some p) : (x.publication s >>= f) = f p := by
  rw [publication_found named there]; rfl

/-- The claim of R367 and R412: the range lies in the window, and the record starts at version 0. -/
theorem publicationCreate : Claims.PublicationCreate := by
  intro m slot s t c tag i turn base len some_bytes inside picked
  have starts : base < s.cfg.lentGib * 2 ^ 30 := by omega
  refine done_of turn (body := cmdPublicationCreate) ?_
  refine (inRange_then (decide_eq_true starts)).trans ?_
  refine (inRange_then (decide_eq_true ⟨some_bytes, inside⟩)).trans ?_
  exact found_then picked

/-- The claim of R412: the publication of the index is gone. -/
theorem publicationDelete : Claims.PublicationDelete := by
  intro m slot s c tag turn named there
  obtain ⟨p, there⟩ := Option.isSome_iff_exists.1 there
  refine done_of turn (body := cmdPublicationDelete) ?_
  exact publication_then named there

/-- Beyond its checks LENT_PUBLISH compares versions, and where they agree digests (R367). -/
def State.publish (s : State) (i ld : Nat) (p : Publication) (v : Nat) (d : List Byte) : CmdM :=
  if v > p.version.toNat then
    .ok (.done (s.modCxl fun c =>
      { c with pubs := tset c.pubs i { p with version := BitVec.ofNat 64 v, digest := d, ld, time := s.time.now } }) [])
  else if v = p.version.toNat ∧ d = p.digest then .ok (.done s [])
  else .ok (.ended (s.conflict i ld p v d) St.versionConflict [])

section
variable {s : State} {c : Cmd} {tag : W16} {p : Publication} (long : 48 ≤ c.dataLen) (named : c.param 0 2 < 1024)
  (there : tget s.cxl.pubs (c.param 0 2) = some p)
include long named there

/-- An LD that may write the whole range publishes (R367). -/
theorem cmdLentPublish_permitted (may : s.mayPublish c.ld p.base p.length = true) : cmdLentPublish { c, tag } s =
    s.publish (c.param 0 2) c.ld p (c.param 8 8) ((s.windowRead c.ld c.dataOff c.dataLen).take 48) := by
  refine (if_neg (Nat.not_lt_of_le long)).trans ?_
  refine (publication_then named there).trans ?_
  exact req_then may

/-- Any other LD is refused (R367). -/
theorem cmdLentPublish_forbidden (may : s.mayPublish c.ld p.base p.length = false) :
    cmdLentPublish { c, tag } s = .error (St.notPermitted, 0, 0) := by
  refine (if_neg (Nat.not_lt_of_le long)).trans ?_
  refine (publication_then named there).trans ?_
  show (req (s.mayPublish c.ld p.base p.length) St.notPermitted >>= _) = _
  rw [may]; rfl

end

theorem publish_higher {s : State} {i ld v : Nat} {p : Publication} {d : List Byte} (h : p.version.toNat < v) :
    s.publish i ld p v d = .ok (.done (s.modCxl fun c =>
      { c with pubs := tset c.pubs i { p with version := BitVec.ofNat 64 v, digest := d, ld, time := s.time.now } }) []) := if_pos h

theorem publish_same {s : State} {i ld v : Nat} {p : Publication} {d : List Byte} (hv : v = p.version.toNat) (hd : d = p.digest) :
    s.publish i ld p v d = .ok (.done s []) := (if_neg hv.le.not_gt).trans (if_pos ⟨hv, hd⟩)

theorem publish_conflict {s : State} {i ld v : Nat} {p : Publication} {d : List Byte}
    (h : v < p.version.toNat ∨ v = p.version.toNat ∧ d ≠ p.digest) :
    s.publish i ld p v d = .ok (.ended (s.conflict i ld p v d) St.versionConflict []) := by
  refine (if_neg ?_).trans (if_neg fun same => ?_)
  · rcases h with below | ⟨level, -⟩
    · exact below.le.not_gt
    · exact level.le.not_gt
  · rcases h with below | ⟨-, differs⟩
    · exact below.ne same.1
    · exact differs same.2

/-- A conflict with a version that an LD published tells both LDs (R367). -/
theorem conflict_published {s : State} {i ld v : Nat} {p : Publication} {d : List Byte} (h : p.version ≠ 0) :
    let told := [i, p.version.toNat, v, ofLe p.digest, ofLe d]
    s.conflict i ld p v d = (s.raise Ev.publicationConflict (.ld ld) told).raise Ev.publicationConflict (.ld p.ld) told := if_neg h

/-- A conflict with version 0, which no LD published, tells the publisher alone (DEDUCED, log 32). -/
theorem conflict_unpublished {s : State} {i ld v : Nat} {p : Publication} {d : List Byte} (h : p.version = 0) :
    s.conflict i ld p v d = s.raise Ev.publicationConflict (.ld ld) [i, p.version.toNat, v, ofLe p.digest, ofLe d] := if_pos h

/-- The claim of R367: permission first, then the comparison of versions. -/
theorem lentPublish : Claims.LentPublish := by
  intro m slot s c tag p turn i v d told long named there
  refine ⟨fun forbidden => ?_, fun permitted => ?_⟩
  · exact err0_of turn (cmdLentPublish_forbidden long named there forbidden) (by decide)
  intro q
  have body := cmdLentPublish_permitted (tag := tag) long named there permitted
  refine ⟨fun higher => ?_, fun level same => ?_, fun conflicts published => ?_, fun zero unpublished differs => ?_⟩
  · exact done_of turn (body.trans (publish_higher higher))
  · exact done_of turn (body.trans (publish_same level same))
  · rw [← conflict_published published]
    exact ended_of turn (body.trans (publish_conflict conflicts))
  · have level : v = p.version.toNat := by rw [zero, unpublished]; rfl
    refine (ended_of turn (body.trans (publish_conflict (.inr ⟨level, differs⟩)))).trans ?_
    rw [conflict_unpublished unpublished]

/-- The claim of R412: version and time in the response, digest and LD in the buffer. -/
theorem publicationGet : Claims.PublicationGet := by
  intro m slot s c tag p turn long named there
  refine done_of turn (body := cmdPublicationGet) ?_
  refine (if_neg (Nat.not_lt_of_le long)).trans ?_
  exact publication_then named there

/-- Settles O24: publications are made, deleted, published and read as R367 and R412 say. -/
theorem publications : Obligations.Publications := ⟨publicationCreate, publicationDelete, lentPublish, publicationGet⟩

end Sys2Proof.Machine
end

section
/-!
The rollback floor (R420, R423). SVN_COMMIT is two checks and one burned record. FIRMWARE_ACTIVATE leaves the whole security
unit alone, by a frame that serves any command: responses, the ends of unbinds and fetching leave it alone, so a command row
changes it only where the command's own part does.
-/
namespace Sys2Proof.Machine

/-! ## SVN_COMMIT (R423) -/

/-- The last burned record that is not zero is the floor (R420). -/
theorem floor_of_burned {x : Sec} {rs : List W32} {v : W32} (burned : x.svnRecords = rs ++ [v]) (nonzero : v ≠ 0) : x.floor = v := by
  have last : (rs ++ [v]).filter (· != 0) = rs.filter (· != 0) ++ [v] := by
    rw [List.filter_append, List.filter_singleton, bne_iff_ne.2 nonzero, cond_true]
  rw [Sec.floor, burned, last, List.getLast?_append_cons]; rfl

/-- The claim of R423: the present floor is refused first, then a 65th record. -/
theorem svnCommit : Claims.SvnCommit := by
  intro m slot s c tag turn
  have differs_iff : s.sec.floor ≠ s.boot.svn ↔ (s.sec.floor != s.boot.svn) = true := bne_iff_ne.symm
  refine ⟨fun differs room => ?burns, fun level => ?level, fun differs full => ?full, fun t burned nonzero => ?floor⟩
  case burns =>
    refine done_of turn (body := cmdSvnCommit) ?_
    exact (req_then (differs_iff.1 differs)).trans (req_then (decide_eq_true room))
  case level =>
    refine err0_of turn (body := cmdSvnCommit) ?_ (by decide)
    rw [cmdSvnCommit, level, bne_self_eq_false, req_false, err_bind]
  case full =>
    refine err0_of turn (body := cmdSvnCommit) ?_ (by decide)
    refine (req_then (differs_iff.1 differs)).trans ?_
    rw [decide_eq_false (Nat.not_lt_of_le full), req_false, err_bind]
  case floor => exact floor_of_burned burned nonzero

/-! ## What leaves the security unit alone -/

theorem Told.sec {s t : State} (h : Told s t) : t.sec = s.sec := by obtain ⟨o, x, b, e⟩ := h.rest; rw [e]

@[simp] theorem raise_sec (s : State) (c : EvCode) (f : For) (d : List Nat) : (s.raise c f d).sec = s.sec := (told_raise s c f d).sec

@[simp] theorem raiseMboxVector_sec (s : State) (m v : Nat) : (s.raiseMboxVector m v).sec = s.sec := (told_mboxVector s m v).sec

@[simp] theorem writeSystem_sec (s : State) (a : SysArea) (n : Nat) : (s.writeSystem a n).sec = s.sec := rfl

@[simp] theorem checkpoint_sec (s : State) : s.checkpoint.sec = s.sec := rfl

@[simp] theorem commitCmd_sec (s : State) (c : Cmd) : (s.commitCmd c).sec = s.sec := rfl

@[simp] theorem credit_sec (s : State) (tag : W16) (k n : Nat) : (s.credit tag k n).sec = s.sec := rfl

@[simp] theorem dropArea_sec (s : State) (a : Area) : (s.dropArea a).sec = s.sec := by
  unfold State.dropArea; split <;> rfl

@[simp] theorem disableBox_sec (s : State) (m : Nat) : (s.disableBox m).sec = s.sec := by
  simp only [State.disableBox, State.setMbox_sec, credit_sec, dropArea_sec]

@[simp] theorem writeResponse_sec (s : State) (c : Cmd) (st detail retry : Nat) (r : List Byte) :
    (s.writeResponse c st detail retry r).sec = s.sec := by
  unfold State.writeResponse
  dsimp only
  split
  · rfl
  · exact raiseMboxVector_sec _ _ _

/-- A response, and the ends of the unbinds that waited for it. -/
@[simp] theorem completeCmd_sec (fuel : Nat) (s : State) (c : Cmd) (st detail retry : Nat) (r : List Byte) :
    (s.completeCmd fuel c st detail retry r).sec = s.sec := by
  induction fuel generalizing s c st detail retry r with
  | zero => rfl
  | succ fuel ih =>
    have responded := writeResponse_sec s c st detail retry r
    simp only [State.completeCmd]
    split
    · split
      · exact (disableBox_sec _ _).trans responded
      · split
        · exact (ih _ _ _ _ _ _).trans ((disableBox_sec _ _).trans responded)
        · exact (disableBox_sec _ _).trans responded
    · exact responded

@[simp] theorem fetch_sec (fuel : Nat) (s : State) : (s.fetch fuel).sec = s.sec := by
  induction fuel generalizing s with
  | zero => rfl
  | succ fuel ih =>
    rw [State.fetch]
    split
    · rfl
    · split
      · rfl
      · extract_lets +lift b c headed boxes taken unread
        have kept : taken.sec = s.sec := rfl
        clear_value unread taken c
        split
        · rw [ih, completeCmd_sec]; exact kept
        · split
          · rw [ih, completeCmd_sec]; exact kept
          · rw [ih]; exact kept

@[simp] theorem fetchAll_sec (s : State) : s.fetchAll.sec = s.sec := fetch_sec _ _

/-! ## What a command row can do -/

/-- The state that a command's own part gives. -/
def CmdOut.state : CmdOut → State
  | .done s _ | .ended s _ _ | .wait s | .pend s => s

/-- What a command row makes of the outcome of the command's own part (R381, R389). -/
def CmdOut.settled (c : Cmd) : CmdOut → State
  | .done s r => s.completeCmd 8 c St.ok 0 0 r
  | .ended s st r => s.completeCmd 8 c st 0 0 r
  | .wait s => s.commitCmd c
  | .pend s => s

theorem settled_sec (c : Cmd) (o : CmdOut) : (o.settled c).sec = o.state.sec := by
  cases o with
  | done s r => exact completeCmd_sec _ _ _ _ _ _ _
  | ended s st r => exact completeCmd_sec _ _ _ _ _ _ _
  | wait s => rfl
  | pend s => rfl

/-- The module's state refuses commands, and never changes their outcome (R400, R525). -/
theorem gateByState_ok {s : State} {op : Nat} {r : CmdM} {o : CmdOut} (h : s.gateByState op r = .ok o) : r = .ok o := by
  unfold State.gateByState at h
  split at h
  · exact h
  · split at h
    · split at h <;> cases h
    · cases h

/-- A sequence of checks that ends well has passed its first. -/
theorem bind_ok {ε α β : Type} {x : Except ε α} {f : α → Except ε β} {b : β} (h : (x >>= f) = .ok b) : ∃ a, x = .ok a ∧ f a = .ok b := by
  cases x with
  | error e => cases h
  | ok a => exact ⟨a, rfl, h⟩

/-- A fetched command is refused, or its own part has run and its outcome is settled (R551, R389). -/
theorem runCmd_cases (s : State) (c : Cmd) (body : Ctx → State → CmdM) :
    (∃ st detail retry, s.runCmd c body = s.completeCmd 8 c st detail retry []) ∨
    ∃ tag o, body { c, tag } s = .ok o ∧ s.runCmd c body = o.settled c := by
  unfold State.runCmd
  dsimp only
  generalize hr : (found St.badOpcode (cmdSpec? c.opcode) >>= _ : CmdM) = r
  match r with
  | .error (st, detail, slots) => exact .inl ⟨st, detail, _, rfl⟩
  | .ok o =>
    obtain ⟨sp, -, hr⟩ := bind_ok hr
    obtain ⟨tag, -, hr⟩ := bind_ok hr
    obtain ⟨-, -, hr⟩ := bind_ok hr
    refine .inr ⟨tag, o, gateByState_ok hr, ?_⟩
    cases o <;> rfl

/-- A mailbox row does nothing, or runs a command and then fetches what it may (R387; log 2). -/
theorem cmdRow_cases {op m slot : Nat} {body : Ctx → State → CmdM} {s t : State} (h : cmdRow op body m slot s = .next t) :
    t = s ∨ ∃ c, t = (s.runCmd c body).fetchAll := by
  unfold cmdRow at h
  split at h
  · cases h
  · split at h
    · cases h; exact .inl rfl
    · next c _ =>
      split at h <;> cases h
      · exact .inr ⟨c, rfl⟩
      · exact .inl rfl

/-- A row keeps the security unit where the command's own part keeps it. -/
theorem cmdRow_keeps_sec {op m slot : Nat} {body : Ctx → State → CmdM} {s t : State} (h : cmdRow op body m slot s = .next t)
    (keeps : ∀ x o, body x s = .ok o → o.state.sec = s.sec) : t.sec = s.sec := by
  rcases cmdRow_cases h with rfl | ⟨c, rfl⟩
  · rfl
  rw [fetchAll_sec]
  rcases runCmd_cases s c body with ⟨st, detail, retry, refused⟩ | ⟨tag, o, ran, settled⟩
  · rw [refused, completeCmd_sec]
  · rw [settled, settled_sec, keeps _ o ran]

/-! ## FIRMWARE_ACTIVATE (R423, R512) -/

/-- Activation writes the creel's image and the boot unit, whatever its mode and its read-back. -/
theorem cmdFirmwareActivate_keeps_sec {ok : Bool} {x : Ctx} {s : State} {o : CmdOut} (h : cmdFirmwareActivate ok x s = .ok o) :
    o.state.sec = s.sec := by
  obtain ⟨-, -, h⟩ := bind_ok h
  obtain ⟨-, -, h⟩ := bind_ok h
  dsimp only at h
  split at h
  · cases h; rfl
  · split at h <;> cases h
    · simp only [CmdOut.state, raise_sec, writeSystem_sec, State.modBoot_sec]
    · rfl

/-- The claim of R423: no activation burns a record, and the records say the floor. -/
theorem floorStays : Claims.FloorStays := by
  intro m slot ok s t h
  have kept : t.sec = s.sec := cmdRow_keeps_sec (body := cmdFirmwareActivate ok) h fun _ _ => cmdFirmwareActivate_keeps_sec
  rw [kept]; exact ⟨rfl, rfl⟩

/-- Settles O31: SVN_COMMIT burns the running SVN while a record is empty, and FIRMWARE_ACTIVATE never raises the floor (R423). -/
theorem svnCommits : Obligations.SvnCommits := ⟨svnCommit, floorStays⟩

end Sys2Proof.Machine
end

section
/-!
Hold, Doze and the way out (R495–R505). A change of state writes the power unit and tells of it; entry to Doze is the low
rate of the ports and of the CXL link, then the change of state; exit is the full rate again, then `State.endDoze`.
-/
namespace Sys2Proof.Machine

/-! ## A new power state (R511) -/

theorem Told.power {s t : State} (h : Told s t) : t.power = s.power := by obtain ⟨o, x, b, e⟩ := h.rest; rw [e]

/-- Entering a power state writes the power unit; the rest of it only tells. -/
theorem enter_told (s : State) (w : PState) :
    Told (s.modPower fun p => { p with state := w, target := w, inTransition := false, exiting := false }) (s.enter w) := by
  unfold State.enter; exact told_raise _ _ _ _

@[simp] theorem enter_power (s : State) (w : PState) :
    (s.enter w).power = { s.power with state := w, target := w, inTransition := false, exiting := false } := (enter_told s w).power

@[simp] theorem enter_time (s : State) (w : PState) : (s.enter w).time = s.time := (enter_told s w).time

@[simp] theorem enter_store (s : State) (w : PState) : (s.enter w).store = s.store := (enter_told s w).store

@[simp] theorem enter_mem (s : State) (w : PState) : (s.enter w).mem = s.mem := (enter_told s w).mem

@[simp] theorem enter_portAt (s : State) (w : PState) (p : Nat) : (s.enter w).portAt p = s.portAt p :=
  congrArg (fun f : Flyer => (tget f.ports p).getD {}) (enter_told s w).flyer

/-- RESUMED goes out on the ports, and leaves the power unit as it is (R504). -/
theorem resumed_power (l : List Nat) (s : State) : (l.foldl (fun s p => if (s.portAt p).state = .down then s
    else s.control p ctlWake (wakeBlock 2 s.nodeNo)) s).power = s.power := by
  induction l generalizing s with
  | nil => rfl
  | cons p l ih =>
    rw [List.foldl_cons, ih]
    split
    · rfl
    · obtain ⟨o, e⟩ := control_kept s p ctlWake (wakeBlock 2 s.nodeNo); rw [e]

/-- WAKE_N is released in Run (R536). -/
theorem reachRun_wakeN (s : State) : s.reachRun.power.wakeN = false := by
  simp only [State.reachRun, resumed_power, State.modPower_power]

/-! ## HOLD_ENTRY_COMPLETE (R496) -/

/-- The claim of R495 and R496: the row does nothing while an item streams, and Hold asked for answers the command. -/
theorem holdEntry : Claims.HoldEntry := by
  intro s run going
  have row : exec .holdEntryComplete s = execHoldEntryComplete s := rfl
  rw [row, execHoldEntryComplete]
  refine ⟨fun idle hold => ?hold, fun idle doze => ?doze, fun busy => ?busy⟩
  case hold => rw [if_pos ⟨run, going, .inl hold, by rw [idle]; rfl⟩, if_pos hold]
  case doze => rw [if_pos ⟨run, going, .inr doze, by rw [idle]; rfl⟩, if_neg (by rw [doze]; decide)]
  case busy => exact if_neg fun ⟨_, _, _, idle⟩ => by rw [busy] at idle; cases idle

/-! ## DOZE_ENTRY_READY (R497, R505) -/

/-- The ports told and at their low rate, and the CXL link at the width its partner grants (R267, R337, R497). -/
def State.atLowRate (s : State) : State :=
  let x := ((List.range portCount).foldl State.portLow s).free 16
  x.2.requestL0p x.1

/-- Doze is reached: the change of state, and the settings and counts that it starts with (R416, R497). -/
def State.reachDoze (s : State) : State :=
  let t := s.atLowRate.enter .doze
  t.modPower fun p => { p with lastEntry := t.time.now, dozeNow := (p.periodMs, p.tempWake, p.activityWake),
                               lastSample := t.time.localNow, portWake := false, frameCount := 0, wakeLatched := false }

theorem modPower_portAt (s : State) (f : Power → Power) (p : Nat) : (s.modPower f).portAt p = s.portAt p := rfl

/-- The low rate keeps the CXL link as it is, or narrows one of 256-byte flits to a width that L0p has (R337, R372). -/
theorem atLowRate_kept (s : State) : ∃ (o : List Out) (f : Flyer) (n : Nat) (x : Cxl),
    s.atLowRate = { s with out := o, flyer := f, freeCount := n, cxl := x } ∧
    ((List.range portCount).foldl State.portLow s).flyer = f ∧
    (x.linkState = 3 ∧ [1, 2, 4, 8].contains x.width = true ∧ x.width < s.cxl.width ∧ s.cxl.flit256 = true ∨ x = s.cxl) := by
  obtain ⟨o, f, low⟩ := lowAll_kept (List.range portCount) s
  simp only [State.atLowRate, State.free, low]
  rcases l0p_kept { s with out := o, flyer := f, freeCount := s.freeCount + 1 } (Config.freeValue s.freeCount % 16) with
    refused | ⟨flits, lawful, below, granted⟩
  · exact ⟨o, f, _, s.cxl, refused, rfl, .inr rfl⟩
  · exact ⟨o, f, _, _, granted, rfl, .inl ⟨rfl, lawful, below, flits⟩⟩

@[simp] theorem atLowRate_power (s : State) : s.atLowRate.power = s.power := by
  obtain ⟨o, f, n, x, e, -⟩ := atLowRate_kept s; rw [e]

@[simp] theorem atLowRate_time (s : State) : s.atLowRate.time = s.time := by
  obtain ⟨o, f, n, x, e, -⟩ := atLowRate_kept s; rw [e]

@[simp] theorem atLowRate_store (s : State) : s.atLowRate.store = s.store := by
  obtain ⟨o, f, n, x, e, -⟩ := atLowRate_kept s; rw [e]

@[simp] theorem atLowRate_mem (s : State) : s.atLowRate.mem = s.mem := by
  obtain ⟨o, f, n, x, e, -⟩ := atLowRate_kept s; rw [e]

theorem atLowRate_portAt (s : State) {p : Nat} (h : p < 4) : s.atLowRate.portAt p =
    if (s.portAt p).state ≠ .down then { s.portAt p with state := .lowRate } else s.portAt p := by
  have low := low_in (List.range portCount) s p List.nodup_range (List.mem_range.2 h)
  obtain ⟨o, f, n, x, e, ports, -⟩ := atLowRate_kept s
  rw [e, ← low, State.portAt, State.portAt, ports]

theorem reachDoze_power (s : State) : s.reachDoze.power = { s.power with
    state := .doze, target := .doze, inTransition := false, exiting := false, lastEntry := s.time.now,
    dozeNow := (s.power.periodMs, s.power.tempWake, s.power.activityWake), lastSample := s.time.localNow, portWake := false,
    frameCount := 0, wakeLatched := false } := by
  simp only [State.reachDoze, State.modPower_power, enter_power, enter_time, atLowRate_power, atLowRate_time]

theorem reachDoze_portAt (s : State) {p : Nat} (h : p < 4) : s.reachDoze.portAt p =
    if (s.portAt p).state ≠ .down then { s.portAt p with state := .lowRate } else s.portAt p := by
  rw [State.reachDoze, modPower_portAt, enter_portAt, atLowRate_portAt s h]

theorem reachDoze_store (s : State) : s.reachDoze.store = s.store := by
  rw [State.reachDoze, State.modPower_store, enter_store, atLowRate_store]

theorem reachDoze_mem (s : State) : s.reachDoze.mem = s.mem := by
  rw [State.reachDoze, State.modPower_mem, enter_mem, atLowRate_mem]

theorem reachDoze_cxl (s : State) :
    s.reachDoze.cxl.linkState = 3 ∧ [1, 2, 4, 8].contains s.reachDoze.cxl.width = true ∧ s.reachDoze.cxl.width < s.cxl.width ∧
      s.cxl.flit256 = true ∨ s.reachDoze.cxl.linkState = s.cxl.linkState ∧ s.reachDoze.cxl.width = s.cxl.width := by
  obtain ⟨lds, told⟩ := (enter_told s.atLowRate .doze).cxl
  obtain ⟨o, f, n, x, e, -, link⟩ := atLowRate_kept s
  have reached : s.reachDoze.cxl = { x with lds := lds } := by
    rw [State.reachDoze, State.modPower_cxl, told, State.modPower_cxl, e]
  rw [reached]
  exact link.imp_right fun same => by rw [same]; exact ⟨rfl, rfl⟩

/-- DOZE_ENTRY_READY of a quiet module: Doze, the response, and the exit where a wake was latched (R497, R505). -/
theorem exec_dozeEntryReady {s : State} (hold : s.power.state = .hold) (going : s.power.inTransition = true)
    (doze : s.power.target = .doze) (quiet : s.quiet = true) :
    exec .dozeEntryReady s = .next (if s.power.wakeLatched then s.reachDoze.answerPower.modPower fun p =>
      { p with exiting := true, inTransition := true, target := .run, wakeSource := s.power.wakeSource, wakeDuringEntry := true,
               wakeN := true }
    else s.reachDoze.answerPower) := by
  have row : exec .dozeEntryReady s = execDozeEntryReady s := rfl
  have kept := atLowRate_power s
  rw [row, execDozeEntryReady, if_pos ⟨hold, going, doze, quiet⟩]
  unfold State.reachDoze
  unfold State.atLowRate at kept ⊢
  generalize (List.range portCount).foldl State.portLow s = low at kept ⊢
  rw [← kept]

/-- The claim of R497 and R505: Doze is reached as `State.reachDoze` says, and a latched wake starts the exit. -/
theorem dozeEntry : Claims.DozeEntry := by
  intro s hold going doze
  refine ⟨fun busy => ?busy, fun quiet => ?quiet⟩
  case busy => exact if_neg fun ⟨_, _, _, quiet⟩ => by rw [busy] at quiet; cases quiet
  case quiet =>
    refine ⟨s.reachDoze, ?_⟩
    simp only [reachDoze_power, reachDoze_store, reachDoze_mem, true_and]
    refine ⟨fun p h up => ?low, fun p h down => ?down, reachDoze_cxl s, fun unlatched => ?stays, fun latched => ?wakes⟩
    case low => rw [reachDoze_portAt s h, if_pos up]
    case down => rw [reachDoze_portAt s h, if_neg (not_not_intro down)]
    case stays => rw [exec_dozeEntryReady hold going doze quiet, if_neg (ne_true_of_eq_false unlatched)]
    case wakes => rw [exec_dozeEntryReady hold going doze quiet, if_pos latched]

/-! ## Wake sources (R500, R505, R536) -/

/-- A wake source met in Doze starts the exit (R500). -/
theorem metWake_asleep {s : State} (doze : s.power.state = .doze) (stays : s.power.exiting = false) (n : Nat) :
    s.metWake n = s.modPower fun p => { p with exiting := true, inTransition := true, target := .run, wakeSource := n,
                                               wakeDuringEntry := false, lastWake := s.time.now, wakeN := true } :=
  if_pos ⟨doze, by rw [stays]; rfl⟩

/-- A module that does not sleep latches a wake source at most (R505). -/
theorem metWake_of_not_asleep {s : State} (awake : s.power.state ≠ .doze ∨ s.power.exiting = true) (n : Nat) :
    s.metWake n = if s.enteringDoze ∧ !s.power.wakeLatched then
      s.modPower fun p => { p with wakeLatched := true, wakeSource := n, lastWake := s.time.now } else s :=
  if_neg fun ⟨doze, stays⟩ => awake.elim (· doze) fun exiting => by rw [exiting] at stays; cases stays

theorem enteringDoze_iff {s : State} :
    s.enteringDoze = true ↔ s.power.inTransition = true ∧ s.power.target = .doze ∧ s.power.state ≠ .doze := by
  simp [State.enteringDoze, and_assoc]

/-- POWER_STATE_SET does nothing while another one waits (R505). -/
theorem exec_powerStateSet_waits {m slot : Nat} {s : State} {w : CmdRef} (unit : m < 1024) (waits : s.power.waiter = some w) :
    exec (.powerStateSet m slot) s = .next s := by
  have row : exec (.powerStateSet m slot) s = execPowerStateSet m slot s := rfl
  rw [row, execPowerStateSet, if_neg (Nat.not_le_of_lt unit)]
  split
  · rfl
  · rw [waits]; rfl

/-- The claim of R505: what a source does is decided by whether the module sleeps, goes to sleep, or neither. -/
theorem wakeSources : Claims.WakeSources := by
  intro s n
  refine ⟨fun doze stays => metWake_asleep doze stays n, fun awake going doze fresh => ?latches, fun awake latched => ?keeps,
    fun asleep exiting _ => ?exits, fun m slot w unit waits => exec_powerStateSet_waits unit waits, reachRun_wakeN s⟩
  case latches => rw [metWake_of_not_asleep (.inl awake), if_pos ⟨enteringDoze_iff.2 ⟨going, doze, awake⟩, by rw [fresh]; rfl⟩]
  case keeps => rw [metWake_of_not_asleep (.inl awake), if_neg fun ⟨_, fresh⟩ => by rw [latched] at fresh; cases fresh]
  case exits => rw [metWake_of_not_asleep (.inr exiting), if_neg fun ⟨entering, _⟩ => (enteringDoze_iff.1 entering).2.2 asleep]

/-! ## DOZE_SAMPLE (R500, R501) -/

/-- The first source that a sample finds met, in the order of the codes; 0 for none (R500). -/
def Power.sampled (p : Power) (hot : Nat) : Nat :=
  if p.portWake then 1 else if max 1 p.dozeNow.2.2 ≤ p.frameCount then 2 else if p.dozeNow.2.1 ≤ hot then 4 else 0

/-- A sample taken: the latch and the count start anew (R501). -/
def State.afterSample (s : State) : State :=
  s.modPower fun p => { p with lastSample := s.time.localNow, frameCount := 0, portWake := false }

theorem exec_dozeSample_due {s : State} (hot : Nat) (doze : s.power.state = .doze) (stays : s.power.exiting = false)
    (due : s.power.lastSample + s.power.dozeNow.1 * 1000000 ≤ s.time.localNow) :
    exec (.dozeSample hot) s =
      .next (if s.power.sampled hot = 0 then s.afterSample else s.afterSample.metWake (s.power.sampled hot)) :=
  if_pos ⟨doze, by rw [stays]; rfl, due⟩

/-- The claim of R500 and R501: a sample that is due wakes the module by the first source that it finds. -/
theorem dozeSample : Claims.DozeSample := by
  intro hot s doze stays p t wake
  have wakes (n : Nat) : s.afterSample.metWake n = wake n := metWake_asleep (s := s.afterSample) doze stays n
  refine ⟨fun early => if_neg fun ⟨_, _, due⟩ => Nat.not_le_of_lt early due, fun due => ?_⟩
  rw [exec_dozeSample_due hot doze stays due]
  refine ⟨fun block => ?block, fun noBlock active => ?active, fun noBlock idle warm => ?warm, fun noBlock idle cool => ?none⟩
  case block =>
    have src : s.power.sampled hot = 1 := if_pos block
    rw [src, if_neg (by decide), wakes]
  case active =>
    have src : s.power.sampled hot = 2 := by rw [Power.sampled, if_neg (ne_true_of_eq_false noBlock), if_pos active]
    rw [src, if_neg (by decide), wakes]
  case warm =>
    have src : s.power.sampled hot = 4 := by
      rw [Power.sampled, if_neg (ne_true_of_eq_false noBlock), if_neg (Nat.not_le_of_lt idle), if_pos warm]
    rw [src, if_neg (by decide), wakes]
  case none =>
    have src : s.power.sampled hot = 0 := by
      rw [Power.sampled, if_neg (ne_true_of_eq_false noBlock), if_neg (Nat.not_le_of_lt idle), if_neg (Nat.not_le_of_lt cool)]
    rw [src, if_pos rfl]; rfl

/-! ## CXL_WAKE_REQUEST (R500, R502) -/

/-- A read of the lent window is held wherever the module holds requests at all: ring 0 is not part of the window (R502). -/
theorem exec_cxlWakeRequest_lent {ld off len : Nat} {s : State} (unit : ld < ldCount) (inside : off + len ≤ lentSpan) :
    exec (.cxlWakeRequest ld true off len none) s =
      .next (if s.holdsRequests then s.holdRequest { ld, lent := true, off, len, data := none } else s) := by
  have row : exec (.cxlWakeRequest ld true off len none) s = execCxlWakeRequest ld true off len none s := rfl
  have reached : ¬ off + len > (if true = true then lentSpan else queueSpan) := Nat.not_lt_of_le inside
  rw [row, execCxlWakeRequest, if_neg (Nat.not_le_of_lt unit), if_neg reached]
  cases holds : s.holdsRequests <;> simp

theorem holdsRequests_of_doze {s : State} (doze : s.power.state = .doze) : s.holdsRequests = true := by
  rw [State.holdsRequests, doze, beq_self_eq_true, Bool.true_or]

theorem holdsRequests_of_settled {s : State} (awake : s.power.state ≠ .doze) (settled : s.power.inTransition = false) :
    s.holdsRequests = false := by
  rw [State.holdsRequests, State.enteringDoze, settled, Bool.false_and, Bool.false_and, Bool.or_false, beq_eq_false_iff_ne]
  exact awake

/-- The claim of R500 and R502: a request to a module in Doze is held with its wake, and an awake module holds none. -/
theorem cxlWake : Claims.CxlWake := by
  intro ld off len s unit inside r
  rw [exec_cxlWakeRequest_lent unit inside]
  refine ⟨fun doze => ?held, fun awake settled => ?served⟩
  case held => rw [if_pos (holdsRequests_of_doze doze)]; rfl
  case served => rw [holdsRequests_of_settled awake settled, if_neg Bool.false_ne_true]

/-! ## DOZE_EXIT_COMPLETE (R499, R502, R504) -/

/-- The ports and the CXL link at their full rate again (R504). -/
def State.atFullRate (s : State) : State := ((List.range portCount).foldl State.portFull s).cxlFull

theorem atFullRate_holdAsked (s : State) : s.atFullRate.holdAsked = s.holdAsked := by
  obtain ⟨f, ports⟩ := fullAll_kept (List.range portCount) s
  obtain ⟨x, link⟩ := cxlFull_kept ((List.range portCount).foldl State.portFull s)
  rw [State.atFullRate, link, ports]; rfl

theorem exec_dozeExitComplete {s : State} (doze : s.power.state = .doze) (exiting : s.power.exiting = true) :
    exec .dozeExitComplete s = .next (s.atFullRate.endDoze s.holdAsked) := by
  rw [← atFullRate_holdAsked]
  exact if_pos ⟨doze, exiting⟩

/-- The end of an exit without Hold (R504). -/
theorem endDoze_run (s : State) : s.endDoze false =
    ((List.range portCount).foldl State.kick s.serveHeld.reachRun.answerPower.applyLatch).fetchAll := by
  rw [State.endDoze, if_neg Bool.false_ne_true]

/-- The end of an exit that POWER_STATE_SET asked to end in Hold (R504). -/
theorem endDoze_hold (s : State) : s.endDoze true =
    ((List.range portCount).foldl State.kick s.serveHeld.reachRun.reachHold.answerPower.applyLatch).fetchAll := by
  rw [State.endDoze, if_pos rfl]

theorem holdAsked_of_none {s : State} (unasked : s.power.waiter = none) : s.holdAsked = false := by
  rw [State.holdAsked, unasked]

theorem holdAsked_of_hold {s : State} {c : Cmd} (waits : s.power.waiter = some c.ref) (only : s.box.inflight = [c])
    (hold : c.param 0 1 = 1) : s.holdAsked = true := by
  simp [State.holdAsked, waits, only, hold]

/-- The claim of R499 and R504: the full rate, then the end that the waiting command asks for. -/
theorem dozeExit : Claims.DozeExit := by
  intro s ports full
  have same : ports.cxl = s.cxl := by
    obtain ⟨f, e⟩ := fullAll_kept (List.range portCount) s; simp only [ports, e]
  have port (p : Nat) (h : p < 4) := full_in (List.range portCount) s p List.nodup_range (List.mem_range.2 h)
  refine ⟨fun doze exiting unasked => ?run, fun w c doze exiting waits only mine hold => ?hold, fun awake => ?awake,
    fun p h low => (port p h).trans (if_pos low), fun p h high => (port p h).trans (if_neg high),
    fun low => ?link, fun other => ?kept⟩
  case run => rw [exec_dozeExitComplete doze exiting, holdAsked_of_none unasked, endDoze_run, State.atFullRate]
  case hold =>
    subst mine
    rw [exec_dozeExitComplete doze exiting, holdAsked_of_hold waits only hold, endDoze_hold, State.atFullRate]
  case awake =>
    exact if_neg fun ⟨doze, exiting⟩ => awake.elim (· doze) fun stays => by rw [stays] at exiting; cases exiting
  case link =>
    have widened : full = { ports with cxl := { ports.cxl with linkState := 2, width := ports.cxl.trainedWidth } } :=
      if_pos (by rw [same, low])
    rw [widened, same]; exact ⟨rfl, rfl⟩
  case kept =>
    have unchanged : full = ports := if_neg (by rw [same]; exact other)
    rw [unchanged, same]

/-- Settles O54: Hold and Doze are entered, woken from and left as R495 to R505 say. -/
theorem powerStates : Obligations.PowerStates := ⟨holdEntry, dozeEntry, wakeSources, dozeSample, cxlWake, dozeExit⟩

end Sys2Proof.Machine
end

section
/-!
The machine as a whole: a step is the front command or one tick (R476, R482, R537), canonical memories that read alike are
equal, and what flags, vectors, event records and responses write (R5–R7, R351, R380–R384, R392, R393, R463, R540).
-/
namespace Sys2Proof.Machine

/-! ## Steps -/

theorem step_cons {s : State} {c : Instr} {cs : List Instr} (h : s.pending = c :: cs) : step s = exec c { s with pending := cs } := by
  rw [step, h]

theorem step_nil {s : State} (h : s.pending = []) : step s = .next s.tick := by rw [step, h]

/-- Settles O1: a step runs the front command on the queue's rest. -/
theorem stepRunsFrontCommand : Obligations.StepRunsFrontCommand := fun _ _ _ => step_cons

/-- The claim of R476, R482 and R537: a slew that is due takes its nanosecond, and otherwise both counts advance. -/
theorem idleTick : Claims.IdleTick := by
  intro s idle
  refine ⟨s.tick, step_nil idle, ?_, fun level => ?level, fun gains due => ?gains, fun loses due => ?loses⟩
  · unfold State.tick; dsimp only; repeat' split
    all_goals rfl
  case level => exact congrArg State.time (if_neg fun ⟨slews, due⟩ => level.elim slews (Nat.not_lt_of_le due))
  case gains => rw [State.tick, if_pos ⟨ne_of_gt gains, due⟩, if_pos gains]; exact ⟨rfl, rfl, rfl⟩
  case loses => rw [State.tick, if_pos ⟨ne_of_lt loses, due⟩, if_neg (not_lt_of_gt loses)]; exact ⟨rfl, rfl, rfl⟩

/-- Settles O2: a step on an empty queue is one tick (DESIGN CHOICE, log 1). -/
theorem idleStepIsOneTick : Obligations.IdleStepIsOneTick := idleTick

/-! ## Memory (R216) -/

/-- A canonical memory that starts above an address reads zero there, and its first byte is not zero. -/
theorem Mem.read_head {k : Nat} {v : Byte} {m : Mem} {lo : Nat} (h : Mem.wfFrom lo ((k, v) :: m) = true) :
    lo ≤ k ∧ v ≠ 0 ∧ Mem.wfFrom (k + 1) m = true ∧ Mem.read ((k, v) :: m) k = v := by
  simp only [Mem.wfFrom, Bool.and_eq_true, decide_eq_true_eq, bne_iff_ne] at h
  exact ⟨h.1.1, h.1.2, h.2, if_pos rfl⟩

/-- Canonical memories that read alike are the same data. -/
theorem Mem.ext_from {m : Mem} : ∀ {n : Mem} {lo : Nat}, Mem.wfFrom lo m = true → Mem.wfFrom lo n = true →
    (∀ a, m.read a = n.read a) → m = n := by
  induction m with
  | nil =>
    intro n lo _ hn same
    cases n with
    | nil => rfl
    | cons c n =>
      obtain ⟨-, nonzero, -, reads⟩ := Mem.read_head hn
      exact absurd ((same c.1).trans reads).symm nonzero
  | cons c m ih =>
    obtain ⟨k, v⟩ := c
    intro n lo hm hn same
    obtain ⟨-, hv, htail, reads⟩ := Mem.read_head hm
    cases n with
    | nil => exact absurd (reads.symm.trans (same k)) hv
    | cons d n =>
      obtain ⟨j, w⟩ := d
      obtain ⟨-, hw, hrest, reads'⟩ := Mem.read_head hn
      have level : k = j := by
        rcases Nat.lt_trichotomy k j with below | level | above
        · have : Mem.read ((j, w) :: n) k = 0 := Mem.read_of_lt (lo := j) (by simpa [Mem.wfFrom, hrest] using hw) below
          exact absurd (reads.symm.trans ((same k).trans this)) hv
        · exact level
        · have : Mem.read ((k, v) :: m) j = 0 := Mem.read_of_lt (lo := k) (by simpa [Mem.wfFrom, htail] using hv) above
          exact absurd (reads'.symm.trans ((same j).symm.trans this)) hw
      subst level
      have value : v = w := reads.symm.trans ((same k).trans reads')
      subst value
      refine congrArg _ (ih htail hrest fun a => ?_)
      by_cases here : k = a
      · subst here; rw [Mem.read_of_lt htail (Nat.lt_succ_self k), Mem.read_of_lt hrest (Nat.lt_succ_self k)]
      · simpa only [Mem.read, here, if_false] using same a

/-- Settles O4: memory reads back what is written and is canonical (R216). -/
theorem memoryLaws : Obligations.MemoryLaws :=
  ⟨fun _ _ _ wf => ⟨Mem.wf_writeN wf, Mem.writeN_all wf⟩, fun _ _ => Mem.ext_from⟩

/-! ## Flags, vectors and the service level -/

theorem satInc_toNat (b : Byte) : (satInc b).toNat = min 255 (b.toNat + 1) := by
  have := b.isLt
  unfold satInc
  split
  · next h => subst h; rfl
  · next h =>
    have : b.toNat ≠ 255 := fun e => h (BitVec.eq_of_toNat_eq e)
    rw [BitVec.toNat_add]; simp; omega

/-- A flag's counter stands at a place of its own (R6). -/
theorem flagCount_setFlag_other (s : State) {f : Flag} {row b : Nat} (hf : f.2 < 32) (hb : b < 32) (h : (row, b) ≠ f) :
    (s.setFlag f).flagCount row b = s.flagCount row b := by
  have apart : row * 32 + b ≠ f.1 * 32 + f.2 := fun e => h (Prod.ext (by dsimp only; omega) (by dsimp only; omega))
  simp only [State.flagCount, State.setFlag, tget_tset_other _ _ _ _ apart]

/-- The claim of R5, R6 and R7. -/
theorem flagCounters : Claims.FlagCounters := by
  intro s f hf
  refine ⟨flagWord_setFlag s f, ?_, fun row h => ?_, fun row b hb h => flagCount_setFlag_other s hf hb h, fun row v => ⟨?_, rfl⟩,
    fun row first n b hb h1 h2 => ?_, fun row first n b hb h => ?_, fun _ _ _ => rfl⟩
  · rw [flagCount_setFlag s f.1 f.2 f.2, if_pos rfl, satInc_toNat]
  · simp only [State.flagWord, State.setFlag, tget_tset_other _ _ _ _ h]
  · simp only [State.flagWord, State.clearFlags, tget_tset_same, Option.getD_some]
  · rw [flagCount_clear s row first n b hb, if_pos ⟨h1, h2⟩]
  · rw [flagCount_clear s row first n b hb, if_neg (by omega)]

theorem raiseMboxVector_on {s : State} {m d : Nat} (v : Nat) (h : (s.mbox m).ld = some d) : s.raiseMboxVector m v = s.raiseVector d v := by
  rw [State.raiseMboxVector, h]

/-- A vector touches its own LD alone. -/
theorem raiseVector_ld (s : State) {d d' : Nat} (v : Nat) (h : d' ≠ d) : (s.raiseVector d v).ld d' = s.ld d' := by
  unfold State.raiseVector
  split
  · rfl
  · rw [ld_modLd, if_neg h]

/-- The claim of R351 and R521. -/
theorem vectors : Claims.Vectors := by
  intro s m v d there
  rw [raiseMboxVector_on v there, State.raiseVector]
  refine ⟨fun on => if_pos on, fun off new => ?_, fun off waits => ?_, fun d' h => ?_⟩
  · rw [if_neg (by simp [off]), State.modLd, if_neg new]
  · rw [if_neg (by simp [off]), State.modLd, if_pos waits]
  · exact raiseVector_ld s v h

/-- The claim of R463. -/
theorem serviceLevel : Claims.ServiceLevel := by
  intro s ready
  refine ⟨fun same => if_pos (by simp [same]), fun differs => ?_⟩
  rw [State.refreshLevel, if_neg (by simp [ready, differs])]

/-- Settles O5: flags and their counters, vectors, and the service level (R5–R7, R351, R463, R521). -/
theorem flagsAndVectors : Obligations.FlagsAndVectors := ⟨flagCounters, vectors, serviceLevel⟩

/-! ## Events (R392, R393, R540) -/

theorem inBand_minor (s : State) {v : Nat} (h : v < 2) : s.inBand v = s := if_neg fun g => Nat.not_le_of_lt h g.1

theorem inBand_first {s : State} {v : Nat} (h : 2 ≤ v) (first : s.box.lastInBand = none) :
    s.inBand v = { s with box := { s.box with lastInBand := some s.time.localNow } }.emit (.inBand v) := by
  simp [State.inBand, first, h]

theorem inBand_after {s : State} {v t : Nat} (last : s.box.lastInBand = some t) : s.inBand v =
    if v ≥ 2 ∧ t + 100000000 ≤ s.time.localNow then
      { s with box := { s.box with lastInBand := some s.time.localNow } }.emit (.inBand v) else s := by
  simp [State.inBand, last]

/-- The claim of R540: the records go out first, and the interrupt follows where one is due. -/
theorem inBandInterrupts : Claims.InBandInterrupts := by
  intro s c towards d told fired
  obtain ⟨u, hu, raised, time, last⟩ := raise_split s c towards d
  have same : told = u := hu.symm
  have fire : ({ u with box := { u.box with lastInBand := some u.time.localNow } } : State).emit (.inBand c.sev) = fired := by
    simp only [fired, same, time]
  rw [raised, same]
  refine ⟨fun minor => inBand_minor u minor, fun major first => ?_, fun t major last' due => ?_, fun t last' early => ?_⟩
  · rw [inBand_first major (last.trans first), fire]
  · rw [inBand_after (last.trans last'), if_pos ⟨major, by rw [time]; exact due⟩, fire]
  · rw [inBand_after (last.trans last'), if_neg (by rw [time]; omega)]

/-- Settles O6: severities 2 and 3 interrupt, once per 100 ms (R540). -/
theorem eventsInterrupt : Obligations.EventsInterrupt := inBandInterrupts

theorem pushEvent_room {s : State} {m : Nat} (e : EventRec) (room : (s.mbox m).evWritten < (s.mbox m).evRead + 256)
    (noneWait : ∀ x ∈ s.box.overflow, x.1 ≠ m) (noneCounted : ∀ x ∈ s.box.summaries, x.1 ≠ m) : s.pushEvent m e = s.writeEvent m e := by
  have free : (s.mbox m).ringFull = false := by simpa [Mbox.ringFull, eventSlots] using room
  have waits : (s.box.overflow.any (fun x => x.1 == m) || s.box.summaries.any (fun x => x.1 == m)) = false := by
    simpa [List.any_eq_false] using ⟨fun a b h => noneWait (a, b) h, fun a b h => noneCounted (a, b) h⟩
  rw [State.pushEvent]
  exact if_pos (by rw [free, waits]; rfl)

/-- A record that equals one under way to a mailbox (R393). -/
def equalRecord (m : Nat) (e : EventRec) (x : Nat × EventRec) : Bool :=
  x.1 == m && x.2.code == e.code && x.2.tenant == e.tenant && x.2.detail == e.detail

theorem equalRecord_iff {m : Nat} {e : EventRec} {x : Nat × EventRec} : equalRecord m e x = true ↔
    x.1 = m ∧ x.2.code = e.code ∧ x.2.tenant = e.tenant ∧ x.2.detail = e.detail := by
  simp [equalRecord, and_assoc]

/-- With the ring full a record joins an equal one that waits, or waits itself while there is room. -/
theorem pushEvent_full {s : State} {m : Nat} (e : EventRec) (full : (s.mbox m).evRead + 256 ≤ (s.mbox m).evWritten) :
    (s.box.overflow.any (equalRecord m e) = true →
      s.pushEvent m e = { s with box := { s.box with overflow := bumpFirst (equalRecord m e) 1 s.box.overflow } }) ∧
    (s.box.overflow.any (equalRecord m e) = false → s.box.overflow.length < 65536 →
      s.pushEvent m e = { s with box := { s.box with overflow := s.box.overflow ++ [(m, e)] } }) := by
  have held : (s.mbox m).ringFull = true := by simpa [Mbox.ringFull, eventSlots] using full
  refine ⟨fun equal => ?_, fun new room => ?_⟩
  all_goals rw [State.pushEvent]; refine (if_neg (by simp [held])).trans ?_
  · exact if_pos equal
  · exact (if_neg (ne_true_of_eq_false new)).trans (if_pos room)

/-- The claim of R392 and R393. -/
theorem eventRecords : Claims.EventRecords := by
  intro s m e b
  refine ⟨fun room noneWait noneCounted => pushEvent_room e room noneWait noneCounted, fun full new room => ?_,
    fun before x after full waits code tenant detail fresh => ?_⟩
  · refine (pushEvent_full e full).2 (List.any_eq_false.2 fun y hy => ?_) room
    rw [equalRecord_iff]; exact new y hy
  · have hit : equalRecord m e (m, x) = true := equalRecord_iff.2 ⟨rfl, code, tenant, detail⟩
    have first : ∀ y ∈ before, equalRecord m e y = false := fun y hy =>
      Bool.eq_false_iff.2 fun h => fresh y hy (equalRecord_iff.1 h)
    rw [(pushEvent_full e full).1 (List.any_eq_true.2 ⟨(m, x), by simp [waits], hit⟩), waits, bumpFirst_hit _ _ hit _ _ _ first]

/-! ## Responses (R380, R381, R384) -/

theorem respBytes_length (c : Cmd) (st detail retry : Nat) (phase : Bool) (head : Nat) (result : List Byte) :
    (respBytes c st detail retry phase head result).length = 32 := by
  simp [respBytes, toLe_length, padTo_length]

/-- A raised vector writes an LD's waiting vectors or goes out. -/
theorem raiseMboxVector_kept (s : State) (m v : Nat) : ∃ out cxl, s.raiseMboxVector m v = { s with out := out, cxl := cxl } := by
  unfold State.raiseMboxVector State.raiseVector
  split
  · split <;> exact ⟨_, _, rfl⟩
  · exact ⟨_, _, rfl⟩

/-- The state in which bytes stand in the next completion slot of a mailbox, which counts one completion more. -/
def State.inSlot (s : State) (m : Nat) (bs : List Byte) : State :=
  let b := s.mbox m
  State.setMbox { s with mem := s.mem.areaWrite b.cqArea (b.cqBase + b.cqWritten % b.depth * 32) bs } m
    { b with cqWritten := b.cqWritten + 1 }

/-- A response stands in its slot, and a vector may be raised. -/
theorem writeResponse_eq (s : State) (c : Cmd) (st detail retry : Nat) (result : List Byte) :
    let b := s.mbox c.mb
    let bs := respBytes c st detail retry (decide (b.cqWritten / b.depth % 2 = 0)) b.sqHead result
    ∃ out cxl, s.writeResponse c st detail retry result = { s.inSlot c.mb bs with out := out, cxl := cxl } := by
  intro b bs
  show ∃ out cxl, (if bit 0 c.flags then s.inSlot c.mb bs else (s.inSlot c.mb bs).raiseMboxVector c.mb c.mb) = _
  split
  · exact ⟨_, _, rfl⟩
  · exact raiseMboxVector_kept ..

theorem mbox_setMbox (s : State) (m n : Nat) (b : Mbox) : (s.setMbox m b).mbox n = if n = m then b else s.mbox n := by
  split
  · next h => subst h; simp [State.mbox, State.setMbox]
  · next h => simp [State.mbox, State.setMbox, tget_tset_other _ _ _ _ h]

/-- The claim of R380, R381 and R384. -/
theorem responseFrame : Claims.ResponseFrame := by
  intro s c st detail retry result wf b off t
  obtain ⟨out, cxl, e⟩ := writeResponse_eq s c st detail retry result
  let bs := respBytes c st detail retry (decide (b.cqWritten / b.depth % 2 = 0)) b.sqHead result
  have mem : t.mem = s.mem.areaWrite b.cqArea off bs := congrArg State.mem e
  have long : bs.length = 32 := respBytes_length ..
  have box (m : Nat) : t.mbox m = if m = c.mb then { b with cqWritten := b.cqWritten + 1 } else s.mbox m := by
    rw [show t = _ from e]; exact mbox_setMbox _ _ _ _
  refine ⟨fun exist differ => ?_, ?_, fun m other => ?_, fun a far => ?_, ?_⟩
  · have reads := Mem.areaRead_write (ar := b.cqArea) (bs := bs) (off := off) wf (by rwa [long]) (by rwa [long])
    rw [mem, ← long, reads]
    simp only [bs, respBytes, decide_eq_true_eq]
  · rw [box, if_pos rfl]
  · rw [box, if_neg other]
  · rw [mem]; exact Mem.areaWrite_far wf a (by rwa [long])
  · rw [show t = _ from e]; exact ⟨rfl, rfl, rfl, rfl, rfl, rfl, rfl, rfl, rfl⟩

/-- Settles O7: records enter their rings or wait, and a response writes its slot (R380, R381, R384, R392, R393). -/
theorem eventRingsAndResponses : Obligations.EventRingsAndResponses := ⟨eventRecords, responseFrame⟩

end Sys2Proof.Machine
end

section
/-!
Module commands (R385, R401, R402), LD_CONFIGURE (R340, R376) and the commands of mailboxes and tenants (R374–R380, R393,
R403, R441): past its checks each is one update of the state.
-/
namespace Sys2Proof.Machine

/-! ## The interface and the module (R385, R401) -/

/-- The claim of R385 for GET_INTERFACE_VERSION. -/
theorem getInterfaceVersion : Claims.GetInterfaceVersion := by
  intro m slot s c tag turn
  exact done_of turn (body := cmdGetInterfaceVersion) rfl

/-- The claim of R385 for SET_INTERFACE_VERSION. -/
theorem setInterfaceVersion : Claims.SetInterfaceVersion := by
  intro m slot s c tag turn
  refine ⟨fun level alone => ?_, fun other => ?_⟩
  · refine done_of turn (body := cmdSetInterfaceVersion) ?_
    refine (req_then (beq_iff_eq.2 level)).trans ((req_then (beq_iff_eq.2 alone)).trans ?_)
    simp only [Ctx.p, level]; rfl
  · refine err0_of turn (body := cmdSetInterfaceVersion) ?_ (by decide)
    have refused : (c.param 0 2 == 0x0100) = false := beq_eq_false_iff_ne.2 other
    simp only [cmdSetInterfaceVersion, Ctx.p, refused, req_false, err_bind]

/-- The claim of R401. -/
theorem moduleInfo : Claims.ModuleInfo := by
  intro m slot s c tag turn
  refine done_of turn (body := cmdModuleInfo) ?_
  cases node : s.cfg.nodeId <;> simp [cmdModuleInfo, node]

/-! ## MODULE_CONFIGURE (R402) -/

/-- Without sessions NODE_ID and MAC_PREFIX may be set. -/
theorem no_sessions {s : State} (h : s.flyer.sessions = []) : (!(!s.flyer.sessions.isEmpty)) = true := by rw [h]; rfl

/-- A change of the marks notes that the pool has sunk below LOW_WATER (R226). -/
theorem noteLow_eq (s : State) (was : Bool) :
    s.noteLow was = if was = false ∧ s.belowLow = true then s.setFlag Flag.lowWaterHit else s := by
  simp [State.noteLow]

/-- A size of the lent window that the pool allows (R238). -/
theorem lentCheck_shrinks {s : State} {v : Nat} (h : v < s.cfg.lentGib) (clear : s.lentCovered 0 ((s.cfg.lentGib - v) * 2 ^ 30) = false) :
    s.lentCheck v = .ok () := by
  rw [State.lentCheck]
  refine (if_neg (Nat.not_lt_of_lt h)).trans ?_
  rw [clear]; rfl

theorem lentCheck_grows {s : State} {v : Nat} (h : s.cfg.lentGib < v)
    (fits : s.store.dramUsed.length ≤ s.store.poolSlots - (v - s.cfg.lentGib) * 16384)
    (above : s.cfg.lowWater * (s.store.poolSlots - (v - s.cfg.lentGib) * 16384) ≤
      (s.store.poolSlots - (v - s.cfg.lentGib) * 16384 - s.store.dramUsed.length) * 1024) :
    s.lentCheck v = .ok () := by
  rw [State.lentCheck]
  refine (if_pos h).trans ?_
  dsimp only
  rw [decide_eq_true fits, decide_eq_false (Nat.not_lt_of_le above)]; rfl

section
variable {c : Cmd} {tag : W16} {s : State} (item : c.param 0 2 = 6) (size : c.param 8 8 ≤ 512)
include item size

theorem moduleConfigure_lent : cmdModuleConfigure { c, tag } s =
    if s.store.lentWaiter.isSome then .ok (.wait (s.modStore fun t => { t with lentNext := t.lentNext ++ [(c.ref, c.param 8 8)] }))
    else if c.param 8 8 = s.cfg.lentGib then .ok (.done s (toLe 8 s.cfg.lentGib))
    else within 0 (s.lentCheck (c.param 8 8)) >>= fun _ => .ok (.wait (s.lentBegin c.ref (c.param 8 8))) := by
  simp only [cmdModuleConfigure, Ctx.p, item]
  exact inRange_then (decide_eq_true size)

/-- A change of LENT_GIB that the pool allows begins (R238). -/
theorem moduleConfigure_lentBegin (idle : s.store.lentWaiter = none) (differs : c.param 8 8 ≠ s.cfg.lentGib)
    (fits : s.lentCheck (c.param 8 8) = .ok ()) :
    cmdModuleConfigure { c, tag } s = .ok (.wait (s.lentBegin c.ref (c.param 8 8))) := by
  rw [moduleConfigure_lent item size, idle, if_neg (by simp), if_neg differs, fits]; rfl

end

/-- The claim of R402 and R238, item by item. -/
theorem moduleConfigure : Claims.ModuleConfigure := by
  intro m slot s c tag turn v item
  refine ⟨fun is low free => ?node, fun is low free => ?mac, fun is low bound => ?admin, fun is least most free => ?tables,
    fun is low low1 low2 low3 => ?marks, fun is size busy => ?queued, fun is size idle same => ?level,
    fun is shrinks size idle clear => ?shrinks, fun is grows size idle fits above => ?grows,
    fun is least most => ?orphan, fun is least most => ?rotation⟩
  case node =>
    refine done_of turn (body := cmdModuleConfigure) ?_
    simp only [cmdModuleConfigure, Ctx.p, show c.param 0 2 = 1 from is]
    refine (req_then (no_sessions free)).trans ?_
    cases s.cfg.nodeId <;> rfl
  case mac =>
    refine done_of turn (body := cmdModuleConfigure) ?_
    simp only [cmdModuleConfigure, Ctx.p, show c.param 0 2 = 2 from is]
    exact req_then (no_sessions free)
  case admin =>
    refine wait_of turn (body := cmdModuleConfigure) ?_
    simp only [cmdModuleConfigure, Ctx.p, show c.param 0 2 = 3 from is]
    exact req_then bound
  case tables =>
    refine done_of turn (body := cmdModuleConfigure) ?_
    simp only [cmdModuleConfigure, Ctx.p, show c.param 0 2 = 4 from is]
    exact (inRange_then (decide_eq_true ⟨least, most⟩)).trans (req_then (congrArg (!·) free))
  case marks =>
    refine done_of turn (body := cmdModuleConfigure) ?_
    simp only [cmdModuleConfigure, Ctx.p, show c.param 0 2 = 5 from is, noteLow_eq]
    exact mode_then (decide_eq_true ⟨low1, low2, low3⟩)
  case queued =>
    refine wait_of turn (body := cmdModuleConfigure) ?_
    rw [moduleConfigure_lent is size, if_pos busy]
  case level =>
    refine done_of turn (body := cmdModuleConfigure) ?_
    rw [moduleConfigure_lent is size, idle, if_neg (by simp), if_pos same, ← same]
  case shrinks =>
    refine wait_of turn (body := cmdModuleConfigure) ?_
    exact moduleConfigure_lentBegin is size idle shrinks.ne (lentCheck_shrinks shrinks clear)
  case grows =>
    refine wait_of turn (body := cmdModuleConfigure) ?_
    exact moduleConfigure_lentBegin is size idle grows.ne' (lentCheck_grows grows fits above)
  case orphan =>
    refine done_of turn (body := cmdModuleConfigure) ?_
    simp only [cmdModuleConfigure, Ctx.p, show c.param 0 2 = 7 from is]
    exact inRange_then (decide_eq_true ⟨least, most⟩)
  case rotation =>
    refine done_of turn (body := cmdModuleConfigure) ?_
    simp only [cmdModuleConfigure, Ctx.p, show c.param 0 2 = 8 from is]
    exact inRange_then (decide_eq_true ⟨least, most⟩)

/-! ## LD_CONFIGURE (R340, R376) -/

/-- Past its checks LD_CONFIGURE writes the mailbox's LD, state and level. -/
theorem cmdLdConfigure_ok {c : Cmd} {tag : W16} {s : State} (least : 1 ≤ c.param 0 2) (most : c.param 0 2 ≤ 1023)
    (unit : c.param 2 1 ≤ 15 ∨ c.param 2 1 = 0xFF) (open1 : s.ldLocked (s.mbox (c.param 0 2)).ld = false)
    (open2 : s.ldLocked (if c.param 2 1 = 0xFF then none else some (c.param 2 1)) = false) :
    let b := s.mbox (c.param 0 2)
    let towards := if c.param 2 1 = 0xFF then none else some (c.param 2 1)
    let st := if b.state = .draining then .draining else if b.bound && towards.isSome then MboxState.active else .disabled
    cmdLdConfigure { c, tag } s = .ok (.done (s.setMbox (c.param 0 2)
      { b with ld := towards, state := st, level := if st = .active ∧ b.state ≠ .active then 0x0100 else b.level }) []) := by
  refine (inRange_then (decide_eq_true ⟨least, most⟩)).trans ((inRange_then (decide_eq_true unit)).trans ?_)
  refine req_then ?_
  show (!s.ldLocked (s.mbox (c.param 0 2)).ld && !s.ldLocked (if c.param 2 1 = 0xFF then none else some (c.param 2 1))) = true
  rw [open1, open2]; rfl

/-- The claim of R340, R376 and R385. -/
theorem ldConfigure : Claims.LdConfigure := by
  intro m slot s c tag turn b towards least most unit open1 open2
  have body := cmdLdConfigure_ok (tag := tag) least most unit open1 open2
  refine ⟨fun drains => ?_, fun stays bound some_ld => ?_, fun stays none_or => ?_⟩
  all_goals refine done_of turn (body := cmdLdConfigure) (body.trans ?_)
  · simp only [show (s.mbox (c.param 0 2)).state = .draining from drains]; simp [b, towards, drains]
  · have some' : (if c.param 2 1 = 0xFF then none else some (c.param 2 1)) = some (c.param 2 1) := if_neg (by omega)
    by_cases active : b.state = .active <;> simp_all [b, towards]
  · have idle : (b.bound && towards.isSome) = false := by
      rcases none_or with h | h <;> simp [h, towards]
    simp only [b, towards] at stays idle ⊢
    simp [stays, idle]

/-- Settles O9: the module's commands and LD_CONFIGURE (R340, R376, R385, R401, R402). -/
theorem moduleCommands : Obligations.ModuleCommands :=
  ⟨getInterfaceVersion, setInterfaceVersion, moduleInfo, moduleConfigure, ldConfigure⟩

/-! ## Mailboxes (R374–R380, R393) -/

/-- MAILBOX_BIND of a mailbox other than 0 charges and maps its two rings (R374, R377). -/
theorem cmdMailboxBind_other {c : Cmd} {tag : W16} {s s1 s2 : State} {sq cq : Area} {ws wc : Nat} (other : c.param 0 2 ≠ 0)
    (range : c.param 0 2 ≤ 1023) (power : pow2In 16 4096 (c.param 2 2) = true) (live : (s.tenant? c.tenantField).isSome = true)
    (unbound : (s.mbox (c.param 0 2)).bound = false) (idle : (s.mbox (c.param 0 2)).state = .disabled)
    (quota : s.dramNeed c.tenantField (slotsFor (c.param 2 2 * 64) + slotsFor (c.param 2 2 * 32)) = .ok ())
    (ring1 : s.newRing (c.param 0 2) c.tenantField (c.param 2 2 * 64) = .ok (sq, ws, s1))
    (ring2 : s1.newRing (c.param 0 2) c.tenantField (c.param 2 2 * 32) = .ok (cq, wc, s2)) :
    let b := s.mbox (c.param 0 2)
    cmdMailboxBind { c, tag } s = .ok (.done (s2.setMbox (c.param 0 2)
      { ld := b.ld, ring := b.ring, evWritten := b.evWritten, evRead := b.evRead, eventHead := b.eventHead, bound := true,
        tenant := c.tenantField, depth := c.param 2 2, events := bit 0 (c.param 4 1), sqArea := sq, cqArea := cq,
        state := if b.ld.isSome then .active else .disabled }) (toLe 8 ws ++ toLe 8 wc)) := by
  refine (if_neg other).trans ((req_then live).trans ((inRange_then (decide_eq_true range)).trans ((inRange_then power).trans ?_)))
  refine (if_neg other).trans ((req_then (Bool.and_eq_true_iff.2 ⟨congrArg (!·) unbound, beq_iff_eq.2 idle⟩)).trans ?_)
  exact (within_then quota).trans ((within_then ring1).trans (within_then ring2))

/-- MAILBOX_BIND of mailbox 0 takes two rings of the administrative LD and answers in the old completion ring (log 23). -/
theorem cmdMailboxBind_zero {c : Cmd} {tag : W16} {s s1 s2 s3 s4 : State} {sq cq : Area} {ws wc : Nat} (zero : c.param 0 2 = 0)
    (power : pow2In 16 4096 (c.param 2 2) = true) (none' : c.tenantField = 0) (alone : s.inflightOf 0 = 1)
    (take1 : s.takeSlots (slotsFor (c.param 2 2 * 64)) = some (sq, s1)) (take2 : s1.takeSlots (slotsFor (c.param 2 2 * 32)) = some (cq, s2))
    (map1 : s2.mapArea 0 none sq = some (ws, s3)) (map2 : s3.mapArea 0 none cq = some (wc, s4)) :
    let s5 := s4.writeResponse c St.ok 0 0 (toLe 8 ws ++ toLe 8 wc)
    cmdMailboxBind { c, tag } s = .ok (.wait ((({ s5 with box := { s5.box with inflight := s5.box.inflight.filter fun d =>
      d.seq != c.seq } }.dropArea (s.mbox 0).sqArea).dropArea (s.mbox 0).cqArea).modMbox 0 fun b =>
        { b with depth := c.param 2 2, sqArea := sq, cqArea := cq, cqBase := 0, sqHead := 0, sqTail := 0, cqHead := 0,
                 cqWritten := 0, cqRead := 0 })) := by
  intro s5
  simp only [cmdMailboxBind, Ctx.p, zero, if_true]
  refine (req_then (beq_iff_eq.2 none')).trans ((inRange_then (by decide)).trans ((inRange_then power).trans ?_))
  refine (req_then (beq_iff_eq.2 alone)).trans ?_
  refine (found_then take1).trans ((found_then take2).trans ((found_then map1).trans ((found_then map2).trans ?_)))
  rfl

/-- The claim of R374, R376 and R377. -/
theorem mailboxBind : Claims.MailboxBind := by
  intro m slot s c tag turn k depth power low range
  refine ⟨fun sq ws s1 cq wc s2 other live unbound idle quota ring1 ring2 => ?_,
    fun sq cq ws wc s1 s2 s3 s4 zero none' alone take1 take2 map1 map2 => ?_⟩
  · exact done_of turn (body := cmdMailboxBind) (cmdMailboxBind_other other range power live unbound idle quota ring1 ring2)
  · exact wait_of turn (body := cmdMailboxBind) (cmdMailboxBind_zero zero power none' alone take1 take2 map1 map2)

/-- The claim of R376. -/
theorem mailboxUnbind : Claims.MailboxUnbind := by
  intro m slot s c tag turn k _ least most bound
  refine wait_of turn (body := cmdMailboxUnbind) ?_
  exact (inRange_then (decide_eq_true ⟨least, most⟩)).trans (req_then bound)

/-- A write of a mailbox register acts for the mailbox's LD alone (R342). -/
theorem onPage_own {ld m : Nat} {s : State} (f : State → State) (unit : ld < 16) (box : m < 1024) (own : (s.mbox m).ld = some ld) :
    onPage ld m s f = .next (f s) := by
  rw [onPage, if_pos ⟨unit, box⟩, if_pos own]

theorem onPage_foreign {ld m : Nat} {s : State} (f : State → State) (unit : ld < 16) (box : m < 1024) (foreign : (s.mbox m).ld ≠ some ld) :
    onPage ld m s f = .next s := by
  rw [onPage, if_pos ⟨unit, box⟩, if_neg foreign]

/-- A value that is out of range, or for a mailbox that is not ACTIVE, is not taken. -/
theorem not_taken {b : Mbox} {n v : Nat} (h : b.state ≠ .active ∨ n ≤ v) : ¬ (b.state = .active ∧ v < n) :=
  fun ⟨active, low⟩ => h.elim (· active) (Nat.not_le_of_lt low)

/-- The claim of R379. -/
theorem sqTailWrite : Claims.SqTailWrite := by
  intro ld m v s unit box b row
  refine ⟨fun own active low => (onPage_own _ unit box own).trans (congrArg _ (if_pos ⟨active, low⟩)),
    fun own refused => (onPage_own _ unit box own).trans (congrArg _ (if_neg (not_taken refused))), onPage_foreign _ unit box⟩

/-- The claim of R378 and R380. -/
theorem cqHeadWrite : Claims.CqHeadWrite := by
  intro ld m v s unit box b row
  refine ⟨fun own active low => (onPage_own _ unit box own).trans (congrArg _ (if_pos ⟨active, low⟩)),
    fun own refused => (onPage_own _ unit box own).trans (congrArg _ (if_neg (not_taken refused))), onPage_foreign _ unit box⟩

/-- The claim of R393. -/
theorem eventHeadWrite : Claims.EventHeadWrite := by
  intro ld m v s unit box b row
  refine ⟨fun own active low => (onPage_own _ unit box own).trans (congrArg _ (if_pos ⟨active, low⟩)),
    fun own refused => (onPage_own _ unit box own).trans (congrArg _ (if_neg (not_taken refused))), onPage_foreign _ unit box⟩

/-- Settles O10: binding and unbinding, and the writes of SQ_TAIL, CQ_HEAD and EVENT_HEAD (R374–R380, R393). -/
theorem mailboxCommands : Obligations.MailboxCommands := ⟨mailboxBind, mailboxUnbind, sqTailWrite, cqHeadWrite, eventHeadWrite⟩

/-! ## Tenants (R403, R441) -/

/-- The claim of R403, R435, R436 and R514: no quota is above its limit, so the search for one fails. -/
theorem tenantCreate : Claims.TenantCreate := by
  intro m slot s c tag turn id old quota low within_limits free random
  refine done_of turn (body := cmdTenantCreate) ?_
  have same : tidOf c.tenantField = id := Nat.mod_eq_of_lt low
  have none_bad : ((List.range 8).find? fun k => decide (quota.getD k 0 > quotaMax k)) = none := by
    refine List.find?_eq_none.2 fun k hk => ?_
    have hk : k < 8 := List.mem_range.1 hk
    have := within_limits k hk
    simpa [quota, List.getD_eq_getElem?_getD, List.getElem?_map, List.getElem?_range hk] using this
  unfold cmdTenantCreate
  dsimp only
  split
  · next k bad => exact absurd (none_bad.symm.trans bad) (Option.some_ne_none k).symm
  rw [same]
  refine (req_then (congrArg (!·) free)).trans ?_
  rw [if_neg (by rw [random]; exact Bool.false_ne_true)]; rfl

/-- The claim of R225, R403 and R514 for QUOTA_SET. -/
theorem quotaSet : Claims.QuotaSet := by
  intro m slot s c tag turn q kind limit
  refine done_of turn (body := cmdQuotaSet) ?_
  exact (mode_then (decide_eq_true kind)).trans (inRange_then (decide_eq_true limit))

/-- The claim of R403 for TENANT_INFO. -/
theorem tenantInfo : Claims.TenantInfo := by
  intro m slot s c tag turn long
  exact done_of turn (body := cmdTenantInfo) (if_pos long)

/-- The claim of R403 and R441 for TENANT_DESTROY. -/
theorem tenantDestroy : Claims.TenantDestroy := by
  intro m slot s c tag t turn name begun ended marked there live gen stays
  refine wait_of turn (body := cmdTenantDestroy) ?_
  refine (found_then there).trans ((req_then ?_).trans (req_then (congrArg (!·) stays)))
  rw [live, beq_iff_eq.2 gen]; rfl

/-- What an erased tenant leaves is its generation (R403, R441). -/
theorem eraseTenant_tenants (s : State) (tid : Nat) (t : Tenant) :
    (s.eraseTenant tid t).tenants = tset s.tenants tid { gen := t.gen } :=
  congrArg (tset · tid _) (lentFold_tenants t.lent s.zeroFree)

/-- A tenant that is there: its teardown ends when it has drained (R441). -/
theorem exec_teardownZeroingComplete {tid : Nat} {s : State} {t : Tenant} (there : tget s.tenants tid = some t) :
    let tag : W16 := BitVec.ofNat 16 (t.gen * 4096 + tid)
    let u := (s.eraseTenant tid t).raise Ev.tenantErased .module [tag.toNat, t.zeroed, t.creelReleased]
    exec (.teardownZeroingComplete tid) s = if t.teardown && s.tenantDrained tag then
      .next (t.waiter.elim u fun w => u.answer w St.ok []).fetchAll else .next s := by
  show execTeardownZeroingComplete tid s = _
  rw [execTeardownZeroingComplete, there]
  dsimp only
  cases t.waiter <;> rfl

/-- The claim of R438 and R441. -/
theorem teardownComplete : Claims.TeardownComplete := by
  intro tid s t there tag u
  rw [exec_teardownZeroingComplete there]
  refine ⟨fun w torn drained waits => ?_, fun torn drained idle => ?_, fun early => ?_, ?_⟩
  · rw [torn, drained, waits]; rfl
  · rw [torn, drained, idle]; rfl
  · exact if_neg fun h => early.elim (ne_false_of_eq_true (Bool.and_eq_true_iff.1 h).1)
      (ne_false_of_eq_true (Bool.and_eq_true_iff.1 h).2)
  · rw [eraseTenant_tenants, tget_tset_same]

/-- Settles O11: tenants are made, measured and destroyed as R403, R435 to R441 and R514 say. -/
theorem tenantCommands : Obligations.TenantCommands := ⟨tenantCreate, quotaSet, tenantInfo, tenantDestroy, teardownComplete⟩

end Sys2Proof.Machine
end

section
/-!
Queues and trigger lists (R303, R305, R309, R316–R318, R407): creation takes a ring and a free index past the checks;
destruction, cancellation and release act on an object that the command's tenant owns.
-/
namespace Sys2Proof.Machine

/-- A ring that the tenant may have is taken. -/
theorem ring_then {α : Type} {c : Cmd} {tag : W16} {s t : State} {bytes w : Nat} {a : Area} {f : Area × Nat × State → Except CmdErr α}
    (h : s.newRing c.mb tag bytes = .ok (a, w, t)) : (Ctx.ring { c, tag } s bytes >>= f) = f (a, w, t) := within_then h

/-! ## Completion queues (R303, R407) -/

/-- The claim of R303. -/
theorem cqCreate : Claims.CqCreate := by
  intro m slot s s1 s2 c tag a w i turn power ring picked
  refine done_of turn (body := cmdCqCreate) ?_
  refine (inRange_then power).trans ((ring_then ring).trans ?_)
  exact found_then picked

/-- The claim of R407 for CQ_DESTROY. -/
theorem cqDestroy : Claims.CqDestroy := by
  intro m slot s c tag q turn own
  refine ⟨fun unnamed => ?_, fun named => ?_⟩
  · refine done_of turn (body := cmdCqDestroy) ?_
    exact (found_then own).trans (req_then (congrArg (!·) unnamed))
  · refine err0_of turn (body := cmdCqDestroy) ((found_then own).trans ?_) (by decide)
    show (req (!s.cqNamed (c.param 0 2)) St.rangeInUse >>= _) = _
    rw [named]; rfl

/-! ## Job queues (R119, R318, R407) -/

/-- The claim of R119 and R407 for JOB_QUEUE_CREATE. -/
theorem jobQueueCreate : Claims.JobQueueCreate := by
  intro m slot s s1 s2 c tag a w i turn own power wait ring picked q
  obtain ⟨cq, own⟩ := Option.isSome_iff_exists.1 own
  refine done_of turn (body := cmdJobQueueCreate) ?_
  refine (found_then own).trans ((inRange_then power).trans ((inRange_then (decide_eq_true wait)).trans ?_))
  refine (ring_then ring).trans ?_
  exact found_then picked

/-- The claim of R407 for JOB_QUEUE_DESTROY (log 25). -/
theorem jobQueueDestroy : Claims.JobQueueDestroy := by
  intro m slot s c tag turn own
  obtain ⟨q, own⟩ := Option.isSome_iff_exists.1 own
  refine ⟨fun r t ends => ?_, fun t stays => ?_⟩
  · refine done_of turn (body := cmdJobQueueDestroy) ((found_then own).trans ?_)
    simp only [Ctx.p, ends]; rfl
  · refine wait_of turn (body := cmdJobQueueDestroy) ((found_then own).trans ?_)
    simp only [Ctx.p, stays]; rfl

/-- The claim of R407 for JOB_CANCEL. -/
theorem jobCancel : Claims.JobCancel := by
  intro m slot s t c tag n turn own cancelled
  obtain ⟨q, own⟩ := Option.isSome_iff_exists.1 own
  refine done_of turn (body := cmdJobCancel) ((found_then own).trans ?_)
  simp only [Ctx.p, cancelled]; rfl

/-- The claim of R407 for COMBINE_RELEASE. -/
theorem combineRelease : Claims.CombineRelease := by
  intro m slot s c tag k turn there own
  refine done_of turn (body := cmdCombineRelease) ?_
  exact (found_then there).trans (req_then (beq_iff_eq.2 own))

/-- The claim of R318. -/
theorem queueStatus : Claims.QueueStatus := by
  intro m slot s c tag turn
  refine ⟨fun q kind low own => ?_, fun i k kind own => ?_⟩
  · refine done_of turn (body := cmdQueueStatus) ?_
    simp only [cmdQueueStatus, Ctx.p, kind, if_true]
    exact (mode_then rfl).trans ((req_then (decide_eq_true low)).trans (found_then own))
  · refine done_of turn (body := cmdQueueStatus) ?_
    simp only [cmdQueueStatus, Ctx.p, kind]
    exact (mode_then rfl).trans (found_then own)

/-- Settles O12: completion and job queues are made, destroyed, cancelled and reported as R303, R318 and R407 say. -/
theorem queueCommands : Obligations.QueueCommands :=
  ⟨cqCreate, cqDestroy, jobQueueCreate, jobQueueDestroy, queueStatus, jobCancel, combineRelease⟩

/-! ## Trigger lists (R305, R309, R316, R317) -/

/-- The claim of R305. -/
theorem triggerListCreate : Claims.TriggerListCreate := by
  intro m slot s s1 s2 s3 s4 c tag a sl sg w i turn store staging depth store1 store2 staging1 staging2 power quota ring slabs1
    slabs2 picked l
  refine done_of turn (body := cmdTriggerListCreate) ?_
  refine (inRange_then (decide_eq_true ⟨store1, store2⟩)).trans ((inRange_then (decide_eq_true ⟨staging1, staging2⟩)).trans ?_)
  refine (inRange_then power).trans ((within_then quota).trans ((ring_then ring).trans ?_))
  refine (within_then slabs1).trans ((within_then slabs2).trans ?_)
  exact found_then picked

/-- The claim of R317 and R407 for TRIGGER_LIST_DESTROY. -/
theorem triggerListDestroy : Claims.TriggerListDestroy := by
  intro m slot s c tag turn own
  obtain ⟨l, own⟩ := Option.isSome_iff_exists.1 own
  exact done_of turn (body := cmdTriggerListDestroy) (found_then own)

/-- The claim of R309. -/
theorem triggerPost : Claims.TriggerPost := by
  intro m slot s t c tag l e turn own posted
  exact done_of turn (body := cmdTriggerPost) ((found_then own).trans (within_then posted))

/-- The entry that a command of its list's tenant names (R317). -/
theorem entry_then {α : Type} {x : Ctx} {s : State} {e : TrigEntry} {l : TrigList} {f : Nat × TrigEntry → Except CmdErr α}
    (there : tget s.work.entries (trIndex (x.p32 0)) = some e) (handle : e.handle = x.p32 0)
    (list : tget s.work.lists e.list = some l) (own : l.tenant = x.tag) : (x.entry s >>= f) = f (trIndex (x.p32 0), e) := by
  have found_entry : x.entry s = .ok (trIndex (x.p32 0), e) := by
    refine (found_then there).trans (req_then ?_)
    rw [list, handle]; simp [own]
  rw [found_entry]; rfl

/-- The claim of R317 for TRIGGER_CANCEL. -/
theorem triggerCancel : Claims.TriggerCancel := by
  intro m slot s c tag e l turn h there handle list own
  exact done_of turn (body := cmdTriggerCancel) (entry_then there handle list own)

/-- The claim of R316. -/
theorem triggerResume : Claims.TriggerResume := by
  intro m slot s c tag e l turn h there handle list own
  refine ⟨fun halted => ?_, fun ready => ?_⟩
  · refine done_of turn (body := cmdTriggerResume) ?_
    exact (entry_then there handle list own).trans (req_then halted)
  · refine err0_of turn (body := cmdTriggerResume) ((entry_then there handle list own).trans ?_) (by decide)
    show (req e.halted St.wrongState >>= _) = _
    rw [ready]; rfl

/-- Settles O13: trigger lists and their entries are made, posted, removed and resumed as R305 to R317 and R407 say. -/
theorem triggerCommands : Obligations.TriggerCommands :=
  ⟨triggerListCreate, triggerListDestroy, triggerPost, triggerCancel, triggerResume⟩

end Sys2Proof.Machine
end

section
/-!
Skeins (R30, R33, R51, R69, R404, R405), programs (R195–R198) and tables (R78, R112, R406): the checks of each command in
their order, then what it makes or removes.
-/
namespace Sys2Proof.Machine

/-! ## Checks under a condition -/

/-- A check that is made only under a condition, and passes then. -/
theorem guarded_then {ε α : Type} {p : Prop} [Decidable p] {x : Except ε Unit} {f : Unit → Except ε α} (h : p → x = .ok ()) :
    (if p then x >>= f else f ()) = f () := by
  split
  · next hp => rw [h hp]; rfl
  · rfl

/-- One of two checks is made, and passes. -/
theorem either_then {ε α : Type} {p : Prop} [Decidable p] {x y : Except ε Unit} {f : Unit → Except ε α} (hx : p → x = .ok ())
    (hy : ¬ p → y = .ok ()) : (if p then x >>= f else y >>= f) = f () := by
  split
  · next hp => rw [hx hp]; rfl
  · next hp => rw [hy hp]; rfl

/-! ## Skeins (R51, R404, R405) -/

/-- A skein that the command's tenant owns is named by its handle. -/
theorem skein_then {α : Type} {c : Cmd} {tag : W16} {s : State} {o : Nat} {k : Skein} {f : Nat × Skein → Except CmdErr α}
    (own : s.skeinOf tag (BitVec.ofNat 32 (c.param o 4)) = .ok k) :
    (Ctx.skein { c, tag } s o >>= f) = f (skIndex (BitVec.ofNat 32 (c.param o 4)), k) := by
  have named : Ctx.skein { c, tag } s o = .ok (skIndex (BitVec.ofNat 32 (c.param o 4)), k) := within_then own
  rw [named]; rfl

/-- A tenant that may take slots is within its DRAM quota (R225). -/
theorem quota_of_dramNeed {s : State} {tag : W16} {n : Nat} (h : s.dramNeed tag n = .ok ()) : s.overQuota tag qDram n = false := by
  unfold State.dramNeed at h
  cases exceeds : s.overQuota tag qDram n with
  | false => rfl
  | true => rw [exceeds] at h; cases h

/-- The geometry of R405. -/
theorem skeinGeometry_ok {c : Cmd} {tag : W16} (l1 : 1 ≤ c.param 0 2) (l2 : c.param 0 2 ≤ 256)
    (h1 : 1 ≤ c.param 2 2) (h2 : c.param 2 2 ≤ 256) (e1 : 32 ≤ c.param 4 2) (e2 : c.param 4 2 ≤ 1024)
    (group : c.param 4 2 % fmtGroup (c.param 6 1) = 0) : skeinGeometry { c, tag } = .ok () := by
  refine (inRange_then (decide_eq_true ⟨l1, l2⟩)).trans ((inRange_then (decide_eq_true ⟨h1, h2⟩)).trans ?_)
  exact if_pos (Bool.and_eq_true_iff.2 ⟨decide_eq_true ⟨e1, e2⟩, beq_iff_eq.2 group⟩)

/-- The claim of R30, R33, R69 and R405. -/
theorem skeinCreate : Claims.SkeinCreate := by
  intro m slot s s1 s2 c tag idx slab turn layers heads el fmt slubMax slubShift opt prog format _ noProgram sketches narrow bound
    l1 l2 h1 h2 e1 e2 group slubs shift lease1 lease2 quota dram index taken h
  refine done_of turn (body := cmdSkeinCreate) ?_
  refine (mode_then (decide_eq_true format)).trans ?_
  refine (mode_then (c := !bit 3 opt || bit 0 opt) ?_).trans ?_
  · cases program : bit 3 opt
    · rfl
    · exact sketches program
  refine (mode_then (c := !bit 0 opt || decide (el ≤ 512)) ?_).trans ?_
  · cases sketch : bit 0 opt
    · rfl
    · exact decide_eq_true (narrow sketch)
  refine (guarded_then fun program => ?_).trans ?_
  · obtain ⟨p, loaded, mine⟩ := bound program
    show req (match tget s.images.whorl prog with | some p => p.bound.contains tag | none => false) _ = _
    rw [loaded]; exact if_pos mine
  dsimp only
  rw [skeinGeometry_ok l1 l2 h1 h2 e1 e2 group, ok_bind]
  refine (inRange_then (decide_eq_true slubs)).trans ((inRange_then (decide_eq_true shift)).trans ?_)
  refine (inRange_then (decide_eq_true ⟨lease1, lease2⟩)).trans ?_
  refine (req_then (Bool.and_eq_true_iff.2 ⟨congrArg (!·) quota, congrArg (!·) (quota_of_dramNeed dram)⟩)).trans ?_
  refine (within_then dram).trans ((found_then index).trans ?_)
  exact found_then taken

/-- The claim of R51 for SKEIN_DESTROY. -/
theorem skeinDestroy : Claims.SkeinDestroy := by
  intro m slot s c tag k turn h own
  exact done_of turn (body := cmdSkeinDestroy) (skein_then own)

/-- The claim of R404 for SKEIN_INFO. -/
theorem skeinInfo : Claims.SkeinInfo := by
  intro m slot s c tag k turn res own
  refine ⟨fun empty => ?_, fun full long => ?_⟩
  · refine done_of turn (body := cmdSkeinInfo) ((skein_then own).trans ((if_pos (.inl empty)).trans ?_))
    show Except.ok (CmdOut.done (if c.dataLen = 0 then s else _) _) = _
    rw [if_pos empty]
  · refine done_of turn (body := cmdSkeinInfo) ((skein_then own).trans ((if_pos (.inr long)).trans ?_))
    show Except.ok (CmdOut.done (if c.dataLen = 0 then s else _) _) = _
    rw [if_neg full]; rfl

/-- The claim of R404 for SKEIN_SET_HINT. -/
theorem skeinSetHint : Claims.SkeinSetHint := by
  intro m slot s c tag k turn h own
  exact done_of turn (body := cmdSkeinSetHint) (skein_then own)

/-- Settles O14: skeins are made, retired, described and hinted as R30, R33, R51, R69, R404 and R405 say. -/
theorem skeinCommands : Obligations.SkeinCommands := ⟨skeinCreate, skeinDestroy, skeinInfo, skeinSetHint⟩

/-! ## Tables (R78, R112, R406) -/

/-- The claim of R78, R112 and R406 for TABLE_LOAD. -/
theorem tableLoad : Claims.TableLoad := by
  intro m slot s t c tag i slots turn img kind leas digest long rescale projection kinds quota picked space x
  refine done_of turn (body := cmdTableLoad) ?_
  refine (mode_then (c := kind == 1 || kind == 2) (by simpa using kinds)).trans ?_
  refine (if_pos (c := img.length ≥ 64) long).trans ?_
  refine (either_then (p := kind = 1) rescale fun other => projection (kinds.resolve_left other)).trans ?_
  refine (req_then (congrArg (!·) quota)).trans ((found_then picked).trans ?_)
  exact found_then space

/-- The claim of R406 for TABLE_UNLOAD. -/
theorem tableUnload : Claims.TableUnload := by
  intro m slot s c tag t turn own
  exact done_of turn (body := cmdTableUnload) (found_then own)

/-! ## Programs (R195–R198) -/

/-- What PROGRAM_LOAD does with an image that has passed the checks of R196: R197 and R198. -/
def State.keepProgram (s : State) (want : Nat) (tag : W16) (p : Place) (prog : Prog) (words : Nat) (result : Nat → List Byte) : CmdM :=
  match p with
  | .tier => do
    let used := match s.images.tier with
      | some t => t.code.length + t.consts.length
      | none => 0
    req (match s.images.tierNext with | some (some _) => false | _ => true) St.noResource
    req (decide (used + words ≤ p.words)) St.noResource
    return .done { s with images := { s.images with tierNext := some (some { prog with bound := [] }) } } (result 0)
  | _ => do
    let t := s.images.store p
    match t.find? fun e => e.2.digest == prog.digest && !e.2.bound.isEmpty with
    | some e =>
      let bound := if e.2.bound.contains tag then e.2.bound else e.2.bound ++ [tag]
      return .done (s.setStore p (tset t e.1 { e.2 with bound })) (result e.1)
    | none =>
      let (slot, s) ← found St.noResource (if want = 0xFF then s.pick t p.slots else if want < p.slots ∧ !thas t want then some (want, s) else none)
      req (decide (storeUsed t + words ≤ p.words)) St.noResource
      return .done (s.setStore p (tset t slot prog)) (result slot)

/-- Who may load for a place: mailbox 0 without a tenant for the tier engine, and a live tenant otherwise (R196). -/
def State.mayLoad (s : State) (c : Cmd) (p : Place) : Prop :=
  (p = .tier → c.mb = 0 ∧ c.tenantField = 0) ∧ (p ≠ .tier → c.mb = 0 → (s.tenant? c.tenantField).isSome = true)

section
variable {s : State} {c : Cmd} {p : Place} (may : s.mayLoad c p)
include may

theorem mayLoad_named : (c.mb != 0 || c.tenantField == 0 || (s.tenant? c.tenantField).isSome) = true := by
  by_cases tier : p = .tier
  · simp [(may.1 tier).2]
  · by_cases box : c.mb = 0
    · simp [may.2 tier box]
    · simp [box]

theorem mayLoad_place : (p != .tier || c.mb == 0) = true := by
  by_cases tier : p = .tier
  · simp [(may.1 tier).1]
  · simp [tier]

theorem mayLoad_tag :
    (if c.mb = 0 then (if p = .tier then c.tenantField == 0 else (s.tenant? c.tenantField).isSome) else true) = true := by
  by_cases tier : p = .tier
  · simp [tier, (may.1 tier).2]
  · by_cases box : c.mb = 0
    · simp [tier, box, may.2 tier box]
    · simp [box]

end

/-- A valid image of a place (R195, R196). -/
structure ValidImage (img : List Byte) (p : Place) : Prop where
  magic : field img 0 4 = 0x55455242
  version : field img 4 1 = 1
  place : placeOf (field img 5 1) = some p
  zero1 : zeroIn img 10 2 = true
  zero2 : zeroIn img 16 48 = true
  some_code : 1 ≤ field img 6 2
  consts : field img 8 2 ≤ 256
  fits : field img 6 2 + field img 8 2 ≤ p.words
  length : img.length = 112 + 4 * (field img 6 2 + field img 8 2)
  digest : sha384 (img.take (img.length - 48)) = img.drop (img.length - 48)
  checks : programCheck p ((wordsOf ((img.drop 64).take (4 * (field img 6 2 + field img 8 2)))).take (field img 6 2))
    ((wordsOf ((img.drop 64).take (4 * (field img 6 2 + field img 8 2)))).drop (field img 6 2)) = none

/-- PROGRAM_LOAD of a valid image keeps it (R196–R198). -/
theorem cmdProgramLoad_valid {c : Cmd} {tag : W16} {s : State} {p : Place} (may : s.mayLoad c p)
    (valid : ValidImage (s.windowRead c.ld c.dataOff c.dataLen) p) :
    let img := s.windowRead c.ld c.dataOff c.dataLen
    let cw := field img 6 2
    let kw := field img 8 2
    let ws := wordsOf ((img.drop 64).take (4 * (cw + kw)))
    let digest := img.drop (img.length - 48)
    cmdProgramLoad { c, tag } s = s.keepProgram (c.param 0 1) tag p
      { version := BitVec.ofNat 32 (field img 12 4), code := ws.take cw, consts := ws.drop cw, digest, bound := [tag] } (cw + kw)
      fun i => toLe 1 i ++ zeros 3 ++ toLe 4 (worstCount (ws.take cw)) ++ digest.take 8 := by
  intro img cw kw ws digest
  refine (req_then (mayLoad_named may)).trans ?_
  refine (req_then (Bool.and_eq_true_iff.2 ⟨beq_iff_eq.2 valid.magic, beq_iff_eq.2 valid.version⟩)).trans ?_
  refine (found_then valid.place).trans ((req_then (Bool.and_eq_true_iff.2 ⟨valid.zero1, valid.zero2⟩)).trans ?_)
  refine (req_then (Bool.and_eq_true_iff.2 ⟨decide_eq_true ⟨valid.some_code, valid.consts, valid.fits⟩, beq_iff_eq.2 valid.length⟩)).trans ?_
  refine (req_then (beq_iff_eq.2 valid.digest)).trans ?_
  dsimp only
  split
  · next i st bad => exact absurd (valid.checks.symm.trans bad) (by simp)
  refine (req_then (mayLoad_place may)).trans ((req_then (mayLoad_tag may)).trans ?_)
  cases p
  all_goals
    simp only [State.keepProgram, Nat.add_assoc]
    rfl

/-- An image that the tier engine has room for waits for the next sweep (R198). -/
theorem keepProgram_tier {s : State} {want words : Nat} {tag : W16} {prog : Prog} {result : Nat → List Byte}
    (free : s.images.tierNext.bind id = none)
    (room : ((s.images.tier.map fun t => t.code.length + t.consts.length).getD 0) + words ≤ Place.tier.words) :
    s.keepProgram want tag .tier prog words result =
      .ok (.done { s with images := { s.images with tierNext := some (some { prog with bound := [] }) } } (result 0)) := by
  refine (req_then ?_).trans (req_then ?_)
  · rcases next : s.images.tierNext with _ | _ | p
    · rfl
    · rfl
    · rw [next] at free; cases free
  · refine decide_eq_true ?_
    cases here : s.images.tier <;> rw [here] at room <;> exact room

section
variable {s : State} {want words : Nat} {tag : W16} {p : Place} {prog : Prog} {result : Nat → List Byte} (other : p ≠ .tier)
include other

/-- An image that the store holds by its digest gains a binding (R197). -/
theorem keepProgram_held {e : Nat × Prog}
    (held : ((s.images.store p).find? fun e => e.2.digest == prog.digest && !e.2.bound.isEmpty) = some e) :
    s.keepProgram want tag p prog words result = .ok (.done (s.setStore p (tset (s.images.store p) e.1
      { e.2 with bound := if e.2.bound.contains tag then e.2.bound else e.2.bound ++ [tag] })) (result e.1)) := by
  cases p
  case tier => exact absurd rfl other
  all_goals simp only [State.keepProgram, held]; rfl

/-- Another image takes the slot that it names, or any free one (R197). -/
theorem keepProgram_new {i : Nat} {t : State}
    (new : ((s.images.store p).find? fun e => e.2.digest == prog.digest && !e.2.bound.isEmpty) = none)
    (slot : (if want = 0xFF then s.pick (s.images.store p) p.slots
      else if want < p.slots ∧ !thas (s.images.store p) want then some (want, s) else none) = some (i, t))
    (room : storeUsed (s.images.store p) + words ≤ p.words) :
    s.keepProgram want tag p prog words result = .ok (.done (t.setStore p (tset (s.images.store p) i prog)) (result i)) := by
  cases p
  case tier => exact absurd rfl other
  all_goals
    simp only [State.keepProgram, new]
    exact (found_then slot).trans (req_then (decide_eq_true room))

end

theorem Place.slots_le (p : Place) : p.slots ≤ 16 := by cases p <;> decide

/-- The claim of R195 to R198 for PROGRAM_LOAD. -/
theorem programLoad : Claims.ProgramLoad := by
  intro m slot s c tag p turn img cw kw ws code consts digest prog result magic version place zero1 zero2 some_code low fits length
    hash checks
  have valid : ValidImage img p := ⟨magic, version, place, zero1, zero2, some_code, low, fits, length, hash, checks⟩
  refine ⟨fun tier box none' free room => ?tier, fun e other live held => ?held, fun other live new room =>
    ⟨fun named free => ?named, fun i t any picked => ?any⟩⟩
  case tier =>
    subst tier
    refine done_of turn (body := cmdProgramLoad) ((cmdProgramLoad_valid ⟨fun _ => ⟨box, none'⟩, fun h => absurd rfl h⟩ valid).trans ?_)
    exact keepProgram_tier free (by rw [← Nat.add_assoc]; exact room)
  all_goals
    have may : s.mayLoad c p := ⟨fun h => absurd h other, fun _ => live⟩
    refine done_of turn (body := cmdProgramLoad) ((cmdProgramLoad_valid may valid).trans ?_)
  case held => exact keepProgram_held other held
  case named =>
    have not_any : c.param 0 1 ≠ 0xFF := by have := p.slots_le; omega
    refine keepProgram_new other new ?_ (by rw [← Nat.add_assoc]; exact room)
    rw [if_neg not_any, if_pos ⟨named, by rw [free]; rfl⟩]
  case any =>
    refine keepProgram_new other new ?_ (by rw [← Nat.add_assoc]; exact room)
    rw [if_pos any, picked]

/-- The claim of R197 and R198 for PROGRAM_UNLOAD. -/
theorem programUnload : Claims.ProgramUnload := by
  intro m slot s c tag turn
  refine ⟨fun tier box none' zero held => ?_, fun p e place other live there bound => ?_⟩
  · refine done_of turn (body := cmdProgramUnload) ?_
    simp only [cmdProgramUnload, Ctx.p, tier, box, none', zero]
    exact req_then (Bool.and_eq_true_iff.2 ⟨rfl, held⟩)
  · intro used
    have may : s.mayLoad c p := ⟨fun h => absurd h other, fun _ => live⟩
    have body : cmdProgramUnload { c, tag } s = (do
        req (p != .whorl || !used) St.programInUse
        return .done (s.setStore p (unbindProg (s.images.store p) (c.param 1 1) tag)) []) := by
      refine (found_then place).trans ((req_then (mayLoad_place may)).trans ((req_then ?_).trans ?_))
      · by_cases box : c.mb = 0
        · exact (if_pos ⟨box, other⟩).trans (live box)
        · exact (if_neg fun h => box h.1).trans (if_neg box)
      cases p
      case tier => exact absurd rfl other
      all_goals exact (found_then there).trans (req_then bound)
    refine ⟨fun free => done_of turn (body := cmdProgramUnload) (body.trans (req_then ?_)), fun whorl busy => ?_⟩
    · rcases free with rfl | free
      · rfl
      · simp [free]
    · refine err0_of turn (body := cmdProgramUnload) (body.trans ?_) (by decide)
      rw [whorl, busy]; rfl

/-- Settles O16: programs and tables are loaded and unloaded as R78, R112, R195 to R198 and R406 say (log 85). -/
theorem programCommands : Obligations.ProgramCommands := ⟨programLoad, programUnload, tableLoad, tableUnload⟩

end Sys2Proof.Machine
end

section
/-!
Flyer commands (R265, R281–R286, R302, R326–R333, R408, R409): connections, shared receive queues and regions, and what a
port is set to; gates change at the counts that R332 gives.
-/
namespace Sys2Proof.Machine

/-! ## Connections (R281, R282, R408, R409) -/

/-- The claim of R281 and R409. -/
theorem connCreate : Claims.ConnCreate := by
  intro m slot s s1 s2 c tag paths ses i w pool a rxArea turn peer depth rx retry ack srq named session mine queue cq node cls
    retries power rx1 rx2 timeout permitted quota dram index ring slabs h k
  obtain ⟨cq', cq⟩ := Option.isSome_iff_exists.1 cq
  refine done_of turn (body := cmdConnCreate) ?_
  refine (found_then named).trans ((found_then session).trans ((req_then (beq_iff_eq.2 mine)).trans ?_))
  refine (req_then (c := srq == 0xFFFF || (s.srqFor tag srq).isSome) (by simpa using queue)).trans ((found_then cq).trans ?_)
  refine (inRange_then (decide_eq_true node)).trans ((inRange_then (decide_eq_true cls)).trans ?_)
  refine (inRange_then (decide_eq_true retries)).trans ((inRange_then power).trans ?_)
  refine (inRange_then (decide_eq_true ⟨rx1, rx2⟩)).trans ?_
  refine (inRange_then (c := ack == 0 || decide (10 ≤ ack ∧ ack ≤ 10000)) (by simpa using timeout)).trans ?_
  refine (req_then permitted).trans ((within_then (by rw [quota]; rfl)).trans ((within_then dram).trans ?_))
  refine (found_then index).trans ((ring_then ring).trans ?_)
  exact within_then slabs

/-- A connection of the command's tenant is named by its handle. -/
theorem conn_then {α : Type} {c : Cmd} {tag : W16} {s : State} {r : Nat × Conn} {f : Nat × Conn → Except CmdErr α}
    (own : s.connFor tag (BitVec.ofNat 32 (c.param 0 4)) = some r) : (Ctx.conn { c, tag } s >>= f) = f r := found_then own

/-- The claim of R408 for CONN_MODIFY: bit 0 of WHAT names the paths and bit 1 the peer connection. -/
theorem connModify : Claims.ConnModify := by
  intro m slot s c tag i k turn what peer path own works
  have sound : (k.state != .error) = true := bne_iff_ne.2 works
  refine ⟨fun is none' => ?_, fun ps paths => ⟨fun is => ?_, fun is none' => ?_⟩⟩
  all_goals
    refine done_of turn (body := cmdConnModify) ?_
    simp only [cmdConnModify, Ctx.p, pathWords, show c.param 4 1 = _ from is]
  · refine (mode_then rfl).trans ((conn_then own).trans ((req_then sound).trans ((req_then ?_).trans rfl)))
    rw [none']; rfl
  · rw [paths]
    exact (mode_then rfl).trans ((conn_then own).trans ((req_then sound).trans (req_then rfl)))
  · rw [paths]
    refine (mode_then rfl).trans ((conn_then own).trans ((req_then sound).trans ((req_then ?_).trans rfl)))
    rw [none']; rfl

/-- The claim of R282 and R408 for CONN_DRAIN. -/
theorem connDrain : Claims.ConnDrain := by
  intro m slot s c tag i k turn own
  refine ⟨fun ready => ?_, fun other => ?_⟩
  · exact wait_of turn (body := cmdConnDrain) ((conn_then own).trans (req_then (beq_iff_eq.2 ready)))
  · refine err0_of turn (body := cmdConnDrain) ((conn_then own).trans ?_) (by decide)
    show (req (k.state == .ready) St.wrongState >>= _) = _
    rw [beq_eq_false_iff_ne.2 other]; rfl

/-- The claim of R408 for CONN_DESTROY. -/
theorem connDestroy : Claims.ConnDestroy := by
  intro m slot s c tag i k turn s1 ended own first
  have idle : k.destroyWaiter.isNone = true := by rw [first]; rfl
  refine ⟨fun calm => ?_, fun w waits => ?_⟩
  all_goals
    refine wait_of turn (body := cmdConnDestroy) ((conn_then own).trans ((req_then idle).trans ?_))
    dsimp only
  · rw [calm]; rfl
  · rw [waits]; rfl

/-- Settles O17: connections are made, changed, drained and destroyed as R281, R282, R408 and R409 say. -/
theorem connectionCommands : Obligations.ConnectionCommands := ⟨connCreate, connModify, connDrain, connDestroy⟩

/-! ## Shared receive queues and regions (R284, R286, R302, R408) -/

/-- The claim of R302. -/
theorem srqCreate : Claims.SrqCreate := by
  intro m slot s s1 s2 c tag a w i turn least most ring picked
  refine done_of turn (body := cmdSrqCreate) ?_
  refine (inRange_then (decide_eq_true ⟨least, most⟩)).trans ((ring_then ring).trans ?_)
  exact found_then picked

/-- The claim of R408 for SRQ_DESTROY. -/
theorem srqDestroy : Claims.SrqDestroy := by
  intro m slot s c tag q turn used own
  refine ⟨fun free => ?_, fun busy => ?_⟩
  · exact done_of turn (body := cmdSrqDestroy) ((found_then own).trans (req_then (congrArg (!·) free)))
  · refine err0_of turn (body := cmdSrqDestroy) ((found_then own).trans ?_) (by decide)
    show (req (!used) St.rangeInUse >>= _) = _
    rw [busy]; rfl

/-- The claim of R284. -/
theorem regionRegister : Claims.RegionRegister := by
  intro m slot s c tag i pool turn kind rights len key allowed quota index
  refine ⟨fun a w s1 buffer least most whole ring => ?_, fun skein own => ?_⟩
  · have valid : 1 ≤ kind ∧ kind ≤ 3 := by omega
    refine done_of turn (body := cmdRegionRegister) ?_
    refine (mode_then (Bool.and_eq_true_iff.2 ⟨decide_eq_true valid, beq_iff_eq.2 allowed⟩)).trans ?_
    refine (req_then (Bool.or_eq_true_iff.2 (.inl (beq_iff_eq.2 buffer)))).trans ?_
    refine (inRange_then (Bool.or_eq_true_iff.2 (.inr (Bool.and_eq_true_iff.2 ⟨decide_eq_true ⟨least, most⟩, beq_iff_eq.2 whole⟩)))).trans ?_
    refine (within_then (by rw [quota]; rfl)).trans ((if_pos buffer).trans ((ring_then ring).trans ?_))
    exact found_then index
  · have other : kind ≠ 1 := by omega
    have valid : 1 ≤ kind ∧ kind ≤ 3 := by omega
    refine done_of turn (body := cmdRegionRegister) ?_
    refine (mode_then (Bool.and_eq_true_iff.2 ⟨decide_eq_true valid, beq_iff_eq.2 allowed⟩)).trans ?_
    refine (req_then (Bool.or_eq_true_iff.2 (.inr own))).trans ?_
    refine (inRange_then (Bool.or_eq_true_iff.2 (.inl (bne_iff_ne.2 other)))).trans ?_
    refine (within_then (by rw [quota]; rfl)).trans ((if_neg other).trans ?_)
    exact found_then index

/-- The claim of R286. -/
theorem regionDeregister : Claims.RegionDeregister := by
  intro m slot s c tag r turn key own
  exact done_of turn (body := cmdRegionDeregister) (found_then own)

/-- Settles O18: shared receive queues and regions are made and ended as R284, R286, R302 and R408 say. -/
theorem regionCommands : Obligations.RegionCommands := ⟨srqCreate, srqDestroy, regionRegister, regionDeregister⟩

/-! ## Ports (R265, R326–R333) -/

/-- The claim of R265 and R408. -/
theorem linkSpare : Claims.LinkSpare := by
  intro m slot s c tag turn p wl port wave up used spare budget
  refine done_of turn (body := cmdLinkSpare) ?_
  refine (inRange_then (decide_eq_true port)).trans ((inRange_then (decide_eq_true wave)).trans ?_)
  refine (req_then (Bool.and_eq_true_iff.2 ⟨beq_iff_eq.2 up, used⟩)).trans ?_
  exact req_then (Bool.and_eq_true_iff.2 ⟨spare, budget⟩)

/-- The claim of R326 and R330. -/
theorem portConfigure : Claims.PortConfigure := by
  intro m slot s c tag turn qs port quanta
  refine done_of turn (body := cmdPortConfigure) ?_
  refine (inRange_then (decide_eq_true port)).trans (inRange_then ?_)
  rw [List.all_eq_true]
  intro q hq
  simpa using quanta q hq

/-- The claim of R327 and R328. -/
theorem shaperSet : Claims.ShaperSet := by
  intro m slot s c tag turn old burst new cls weight rate1 rate2 burst1 burst2
  refine done_of turn (body := cmdShaperSet) ?_
  refine (inRange_then (decide_eq_true cls)).trans ((inRange_then (decide_eq_true weight)).trans ?_)
  exact (inRange_then (decide_eq_true ⟨rate1, rate2⟩)).trans (inRange_then (decide_eq_true ⟨burst1, burst2⟩))

/-- The claim of R331 to R333. -/
theorem gateSet : Claims.GateSet := by
  intro m slot s c tag turn bytes ws g long zeros port entries cycle runs
  refine done_of turn (body := cmdGateSet) ((if_neg (not_not.2 long)).trans ?_)
  refine (req_then (List.all_eq_true.2 fun w hw => beq_iff_eq.2 (zeros w hw))).trans ((inRange_then (decide_eq_true port)).trans ?_)
  refine (req_then (List.all_eq_true.2 fun e he => decide_eq_true (entries e he))).trans ((req_then (decide_eq_true cycle)).trans ?_)
  refine req_then (List.all_eq_true.2 fun k hk => ?_)
  split
  · next r run => exact decide_eq_true (runs k r (List.mem_range.1 hk) run)
  · rfl

/-- The claim of R332 for GATE_ENTRY_CHANGE. -/
theorem gateEntryChange : Claims.GateEntryChange := by
  intro p s port x
  refine ⟨fun off => (prow port).trans (congrArg _ (if_pos ?_)), fun on awake => (prow port).trans (congrArg _ (if_neg ?_))⟩
  · rw [show (s.portAt p).gates = [] from off]; rfl
  · rw [awake, Bool.not_true, Bool.or_false]
    exact fun empty => on (List.isEmpty_iff.1 empty)

/-- A standby list becomes active at its count, and not before (R332). -/
theorem exec_gateListSwitch {p : Nat} {s : State} {g : List Gate} {base : W64} (port : p < 4) (standby : (s.portAt p).standby = some (g, base))
    (awake : s.awake = true) : exec (.gateListSwitch p) s =
      if (s.portAt p).switchAt base ≤ s.time.now then .next (((s.setPort p
        { s.portAt p with gates := g, gateStart := (s.portAt p).switchAt base, gateEntry := 0, standby := none }).setFlag
          (Flag.gateSwitched p)).kick p)
      else .next s := by
  refine (prow port).trans ?_
  dsimp only
  rw [standby]
  dsimp only
  rw [awake]
  split
  · next due => rw [if_pos due.1]
  · next early => rw [if_neg fun h => early ⟨h, rfl⟩]

/-- Without an active list the switch is at GATE_BASE (log 89). -/
theorem switchAt_none {x : Port} (base : W64) (off : x.gates = []) : x.switchAt base = base := by
  rw [Port.switchAt, off]; rfl

/-- A base that has passed switches at the present cycle's boundary. -/
theorem switchAt_passed {x : Port} {base : W64} (on : x.gates ≠ []) (passed : base ≤ x.gateStart) : x.switchAt base = x.gateStart := by
  rw [Port.switchAt, if_neg fun h => on (List.isEmpty_iff.1 h), if_pos passed]

/-- A base to come switches at the first boundary from then on. -/
theorem switchAt_coming {x : Port} {base : W64} (on : x.gates ≠ []) (coming : x.gateStart < base) : x.switchAt base =
    x.gateStart + BitVec.ofNat 64 (((base - x.gateStart).toNat + gateCycle x.gates - 1) / gateCycle x.gates * gateCycle x.gates) := by
  rw [Port.switchAt, if_neg fun h => on (List.isEmpty_iff.1 h), if_neg (BitVec.not_le.2 coming)]

/-- The claim of R332 and R336 for GATE_LIST_SWITCH. -/
theorem gateListSwitch : Claims.GateListSwitch := by
  intro p s g base port standby x awake
  rw [exec_gateListSwitch port standby awake]
  refine ⟨fun off due => ?_, fun on passed due => ?_, fun on coming n hn due => ?_, fun off early => ?_⟩
  · rw [switchAt_none base off, if_pos due]
  · rw [switchAt_passed on passed, if_pos due]
  · rw [switchAt_coming on coming, ← hn, if_pos due]
  · rw [switchAt_none base off, if_neg (BitVec.not_le.2 early)]

/-- Settles O19: spares, ports, shapers and gates are set and changed as R265, R326 to R333, R336 and R408 say. -/
theorem portCommands : Obligations.PortCommands :=
  ⟨linkSpare, portConfigure, shaperSet, gateSet, gateEntryChange, gateListSwitch⟩

end Sys2Proof.Machine
end

section
/-!
Runs and the table of prefixes (R199–R215, R410) and the tier commands (R227, R230, R233–R235, R411): what each command asks for
past its checks, and what the ends of doffs and reloads do.
-/
namespace Sys2Proof.Machine

/-! ## Runs (R199–R203) -/

/-- Leaves that a run may take: there, resident and GOOD, and none that a job has locked away from tier 0 (R199). -/
structure Runnable (leaves : List (Option Leaf)) (tier : Nat) : Prop where
  all : ∀ x ∈ leaves, ∃ l, x = some l ∧ l.tier ≤ 1 ∧ l.check = .good ∧ (tier = 0 → l.lock = true → l.tier = 0)

section
variable {leaves : List (Option Leaf)} {tier : Nat} (h : Runnable leaves tier)
include h

theorem Runnable.there : leaves.all Option.isSome = true :=
  List.all_eq_true.2 fun x hx => by obtain ⟨l, rfl, -⟩ := h.all x hx; rfl

/-- No leaf of such a run has a property that its tier, check and lock rule out. -/
theorem Runnable.none_has {p : Leaf → Bool}
    (clear : ∀ l, l.tier ≤ 1 → l.check = .good → (tier = 0 → l.lock = true → l.tier = 0) → p l = false) :
    (!(leaves.filterMap id).any p) = true := by
  refine congrArg (!·) (List.any_eq_false.2 fun l hl => ?_)
  obtain ⟨x, hx, e⟩ := List.mem_filterMap.1 hl
  obtain ⟨l', rfl, resident, good, lock⟩ := h.all x hx
  cases e
  rw [clear l resident good lock]; exact Bool.false_ne_true

end

/-- The claim of R199. -/
theorem runCreate : Claims.RunCreate := by
  intro m slot s c tag k i pool turn h b tier keys move s1 own hashed length bobbins leaves quota index
  have runnable : Runnable (keys.map (tget k.leaves)) tier := ⟨fun x hx => by
    obtain ⟨key, hk, rfl⟩ := List.mem_map.1 hx
    exact leaves key hk⟩
  have body (low : tier ≤ 1) : cmdRunCreate { c, tag } s = (do
      let move := if tier = 0 then move else []
      req (!s.overQuota tag qSram (4 * move.length)) St.quotaExceeded
      let (i, pool) ← found St.noResource (s.pfx.runPool.take 262144)
      req (decide (move.length ≤ s.residenceFree)) St.noResource
      let s := (s.charge tag qRun 1).modPfx fun p => { p with runPool := pool }
      if tier = 1 then return .done (s.makeRun i (skIndex h) b) (toLe 4 (rcHandle (pool.gen i) i).toNat ++ toLe 4 (b * k.cap))
      else
        let w : PinWork := { order := s.store.nextTask, waiter := some c.ref, skein := skIndex h, keys, tier := 0, kind := 2, count := b, run := i }
        return .wait (((s.modStore fun t => { t with pins := t.pins ++ [w], nextTask := t.nextTask + 1 }).runTier).endPins)) := by
    refine (mode_then (decide_eq_true low)).trans ((skein_then own).trans ((mode_then hashed).trans ?_))
    refine (inRange_then (decide_eq_true ⟨length, bobbins⟩)).trans ((req_then runnable.there).trans ?_)
    refine (req_then (runnable.none_has fun l resident good _ => ?_)).trans ?_
    · rw [good, beq_eq_false_iff_ne.2 (by omega : l.tier ≠ 3)]; rfl
    refine (req_then (runnable.none_has fun l resident _ _ => beq_eq_false_iff_ne.2 (by omega))).trans ?_
    refine (req_then (runnable.none_has fun l _ good _ => by rw [good]; rfl)).trans ?_
    refine (req_then (runnable.none_has fun l _ _ lock => ?_)).trans ((req_then (congrArg (!·) quota)).trans ?_)
    · by_cases zero : tier = 0
      · by_cases locked : l.lock = true
        · simp [lock zero locked]
        · simp [locked]
      · simp [show c.param 8 1 ≠ 0 from zero, Ctx.p]
    rfl
  refine ⟨fun one room => ?_, fun zero room free => ?_⟩
  · refine done_of turn (body := cmdRunCreate) ((body (by omega)).trans ?_)
    have none_move : (if tier = 0 then move else []) = [] := if_neg (by omega)
    rw [none_move]
    refine (req_then (congrArg (!·) room)).trans ((found_then index).trans ((req_then (decide_eq_true (Nat.zero_le _))).trans ?_))
    exact if_pos one
  · refine wait_of turn (body := cmdRunCreate) ((body (by omega)).trans ?_)
    rw [if_pos zero]
    refine (req_then (congrArg (!·) room)).trans ((found_then index).trans ((req_then (decide_eq_true free)).trans ?_))
    exact if_neg (by omega)

/-- A need that is met goes on. -/
theorem needed_then {α : Type} {c : Bool} {st n : Nat} {f : Unit → Except CmdErr α} (h : c = true) :
    (within n (need c st) >>= f) = f () := by subst h; rfl

/-- The claim of R202. -/
theorem runAttach : Claims.RunAttach := by
  intro m slot s t c tag r k turn len h leaves g run own hash ids layers heads elements format model empty some_tokens inside whole
    sound quota room grown
  refine done_of turn (body := cmdRunAttach) ?_
  refine (found_then run).trans ((skein_then own).trans ((req_then (beq_iff_eq.2 hash)).trans ?_))
  refine (mode_then ?_).trans ?_
  · rw [layers, heads, elements, format, model, empty]; simp
  refine (inRange_then (decide_eq_true ⟨some_tokens, inside, whole⟩)).trans ((req_then (congrArg (!·) sound)).trans ?_)
  refine (within_then quota).trans ((needed_then room).trans ?_)
  exact found_then grown

/-- The claim of R203. -/
theorem runRelease : Claims.RunRelease := by
  intro m slot s c tag r turn i own
  refine ⟨fun creator => ?_, fun gone => ?_⟩
  · exact done_of turn (body := cmdRunRelease) ((found_then own).trans (req_then creator))
  · refine err0_of turn (body := cmdRunRelease) ((found_then own).trans ?_) (by decide)
    show (req r.creator St.wrongState >>= _) = _
    rw [gone]; rfl

/-! ## The table of prefixes (R208–R215) -/

/-- The claim of R208 to R211 (log 52). -/
theorem prefixInsert : Claims.PrefixInsert := by
  intro m slot s c tag r turn first count es waits new n own some_hashes most inside quota room
  have none_waits : (n = 0 ∧ (!es.any waits) = true) ↔ (n = 0 ∧ es.any waits = false) := by rw [Bool.not_eq_true']
  refine ⟨fun all_there => ?_, fun some_new => ?_⟩
  · refine done_of turn (body := cmdPrefixInsert) ((found_then own).trans ?_)
    refine (inRange_then (decide_eq_true ⟨some_hashes, most⟩)).trans ((inRange_then (decide_eq_true inside)).trans ?_)
    refine (req_then (congrArg (!·) quota)).trans ((req_then (decide_eq_true room)).trans ?_)
    exact if_pos (none_waits.2 all_there)
  · refine wait_of turn (body := cmdPrefixInsert) ((found_then own).trans ?_)
    refine (inRange_then (decide_eq_true ⟨some_hashes, most⟩)).trans ((inRange_then (decide_eq_true inside)).trans ?_)
    refine (req_then (congrArg (!·) quota)).trans ((req_then (decide_eq_true room)).trans ?_)
    exact if_neg fun h => some_new (none_waits.1 h)

/-- The claim of R212. -/
theorem prefixRemove : Claims.PrefixRemove := by
  intro m slot s t c tag r n turn first count own most all inside removed
  refine done_of turn (body := cmdPrefixRemove) ((found_then own).trans ?_)
  refine (inRange_then (Bool.and_eq_true_iff.2 ⟨decide_eq_true most, ?_⟩)).trans ?_
  · show (count != 0 || first == 0) = true
    by_cases zero : count = 0
    · simp [all zero]
    · simp [zero]
  refine (inRange_then ?_).trans ?_
  · show (count == 0 || decide (first + count ≤ r.hashes.length)) = true
    simpa using inside
  · exact congrArg (fun u : Nat × State => (Except.ok (CmdOut.done u.2 (toLe 4 u.1)) : CmdM)) removed

/-- The claim of R213. -/
theorem prefixProbe : Claims.PrefixProbe := by
  intro m slot s c tag turn n hs hits some_hashes most long
  refine ⟨fun none_found => ?_, fun e last => ?_⟩
  all_goals
    refine done_of turn (body := cmdPrefixProbe) ((inRange_then (decide_eq_true ⟨some_hashes, most⟩)).trans ?_)
    refine (if_neg (Nat.not_lt_of_le long)).trans ?_
    dsimp only
    split
  · rfl
  · next e found_last => exact absurd ((congrArg List.getLast? none_found).symm.trans found_last) (Option.some_ne_none e).symm
  · next found_none => exact absurd (last.symm.trans found_none) (Option.some_ne_none e)
  · next e' found_last => cases last.symm.trans found_last; rfl

theorem insertOne_nil {s : State} (h : s.pfx.inserts = []) : s.insertOne = s := by rw [State.insertOne, h]

/-- The claim of R210. -/
theorem prefixShift : Claims.PrefixShift := by
  refine fun s => ⟨rfl, fun idle => ?_⟩
  show Host.Outcome.next (State.insertAhead s.insertOne.pfx.inserts.length s.insertOne) = .next s
  rw [insertOne_nil idle, idle]; rfl

/-- A comparison that is due heals what it met, in order (R215). -/
theorem exec_prefixShadowCompare_due {s : State} (fs : List PrefixFault) (due : s.pfx.lastCompare + 10000000000 ≤ s.time.localNow) :
    exec (.prefixShadowCompare fs) s = .next (fs.foldl State.healEntry (s.modPfx fun p => { p with lastCompare := s.time.localNow })) :=
  if_pos due

/-- The claim of R215. -/
theorem prefixShadow : Claims.PrefixShadow := by
  intro s fs
  refine ⟨fun early => if_neg (Nat.not_le_of_lt early), fun due => ⟨exec_prefixShadowCompare_due [] due, fun pos e low shadow => ?_,
    fun ps low some_lost => ?_⟩⟩
  · rw [exec_prefixShadowCompare_due _ due]
    refine congrArg _ ((if_neg (Nat.not_le_of_lt low)).trans ?_)
    dsimp only [State.modPfx]
    rw [shadow]
  · rw [exec_prefixShadowCompare_due _ due]
    have all : (ps.filter fun p => decide (p < prefixSlots)) = ps := List.filter_eq_self.2 fun p hp => decide_eq_true (low p hp)
    refine congrArg _ ?_
    show State.healEntry _ (.shadowLost ps) = _
    simp only [State.healEntry, all]
    exact if_neg fun h => some_lost (List.isEmpty_iff.1 h)

/-- Settles O20: runs and the table of prefixes are kept as R199 to R215 and R410 say (log 52). -/
theorem prefixCommands : Obligations.PrefixCommands :=
  ⟨runCreate, runAttach, runRelease, prefixInsert, prefixRemove, prefixProbe, prefixShift, prefixShadow⟩

end Sys2Proof.Machine
end

section
/-!
The tiers (R41, R42, R48–R51, R224–R235, R404, R411): the commands that ask for doffs, reloads and pins, and the rows in which
the tier engine sweeps, moves, demotes and frees.
-/
namespace Sys2Proof.Machine

/-! ## Tier commands (R227, R230, R233, R234, R411) -/

/-- The claim of R233. -/
theorem skeinDoff : Claims.SkeinDoff := by
  intro m slot s c tag k turn h own
  refine ⟨fun offline => ?_, fun serves busy => ?_, fun serves free => ?_⟩
  · refine err0_of turn (body := cmdSkeinDoff) ((skein_then own).trans ?_) (by decide)
    show (req s.creelServes St.creelOffline >>= _) = _
    rw [offline]; rfl
  · refine err0_of turn (body := cmdSkeinDoff) ((skein_then own).trans ((req_then serves).trans ?_)) (by decide)
    show (req (!thas s.store.reloads (skIndex h)) St.rangeInUse >>= _) = _
    rw [busy]; rfl
  · exact wait_of turn (body := cmdSkeinDoff) ((skein_then own).trans ((req_then serves).trans (req_then (congrArg (!·) free))))

/-- The claim of R227 and R234. -/
theorem skeinReload : Claims.SkeinReload := by
  intro m slot s c tag k turn h busy none' own serves
  have nothing : none' ↔ (k.toReload = 0 ∧ (!busy) = true ∧ (!thas s.store.reloads (skIndex h)) = true) := by
    simp only [none', Bool.not_eq_true']
  refine ⟨fun idle => ?_, fun some_work quota => ?_⟩
  · refine done_of turn (body := cmdSkeinReload) ((skein_then own).trans ((req_then serves).trans ?_))
    exact if_pos (nothing.1 idle)
  · refine wait_of turn (body := cmdSkeinReload) ((skein_then own).trans ((req_then serves).trans ?_))
    exact (if_neg fun h => some_work (nothing.2 h)).trans (within_then quota)

/-- The keys of a range that lies within its rows (R32). -/
theorem tierRange_then {α : Type} {x : Ctx} {k : Skein} {keys : List Nat} {f : List Nat → Except CmdErr α}
    (range : tierRange x k = .ok keys) : (tierRange x k >>= f) = f keys := by rw [range]; rfl

/-- The claim of R230 for TIER_PIN. -/
theorem tierPin : Claims.TierPin := by
  intro m slot s c tag k keys turn h tier ls move creel w own range sound serves sram dram low
  refine wait_of turn (body := cmdTierPin) ?_
  refine (mode_then (decide_eq_true low)).trans ((skein_then own).trans ((tierRange_then range).trans ?_))
  refine (req_then (congrArg (!·) (List.any_eq_false.2 fun l hl => ?_))).trans ?_
  · obtain ⟨present, whole, -⟩ := sound l hl
    simp [present, whole]
  refine (req_then (congrArg (!·) (List.any_eq_false.2 fun l hl => ?_))).trans ?_
  · obtain ⟨-, -, lock⟩ := sound l hl
    by_cases locked : l.lock = true
    · simp [show l.tier = c.param 20 1 from lock locked, Ctx.p]
    · simp [locked]
  refine (req_then (c := !creel || s.creelServes) ?_).trans ?_
  · by_cases from_creel : creel = true
    · rw [serves from_creel, Bool.or_true]
    · rw [Bool.eq_false_iff.2 from_creel]; rfl
  by_cases zero : tier = 0
  · obtain ⟨quota, room, pressure⟩ := sram zero
    refine (if_pos zero).trans ((req_then (congrArg (!·) quota)).trans ((req_then (decide_eq_true room)).trans ?_))
    refine (needed_then (c := !(creel && s.belowLow)) ?_).trans rfl
    by_cases from_creel : creel = true
    · rw [pressure from_creel, Bool.and_false]; rfl
    · rw [Bool.eq_false_iff.2 from_creel]; rfl
  · exact (if_neg zero).trans (within_then (dram (by omega)))

/-- The claim of R230 for TIER_UNPIN. -/
theorem tierUnpin : Claims.TierUnpin := by
  intro m slot s c tag k keys turn h pinned down s1 w own range dram
  refine wait_of turn (body := cmdTierUnpin) ?_
  refine (skein_then own).trans ((tierRange_then range).trans ?_)
  exact within_then dram

/-! ## The ends of doffs and reloads (R233–R235) -/

/-- A doff whose moves are still under way is not done. -/
theorem doffDone_moving {s : State} {idx : Nat} {d : Doff} (h : ∃ m ∈ s.store.moves, m.2.skein = idx ∧ m.2.why = .doff) :
    s.doffDone idx d = false := by
  obtain ⟨m, hm, mine, doff⟩ := h
  have moving : (s.store.moves.any fun m => m.2.skein == idx && m.2.why == .doff) = true :=
    List.any_eq_true.2 ⟨m, hm, by rw [mine, doff]; simp⟩
  rw [State.doffDone, moving]; rfl

/-- A reload whose moves are still under way is not done. -/
theorem reloadDone_moving {s : State} {idx : Nat} {r : Reload} (h : ∃ m ∈ s.store.moves, m.2.skein = idx ∧ m.2.why = .reload) :
    s.reloadDone idx r = false := by
  obtain ⟨m, hm, mine, reload⟩ := h
  have moving : (s.store.moves.any fun m => m.2.skein == idx && (m.2.why == .reload || m.2.why == .heldWrite)) = true :=
    List.any_eq_true.2 ⟨m, hm, by rw [mine, reload]; simp⟩
  rw [State.reloadDone, moving]; rfl

section
variable {idx : Nat} {s : State} (awake : s.awake = true)
include awake

theorem exec_doffEnd {d : Doff} (there : tget s.store.doffs idx = some d) :
    exec (.doffEnd idx) s = if s.doffDone idx d then .next (s.endDoff idx d).afterMove else .next s := by
  show execDoffEnd idx s = _
  rw [execDoffEnd, there]; dsimp only
  rw [awake, Bool.true_and]

theorem exec_reloadEnd {r : Reload} (there : tget s.store.reloads idx = some r) :
    exec (.reloadEnd idx) s = if s.reloadDone idx r then .next (s.endReload idx r).afterMove else .next s := by
  show execReloadEnd idx s = _
  rw [execReloadEnd, there]; dsimp only
  rw [awake, Bool.true_and]

end

/-- A reload that ends well answers its commands with its counts (R234). -/
theorem endReload_ok {s : State} {idx : Nat} {r : Reload} (ok : r.status = 0) :
    let t := s.modStore fun t => { t with reloads := tdel t.reloads idx }
    s.endReload idx r = t.answerAll r.waiters 0 (toLe 4 r.reloaded ++ toLe 4 r.damaged) (t.reloadLeft idx r) := by
  intro t
  unfold State.endReload
  simp only [ok, if_true]; rfl

/-- The claim of R233 to R235. -/
theorem doffReloadEnd : Claims.DoffReloadEnd := by
  intro idx s awake
  refine ⟨fun d there done => ?_, fun d there moving => ?_, fun r there done => ?_, fun r there moving => ?_, fun r there ok => endReload_ok ok⟩
  · rw [exec_doffEnd awake there, if_pos done]
  · rw [exec_doffEnd awake there, doffDone_moving moving]; rfl
  · rw [exec_reloadEnd awake there, if_pos done]
  · rw [exec_reloadEnd awake there, reloadDone_moving moving]; rfl

/-- Settles O21: doffs, reloads, pins and their ends are as R227, R230, R233 to R235 and R411 say. -/
theorem tierCommands : Obligations.TierCommands := ⟨skeinDoff, skeinReload, tierPin, tierUnpin, doffReloadEnd⟩

/-! ## Sweeps (R192, R196, R226, R231, R237) -/

/-- The state in which a sweep has ranked its candidates and moved its position on, and their order (R231). -/
def State.swept (s : State) : List (Nat × Nat) × State :=
  let r := s.sweepConfig.rankAll s.sweepConfig.sweepTake
  let order := sortBy (fun (a b : Nat × Nat) => decide (b.2 < a.2) || (a.2 == b.2 && decide (a.1 < b.1))) (r.1.filter fun x => x.2 != 0)
  let u := match s.sweepConfig.sweepTake.getLast? with
    | some k => r.2.modStore fun t => { t with sweepPos := k.1 + 1 }
    | none => r.2
  (order, if u.poolCause && !order.any fun x => u.couldDoff x.1 then u.raise Ev.poolExhausted .module [u.poolFree] else u)

/-- A sweep that is due and has no candidates left of an earlier one. -/
theorem exec_sweepStart {s : State} (awake : s.awake = true) (stays : s.power.inTransition = false ∨ s.power.target ≠ .doze)
    (idle : ∀ d ∈ s.store.doffs, d.2.bySweep = false) : exec .sweepStart s =
      if !s.store.sweep.isEmpty then .next s.sweepNext.runTier
      else if !s.sweepCause then .next s
      else if s.swept.2.creelServes then .next ((s.swept.2.modStore fun t =>
        { t with sweep := s.swept.1.map (·.1), evicting := s.swept.2.poolCause }).sweepNext.runTier)
      else .next s.swept.2 := by
  have free : ((s.store.doffs.any fun d => d.2.bySweep) || (s.power.inTransition && s.power.target == .doze)) = false := by
    rw [List.any_eq_false.2 fun d hd => by rw [idle d hd]; exact Bool.false_ne_true]
    rcases stays with h | h <;> simp [h]
  refine (if_neg (by rw [free, awake]; decide)).trans ?_
  rfl

/-- The claim of R192, R196, R226, R231, R237 and R404. -/
theorem sweepStart : Claims.SweepStart := by
  intro s awake stays idle r order u none? v
  rw [exec_sweepStart awake stays idle]
  refine ⟨fun more => if_pos ?_, fun empty calm => ?_, fun empty cause serves => ?_, fun empty cause offline => ?_⟩
  · cases h : s.store.sweep with
    | nil => exact absurd h more
    | cons a l => rfl
  all_goals rw [empty, if_neg (by simp)]
  · rw [calm]; rfl
  · rw [cause]; exact if_pos serves
  · rw [cause]; exact if_neg (ne_true_of_eq_false offline)

/-! ## Moves (R42, R50, R57, R224) -/

/-- A move commits or fails with what commitMove makes of it. -/
theorem exec_bobbinMoveCommit {mv : Nat} {s t : State} {m : Move} (there : tget s.store.moves mv = some m) (awake : s.awake = true)
    (h : s.commitMove mv m = some t) : exec (.bobbinMoveCommit mv) s = .next t.afterMove := by
  show execBobbinMoveCommit mv s = _
  simp only [execBobbinMoveCommit, there, awake, h]; rfl

/-- A move that does not touch the creel needs no creel pages. -/
theorem programFor_notCreel {s : State} {m : Move} (h : m.dstTier ≠ 2) : s.programFor m = some s := if_neg h

/-- A move whose source is not in the creel writes no tombstone. -/
theorem beforeCreelFree_notCreel {s : State} {m : Move} (h : m.srcTier ≠ 2) : s.beforeCreelFree m = s := if_pos h

/-- The claim of R42, R50, R57 and R224. -/
theorem bobbinMoveCommit : Claims.BobbinMoveCommit := by
  intro mv s m k l there awake skein leaf dst src moved t left u
  have checked : s.moveOk m = (l.check != .damaged && moveSourceOk s.mem k m l) := by simp only [State.moveOk, skein, leaf]
  refine ⟨fun sound holds => exec_bobbinMoveCommit there awake ?_, fun bad => exec_bobbinMoveCommit there awake ?_⟩
  · have good : s.moveOk m = true := by rw [checked, holds]; simpa using sound
    have entry : s.commitEntry mv m = u := by simp only [State.commitEntry, skein, leaf]; rfl
    rw [State.commitMove, good, programFor_notCreel dst, ← entry]
    refine (if_neg (by decide)).trans ((if_neg fun h => dst h.1).trans ?_)
    exact congrArg (fun v : State => some (((v.commitEntry mv m).moveSketch m.skein m.key m.srcTier m.newFormat.isSome).countMove m))
      (beforeCreelFree_notCreel src)
  · have fails : s.moveOk m = false := by
      rw [checked]
      rcases bad with h | h <;> simp [h]
    rw [State.commitMove, fails]; rfl

/-- The claim of R42, R50 and R224. -/
theorem bobbinMoveAbandon : Claims.BobbinMoveAbandon := by
  intro mv bad s m k there awake skein
  have tag : (s.modStore fun t => { t with moves := tdel t.moves mv }).skein? m.skein = some k := skein
  refine ⟨?_, fun dst src => ?_, fun dst src => ?_⟩
  · show execBobbinMoveAbandon mv bad s = _
    simp only [execBobbinMoveAbandon, there, awake]; rfl
  · simp only [State.abandonEntry, tag, dst, if_neg src, if_true]
  · simp only [State.abandonEntry, tag, dst, src, if_true]

/-! ## Demotion, slots and retirement (R41, R42, R48, R51) -/

/-- The claim of R41 and R42. -/
theorem damagedDemotion : Claims.DamagedDemotion := by
  intro idx la hg b s key
  refine ⟨fun runs listed => if_pos ?_, fun unlisted => if_neg ?_, fun k l skein leaf tier unlocked still => ?_⟩
  · obtain ⟨d, mem, sk, at_⟩ := listed
    exact Bool.and_eq_true_iff.2 ⟨List.any_eq_true.2 ⟨d, mem, by simp [sk, at_, key]⟩, runs⟩
  · rw [List.any_eq_false.2 fun d mem h => unlisted d mem (by simpa using h)]; exact Bool.false_ne_true
  · have none : (s.store.moves.filter fun m => m.2.skein == idx && m.2.key == key) = [] :=
      List.filter_eq_nil_iff.2 fun m mem h => still m mem (by simpa using h)
    simp only [State.demote, skein, leaf, if_neg tier, none, unlocked, List.foldl_nil]; rfl

/-- The claim of R48. -/
theorem slotFree : Claims.SlotFree := by
  intro tier pbn s
  refine ⟨rfl, fun unlisted => ?_, fun p there => ⟨fun held => ?_, fun past one => ?_⟩⟩
  · have none : (s.store.pendingFree.find? fun p => p.1 == tier && p.2.1 == pbn) = none :=
      List.find?_eq_none.2 fun p mem h => unlisted p mem (by simpa using h)
    simp only [State.freePending, none]
  · simp only [State.freePending, there, held]; rfl
  · subst one; simp only [State.freePending, there, past]; rfl

/-- The claim of R51. -/
theorem skeinRetirementEnd : Claims.SkeinRetirementEnd := by
  intro idx s k skein slabs
  have row : exec (.skeinRetirementEnd idx) s =
      if k.state = .retiring ∧ !(s.store.pendingFree.any fun p => p.2.2.2 == idx) then .next (s.endRetirement idx) else .next s := by
    show execSkeinRetirementEnd idx s = _
    simp only [execSkeinRetirementEnd, skein]
  rw [row]
  refine ⟨fun retiring none => (if_pos ⟨retiring, ?_⟩).trans ?_, fun waits => if_neg ?_⟩
  · simp only [State.endRetirement, skein]; rfl
  · rintro ⟨retiring, free⟩
    rcases waits with h | ⟨p, mem, at_⟩
    · exact h retiring
    · rw [List.any_eq_true.2 ⟨p, mem, by simp [at_]⟩] at free; exact absurd free (by decide)
  · rw [List.any_eq_false.2 fun p mem h => none p mem (by simpa using h)]; rfl

/-- Settles O22: sweeps, moves, demotion, slots and retirement are as R41, R42, R48, R50, R51, R224 and R231 say. -/
theorem tierEngine : Obligations.TierEngine :=
  ⟨sweepStart, bobbinMoveCommit, bobbinMoveAbandon, damagedDemotion, slotFree, skeinRetirementEnd⟩

end Sys2Proof.Machine
end

section
/-!
Reliability and telemetry commands (R334–R336, R413, R414, R445, R454, R462): the checks of each command pass one after another, and
what it leaves is read off its last line; a margin sweep's points change only the count of free values.
-/
namespace Sys2Proof.Machine

/-- A refusal under a condition that does not hold is passed over. -/
theorem unless_then {ε α : Type} {p : Prop} [Decidable p] {e : ε} {f : Unit → Except ε α} (h : ¬ p) :
    (if p then Except.error e >>= f else f ()) = f () := if_neg h

/-! ## Units in service (R413) -/

/-- UNIT_SERVICE for a kind, action and unit that exist goes on to what the action does. -/
theorem cmdUnitService_eq {s : State} {c : Cmd} {tag : W16} {kind action u : Nat} (hk : c.param 0 1 = kind) (ha : c.param 1 1 = action)
    (hu : c.param 2 2 = u) (known : 1 ≤ kind ∧ kind ≤ 3 ∧ 1 ≤ action ∧ action ≤ 3 ∧ ¬ (kind = 2 ∧ action = 2))
    (unit : u < if kind = 1 then 8 else if kind = 2 then 1024 else 36) : cmdUnitService { c, tag } s =
      if action = 3 then req (s.rel.suspect.contains (kind, if kind = 2 then s.physOf u else u)) St.wrongState >>= fun _ =>
        .ok (.done (s.modRel fun r => { r with suspect := r.suspect.filter (· != (kind, if kind = 2 then s.physOf u else u)) }) [])
      else if kind = 1 then s.serveSpindle action u >>= fun t => .ok (.done t [])
      else if kind = 2 then s.serveChannel u c.ref >>= fun t => .ok (.wait t)
      else s.serveWavelength action u >>= fun t => .ok (.done t []) := by
  subst hk ha hu
  exact (mode_then (decide_eq_true known)).trans (inRange_then (decide_eq_true unit))

/-- The claim of R413 for UNIT_SERVICE. -/
theorem unitService : Claims.UnitService := by
  intro m slot s c tag turn kind action u
  refine ⟨fun low high clears unit => ?_, fun t is acts unit served => ?_, fun t is acts unit served => ?_, fun t is acts unit served => ?_⟩
  · intro unit' suspect
    refine done_of turn (body := cmdUnitService) ((cmdUnitService_eq rfl rfl rfl ⟨low, high, by omega, by omega, by omega⟩ unit).trans ?_)
    exact (if_pos clears).trans (req_then suspect)
  · refine done_of turn (body := cmdUnitService) ((cmdUnitService_eq is rfl rfl ⟨by decide, by decide, by omega, by omega, by omega⟩ unit).trans ?_)
    exact (if_neg (by omega)).trans (congrArg (· >>= _) served)
  · refine wait_of turn (body := cmdUnitService) ((cmdUnitService_eq is acts rfl (by decide) unit).trans ?_)
    exact congrArg (· >>= _) served
  · refine done_of turn (body := cmdUnitService) ((cmdUnitService_eq is rfl rfl ⟨by decide, by decide, by omega, by omega, by omega⟩ unit).trans ?_)
    exact (if_neg (by omega)).trans (congrArg (· >>= _) served)

/-! ## Margin sweeps (R462) -/

/-- A margin sweep whose checks pass measures its points one after another. -/
theorem cmdMarginSweep_eq {s : State} {c : Cmd} {tag : W16} {points : List (Nat × Nat)} :
    let x : Ctx := { c, tag }
    let kind := c.param 0 1
    let pat := c.param 12 2
    let n := c.param 2 2
    (kind = 1 ∧ 1 ≤ pat ∧ pat ≤ 3 ∨ kind = 2 ∧ (pat = 0x0101 ∨ pat = 0x0102)) → c.param 1 1 < 8 → 1 ≤ n → n ≤ 256 → -100 ≤ x.signed 4 →
    x.signed 4 ≤ 100 → -100 ≤ x.signed 6 → x.signed 6 ≤ 100 → -200 ≤ x.signed 8 → x.signed 8 ≤ 100 → -200 ≤ x.signed 10 → x.signed 10 ≤ 100 →
    (c.param 16 4 = 0 ∨ ∃ a ∈ s.rel.audits, a.index = c.param 16 4) → 16 * n ≤ c.dataLen → s.sweepable kind (c.param 1 1) = true →
    let r := (List.range n).foldl (sweepOne points (x.signed 4) (x.signed 6) (x.signed 8) (x.signed 10) n) ([], 0, s)
    cmdMarginSweep points x s = .ok (.done (x.output r.2.2 r.1.flatten) (toLe 2 n ++ toLe 2 r.2.1)) := by
  intro x kind pat n pattern unit some' most v1 v2 v3 v4 f1 f2 f3 f4 cap room sweeps r
  have modes : (kind = 1 ∨ kind = 2) ∧ if kind = 1 then 1 ≤ pat ∧ pat ≤ 3 else pat = 0x0101 ∨ pat = 0x0102 := by
    rcases pattern with ⟨is, low, high⟩ | ⟨is, either⟩
    · exact ⟨.inl is, (if_pos is).symm ▸ ⟨low, high⟩⟩
    · exact ⟨.inr is, (if_neg (show ¬ kind = 1 by rw [is]; decide)).symm ▸ either⟩
  refine (mode_then (decide_eq_true modes.1)).trans ((mode_then (decide_eq_true modes.2)).trans ?_)
  refine (inRange_then (decide_eq_true unit)).trans ((inRange_then (decide_eq_true ⟨some', most⟩)).trans ?_)
  refine (inRange_then (decide_eq_true ⟨v1, v2⟩)).trans ((inRange_then (decide_eq_true ⟨v3, v4⟩)).trans ?_)
  refine (inRange_then (decide_eq_true ⟨f1, f2⟩)).trans ((inRange_then (decide_eq_true ⟨f3, f4⟩)).trans ?_)
  refine (inRange_then (c := c.param 16 4 == 0 || s.rel.audits.any fun a => a.index == c.param 16 4) ?_).trans ?_
  · simpa using cap
  exact (unless_then (Nat.not_lt.2 room)).trans ((req_then sweeps).trans rfl)

/-- Counting over a list is counting over its indexes. -/
theorem countP_range_getD {α : Type} (l : List α) (d : α) (p : α → Bool) :
    (List.range l.length).countP (fun i => p (l.getD i d)) = l.countP p := by
  have indexed : (List.range l.length).map (fun i => l.getD i d) = l :=
    List.ext_getElem (by simp) fun i h _ => by simp [List.getD_eq_getElem?_getD, List.getElem?_eq_getElem (by simpa using h)]
  calc (List.range l.length).countP (fun i => p (l.getD i d))
      = ((List.range l.length).map (fun i => l.getD i d)).countP p := (List.countP_map).symm
    _ = l.countP p := by rw [indexed]

/-- The claim of R462. -/
theorem marginSweep : Claims.MarginSweep := by
  intro m slot s c tag points turn x kind pat n pattern unit some' most v1 v2 v3 v4 f1 f2 f3 f4 cap room sweeps
  have swept := cmdMarginSweep_eq (tag := tag) (points := points) pattern unit some' most v1 v2 v3 v4 f1 f2 f3 f4 cap room sweeps
  refine ⟨?_, fun errors ops one is small1 small2 => ?_⟩
  · obtain ⟨R, k, f, len, le, count, fold⟩ :=
      sweep_fold points (x.signed 4) (x.signed 6) (x.signed 8) (x.signed 10) n (List.range n) ([], 0, s)
    refine ⟨k, f, R.flatten, by simpa using len, by simpa using le, fun all small => ?_, done_of turn (body := cmdMarginSweep points) ?_⟩
    · rw [count (fun i h => all ▸ List.mem_range.1 h) small, ← all]
      exact countP_range_getD points (0, 0) fun p => decide (p.1 ≠ 0)
    · refine swept.trans ?_
      show Except.ok (CmdOut.done (Ctx.output _ (List.foldl _ ([], 0, s) (List.range n)).2.2 _) _) = _
      rw [fold]; simp [Ctx.output]; rfl
  · refine done_of turn (body := cmdMarginSweep points) (swept.trans ?_)
    have fold : (List.range n).foldl (sweepOne points (x.signed 4) (x.signed 6) (x.signed 8) (x.signed 10) n) ([], 0, s) =
        ([toLe 2 (BitVec.ofInt 16 (x.signed 6)).toNat ++ toLe 2 (BitVec.ofInt 16 (x.signed 10)).toNat ++ toLe 4 errors ++ toLe 8 ops],
          if errors = 0 then 0 else 1, s) := by
      rw [one, is]
      simp only [List.range_one, List.foldl_cons, List.foldl_nil, sweepOne, sweepAt, List.getElem?_cons_zero, Nat.zero_add, if_true,
        Nat.mod_eq_of_lt small1, Nat.mod_eq_of_lt small2, List.nil_append]
    show Except.ok (CmdOut.done _ (toLe 2 n ++ _)) = _
    rw [fold, one, List.flatten_singleton]; rfl

/-! ## Audits, budgets and health (R413, R445, R454) -/

/-- The claim of R413 for AUDIT_SET. -/
theorem auditSet : Claims.AuditSet := by
  intro m slot s c tag turn k1 k2
  exact done_of turn (body := cmdAuditSet) ((inRange_then (decide_eq_true k1)).trans (inRange_then (decide_eq_true k2)))

/-- The claim of R445. -/
theorem budgetSet : Claims.BudgetSet := by
  intro m slot s c tag turn d low high floor top
  exact done_of turn (body := cmdBudgetSet) ((mode_then (decide_eq_true ⟨low, high⟩)).trans (inRange_then (decide_eq_true ⟨floor, top⟩)))

/-- The number of components of four kinds. -/
theorem length_four_kinds {α : Type} (f g h k : Nat → α) (a b c d : Nat) :
    ((List.range a).map f ++ (List.range b).map g ++ (List.range c).map h ++ (List.range d).map k).length = a + b + c + d := by
  simp only [List.length_append, List.length_map, List.length_range]

/-- The claim of R413 and R454. -/
theorem healthRead : Claims.HealthRead := by
  intro m slot s c tag turn all out room
  have count : all.length = 5260 := by rw [length_four_kinds]
  have room : ¬ c.dataLen < 8 * all.length := by rw [count]; omega
  refine done_of turn (body := cmdHealthRead) ?_
  unfold cmdHealthRead
  refine (if_neg room).trans ?_
  show Except.ok (CmdOut.done _ (toLe 4 all.length)) = _
  rw [count]; rfl

/-- Settles O25: unit service, margins, audits, budgets and health reports are as R413, R445, R454 and R462 say. -/
theorem reliabilityCommands : Obligations.ReliabilityCommands := ⟨unitService, marginSweep, auditSet, budgetSet, healthRead⟩

/-! ## The telemetry ring (R334–R336) -/

/-- The claim of R334 and R414. -/
theorem sampleSet : Claims.SampleSet := by
  intro m slot s s1 s2 c tag a w turn n records period tags listed known per ports most low high slots mapped s3 s4 tele
  have fits : ¬ (n > 0 ∧ c.dataLen < 2 * n) := by omega
  refine done_of turn (body := cmdSampleSet) ?_
  unfold cmdSampleSet
  refine (if_neg fits).trans ?_
  refine (req_then (List.all_eq_true.2 known)).trans ((inRange_then (decide_eq_true per)).trans ?_)
  refine (inRange_then (decide_eq_true ports)).trans ((inRange_then (decide_eq_true most)).trans ?_)
  refine (inRange_then (decide_eq_true ⟨low, high⟩)).trans ((found_then slots).trans ?_)
  exact found_then mapped

/-- The claim of R336 and R414 for TELEMETRY_READ. -/
theorem telemetryRead : Claims.TelemetryRead := by
  intro m slot s c tag turn y all from' first mine got stop t result some' fits
  refine ⟨fun isAll => ?_, fun isOne owner => ?_⟩
  · refine done_of turn (body := cmdTelemetryRead) ((req_then (c := all || (s.tenant? tag).isSome) ?_).trans ?_)
    · rw [isAll]; rfl
    refine (inRange_then (decide_eq_true ⟨some', fits⟩)).trans ?_
    exact congrArg (fun u : State => Except.ok (CmdOut.done (u.teleFree y.records) result)) (if_pos isAll)
  · refine done_of turn (body := cmdTelemetryRead) ((req_then (c := all || (s.tenant? tag).isSome) ?_).trans ?_)
    · rw [owner]; exact Bool.or_true _
    refine (inRange_then (decide_eq_true ⟨some', fits⟩)).trans ?_
    exact congrArg (fun u : State => Except.ok (CmdOut.done (u.teleFree y.records) result)) (if_neg (ne_true_of_eq_false isOne))

/-- STATS_READ by mailbox 0 or by a tenant's mailbox answers the records of its scope. -/
theorem cmdStatsRead_eq {x : Ctx} {s t : State} {rs : List (List Byte)} (known : 1 ≤ x.p 0 2 ∧ x.p 0 2 ≤ 5)
    (owner : x.c.mb = 0 ∧ x.tag = 0 ∨ (s.tenant? x.tag).isSome = true)
    (records : (if x.c.mb ≠ 0 then ([], s) else if x.p 0 2 = 1 then s.sensorStats else if x.p 0 2 = 4 then (s.relStats, s) else ([], s)) = (rs, t))
    (room : 16 * rs.length ≤ x.c.dataLen) : cmdStatsRead x s =
      .ok (.done (t.windowWrite x.c.ld x.c.dataOff (rs.flatten.take x.c.dataLen)) (toLe 4 rs.length)) := by
  refine (mode_then (decide_eq_true known)).trans ((req_then (c := x.c.mb == 0 && x.tag == 0 || (s.tenant? x.tag).isSome) (by simpa using owner)).trans ?_)
  rw [records]
  exact unless_then (Nat.not_lt.2 room)

/-- The claim of R414, R475 and R547. -/
theorem statsRead : Claims.StatsRead := by
  intro m slot s c tag turn scope answer low high owner
  refine ⟨fun box one room => ?_, fun box four room => ?_, fun none room => ?_⟩
  · refine done_of turn (body := cmdStatsRead) (cmdStatsRead_eq ⟨low, high⟩ owner ?_ room)
    rw [if_neg (not_not_intro box)]; exact if_pos one
  · refine done_of turn (body := cmdStatsRead) (cmdStatsRead_eq ⟨low, high⟩ owner ?_ room)
    exact (if_neg (not_not_intro box)).trans ((if_neg (show ¬ scope = 1 by omega)).trans (if_pos four))
  · refine done_of turn (body := cmdStatsRead) (cmdStatsRead_eq ⟨low, high⟩ owner ?_ room)
    split
    · rfl
    · next box =>
      have other : scope = 2 ∨ scope = 3 ∨ scope = 5 := none.resolve_left box
      exact (if_neg (show ¬ scope = 1 by omega)).trans (if_neg (show ¬ scope = 4 by omega))

/-- The state in which the records of a period are written (R334, R335). -/
def State.periodTold (s : State) : State :=
  (List.range portCount).foldl (fun t p => (s.flyer.tele.selects p (t.portAt p)).foldl (fun u k => u.writeTele p (t.portAt p) k s.flyer.tele.next) t) s

/-- The state in which every port's counts start anew (R335). -/
def State.countsCleared (s : State) : State :=
  (List.range portCount).foldl (fun s p => s.modPort p fun x => { x with framesSent := [], maxDelay := [] }) s

/-- The records of a period change neither the ports nor the period. -/
theorem periodTold_kept (s : State) : TeleKept s s.periodTold :=
  foldl_teleKept _ (fun t p => foldl_teleKept _ (fun u k => writeTele_kept u p (t.portAt p) k s.flyer.tele.next) _ t) _ s

/-- A period boundary that has come writes the records and starts the next period. -/
theorem exec_samplePeriodBoundary {s : State} (due : ¬ (s.flyer.tele.period = 0 ∨ s.time.now < s.flyer.tele.next ∨ (!s.awake) = true)) :
    exec .samplePeriodBoundary s = .next (s.periodTold.countsCleared.modFlyer fun f =>
      { f with tele := { f.tele with next := s.flyer.tele.next + BitVec.ofNat 64 (s.flyer.tele.period * 1000) } }) := if_neg due

/-- A new period has no counts, and keeps the ports' queues. -/
theorem countsCleared_portAt {s : State} {p : Nat} (low : p < 4) :
    s.countsCleared.portAt p = { s.portAt p with framesSent := [], maxDelay := [] } :=
  (clear_ports _ _ List.nodup_range s p).trans (if_pos (List.mem_range.2 low))

/-- The claim of R334 and R335. -/
theorem samplePeriodBoundary : Claims.SamplePeriodBoundary := by
  intro s y
  refine ⟨fun quiet => if_pos (by simpa using quiet), fun on due awake => ?_⟩
  have ends : ¬ (s.flyer.tele.period = 0 ∨ s.time.now < s.flyer.tele.next ∨ (!s.awake) = true) := by
    rw [awake]; rintro (h | h | h)
    · exact on h
    · exact absurd h (BitVec.not_lt.2 due)
    · cases h
  obtain ⟨ports, period, more⟩ := periodTold_kept s
  have tele : s.periodTold.countsCleared.flyer.tele = s.periodTold.flyer.tele := clear_tele _ _ _
  have same (p : Nat) : s.periodTold.portAt p = s.portAt p := by unfold State.portAt; rw [ports]
  refine ⟨_, exec_samplePeriodBoundary ends, ?_⟩
  generalize s.periodTold = u at *
  refine ⟨rfl, (congrArg Telemetry.period tele).trans period, more.trans_eq (congrArg Telemetry.written tele).symm, fun p low => ?_⟩
  have cleared := countsCleared_portAt (s := u) low
  refine ⟨congrArg Port.framesSent cleared, congrArg Port.maxDelay cleared, (congrArg Port.queue cleared).trans ?_⟩
  have queue := congrArg Port.queue (same p)
  exact queue

/-- The claim of R336 for a record. -/
theorem telemetryRing : Claims.TelemetryRing := by
  intro s p key x t y
  refine ⟨fun full => if_pos full, fun room => ?_⟩
  have row : s.writeTele p x key t = _ := if_neg (Nat.not_le_of_lt room)
  rw [row]
  exact ⟨rfl, rfl⟩

/-- Settles O26: samples, telemetry records and statistics are as R334–R336 and R414 say. -/
theorem telemetry : Obligations.Telemetry := ⟨sampleSet, telemetryRead, statsRead, samplePeriodBoundary, telemetryRing⟩

end Sys2Proof.Machine
end

section
/-!
The time unit (R476–R485, R537): its commands, the loads of its count, reference edges and pulses, and the sync exchange that
disciplines a follower's count.
-/
namespace Sys2Proof.Machine

/-! ## Commands (R479, R482, R485) -/

/-- What two numbers that do not differ decide. -/
theorem not_bne_decide (a b : Nat) : (!(a != b)) = decide (a = b) := by
  by_cases h : a = b <;> simp [h]

/-- A choice by a difference is the choice by the equality, the other way round. -/
theorem ite_bne {α : Type} (a b : Nat) (x y : α) : (if (a != b) = true then x else y) = if a = b then y else x := by
  by_cases h : a = b <;> simp [h]

/-- A TIME_CONFIGURE whose mode exists sets ROLE and SYNC_PORTS, and loads the count at once for ROLE 2 (R479, R485). -/
theorem cmdTimeConfigure_eq {s : State} {c : Cmd} {tag : W16} (known : c.param 0 1 ≤ 2) (ports : c.param 0 1 = 2 ∨ c.param 1 1 ≠ 0) :
    let role := c.param 0 1
    let v : W64 := BitVec.ofNat 64 (c.param 8 8)
    let same := role = s.time.role
    let t := s.modTime fun t =>
      { t with role, syncPorts := BitVec.ofNat 4 (c.param 1 1), locked := t.locked && decide same, goodRun := if same then t.goodRun else 0,
               initial := if role = 1 then some v else none, refBase := none, slew := if same then t.slew else 0,
               lastEdgeLocal := t.localNow, holdover := false, exchanges := [], syncSentAt := [] }
    cmdTimeConfigure { c, tag } s =
      .ok (.done (if role = 2 then (t.loadTime (t.timeTo v)).modTime fun t => { t with firstDone := false } else t) []) := by
  intro role v same t
  refine (mode_then (c := decide (role ≤ 2) && (role == 2 || c.param 1 1 != 0)) (by simpa [role] using ⟨known, ports⟩)).trans ?_
  refine congrArg (fun u : State =>
    Except.ok (CmdOut.done (if role = 2 then (u.loadTime (u.timeTo v)).modTime fun t => { t with firstDone := false } else u) [])) ?_
  simp only [not_bne_decide, ite_bne]; rfl

/-- The claim of R479 and R485. -/
theorem timeConfigure : Claims.TimeConfigure := by
  intro m slot s c tag turn role v same t
  refine ⟨fun follows zero ports => ?_, fun grand ports => ?_, fun master => ?_⟩
  · refine done_of turn (body := cmdTimeConfigure) ((cmdTimeConfigure_eq (show role ≤ 2 by omega) (.inr ports)).trans ?_)
    exact congrArg (fun u => Except.ok (CmdOut.done u [])) (if_neg (show ¬ role = 2 by omega))
  · refine done_of turn (body := cmdTimeConfigure) ((cmdTimeConfigure_eq (show role ≤ 2 by omega) (.inr ports)).trans ?_)
    exact congrArg (fun u => Except.ok (CmdOut.done u [])) (if_neg (show ¬ role = 2 by omega))
  · refine done_of turn (body := cmdTimeConfigure) ((cmdTimeConfigure_eq (show role ≤ 2 by omega) (.inl master)).trans ?_)
    exact congrArg (fun u => Except.ok (CmdOut.done u [])) (if_pos master)

/-- The claim of R482 for TIME_INFO. -/
theorem timeInfo : Claims.TimeInfo := by
  intro m slot s c tag turn low high
  refine done_of turn (body := cmdTimeInfo) ?_
  simp only [cmdTimeInfo, low, high, true_and, decide_true, if_true]

/-! ## Loads, edges and pulses (R484, R485, R537) -/

/-- The state with the count loaded, before TIME_LOADED tells it (R485). -/
def State.countLoaded (s : State) (d : Int) : State :=
  let s := s.modTime fun t => { t with now := t.now + BitVec.ofInt 64 d, exchanges := [], slew := 0 }
  let s := s.modStore fun t =>
    { t with skeins := t.skeins.map fun (k : Nat × Skein) => (k.1, { k.2 with expiry := k.2.expiry + BitVec.ofInt 64 d }) }
  let ns := s.flyer.tele.period * 1000
  s.modFlyer fun f =>
    { f with tele := { f.tele with next := if ns = 0 then 0 else BitVec.ofNat 64 ((s.time.now.toNat / max 1 ns + 1) * ns) } }

/-- A load of the count ends with TIME_LOADED. -/
theorem loadTime_eq (s : State) (d : Int) :
    s.loadTime d = (s.countLoaded d).raise Ev.timeLoaded .module [(BitVec.ofInt 64 d).toNat] := rfl

/-- A load changes the count, and ends the exchanges and the slew. -/
theorem loadTime_time (s : State) (d : Int) :
    (s.loadTime d).time = { s.time with now := s.time.now + BitVec.ofInt 64 d, exchanges := [], slew := 0 } :=
  (told_raise (s.countLoaded d) Ev.timeLoaded .module [(BitVec.ofInt 64 d).toNat]).time

/-- The claim of R334 and R485 for a load of the count. -/
theorem timeLoad : Claims.TimeLoad := by
  intro s d t
  have told : Told (s.countLoaded d) t := told_raise (s.countLoaded d) Ev.timeLoaded .module [(BitVec.ofInt 64 d).toNat]
  have time : t.time = _ := loadTime_time s d
  refine ⟨by rw [time], by rw [time], by rw [time], congrArg Store.skeins told.store, told.mem, told.work, ⟨_, told.flyer⟩,
    ⟨s.countLoaded d, rfl, loadTime_eq s d⟩⟩

/-- The claim of R484 for a reference edge. -/
theorem timeRefEdge : Claims.TimeRefEdge := by
  intro s
  refine ⟨fun other => if_pos other, fun v one waits => ?_, fun b one none' base => ?_⟩
  · show execTimeRefEdge s = _
    simp only [execTimeRefEdge, one, waits]; rfl
  · intro r
    have row (off : Int) (at_ : (if r < 500000000 then (r : Int) else (r : Int) - 1000000000) = off) : exec .timeRefEdge s =
        if off < -1000 ∨ 1000 < off then .next (s.modTime fun t => { t with edgesIgnored := t.edgesIgnored + 1 })
        else .next ((s.modTime fun t => { t with slew := -off, lastEdge := t.now, lastEdgeLocal := t.localNow, holdover := false }).lockBy off 0xFF 0) := by
      subst at_
      show execTimeRefEdge s = _
      simp only [execTimeRefEdge, one, none', base]; rfl
    refine ⟨fun near => ?_, fun near => ?_, fun low high => ?_⟩
    · rw [row r (if_pos (by omega)), if_neg (by omega)]
    · rw [row ((r : Int) - 1000000000) (if_neg (by omega)), if_neg (by omega), show -((r : Int) - 1000000000) = 1000000000 - r by omega]
    · rw [row _ rfl, if_pos]
      split <;> omega

/-- The claim of R484 for a reference that is lost. -/
theorem referenceEdgeLoss : Claims.ReferenceEdgeLoss := by
  intro s one
  refine ⟨fun follows lost => if_neg ?_, fun stays => if_pos (.inr stays)⟩
  rw [follows]
  rintro (h | h | h)
  · exact h one
  · cases h
  · omega

/-- The claim of R537. -/
theorem ppsOut : Claims.PpsOut := by
  intro s r
  refine ⟨fun near low => if_pos ⟨near, by rw [low]; rfl⟩, fun stays => if_neg ?_⟩
  rintro ⟨near, low⟩
  rcases stays with far | high
  · change r ≤ 2 ∨ 999999998 ≤ r at near
    omega
  · rw [high] at low; cases low

/-- Settles O27: the time unit's commands, loads, reference edges and pulses are as R479, R482, R484, R485 and R537 say. -/
theorem timeCommands : Obligations.TimeCommands := ⟨timeConfigure, timeInfo, timeLoad, timeRefEdge, referenceEdgeLoss, ppsOut⟩

/-! ## The sync exchange (R480–R483) -/

/-- A control block to a partner in the light goes out at once. -/
theorem sendSync_lit {s : State} {p kind hops t : Nat} (clear : (s.portAt p).failover = false) (light : (s.portAt p).light = true) :
    s.sendSync p kind hops t = s.emit (.control p (controlBlock 6 (kind * 2 ^ 54 + hops * 2 ^ 48 + t % 2 ^ 48))) := by
  refine if_neg ?_
  rw [clear, light]; decide

/-- The claim of R480 and R481 for SYNC_RECEIVE. -/
theorem syncReceive : Claims.SyncReceive := by
  intro p hops t s port heard t1 e
  have there := port_ok port
  refine ⟨fun other => ?_, fun follows syncs idle => ?_, fun follows syncs busy => ?_⟩
  · refine (if_neg there).trans (if_pos ?_)
    simpa using other
  all_goals refine (if_neg there).trans ((if_neg (by rw [follows, syncs]; decide)).trans ?_)
  · refine if_neg ?_
    show ¬ (match tget s.time.exchanges p with
      | some e => e.t3.isSome && decide (s.time.localNow ≤ e.deadline)
      | none => false) = true
    cases h : tget s.time.exchanges p with
    | none => exact Bool.false_ne_true
    | some x =>
      show ¬ (x.t3.isSome && decide (s.time.localNow ≤ x.deadline)) = true
      rcases idle x h with none' | late
      · rw [none']; exact Bool.false_ne_true
      · simp [late]
  · obtain ⟨x, h, asked, late⟩ := busy
    refine if_pos ?_
    show (match tget s.time.exchanges p with
      | some e => e.t3.isSome && decide (s.time.localNow ≤ e.deadline)
      | none => false) = true
    rw [h]
    simp [Option.isSome_iff_ne_none, asked, late]

/-- The claim of R481 for DELAY_REQ_RECEIVE. -/
theorem delayReqReceive : Claims.DelayReqReceive := by
  intro p hops s port
  have there := port_ok port
  refine ⟨fun master syncs clear light => ?_, fun follows => (if_neg there).trans (if_pos (.inl follows))⟩
  refine (if_neg there).trans ((if_neg (by rw [syncs]; simpa using master)).trans ?_)
  rw [sendSync_lit clear light]; rfl

/-- The claim of R481 and R482 for DELAY_RESP_RECEIVE. -/
theorem delayRespReceive : Claims.DelayRespReceive := by
  intro p hops t s e t3 port there asked ended heard t4 off
  have row : exec (.delayRespReceive p hops t) s =
      if s.time.role ≠ 0 ∨ !ended.syncs p ∨ e.deadline < s.time.localNow then .next ended
      else .next (if heard.timeSource = some p then heard.discipline p off else heard) := by
    refine (if_neg (port_ok port)).trans ?_
    simp only [there, asked]; rfl
  rw [row]
  refine ⟨fun follows syncs early source => ?_, fun follows syncs early other => ?_, fun late => if_pos (.inr (.inr late))⟩
  all_goals rw [if_neg (by rw [follows, syncs]; simpa using early)]
  · rw [if_pos source]
  · rw [if_neg other]

/-- The claim of R482 for the discipline of the count. -/
theorem discipline : Claims.Discipline := by
  intro s p off noted
  refine ⟨fun first far => ?_, fun near => ?_⟩
  · have step : (!s.time.firstDone && decide (off < -1000 ∨ 1000 < off)) = true := by simp [first, far]
    have hops : (s.loadTime (-off)).time.partnerHops = s.time.partnerHops := by rw [loadTime_time]
    simp only [State.discipline, step, if_true]
    exact congrArg (fun h => (noted (s.loadTime (-off))).lockBy off p (tnum h p)) hops
  · have step : (!s.time.firstDone && decide (off < -1000 ∨ 1000 < off)) = false := by
      rcases near with done | ⟨low, high⟩
      · simp [done]
      · simp [Int.not_lt.2 low, Int.not_lt.2 high]
    simp only [State.discipline, step]; rfl

/-- The claim of R482 for LOCKED. -/
theorem timeLock : Claims.TimeLock := by
  intro s off src hops good t
  refine ⟨fun locked far => if_pos ⟨locked, far⟩, fun free sixteen => ?_, fun locked low high => ?_, fun free few => ?_⟩
  · refine (if_neg fun h => ?_).trans (if_pos ⟨?_, sixteen⟩)
    · exact absurd (free.symm.trans h.1) Bool.false_ne_true
    · show (!s.time.locked) = true
      rw [free]; rfl
  · refine (if_neg fun h => ?_).trans (if_neg fun h => ?_)
    · omega
    · have free : (!s.time.locked) = true := h.1
      rw [locked] at free; cases free
  · refine (if_neg fun h => ?_).trans (if_neg fun h => ?_)
    · exact absurd (free.symm.trans h.1) Bool.false_ne_true
    · exact absurd h.2 (Nat.not_le_of_lt few)

/-- The claim of R481 for an exchange whose answer is late. -/
theorem delayRespLimit : Claims.DelayRespLimit := by
  intro p s e port there
  have row : exec (.delayRespLimitExpiry p) s =
      .next (if e.deadline < s.time.localNow then s.modTime fun u => { u with exchanges := tdel u.exchanges p } else s) := by
    refine (if_neg (port_ok port)).trans ?_
    simp only [there]
  rw [row]
  exact ⟨fun late => congrArg _ (if_pos late), fun early => congrArg _ (if_neg (Nat.not_lt.2 early))⟩

/-- The claim of R481 for SYNC. -/
theorem syncInterval : Claims.SyncInterval := by
  intro p s port
  have there := port_ok port
  refine ⟨fun master syncs clear light due => ?_, fun master soon => ?_, fun follows => (if_neg there).trans (if_pos (.inl follows))⟩
  · refine (if_neg there).trans ((if_neg ?_).trans (congrArg Host.Outcome.next (sendSync_lit clear light)))
    rintro (h | h | h)
    · exact master h
    · rw [syncs] at h; cases h
    · cases at_ : tget s.time.syncSentAt p with
      | none => rw [at_] at h; cases h
      | some t => rw [at_] at h; simp [due t at_] at h
  · obtain ⟨t, sent, early⟩ := soon
    refine (if_neg there).trans (if_pos (.inr (.inr ?_)))
    rw [sent]; simpa using early

/-- The state in which a follower has given its lock up (R482, R483). -/
def State.syncLost (s : State) : State :=
  let t := s.modTime fun t => { t with locked := false, goodRun := 0, partnerHops := s.timeSource.elim t.partnerHops fun p => tdel t.partnerHops p }
  t.modTime fun u => { u with holdover := t.timeSource.isNone }

/-- A loss gives the lock up, and tells it where there was one. -/
theorem exec_syncLossExpiry {s : State} (follows : s.time.role = 0) (lost : s.time.lastSyncLocal + 10000000 ≤ s.time.localNow) :
    exec .syncLossExpiry s = .next (if s.time.locked then
      s.syncLost.raise Ev.timeLockLost .module [0, s.timeSource.getD 0xFF, (BitVec.ofInt 64 s.time.lastOffset).toNat] else s.syncLost) := by
  refine (if_neg (by rw [follows]; simpa using lost)).trans ?_
  unfold State.syncLost
  cases s.timeSource <;> simp only [← follows] <;> rfl

/-- The claim of R482 and R483. -/
theorem syncLoss : Claims.SyncLoss := by
  intro s
  refine ⟨fun stays => if_pos stays, fun follows lost => ⟨_, exec_syncLossExpiry follows lost, ?_⟩⟩
  have time : (if s.time.locked then
      s.syncLost.raise Ev.timeLockLost .module [0, s.timeSource.getD 0xFF, (BitVec.ofInt 64 s.time.lastOffset).toNat] else s.syncLost).time =
      s.syncLost.time := by
    split
    · exact (told_raise _ _ _ _).time
    · rfl
  refine ⟨by rw [time]; rfl, by rw [time]; rfl, by rw [time]; rfl, fun p source => ?_, fun none' => ?_, fun locked => ?_, fun free => ?_⟩
  · rw [time]
    show s.timeSource.elim _ _ = _
    rw [source]; rfl
  · rw [time]
    simp only [State.syncLost, none', Option.elim]
    exact ⟨rfl, congrArg Option.isNone none'⟩
  · rw [if_pos locked]
    exact ⟨s.syncLost, rfl, rfl⟩
  · rw [if_neg (ne_true_of_eq_false free)]; rfl

/-- Settles O28: the sync exchange and the discipline of the count are as R480–R483 say. -/
theorem timeSync : Obligations.TimeSync :=
  ⟨syncReceive, delayReqReceive, delayRespReceive, discipline, timeLock, delayRespLimit, syncInterval, syncLoss⟩

end Sys2Proof.Machine
end

section
/-!
Power and firmware commands (R416, R417, R422, R495–R506, R512, R522–R524).
-/
namespace Sys2Proof.Machine

/-! ## POWER_STATE_SET (R495–R505) -/

/-- POWER_STATE_SET at its turn, with nothing before it, runs as other commands do (R495). -/
theorem exec_powerStateSet_turn {m slot : Nat} {s : State} {c : Cmd} {tag : W16} (turn : Turn 0x0D00 m slot s c tag)
    (free : s.power.waiter = none) (first : ∀ d ∈ s.box.inflight, d.seq = c.seq ∨ d.committed = false ∧ c.seq ≤ d.seq) :
    exec (.powerStateSet m slot) s = cmdRow 0x0D00 cmdPowerStateSet m slot s := by
  have alone : (s.power.waiter.isSome || s.box.inflight.any (fun d => d.seq != c.seq && (d.committed || decide (d.seq < c.seq)))) = false := by
    rw [free, List.any_eq_false.2]
    · rfl
    · intro d mem
      rcases first d mem with same | ⟨open', later⟩
      · simp [same]
      · simp [open', later]
  show execPowerStateSet m slot s = _
  rw [execPowerStateSet, if_neg (Nat.not_le_of_lt turn.box), turn.there]
  exact if_neg (ne_true_of_eq_false alone)

/-- The claim of R495–R505. -/
theorem powerStateSet : Claims.PowerStateSet := by
  intro m slot s c tag towards turn going mine row free first named
  have row_eq : row = cmdRow 0x0D00 cmdPowerStateSet m slot s := exec_powerStateSet_turn turn free first
  rw [row_eq]
  refine ⟨fun is still => ?_, fun other asleep => ?_, fun is awake => ?_, fun is awake => ?_, fun is from' => ?_, fun is from' => ?_, fun is from' => ?_⟩
  · refine done_of turn (body := cmdPowerStateSet) ((found_then named).trans (if_pos ⟨is, ?_⟩))
    rw [still]; rfl
  · refine wait_of turn (body := cmdPowerStateSet) ((found_then named).trans ((if_neg fun h => other h.1).trans ?_))
    exact if_pos asleep
  · refine done_of turn (body := cmdPowerStateSet) ((found_then named).trans ((if_neg fun h => awake (h.1.symm.trans is)).trans ?_))
    exact (if_neg awake).trans (if_pos is)
  · refine pend_of turn (body := cmdPowerStateSet) ((found_then named).trans ?_)
    subst is
    rcases awake with h | h
    all_goals exact (if_neg (by rw [h]; simp)).trans ((if_neg (by rw [h]; decide)).trans ((if_neg (by decide)).trans
      ((if_neg (by rw [h]; decide)).trans rfl)))
  · refine wait_of turn (body := cmdPowerStateSet) ((found_then named).trans ?_)
    subst is
    rcases from' with h | ⟨h, moving⟩
    · exact (if_neg (by rw [h]; simp)).trans ((if_neg (by rw [h]; decide)).trans ((if_neg (by decide)).trans
        ((if_neg (by rw [h]; decide)).trans rfl)))
    · exact (if_neg (by rw [moving]; simp)).trans ((if_neg (by rw [h]; decide)).trans ((if_neg (by decide)).trans
        ((if_neg (by rw [h]; decide)).trans rfl)))
  · refine done_of turn (body := cmdPowerStateSet) ((found_then named).trans ?_)
    subst is
    exact (if_neg (by rw [from']; simp)).trans ((if_neg (by rw [from']; decide)).trans ((if_neg (by decide)).trans
      ((if_neg (by rw [from']; decide)).trans rfl)))
  · refine wait_of turn (body := cmdPowerStateSet) ((found_then named).trans ?_)
    rcases is with h | h
    all_goals
      subst h
      exact (if_neg (by rw [from']; simp)).trans ((if_neg (by rw [from']; decide)).trans ((if_neg (by decide)).trans
        ((if_pos from').trans rfl)))

/-! ## The other power commands (R416, R501, R506) -/

/-- The claim of R506. -/
theorem powerCapSet : Claims.PowerCapSet := by
  intro m slot s c tag turn w valid
  exact done_of turn (body := cmdPowerCapSet) (inRange_then (decide_eq_true valid))

/-- The claim of R416 and R501. -/
theorem dozeConfigure : Claims.DozeConfigure := by
  intro m slot s c tag turn low high cold hot
  exact done_of turn (body := cmdDozeConfigure) ((inRange_then (decide_eq_true ⟨low, high⟩)).trans (inRange_then (decide_eq_true ⟨cold, hot⟩)))

/-- The claim of R416 for POWER_INFO. -/
theorem powerInfo : Claims.PowerInfo := by
  intro m slot s c tag turn
  exact done_of turn (body := cmdPowerInfo) rfl

/-- Settles O29: power states, the cap, Doze settings and power information are as R416 and R495–R506 say. -/
theorem powerCommands : Obligations.PowerCommands := ⟨powerStateSet, powerCapSet, dozeConfigure, powerInfo⟩

/-! ## Firmware (R417, R422, R512, R522–R524) -/

/-- FIRMWARE_STAGE takes a chunk that follows what it has. -/
theorem cmdFirmwareStage_eq {s : State} {c : Cmd} {tag : W16} (some' : 0 < c.dataLen) (next : c.param 0 4 = 0 ∨ c.param 0 4 = s.boot.staging.length)
    (fits : c.param 0 4 + c.dataLen ≤ c.param 4 4) (most : c.param 4 4 ≤ imageMax) (same : c.param 0 4 = 0 ∨ c.param 4 4 = s.boot.stagingTotal) :
    let bytes := (if c.param 0 4 = 0 then [] else s.boot.staging) ++ s.windowRead c.ld c.dataOff c.dataLen
    let held := s.modBoot fun b => { b with staging := bytes, stagingTotal := c.param 4 4, staged := [], stagedValid := false }
    cmdFirmwareStage { c, tag } s =
      if bytes.length < c.param 4 4 then .ok (.done held (toLe 4 bytes.length))
      else if verifyImage held.sec 1 bytes = St.ok then
        .ok (.done ((held.modBoot fun b => { b with staging := [], stagingTotal := 0 }).modBoot fun b => { b with staged := bytes, stagedValid := true })
          (toLe 4 bytes.length ++ toLe 4 (imgSvn bytes).toNat))
      else .ok (.ended (held.modBoot fun b => { b with staging := [], stagingTotal := 0 }) (verifyImage held.sec 1 bytes) []) := by
  intro bytes held
  refine (either_then (fun _ => rfl) fun none => absurd some' none).trans ((inRange_then (decide_eq_true next)).trans ?_)
  refine inRange_then (c := decide (c.dataLen ≤ c.param 4 4 ∧ c.param 0 4 + c.dataLen ≤ c.param 4 4 ∧ c.param 4 4 ≤ imageMax) &&
    (c.param 0 4 == 0 || c.param 4 4 == s.boot.stagingTotal)) ?_
  rw [decide_eq_true ⟨by omega, fits, most⟩]
  simpa using same

/-- The claim of R417 and R422. -/
theorem firmwareStage : Claims.FirmwareStage := by
  intro m slot s c tag turn off total bytes held empty some' next fits most same
  have stage := cmdFirmwareStage_eq (tag := tag) some' next fits most same
  refine ⟨fun short => done_of turn (body := cmdFirmwareStage) (stage.trans (if_pos short)), fun whole => ?_⟩
  have verified := stage.trans (if_neg (Nat.not_lt.2 whole))
  split
  · next good => exact done_of turn (body := cmdFirmwareStage) (verified.trans (if_pos good))
  · next bad => exact ended_of turn (body := cmdFirmwareStage) (verified.trans (if_neg bad))

/-- The claim of R512, R522 and R524. -/
theorem firmwareActivate : Claims.FirmwareActivate := by
  intro m slot s c tag ok turn put new live valid
  refine ⟨fun two => ?_, fun one ready good => ?_, fun one ready bad => ?_⟩
  · refine done_of turn (body := cmdFirmwareActivate ok) ?_
    simp only [cmdFirmwareActivate, Ctx.p, two]
    refine (mode_then rfl).trans ((req_then (by rw [valid]; rfl)).trans ?_)
    show Except.ok (CmdOut.done (State.writeSystem (s.modBoot fun b => { b with image := if (ok || true) = true then b.staged else [] }) _ _) _) = _
    rw [Bool.or_true]; rfl
  · refine wait_of turn (body := cmdFirmwareActivate ok) ?_
    subst good
    simp only [cmdFirmwareActivate, Ctx.p, one]
    exact (mode_then rfl).trans (req_then (by rw [valid, ready]; rfl))
  · refine ended_of turn (body := cmdFirmwareActivate ok) ?_
    subst bad
    simp only [cmdFirmwareActivate, Ctx.p, one]
    exact (mode_then rfl).trans (req_then (by rw [valid, ready]; rfl))

/-- The claim of R417 for FIRMWARE_INFO. -/
theorem firmwareInfo : Claims.FirmwareInfo := by
  intro m slot s c tag turn
  exact done_of turn (body := cmdFirmwareInfo) rfl

/-- The claim of R522 and R523. -/
theorem liveActivation : Claims.LiveActivation := by
  intro s l there
  have handoff : exec .liveActivationHandoff s = if s.drained l.waiter then
      .next (((s.runImage s.boot.image).modBoot fun b => { b with startKind := 4 }).endLive l true) else .next s := by
    show execLiveActivationHandoff s = _
    simp only [execLiveActivationHandoff, there]
  have budget : exec .liveActivationBudgetExpiry s =
      if s.drained l.waiter ∧ l.lastFetch + 100000000 ≤ s.time.localNow then .next (s.endLive l false) else .next s := by
    show execLiveActivationBudgetExpiry s = _
    simp only [execLiveActivationBudgetExpiry, there]
  rw [handoff, budget]
  exact ⟨fun drained => if_pos drained, fun waits => if_neg (ne_true_of_eq_false waits), fun drained late => if_pos ⟨drained, late⟩,
    fun early => if_neg fun h => absurd h.2 (Nat.not_le_of_lt early)⟩

/-- Settles O30: firmware is staged, activated, told and handed over as R417, R422, R512 and R522–R524 say. -/
theorem firmwareCommands : Obligations.FirmwareCommands := ⟨firmwareStage, firmwareActivate, firmwareInfo, liveActivation⟩

end Sys2Proof.Machine
end

section
/-!
Host accesses (R5–R7, R342–R345, R352–R357, R372, R478, R499, R525, R526): doorbells, the registers of BAR0, the probe window, the
queue window and the HDM decoders.
-/
namespace Sys2Proof.Machine

/-! ## Doorbells (R304, R345, R499) -/

/-- The claim of R345: the KIND of a doorbell selects its queue's rule. -/
theorem doorbells_ring : Claims.Doorbells := by
  refine ⟨rings_of _ _ 1 (by decide) (fun _ _ _ _ => rfl) ?_, rings_of _ _ 2 (by decide) (fun _ _ _ _ => rfl) ?_,
    rings_of _ _ 3 (by decide) (fun _ _ _ _ => rfl) ?_, rings_of _ _ 4 (by decide) (fun _ _ _ _ => rfl) ?_,
    rings_of _ _ 5 (by decide) (fun _ _ _ _ => rfl) ?_⟩
  all_goals
    intro s m v kind
    simp only [State.ringDoorbell, kind] <;> rfl

/-- The claim of R304 and R345 for what a doorbell's queue takes. -/
theorem doorbellEffects : Claims.DoorbellEffects := by
  intro s tag n v
  refine ⟨fun j there low fits => ?_, fun q there low fits => ?_, fun i c there fits => ?_, fun c there low fits room => ?_,
    fun l there low fits => ?_⟩
  · intro j'
    simp only [ringJq, there]
    exact if_pos ⟨low, fits⟩
  · intro q'
    simp only [ringSrq, there]
    exact if_pos ⟨low, fits⟩
  · intro c'
    simp only [ringSq, there]
    exact if_pos fits
  · simp only [ringCq, there]
    exact if_pos ⟨low, fits, room⟩
  · simp only [ringList, there]
    exact if_pos ⟨low, fits⟩

/-- The claim of R499 for doorbells. -/
theorem doorbellsAsleep : Claims.DoorbellsAsleep := by
  intro ld m v s unit box own k mem
  simp only [List.mem_cons, List.not_mem_nil, or_false] at mem
  rcases mem with h | h | h | h | h
  all_goals
    subst h
    exact asleep _ (by show (_ : Nat) < 16; omega) _ ld m v s unit box own rfl

/-- Settles O33: doorbells act, are refused and wait as R304, R345 and R499 say. -/
theorem doorbells : Obligations.Doorbells := ⟨doorbells_ring, doorbellEffects, doorbellsAsleep⟩

/-! ## What a host reads from BAR0 (R342, R343, R347, R349, R372) -/

/-- Below 0x10000 stands the module block. -/
theorem bar0Slot_module {s : State} {ld off : Nat} (low : off < 0x10000) : s.bar0Slot ld off = s.moduleSlot off := if_pos low

/-- The unit block follows, outside Standby. -/
theorem bar0Slot_unit {s : State} {ld : Nat} (awake : s.power.state ≠ .standby) (off : Nat) (low : off < 0x10000) :
    s.bar0Slot ld (0x10000 + off) = s.unitSlot off := by
  refine (if_neg (by omega)).trans ((if_pos (by omega)).trans ((if_neg awake).trans ?_))
  rw [Nat.add_sub_cancel_left]

/-- A mailbox page answers where it answers the LD, and reads zero otherwise. -/
theorem bar0Slot_page {s : State} {ld m i : Nat} (box : m < 1024) (low : i < 0x1000) :
    s.bar0Slot ld (0x100000 + m * 0x1000 + i) = if s.pageAnswers ld m then (s.mbox m).pageSlot i else 0 := by
  refine (if_neg (by omega)).trans ((if_neg (by omega)).trans ((if_pos (by omega)).trans ?_))
  have page : (0x100000 + m * 0x1000 + i - 0x100000) / 0x1000 = m := by omega
  have rest : (0x100000 + m * 0x1000 + i) % 0x1000 = i := by omega
  dsimp only
  rw [page, rest]

/-- Every register of the unit block that stands in rows of 8 bytes. -/
theorem unitSlot_rows (s : State) {k : Nat} (low : k < 8) :
    s.unitSlot (8 * k) = s.spindleStatus k ∧ s.unitSlot (0x40 + 8 * k) = s.columnMap k ∧ s.unitSlot (0x80 + 8 * k) = s.whorlStatus k := by
  refine ⟨(if_pos (by omega)).trans ?_, (if_neg (by omega)).trans ((if_pos (by omega)).trans ?_),
    (if_neg (by omega)).trans ((if_neg (by omega)).trans ((if_pos (by omega)).trans ?_))⟩
  · rw [show 8 * k / 8 = k by omega]
  · rw [show (0x40 + 8 * k - 0x40) / 8 = k by omega]
  · rw [show (0x80 + 8 * k - 0x80) / 8 = k by omega]

/-- The ports' registers of the unit block. -/
theorem unitSlot_ports (s : State) {p : Nat} (low : p < 4) :
    s.unitSlot (0xD8 + 8 * p) = s.portStatus p ∧ s.unitSlot (0x100 + 8 * p) = s.schedStatus p := by
  refine ⟨?_, ?_⟩
  · rw [State.unitSlot, if_neg (by omega), if_neg (by omega), if_neg (by omega), if_neg (by omega), if_neg (by omega), if_neg (by omega),
      if_pos (by omega), show (0xD8 + 8 * p - 0xD8) / 8 = p by omega]
  · rw [State.unitSlot, if_neg (by omega), if_neg (by omega), if_neg (by omega), if_neg (by omega), if_neg (by omega), if_neg (by omega),
      if_neg (by omega), if_pos (by omega), show (0x100 + 8 * p - 0x100) / 8 = p by omega]

/-- The generations of the LDs stand from 0x100 on, and nothing behind them. -/
theorem moduleSlot_tail (s : State) (off : Nat) (high : 0x100 ≤ off) :
    s.moduleSlot off = if off < 0x180 then s.hostGeneration ((off - 0x100) / 8) else 0 := by
  rw [State.moduleSlot, if_neg (by omega), if_neg (by omega), if_neg (by omega), if_neg (by omega), if_neg (by omega), if_neg (by omega),
    if_neg (by omega)]
  simp only [high, true_and]

/-- A page answers the LD of its mailbox, in Standby for mailbox 0 alone. -/
theorem pageAnswers_iff {s : State} {ld m : Nat} :
    s.pageAnswers ld m = true ↔ (s.mbox m).ld = some ld ∧ (s.power.state ≠ .standby ∨ m = 0) := by
  simp [State.pageAnswers]

/-- The claim of R342, R343, R347, R349 and R372. -/
theorem bar0Reads : Claims.Bar0Reads := by
  intro s ld at_
  refine ⟨⟨rfl, rfl, rfl, rfl, fun d low => ?_, fun off low high => ?_⟩, fun awake => ⟨fun k low => ?_, ?_, ?_, ?_, fun p low => ?_⟩,
    fun asleep off low high => ?_, fun m box => ?_, fun off low high => ?_, fun off low => ?_⟩
  · refine (bar0Slot_module (by omega)).trans ((moduleSlot_tail s _ (by omega)).trans ((if_pos (by omega)).trans ?_))
    rw [show (0x100 + 8 * d - 0x100) / 8 = d by omega]
  · exact (bar0Slot_module high).trans ((moduleSlot_tail s off (by omega)).trans (if_neg (by omega)))
  · obtain ⟨spindle, column, whorl⟩ := unitSlot_rows s low
    refine ⟨(bar0Slot_unit awake _ (by omega)).trans spindle, ?_, ?_⟩
    · rw [show 0x10040 + 8 * k = 0x10000 + (0x40 + 8 * k) by omega]
      exact (bar0Slot_unit awake _ (by omega)).trans column
    · rw [show 0x10080 + 8 * k = 0x10000 + (0x80 + 8 * k) by omega]
      exact (bar0Slot_unit awake _ (by omega)).trans whorl
  · exact bar0Slot_unit awake 0xC0 (by decide)
  · exact bar0Slot_unit awake 0xC8 (by decide)
  · exact bar0Slot_unit awake 0xD0 (by decide)
  · obtain ⟨port, sched⟩ := unitSlot_ports s low
    refine ⟨?_, ?_⟩
    · rw [show 0x100D8 + 8 * p = 0x10000 + (0xD8 + 8 * p) by omega]
      exact (bar0Slot_unit awake _ (by omega)).trans port
    · rw [show 0x10100 + 8 * p = 0x10000 + (0x100 + 8 * p) by omega]
      exact (bar0Slot_unit awake _ (by omega)).trans sched
  · exact (if_neg (by omega)).trans ((if_pos high).trans (if_pos asleep))
  · intro page
    refine ⟨fun own answers => ?_, fun silent i low => ?_⟩
    · have answer := pageAnswers_iff.2 ⟨own, answers⟩
      exact ⟨(bar0Slot_page (i := 0) box (by decide)).trans (if_pos answer), (bar0Slot_page (i := 8) box (by decide)).trans (if_pos answer)⟩
    · refine (bar0Slot_page box low).trans (if_neg fun answer => ?_)
      obtain ⟨own, answers⟩ := pageAnswers_iff.1 answer
      rcases silent with foreign | ⟨asleep, other⟩
      · exact foreign own
      · exact answers.elim (· asleep) other
  · exact (if_neg (by omega)).trans ((if_neg (by omega)).trans ((if_neg (by omega)).trans (if_neg (by omega))))
  · exact (if_neg (by omega)).trans ((if_neg (by omega)).trans ((if_neg (by omega)).trans (if_neg (by omega))))

/-! ## Flags and their counters (R5–R7, R343, R372) -/

/-- A 1 written clears its flag (R5). -/
theorem flagWord_clearFlags (s : State) (row : Nat) (v : W32) : (s.clearFlags row v).flagWord row = s.flagWord row &&& ~~~v := by
  simp [State.clearFlags, State.flagWord]

/-- The claim of R5, R6, R343 and R372 for a write of flags. -/
theorem w1cFlagWrite : Claims.W1cFlagWrite := by
  intro ld row v hw s unit known
  refine ⟨_, if_pos ⟨unit, known⟩, fun i low => ?_⟩
  rw [(setFlags_all _ row hw).1 i low]
  congr 1
  by_cases clears : ld = s.cfg.adminLd ∧ s.power.state ≠ .standby
  · rw [if_pos clears, flagWord_clearFlags, decide_eq_true clears]
    simp [low]
  · rw [if_neg clears, decide_eq_false clears]; simp

/-- The claim of R6, R7 and R372 for a read of counters. -/
theorem rcCounterRead : Claims.RcCounterRead := by
  intro ld row first width hw s unit known covered
  by_cases asleep : s.power.state = .standby
  · obtain ⟨_, counts, out⟩ := setFlags_all s row hw
    refine ⟨_, (if_pos ⟨unit, known⟩).trans (if_pos asleep), ?_, fun i low => ?_⟩
    · show (s.setFlags row hw).out ++ [_] = _
      rw [out]
      simp [asleep, covered, zeros, List.map_const']
    · exact (counts i low).trans (by simp [asleep])
  · obtain ⟨_, counts, out⟩ := setFlags_all (s.clearCounts row first width) row hw
    refine ⟨_, (if_pos ⟨unit, known⟩).trans (if_neg asleep), ?_, fun i low => ?_⟩
    · show ((s.clearCounts row first width).setFlags row hw).out ++ [_] = _
      rw [out]
      simp only [asleep, if_false]; rfl
    · exact (counts i low).trans (by simp [asleep, flagCount_clear s row first width i low])

/-! ## TIME_NOW, recovery and register writes (R342–R344, R478, R525, R526) -/

/-- The claim of R478. -/
theorem timeNowReads : Claims.TimeNowReads := by
  intro ld s unit hi
  refine ⟨if_pos unit, fun h latched => (if_pos unit).trans ?_, fun none' => (if_pos unit).trans ?_⟩
  · rw [latched]; rfl
  · rw [none']; rfl

/-- The claim of R525 and R526 for RECOVERY_GO. -/
theorem recoveryGo : Claims.RecoveryGo := by
  intro s len img st after row
  have row_eq : row = .next ({ s with boot := { s.boot with recoveryLength := len } }).recoveryGo := rfl
  rw [row_eq]
  refine ⟨fun recovers fresh one => ⟨fun bad => ?_, fun some' fits => ?_⟩, fun other => ?_⟩
  all_goals refine congrArg Host.Outcome.next ?_
  · refine (if_neg ?_).trans (if_pos bad)
    rintro (h | h | h)
    exacts [h recovers, fresh h, one h]
  · refine (if_neg ?_).trans ((if_neg ?_).trans rfl)
    · rintro (h | h | h)
      exacts [h recovers, fresh h, one h]
    · rintro (h | h)
      · exact absurd h (Nat.ne_of_gt some')
      · exact absurd h (Nat.not_lt.2 fits)
  · exact if_pos (.inl other)

/-- There are sixteen LDs. -/
theorem ld_ok {ld : Nat} (unit : ld < 16) : ¬ (ld ≥ ldCount) := Nat.not_le_of_lt unit

/-- A write to a mailbox page goes to the page. -/
theorem registerWrite_page {ld m i : Nat} {s : State} {data : List Byte} (unit : ld < 16) (box : m < 1024) (low : i < 0x1000)
    (short : data.length ≤ 8) : exec (.registerWrite ld (0x100000 + m * 0x1000 + i) data) s = .next (s.writePage ld m i data) := by
  have size : bar0Size = 0x04000000 := rfl
  show execRegisterWrite ld (0x100000 + m * 0x1000 + i) data s = _
  rw [execRegisterWrite, if_neg (ld_ok unit), if_neg (by omega), if_pos (by omega),
    show (0x100000 + m * 0x1000 + i - 0x100000) / 0x1000 = m by omega, show (0x100000 + m * 0x1000 + i) % 0x1000 = i by omega]

/-- What a mailbox page does with a write it takes is what the mailbox's own row does. -/
theorem writePage_onPage {ld m i : Nat} {s : State} {data : List Byte} (f : State → State) (unit : ld < 16) (box : m < 1024)
    (takes : (s.mbox m).ld = some ld → s.writePage ld m i data = f s) : Host.Outcome.next (s.writePage ld m i data) = onPage ld m s f := by
  by_cases own : (s.mbox m).ld = some ld
  · rw [onPage_own f unit box own, takes own]
  · rw [onPage_foreign f unit box own, State.writePage, if_pos own]

/-- A write outside the pages, the flag registers and the recovery area is ignored (R342). -/
theorem registerWrite_elsewhere {ld off : Nat} {s : State} {data : List Byte} (unit : ld < 16) (fits : off + data.length ≤ 0x04000000)
    (elsewhere : off < 0x30 ∨ 0x38 ≤ off ∧ off < 0x10200 ∨ 0x10540 ≤ off ∧ off < 0x100000 ∨ 0x500000 ≤ off ∧ off < 0x02000000 ∨ 0x02800000 ≤ off) :
    exec (.registerWrite ld off data) s = .next s := by
  have size : bar0Size = 0x04000000 := rfl
  have rows : 0x10200 + 0x40 * flagRows = 0x10540 := rfl
  have base : recoveryBase = 0x02000000 := rfl
  have length : recoverySize = 0x00800000 := rfl
  show execRegisterWrite ld off data s = _
  rw [execRegisterWrite, if_neg (ld_ok unit), if_neg (by omega), if_neg (by omega), if_neg (by omega), if_neg (by omega)]
  split
  · next recovers =>
    have empty : data = [] := List.length_eq_zero_iff.1 (by omega)
    rw [empty]; rfl
  · rfl

/-- The claim of R342–R344 and R526 for register writes. -/
theorem registerWrite : Claims.RegisterWrite := by
  intro ld s unit
  have size : bar0Size = 0x04000000 := rfl
  have rows : flagRows = 13 := rfl
  refine ⟨fun m v box => ?_, fun m v box => ?_, fun row v known => ?_, fun v => ?_, fun off data low high recovers => ?_,
    fun off data fits elsewhere => registerWrite_elsewhere unit fits elsewhere⟩
  · intro p
    have four : (toLe 4 v.toNat).length ≤ 8 := by rw [toLe_length]; decide
    refine ⟨(registerWrite_page (i := 0) unit box (by decide) four).trans (writePage_onPage (State.writeSqTail m v) unit box fun own => ?_),
      (registerWrite_page (i := 4) unit box (by decide) four).trans (writePage_onPage (State.writeCqHead m v) unit box fun own => ?_),
      (registerWrite_page (i := 8) unit box (by decide) four).trans (writePage_onPage (State.writeEventHead m v) unit box fun own => ?_)⟩
    all_goals
      rw [State.writePage, if_neg (not_not_intro own), w32_le, toLe_length]
      rfl
  · have eight : (toLe 8 (2 ^ 60 + v.toNat)).length ≤ 8 := by rw [toLe_length]
    rw [show 0x100010 + m * 0x1000 = 0x100000 + m * 0x1000 + 16 by omega]
    refine (registerWrite_page (i := 16) unit box (by decide) eight).trans (writePage_onPage (State.writeDoorbell ld m (doorbellValue 1 v)) unit box fun own => ?_)
    have value : 2 ^ 60 + v.toNat < 256 ^ 8 := by have := v.isLt; omega
    rw [State.writePage, if_neg (not_not_intro own), ofLe_toLe 8 _ value, toLe_length]
    rfl
  · show execRegisterWrite ld _ _ s = _
    rw [execRegisterWrite, if_neg (ld_ok unit), if_neg (by rw [toLe_length]; omega), if_neg (by omega),
      if_pos (by rw [toLe_length]; omega), w32_le, show (0x10200 + 0x40 * row - 0x10200) / 0x40 = row by omega]
  · show execRegisterWrite 0 _ _ s = _
    rw [execRegisterWrite, if_neg (by decide), if_neg (by rw [toLe_length]; decide), if_neg (by decide), if_neg (by omega), if_pos (by decide)]
    rw [State.writeRecoveryCtrl, if_neg (by omega), if_pos (by rw [toLe_length]; decide)]
    dsimp only
    rw [w32_le]
  · have base : recoveryBase = 0x02000000 := rfl
    have length : recoverySize = 0x00800000 := rfl
    show execRegisterWrite 0 _ _ s = _
    rw [execRegisterWrite, if_neg (by decide), if_neg (by omega), if_neg (by omega), if_neg (by omega), if_neg (by omega),
      if_pos ⟨rfl, recovers, low, by omega⟩, base]

/-- Settles O34: BAR0 is read and written as R5–R7, R342–R349, R372, R478, R525 and R526 say. -/
theorem registerAccesses : Obligations.RegisterAccesses := ⟨bar0Reads, w1cFlagWrite, rcCounterRead, timeNowReads, recoveryGo, registerWrite⟩

/-! ## Windows and decoders (R352–R357, R360, R499) -/

/-- The claim of R150, R356, R357, R360 and R499 for the probe window. -/
theorem probeWindow : Claims.ProbeWindow := by
  intro ld idx s unit low t
  have there : ¬ (ld ≥ ldCount) := ld_ok unit
  refine ⟨fun awake => ⟨fun k skein reaches => ?_, fun hidden => ?_, ?_⟩, fun asleep => ⟨?_, ?_⟩⟩
  · refine (if_neg there).trans ((if_neg (Nat.not_le_of_lt low)).trans ((if_neg awake).trans ?_))
    dsimp only
    rw [show (s.expireLease idx).skein? idx = some k from skein]
    dsimp only
    rw [if_pos reaches]; rfl
  · refine (if_neg there).trans ((if_neg (Nat.not_le_of_lt low)).trans ((if_neg awake).trans ?_))
    cases skein : t.skein? idx with
    | none => dsimp only; rw [show (s.expireLease idx).skein? idx = none from skein]; rfl
    | some k =>
      rw [skein] at hidden
      have foreign : t.ldReaches ld k.tenant = false := by simpa using hidden
      dsimp only
      rw [show (s.expireLease idx).skein? idx = some k from skein]
      dsimp only
      rw [if_neg (ne_true_of_eq_false foreign)]; rfl
  · exact (if_neg there).trans ((if_neg (Nat.not_le_of_lt low)).trans (if_neg awake))
  · exact (if_neg there).trans ((if_neg (Nat.not_le_of_lt low)).trans (if_pos asleep))
  · exact (if_neg there).trans ((if_neg (Nat.not_le_of_lt low)).trans (if_pos asleep))

/-- No line fails where none is bad. -/
theorem filterMap_windowBad {α : Type} {s : State} (good : s.cxl.badLines = []) (ld off : Nat) (l : List Nat) (f : Nat → Nat → α) :
    l.filterMap (fun i => (s.windowBad ld (off + i)).map (f i)) = [] :=
  List.filterMap_eq_nil_iff.2 fun i _ => by rw [bad_none s good]; rfl

/-- A read of good lines gives the bytes of the window (R354). -/
theorem windowAccess_read {s : State} (good : s.cxl.badLines = []) (ld off len : Nat) :
    s.windowAccess ld off len none = (if (List.range len).all fun i => (s.slabAt ld (off + i)).isSome then s else s.setFlag Flag.queueUnmapped).emit
      (.readData ld (s.windowRead ld off len)) := by
  have length : (s.windowRead ld off len).length = len := by simp [State.windowRead]
  unfold State.windowAccess
  dsimp only
  generalize h : (if (List.range len).all fun i => (s.slabAt ld (off + i)).isSome then s else s.setFlag Flag.queueUnmapped) = t
  have lines : t.cxl.badLines = [] := by rw [← h]; split <;> exact good
  have same : t.windowRead ld off len = s.windowRead ld off len := by rw [← h]; split <;> rfl
  rw [filterMap_windowBad lines, same, zip_range_map _ len length (fun i => (t.windowBad ld (off + i)).isSome) fun i => by rw [bad_none t lines]; rfl]
  rfl

/-- A write to good lines stores the bytes and changes nothing else (R354). -/
theorem windowAccess_write {s : State} (good : s.cxl.badLines = []) (ld off len : Nat) (data : List Byte) :
    s.windowAccess ld off len (some data) = (if (List.range data.length).all fun i => (s.slabAt ld (off + i)).isSome then s
      else s.setFlag Flag.queueUnmapped).windowWrite ld off data := by
  unfold State.windowAccess
  dsimp only
  generalize h : (if (List.range data.length).all fun i => (s.slabAt ld (off + i)).isSome then s else s.setFlag Flag.queueUnmapped) = t
  have lines : (t.windowWrite ld off data).cxl.badLines = [] := by
    rw [windowWrite_cxl, ← h]
    split <;> exact good
  rw [lines]
  show { t.windowWrite ld off data with cxl := { (t.windowWrite ld off data).cxl with badLines := [] } } = _
  rw [← lines]

/-- An access within the queue window of a module that is not going to sleep is served at once (R354). -/
theorem exec_queueWindowAccess {ld off len : Nat} {data : Option (List Byte)} {s : State} (unit : ld < 16) (runs : s.holdsRequests = false)
    (fits : off + (match data with | some d => d.length | none => len) ≤ 64 * 2 ^ 30) :
    exec (.queueWindowAccess ld off len data) s = .next (s.windowAccess ld off len data) := by
  refine (if_neg (ld_ok unit)).trans ((if_neg (Nat.not_lt.2 fits)).trans (if_neg ?_))
  rw [runs]; exact fun h => Bool.false_ne_true h.1

/-- The claim of R354. -/
theorem queueWindow : Claims.QueueWindow := by
  intro ld off len s unit runs good
  refine ⟨fun mapped is fits => ?_, fun data mapped is fits => ?_, fun i low => ?_⟩
  · intro t
    rw [exec_queueWindowAccess unit runs fits, windowAccess_read good, ← is]; rfl
  · rw [exec_queueWindowAccess unit runs fits, windowAccess_write good, ← is]
  · unfold State.windowRead
    rw [List.getElem?_map, List.getElem?_range low]
    cases h : s.windowAddr ld (off + i) <;> simp [h]

/-- The claim of R352. -/
theorem hdmDecoderCommit : Claims.HdmDecoderCommit := by
  intro ld dec base size s unit known lo hi l
  have range : decoderRange dec = (lo, hi) := by unfold decoderRange; grind
  have row : exec (.hdmDecoderCommit ld dec base size) s = .next (s.setLd ld
      (if decide (lo ≤ base ∧ 0 < size ∧ base + size ≤ hi) && l.ascending dec base size then
        { l with decoders := tset l.decoders dec (base, size), decoderError := l.decoderError.filter (· != dec) }
      else { l with decoderError := if l.decoderError.contains dec then l.decoderError else l.decoderError ++ [dec] })) := by
    refine (if_pos ⟨unit, known⟩).trans ?_
    rw [range]
  rw [row]
  refine ⟨fun low some' high ascends => ?_, fun bad => ⟨if l.decoderError.contains dec then l.decoderError else l.decoderError ++ [dec], ?_, ?_⟩⟩
  · rw [decide_eq_true ⟨low, some', high⟩, ascends]; rfl
  · have refused : (decide (lo ≤ base ∧ 0 < size ∧ base + size ≤ hi) && l.ascending dec base size) = false := by
      rcases bad with h | h | h | h
      · rw [decide_eq_false (by omega)]; rfl
      · rw [decide_eq_false (by omega)]; rfl
      · rw [decide_eq_false (by omega)]; rfl
      · rw [h]; exact Bool.and_false _
    rw [refused]; rfl
  · split
    · next there => simpa using there
    · simp

/-- Settles O35: the probe window, the queue window and the HDM decoders are as R150, R352–R357, R360 and R499 say. -/
theorem windows : Obligations.Windows := ⟨probeWindow, queueWindow, hdmDecoderCommit⟩

end Sys2Proof.Machine
end

section
/-!
Jobs (R94–R133, R165, R489): admission, launch, streaming and delivery, each row by the branch that its job's state selects.
-/
namespace Sys2Proof.Machine

/-! ## Admission (R12, R113, R124, R126) -/

/-- The claim of R124 for JOB_ADMISSION. -/
theorem jobAdmission_head : Claims.JobAdmission := by
  intro q s s1 j e es b head other1 other2 other3
  have row := head_row (f := fun jq e b s => match s.checkJob q jq.tenant e b with
    | (.error st, s) => s.completeEntry q e b st 0
    | (.ok j, s) => (s.modWork fun w => { w with nextJob := s.work.nextJob + 1, jobs := tset w.jobs s.work.nextJob j }).step10 s.work.nextJob j)
    (mine := fun b => !([0x11, 0x12, 0x13].contains (field b 0 1))) head (by simp [other1, other2, other3])
  refine ⟨fun x passes => Eq.trans row ?_, fun st fails => Eq.trans row ?_⟩
  · dsimp only
    rw [passes]
  · dsimp only
    rw [fails]

/-- A descriptor whose first checks fail is refused, and nothing of it is admitted. -/
theorem checkJob_refused {s : State} {q : Nat} {tag : W16} {e : QEntry} {b : List Byte} {st : Nat} (fails : s.jobKeys tag e b = .error st) :
    s.checkJob q tag e b = (.error st, s) := by
  simp only [State.checkJob, fails]

/-- A header that fails is the job's own failure. -/
theorem jobKeys_header {s : State} {tag : W16} {e : QEntry} {b : List Byte} {st : Nat} (fails : checkHeader b 0x10 2 (jobZeros b) = .error st) :
    s.jobKeys tag e b = .error st := by
  unfold State.jobKeys
  rw [fails]; rfl

/-- The claim of R12 and R124 steps 1 and 2. -/
theorem jobHeader : Claims.JobHeader := by
  intro s q tag e b
  refine ⟨fun type => checkJob_refused (jobKeys_header ?_), fun type version => checkJob_refused (jobKeys_header ?_),
    fun type version length => checkJob_refused (jobKeys_header ?_), fun type version length zeros => checkJob_refused (jobKeys_header ?_),
    fun type version length zeros excluded => checkJob_refused ?_⟩
  · simp [checkHeader, need, type]; rfl
  · simp [checkHeader, need, type, version]; rfl
  · simp [checkHeader, need, type, version, length]; rfl
  · simp [checkHeader, need, type, version, length, zeros]; rfl
  · have header : checkHeader b 0x10 2 (jobZeros b) = .ok () := by simp [checkHeader, need, type, version, length, zeros]; rfl
    unfold State.jobKeys
    rw [header, excluded]; rfl

/-- The claim of R113, R124 steps 10 to 12 and R126. -/
theorem plainAdmission : Claims.PlainAdmission := by
  intro s id j uncached whole there planned j' resident
  have plan : s.planJob j = .ok planned := by
    refine mapM_ok _ _ _ fun e _ => ?_
    cases s.skein? (skIndex e.skein) with
    | none => rfl
    | some k => simp only [whole]; rfl
  have exist : (planned.any fun e => (s.skein? (skIndex e.skein)).isNone) = false := by
    refine List.any_eq_false.2 fun e mem => ?_
    obtain ⟨a, ma, rfl⟩ := List.mem_map.1 mem
    have := there a ma
    simpa [Option.isSome_iff_ne_none] using this
  have none' : (planned.all fun e => (s.reloadsOf j.bytes e).isEmpty) = true :=
    List.all_eq_true.2 fun e mem => by rw [resident e mem]; rfl
  have selects : s.step10 id j = s.selectJob id j := by simp [State.step10, State.step11, uncached, whole]
  rw [selects]
  simp only [State.selectJob, plan]
  refine (if_neg (ne_true_of_eq_false exist)).trans (if_pos none')

/-- The claim of R126 and R147. -/
theorem jobAdmissionResume : Claims.JobAdmissionResume := by
  intro id s j there awake
  have row : exec (.jobAdmissionResume id) s = execJobAdmissionResume id s := rfl
  rw [row]
  refine ⟨fun waits come => ?_, fun waits open' => ?_, fun waits free => ?_, fun waits runs => ?_⟩
  all_goals simp only [execJobAdmissionResume, there, awake, waits]
  · rw [show (j.entries.all fun e => (s.reloadsOf j.bytes e).isEmpty) = true from List.all_eq_true.2 fun e mem => by rw [come e mem]; rfl]
    rfl
  · obtain ⟨e, mem, left⟩ := open'
    rw [show (j.entries.all fun e => (s.reloadsOf j.bytes e).isEmpty) = false from List.all_eq_false.2 ⟨e, mem, by simpa using left⟩]
    rfl
  · rw [free]; rfl
  · rw [runs]; rfl

/-- The claim of R126 for an admission wait that ends. -/
theorem admitWaitExpiry : Claims.AdmitWaitExpiry := by
  intro id t s j there waits until' due awake s1
  refine ⟨s1.store.reloads.filter fun r => !(!s1.creelServes && r.2.waiters.isEmpty && r.2.forJob && r.2.reloaded == 0 &&
      j.entries.any (fun e => skIndex e.skein == r.1) &&
      !(s1.work.jobs.any fun x => x.2.phase == .waiting && x.2.entries.any fun e => skIndex e.skein == r.1)), ?_,
    fun r mem => List.mem_of_mem_filter mem, fun r mem busy => List.mem_filter.2 ⟨mem, ?_⟩⟩
  · have row : exec (.admitWaitExpiry id) s = execAdmitWaitExpiry id s := rfl
    rw [row]
    simp only [execAdmitWaitExpiry, there, waits, until', awake]
    exact if_neg fun h => h.elim (Nat.not_lt.2 due) (absurd · (by decide))
  · rcases busy with h | h | h | h
    · simp [h]
    · simp [h]
    · simp [h]
    · simp [h]

/-- The claim of R489. -/
theorem sketchWaitDone : Claims.SketchWaitDone := by
  intro id s j there waits awake
  have row : exec (.sketchWaitDone id) s = if j.phase ≠ .sketchWait ∨ s.sketchPending j ∨ !s.awake then .next s else .next (s.selectJob id j) := by
    show execSketchWaitDone id s = _
    simp only [execSketchWaitDone, there]
  rw [row]
  refine ⟨fun free => if_neg ?_, fun pending => if_pos (.inr (.inl pending))⟩
  rw [waits, free, awake]; simp

/-- Settles O36: jobs are admitted as R12, R113, R124, R126, R147 and R489 say. -/
theorem jobAdmission : Obligations.JobAdmission :=
  ⟨jobAdmission_head, jobHeader, plainAdmission, jobAdmissionResume, admitWaitExpiry, sketchWaitDone⟩

end Sys2Proof.Machine
end

section
/-!
Jobs under way (R94–R118, R127, R133, R165): launch, barriers, leas, items, and the delivery of rows.
-/
namespace Sys2Proof.Machine

/-! ## Launch and barriers (R118, R127) -/

/-- The claim of R118 and R127. -/
theorem launchCountReached : Claims.LaunchCountReached := by
  intro id s j there waits all
  have row : exec (.launchCountReached id) s = if j.phase ≠ .launchWait ∨ s.time.now < j.launch then .next s
      else .next (s.release id { j with startAt := s.time.localNow }) := by
    show execLaunchCountReached id s = _
    simp only [execLaunchCountReached, there]
  rw [row]
  refine ⟨fun early => if_pos (.inr early), fun come => ?_⟩
  rw [if_neg (by rw [waits]; simpa using come)]
  refine congrArg Host.Outcome.next ((if_neg (BitVec.not_lt.2 come)).trans ?_)
  show (if all = true then _ else _) = _
  split <;> rfl

/-- The claim of R118 for a barrier. -/
theorem spindleBarrierArrive : Claims.SpindleBarrierArrive := by
  intro id sp s j unit there turn first idle serves awake at' all
  have none' : (s.flying.any fun f => f / 64 == sp) = false := List.any_eq_false.2 fun f mem => by simpa using idle f mem
  have may : (s.barrierOf sp == some id && !j.barrier.contains sp && !(s.flying.any fun f => f / 64 == sp) && s.spindleServes sp && s.awake) = true := by
    simp [turn, first, none', serves, awake]
  have row : exec (.spindleBarrierArrive id sp) s = .next ((s.setFold sp j).release id { j with barrier := j.barrier ++ [sp] }) := by
    refine (if_neg (by omega)).trans ?_
    simp only [there]
    exact if_pos may
  rw [row]
  refine congrArg Host.Outcome.next ?_
  show (if s.time.now < j.launch then _ else if all = true then _ else _) = _
  split
  · rfl
  · split <;> rfl

/-! ## Leas and items (R42, R75, R94, R98, R101, R106–R109, R438) -/

/-- A lea that its sub-array may take is streamed. -/
theorem exec_leaArrival {id item lea sp sub : Nat} {s : State} {j : Job} {i : Item} {e : JobEntry} (unit : sp < 8) (there : s.job? id = some j)
    (at_ : j.items[item]? = some i) (entry : j.entries[i.entry]? = some e) :
    exec (.leaArrival id item lea sp sub) s =
      if (!j.whorls && j.phase == .streaming && !i.done && lea == i.leas && decide (lea < leasOf e.cap i.leaf.count)) &&
        i.sub.elim (s.takesItem j i sp sub) (fun x => x == sp * 64 + sub && decide (s.power.state = .run ∨ s.power.state = .hold))
      then .next (s.streamLea id j item i e lea (sp * 64 + sub)) else .next s := by
  refine (if_neg (by omega)).trans ?_
  simp only [there, at_, entry]
  cases i.sub <;> rfl

/-- The item once a lea of it has been streamed: its sub-array keeps the row states from before the first (R106). -/
def Item.streamed (i : Item) (j : Job) (e : JobEntry) (u : Nat) : Item :=
  { i with leas := i.leas + 1, sub := some u,
           saved := if i.sub.isNone then (e.passRows i.pass).map fun r => (partKey j r i.bobbin u, j.part (partKey j r i.bobbin u)) else i.saved }

/-- A later lea changes the count alone. -/
theorem Item.streamed_later {i : Item} {u : Nat} (served : i.sub = some u) (j : Job) (e : JobEntry) :
    i.streamed j e u = { i with leas := i.leas + 1 } := by
  cases i
  cases served
  rfl

/-- The first lea binds the item to its sub-array. -/
theorem Item.streamed_first {i : Item} (free : i.sub = none) (j : Job) (e : JobEntry) (u : Nat) :
    i.streamed j e u = { i with leas := i.leas + 1, sub := some u, saved := (e.passRows i.pass).map fun r =>
      (partKey j r i.bobbin u, j.part (partKey j r i.bobbin u)) } := by
  unfold Item.streamed
  rw [free]; rfl

/-- What a streamed lea leaves: it is lost, or taken into the state of every row, or the score program's trap fails the job. -/
theorem streamLea_eq {s t : State} {id n lea u : Nat} {j : Job} {i : Item} {e : JobEntry}
    (presents : (if i.sub.isNone then s.setFold (u / 64) j else s).checkTag j.tenant (u / 64) (slotAddr i.leaf.tier i.leaf.pbn + 16384 * lea) = t) :
    let fold := fun toks => t.blockRows j i.entry e i.bobbin i.leaf.count toks (leaSlots e.cap lea) (e.passRows i.pass) fun r =>
      j.part (partKey j r i.bobbin u)
    (t.leaTokens j e i.leaf i.bobbin lea = none → s.streamLea id j n i e lea u = ((t.setJob id
      { j with items := j.items.set n { i.streamed j e u with lost := i.lost ++ [lea] } }).damageFor e j i.bobbin).restSpindles) ∧
    (∀ toks out, t.leaTokens j e i.leaf i.bobbin lea = some toks → fold toks = .ok out → s.streamLea id j n i e lea u = (t.setJob id
      { j with items := j.items.set n (i.streamed j e u), states := out.foldl (fun m x => tset m (partKey j x.1 i.bobbin u) x.2) j.states }).restSpindles) ∧
    (∀ toks why, t.leaTokens j e i.leaf i.bobbin lea = some toks → fold toks = .error why →
      s.streamLea id j n i e lea u = t.trapJob id j 1 ((jdProgram j.bytes).getD 0) why) := by
  subst presents
  refine ⟨fun bad => ?_, fun toks out good ok => ?_, fun toks why good traps => ?_⟩
  · simp only [State.streamLea, bad]; rfl
  · simp only [State.streamLea, good]
    dsimp only at ok
    rw [ok]; rfl
  · simp only [State.streamLea, good]
    dsimp only at traps
    rw [traps]

/-- The claim of R42, R75, R98, R101 and R438 for a lea. -/
theorem leaArrival : Claims.LeaArrival := by
  intro id item lea sp sub s j i e unit there at_ entry spindle streams open' next low subs served power key i1 i2 t fold
  have home : (sp * 64 + sub) / 64 = sp := by omega
  have presents : (if i.sub.isNone then s.setFold ((sp * 64 + sub) / 64) j else s).checkTag j.tenant ((sp * 64 + sub) / 64)
      (slotAddr i.leaf.tier i.leaf.pbn + 16384 * lea) = t := by rw [served, home]; rfl
  have streamed : exec (.leaArrival id item lea sp sub) s = .next (s.streamLea id j item i e lea (sp * 64 + sub)) := by
    rw [exec_leaArrival unit there at_ entry]
    refine if_pos ?_
    simp [spindle, streams, open', ← next, low, served, power]
  obtain ⟨lost, taken, trapped⟩ := streamLea_eq (id := id) (n := item) (e := e) presents
  rw [Item.streamed_later served] at lost taken
  rw [streamed]
  exact ⟨fun bad => congrArg _ (lost bad), fun toks out good ok => congrArg _ (taken toks out good ok),
    fun toks why good traps => congrArg _ (trapped toks why good traps)⟩

/-- The claim of R94, R106, R107 and R109. -/
theorem itemDealt : Claims.ItemDealt := by
  intro id item sp sub s j i e unit there at_ entry spindle streams open' first some' free t key
  rw [exec_leaArrival unit there at_ entry]
  refine ⟨fun refused => if_neg ?_, fun takes toks out good ok => ?_⟩
  · rw [free]; simp [refused]
  · intro i1 subs
    have home : (sp * 64 + sub) / 64 = sp := by omega
    have presents : (if i.sub.isNone then s.setFold ((sp * 64 + sub) / 64) j else s).checkTag j.tenant ((sp * 64 + sub) / 64)
        (slotAddr i.leaf.tier i.leaf.pbn + 16384 * 0) = t := by
      rw [free, home, Nat.mul_zero, Nat.add_zero]; rfl
    obtain ⟨_, taken, _⟩ := streamLea_eq (id := id) (n := item) (e := e) presents
    rw [Item.streamed_first free, first] at taken
    refine (if_pos (by simp [spindle, streams, open', first, some', free, takes])).trans ?_
    exact congrArg _ (taken toks out good ok)

/-- The claim of R106. -/
theorem spindleItemComplete : Claims.SpindleItemComplete := by
  intro id item u s j i e there at_ sub entry open' handled
  have row : exec (.spindleItemComplete id item) s = if i.done || decide (i.leas < leasOf e.cap i.leaf.count) then .next s
      else .next (s.setJob id { j with items := j.items.set item { i with done := true }, order := (j.order.filter (· != u)) ++ [u] }).restSpindles := by
    show execSpindleItemComplete id item s = _
    simp only [execSpindleItemComplete, there, at_, sub, entry]
  rw [row]
  exact if_neg (by simp [open', handled])

/-! ## Completion and delivery (R98, R105, R107, R133, R165, R166) -/

/-- The claim of R105, R107 and R133 for a spindle job. -/
theorem jobStreamComplete : Claims.JobStreamComplete := by
  intro id order s j there streams awake spindle
  have row : exec (.jobStreamComplete id order) s =
      if j.items.all (·.done) then .next ((s.countLate j).deliverJob id j (s.jobRows j) false) else .next s := by
    show execJobStreamComplete id order s = _
    simp only [execJobStreamComplete, there, streams, awake, spindle]; rfl
  rw [row]
  refine ⟨fun all => if_pos (List.all_eq_true.2 all), fun left => if_neg ?_⟩
  obtain ⟨i, mem, open'⟩ := left
  exact fun all => absurd (open'.symm.trans (List.all_eq_true.1 all i mem)) Bool.false_ne_true

/-- The claim of R98, R165 and R166 for a whorl job. -/
theorem whorlJob : Claims.WhorlJob := by
  intro id order s j there streams awake whorl power serves
  have row : exec (.jobStreamComplete id order) s = match s.whorlItems j order with
      | .error t => .next (s.trapJob id j 1 ((jdProgram j.bytes).getD 0) t)
      | .ok j => .next (((s.whorlTag j).damageLost j).deliverJob id j (s.jobRows j) false) := by
    have able : ((j.items.any fun i => i.leaf.tier == 0) && s.spindlesInService == 0) = false := by
      rcases serves with h | h
      · rw [List.any_eq_false.2 fun i mem => by simpa using h i mem]; rfl
      · simp [h]
    show execJobStreamComplete id order s = _
    simp only [execJobStreamComplete, there, streams, awake, whorl, power, able]
    rfl
  rw [row]
  refine ⟨fun j' done => ?_, fun t traps => ?_⟩
  · rw [done]
  · rw [traps]

/-- The claim of R133. -/
theorem jobDelivery : Claims.JobDelivery := by
  intro s id j rows replayed read j' s1 n
  have same : { j with rows, replayed, phase := .sent } = j' := by
    cases j
    cases read
    rfl
  have sent : (s.setJob id { j with rows, replayed, phase := .sent }).queryRead id = s1 := by
    have there : s1.job? id = some j' := by simp [s1, State.setJob, State.job?, State.modWork]
    rw [same]
    show s1.queryRead id = s1
    unfold State.queryRead
    rw [there]
  have row : s.deliverJob id j rows replayed =
      if jdDest j.bytes = 0 then (s1.connAt j.tenant (jdConn j.bytes)).elim (s1.endJob id j' St.staleHandle 0 0) fun _ =>
        s1.postPly (jdConn j.bytes) { payload := plyHeader n (jdPlySlub j.bytes) (jdPlyBf16 j.bytes) (jdDv j.bytes) ++ rows, source := some (0, id) }
      else if jdDest j.bytes = 1 then match s1.writeRows j.tenant (jdPlyKey j.bytes) (field j.bytes 112 4) rows with
        | .ok s => s.endJob id j' St.ok 0 rows.length
        | .error st => s1.endJob id j' st 0 0
      else
        let r := s1.deliverPly j.tenant (jdDv j.bytes) (jdPlySlub j.bytes) (jdPlyBf16 j.bytes) (splitRows (jobRowSize j.bytes) n rows)
        r.2.endJob id j' r.1 0 (if r.1 = 0 then rows.length else 0) := by
    unfold State.deliverJob
    dsimp only
    rw [sent]
    cases s1.connAt j.tenant (jdConn j.bytes) <;> rfl
  rw [row]
  refine ⟨fun conn there => ?_, fun region s2 written => ?_, fun region st refused => ?_⟩
  · obtain ⟨k, there⟩ := there
    rw [if_pos conn, there]; rfl
  · rw [if_neg (by omega), if_pos region, written]
  · rw [if_neg (by omega), if_pos region, refused]

/-- The claim of R109 and R116. -/
theorem spindleLeavesService : Claims.SpindleLeavesService := by
  intro sp s p unit there awake out
  have row : exec (.spindleLeavesService sp) s = if p.state ≤ 2 ∧ s.awake then .next (s.spindleOut sp 4) else .next s := by
    refine (if_neg (by omega)).trans ?_
    simp only [there]
  rw [row]
  refine ⟨fun serves => if_pos ⟨serves, awake⟩, fun serves none' => (if_pos ⟨serves, awake⟩).trans ?_, fun away => if_neg fun h => absurd h.1 (Nat.not_le_of_lt away)⟩
  have idle : out.redeal sp = out := by
    unfold State.redeal
    rw [show out.work.jobs = [] from none']; rfl
  show Host.Outcome.next (((out.redeal sp).restSpindles).refreshLevel) = _
  rw [idle]

/-- Settles O37: jobs are launched, streamed and delivered as R42, R75, R94–R118, R127, R133, R165, R166 and R438 say. -/
theorem jobStreaming : Obligations.JobStreaming :=
  ⟨launchCountReached, spindleBarrierArrive, leaArrival, itemDealt, spindleItemComplete, jobStreamComplete, whorlJob, jobDelivery,
    spindleLeavesService⟩

end Sys2Proof.Machine
end

section
/-!
Combines, whorl commands and waits (R134–R139, R167–R170, R290, R319, R320): the head of a queue is taken and ends as its checks say.
-/
namespace Sys2Proof.Machine

/-! ## Combines (R134–R136, R139, R290) -/

/-- The claim of R134 and R135. -/
theorem combineDescriptorPost : Claims.CombineDescriptorPost := by
  intro q s s1 j e es b area head type p n
  have row : exec (.combineDescriptorPost q) s = .next (match p.postCombine q j.tenant e b with
      | .ok s => s
      | .error st => p.completeEntry q e b st (p.retryFor st (combineSlots b))) := by
    rw [show exec (.combineDescriptorPost q) s = execCombineDescriptorPost q s from rfl, execCombineDescriptorPost,
      head_row head (by rw [type]; rfl)] <;> rfl
  rw [row]
  refine ⟨fun sound free target room slots => ?_, fun st fails => ?_⟩
  · intro c
    have posted : p.postCombine q j.tenant e b =
        .ok ((s1.charge j.tenant qDram n).modWork fun w => { w with combines := tset w.combines (cdId b) c }) := by
      unfold State.postCombine
      rw [sound, ok_bind]
      refine (need_then (by rw [thas, free]; rfl)).trans ((need_then ?_).trans ?_)
      · rcases target with ⟨h, ok⟩ | ⟨h, ok⟩ | ⟨h, ok⟩
        · simpa [h] using ok
        · simpa [h] using ok
        · simpa [h] using ok
      · dsimp only
        rw [show p.dramNeed j.tenant (combineSlots b) = .ok () from room, ok_bind, show p.takeSlots (combineSlots b) = some (area, s1) from slots]
        rfl
    rw [posted]
  · have refused : p.postCombine q j.tenant e b = .error st := by
      unfold State.postCombine
      rw [fails]; rfl
    rw [refused]

/-- The claim of R135 and R139. -/
theorem combineTimeout : Claims.CombineTimeout := by
  intro id t s c there awake
  have row : exec (.combineTimeoutExpiry id) s = execCombineTimeoutExpiry id s := rfl
  rw [row]
  refine ⟨fun started timed late => ?_, fun started early => ?_, fun never => ?_⟩
  · simp only [execCombineTimeoutExpiry, there, started]
    exact if_pos ⟨timed, late, awake⟩
  · simp only [execCombineTimeoutExpiry, there, started]
    exact if_neg fun h => absurd h.2.1 (Nat.not_le_of_lt early)
  · cases started : c.startedAt with
    | none => simp only [execCombineTimeoutExpiry, there, started]
    | some u =>
      have zero : cdTimeout c.bytes = 0 := never.resolve_right (by rw [started]; exact Option.some_ne_none u)
      simp only [execCombineTimeoutExpiry, there, started]
      exact if_neg fun h => h.1 zero

/-- The claim of R136 and R290. -/
theorem plyExecute : Claims.PlyExecute := by
  intro c seq s k r ready
  rw [show exec (.plyExecute c seq) s = execPlyExecute c seq s from rfl, execPlyExecute, msg_row ready]
  refine ⟨fun st fails => ?_, fun rows slub bf n st good fails => ?_, fun rows slub bf n id t x good taken there => ?_⟩
  · rw [fails]
  · rw [good]
    dsimp only [State.deliverPly]
    rw [fails]
  · have delivered : s.deliverPly k.tenant n slub bf (splitRows (plyRowSize n slub bf) rows (r.payload.drop 64)) =
        (St.ok, if x.full then t.emitCombine t.emitFuel id St.ok else t) := by
      simp only [State.deliverPly, taken, there]
    rw [good]
    dsimp only
    rw [delivered]
    exact ⟨fun open' => by rw [open']; rfl, fun full => by rw [full]; rfl⟩

/-! ## Whorl commands (R167–R170) -/

/-- The claim of R167 and R168. -/
theorem copy : Claims.Copy := by
  intro q s j e es b head power type op p fin'
  rw [show exec (.copy q) s = execCopy q s from rfl, execCopy, whorl_row head power type (by rw [op]; rfl)]
  refine ⟨fun st fails => ?_, fun k d good st fails => ?_, fun k d good fits st t copied => ?_⟩
  · dsimp only
    rw [show (s.popped q es).whorlChecks j.tenant b = .error st from fails]
  · dsimp only
    rw [show (s.popped q es).whorlChecks j.tenant b = .ok (k, some d) from good]
    dsimp only
    rw [show (s.popped q es).copyChecks b k d = .error st from fails]
  · dsimp only
    rw [show (s.popped q es).whorlChecks j.tenant b = .ok (k, some d) from good]
    dsimp only
    rw [show (s.popped q es).copyChecks b k d = .ok () from fits]
    dsimp only
    rw [show (s.popped q es).copyKeys (skIndex (wcSkein b)) (skIndex (wcDest b)) (wcKeys b) = (st, t) from copied]

/-- The claim of R170. -/
theorem verify : Claims.Verify := by
  intro q s j e es b k d head power type op good p bad t st
  rw [show exec (.verify q) s = execVerify q s from rfl, execVerify, whorl_row head power type (by rw [op]; rfl)]
  dsimp only
  rw [good] <;> rfl

/-- The claim of R169. -/
theorem compact : Claims.Compact := by
  intro q s j e es b k d head type op good p entry x
  rw [show exec (.compact q) s = execCompact q s from rfl, execCompact, head_row head (by rw [type, op]; rfl)]
  dsimp only
  rw [good]
  dsimp only
  exact ⟨fun allowed => by rw [allowed]; rfl, fun barred => by rw [barred]; rfl⟩

/-- Settles O38: combines and the whorl commands are as R134–R139, R167–R170 and R290 say. -/
theorem combinesAndCopies : Obligations.CombinesAndCopies := ⟨combineDescriptorPost, combineTimeout, plyExecute, copy, verify, compact⟩

/-! ## Waits (R319, R320) -/

/-- The claim of R319 and R320 for a job queue. -/
theorem waitJobQueue : Claims.WaitJobQueue := by
  intro q kind s j e es b w head zero type p parsed t
  subst zero
  have row : exec (.waitDescriptor 0 q) s = .next (p.waitJq q j.tenant e b) := by
    rw [show exec (.waitDescriptor 0 q) s = execWaitDescriptor 0 q s from rfl, execWaitDescriptor, if_pos rfl, head_row head (by rw [type]; rfl)]
  have waits : p.waitJq q j.tenant e b = (t.testWait j.tenant w).elim t fun st => t.endWaitJq q w st (st != 0) := by
    simp only [State.waitJq, parsed]
    show _ = Option.elim (State.testWait (p.modJq q _) j.tenant w) _ _
    cases (p.modJq q fun j => { j with wait := some w }).testWait j.tenant w <;> rfl
  rw [row, waits]
  exact ⟨fun stands => by rw [stands]; rfl, fun st ends => by rw [ends]; rfl⟩

/-- The claim of R319 and R320 for a send queue. -/
theorem waitSendQueue : Claims.WaitSendQueue := by
  intro c kind s k e rest w other there sq none' awake own good type ready goes stays parsed t
  have row : exec (.waitDescriptor kind c) s = .next (s.waitSq c k e rest) := by
    refine (if_neg other).trans ?_
    simp only [there, sq]
    exact if_neg (by rw [none', awake, own, good, type]; decide)
  have waits : s.waitSq c k e rest = ((t.testWait k.tenant w).elim t fun st => t.endWaitSq c w st (st != 0)).pumpNotices := by
    have mild : k.state ≠ .error ∧ k.state ≠ .draining := by rw [ready]; decide
    refine (if_neg mild.1).trans ((if_neg (by rw [goes]; decide)).trans ((if_neg (by rw [stays]; decide)).trans ((if_neg mild.2).trans ?_)))
    rw [parsed]
    show State.pumpNotices _ = _
    cases t.testWait k.tenant w <;> rfl
  rw [row, waits]
  exact ⟨fun stands => by rw [stands]; rfl, fun st ends => by rw [ends]; rfl⟩

/-- The claim of R320 for the end of a wait at a job queue. -/
theorem waitEnds : Claims.WaitEnds := by
  intro q s j w there stands awake
  have standing : s.standingWait 0 q = some (w, j.tenant, fun st => s.endWaitJq q w st (st != 0)) := by
    simp only [State.standingWait, if_true, there]
    show (j.wait >>= fun w => _) = _
    rw [stands]; rfl
  refine ⟨fun st ends => ?_, fun none' => ?_, fun t until' due => ?_, fun t until' early => ?_, fun never => ?_⟩
  · show execWaitCounterChange 0 q s = _
    simp only [execWaitCounterChange, standing, awake, ends]; rfl
  · show execWaitCounterChange 0 q s = _
    simp only [execWaitCounterChange, standing, awake, none']; rfl
  · show execWaitTimeoutExpiry 0 q s = _
    simp only [execWaitTimeoutExpiry, standing, until', awake]
    exact if_neg fun h => h.elim (Nat.not_lt.2 due) (absurd · (by decide))
  · show execWaitTimeoutExpiry 0 q s = _
    simp only [execWaitTimeoutExpiry, standing, until']
    exact if_pos (.inl early)
  · show execWaitTimeoutExpiry 0 q s = _
    simp only [execWaitTimeoutExpiry, standing, never]

/-- The claim of R320 for what the counters say. -/
theorem waitTest : Claims.WaitTest := by
  intro s tag w j kind there
  have row : s.testWait tag w = if j.failed > w.failLimit then some St.chainError else if j.completed ≥ w.threshold then some St.ok else none := by
    simp only [State.testWait, kind, there, if_true]
  rw [row]
  exact ⟨fun above => if_pos above, fun under met => (if_neg (Nat.not_lt.2 under)).trans (if_pos met),
    fun under unmet => (if_neg (Nat.not_lt.2 under)).trans (if_neg (Nat.not_le_of_lt unmet))⟩

/-- Settles O39: waits in job and send queues are as R319 and R320 say. -/
theorem waitDescriptors : Obligations.WaitDescriptors := ⟨waitJobQueue, waitSendQueue, waitEnds, waitTest⟩

end Sys2Proof.Machine
end

section
/-!
Messages (R277–R302, R309–R313, R320): the order in which a connection executes them, how a send queue's head is taken, and what each
message does.
-/
namespace Sys2Proof.Machine

/-! ## Order and completion (R282, R293, R296–R298, R301) -/

/-- A message row whose message is not the next changes nothing. -/
theorem msgRow_not_next {c seq op : Nat} {s : State} {k : Conn} {r : Reasm} {f : Conn → Reasm → List Byte → State → State}
    (there : s.conn? c = some k) (got : s.reasm? c seq false = some r)
    (h : k.state = .error ∨ seq ≠ (k.lcs + 1) % 2 ^ 32 ∨ r.opcode ≠ op ∨ r.total ≠ some r.got ∨ s.awake = false) :
    msgRow c seq op s f = .next s := by
  rw [msgRow, not_ready op there got h]

/-- The claim of R293 and R296. -/
theorem messageOrder_rows : Claims.MessageOrder := by
  intro c seq s k r there got row mem h
  simp only [List.mem_cons, List.not_mem_nil, or_false] at mem
  rcases mem with rfl | rfl | rfl | rfl | rfl | rfl | rfl | rfl | rfl | rfl
  · exact (show exec (.writeExecute c seq) s = execWriteExecute c seq s from rfl).trans (msgRow_not_next there got h)
  · exact (show exec (.importWrite c seq) s = execImportWrite c seq s from rfl).trans (msgRow_not_next there got h)
  · exact (show exec (.readExecute c seq) s = execReadExecute c seq s from rfl).trans (msgRow_not_next there got h)
  · exact (show exec (.sendExecute c seq) s = execSendExecute c seq s from rfl).trans (msgRow_not_next there got h)
  · exact (show exec (.fetchAddExecute c seq) s = execFetchAddExecute c seq s from rfl).trans (msgRow_not_next there got h)
  · exact (show exec (.compareSwapExecute c seq) s = execCompareSwapExecute c seq s from rfl).trans (msgRow_not_next there got h)
  · exact (show exec (.queryExecute c seq) s = execQueryExecute c seq s from rfl).trans (msgRow_not_next there got h)
  · exact (show exec (.plyExecute c seq) s = execPlyExecute c seq s from rfl).trans (msgRow_not_next there got h)
  · exact (show exec (.appendExecute c seq) s = execAppendExecute c seq s from rfl).trans (msgRow_not_next there got h)
  · exact (show exec (.appendComplete c seq) s = execAppendComplete c seq s from rfl).trans (msgRow_not_next there got h)

/-- A received message completed, its connection changed by f: success is acknowledged, a failure answered by a NAK. -/
def State.rxDone (s : State) (c seq : Nat) (ackReq : Bool) (st retry : Nat) (f : Conn → Conn) : State :=
  let t := (s.endReasm c seq false).modConn c f
  (t.conn? c).elim t fun k =>
    if st = St.ok then if ackReq || decide (k.sinceAck ≥ 8) then t.sendAck c else t
    else if k.stopOnError then (t.sendNak c seq st retry).connError c st none else t.sendNak c seq st retry

/-- The completion of a message counts it, and starts the wait for its acknowledgement where none runs (R296, R298). -/
theorem completeRx_eq (s : State) (c seq : Nat) (ackReq : Bool) (st retry : Nat) : s.completeRx c seq ackReq st retry =
    s.rxDone c seq ackReq st retry fun k =>
      { k with lcs := seq, sinceAck := k.sinceAck + 1, creditZero := false, oldestUnacked := some (k.oldestUnacked.getD s.time.localNow) } := by
  have counted (k : Conn) : ({ k with lcs := seq, sinceAck := k.sinceAck + 1, creditZero := false, oldestUnacked := match k.oldestUnacked with
      | some t => some t
      | none => some s.time.localNow } : Conn) =
      { k with lcs := seq, sinceAck := k.sinceAck + 1, creditZero := false, oldestUnacked := some (k.oldestUnacked.getD s.time.localNow) } := by
    cases k.oldestUnacked <;> rfl
  rw [← funext counted]
  unfold State.completeRx State.rxDone
  dsimp only
  cases State.conn? _ c <;> rfl

/-- The claim of R282, R296–R298 and R301 for the completion of a message. -/
theorem messageCompletion : Claims.MessageCompletion := by
  intro s c seq ackReq st retry k t there
  have row : s.completeRx c seq ackReq st retry = if st = St.ok then if ackReq || decide (k.sinceAck ≥ 8) then t.sendAck c else t
      else if k.stopOnError then (t.sendNak c seq st retry).connError c st none else t.sendNak c seq st retry := by
    rw [completeRx_eq]
    show Option.elim (t.conn? c) _ _ = _
    rw [there]; rfl
  rw [row]
  refine ⟨fun ok quiet few => ?_, fun ok asks => ?_, fun bad goes => ?_, fun bad stops => ?_⟩
  · rw [if_pos ok, if_neg (by simp [quiet, few])]
  · rw [if_pos ok, if_pos (by simpa using asks)]
  · rw [if_neg bad, if_neg (ne_true_of_eq_false goes)]
  · rw [if_neg bad, if_pos stops]

/-! ## Send queues (R282, R283, R295, R297, R320, R409) -/

/-- The head of a send queue is taken where it is no wait (R319). -/
theorem exec_workRequestPost {c : Nat} {s : State} {k : Conn} {e : QEntry} {rest : List QEntry} (there : s.conn? c = some k) (none' : k.wait = none)
    (awake : s.awake = true) (sq : k.sq = e :: rest) (plain : e.source.isSome = true ∨ s.sqBad k e = true ∨ field (s.sqBytes k e) 0 1 ≠ 0x13) :
    exec (.workRequestPost c) s = .next (s.takeWr c k e rest) := by
  show execWorkRequestPost c s = _
  simp only [execWorkRequestPost, there]
  rw [if_neg (by rw [none', awake]; decide), sq]
  refine if_neg ?_
  rintro ⟨wait, own, reads⟩
  rcases plain with h | h | h
  · rw [Option.isNone_iff_eq_none.1 own] at h; cases h
  · rw [h] at reads; cases reads
  · exact h wait

/-- The claim of R283, R295 and R297. -/
theorem workRequestPost : Claims.WorkRequestPost := by
  intro c s k e rest there none' awake sq ready goes stays peer own good type b pop
  have row := exec_workRequestPost there none' awake sq (.inr (.inr type))
  have taken : s.takeWr c k e rest = if !k.mayTake (wrOpcode b) (wrLen b) then s
      else match s.workRequest k.tenant b with
        | (0, payload, s1) => ((pop s1).sendMsg c k (wrMsg b e payload)).pumpNotices
        | (st, _, s1) => ((pop s1).endUnsent c k e st).pumpNotices := by
    refine (if_neg (by rw [ready]; decide)).trans ((if_neg (by rw [goes]; decide)).trans ((if_neg (by rw [stays]; decide)).trans
      ((if_neg peer).trans ((if_neg (by rw [ready]; decide)).trans ?_))))
    rw [own]
    exact if_neg (ne_true_of_eq_false good)
  rw [row, taken]
  refine ⟨fun full => by rw [full]; rfl, fun room payload t ok => ?_, fun room st payload t bad refused => ?_⟩
  · rw [room, ok]; rfl
  · rw [room, refused]
    cases st with
    | zero => exact absurd rfl bad
    | succ n => rfl

/-- The claim of R282, R320 and R409. -/
theorem sendQueueTurns : Claims.SendQueueTurns := by
  intro c s k e rest there none' awake sq plain pop
  rw [exec_workRequestPost there none' awake sq plain]
  refine ⟨fun src own ready goes stays peer room => ?_, fun error => ?_, fun sound failed => ?_, fun sound goes ends => ?_⟩
  all_goals refine congrArg Host.Outcome.next ?_
  · refine (if_neg (by rw [ready]; decide)).trans ((if_neg (by rw [goes]; decide)).trans ((if_neg (by rw [stays]; decide)).trans
      ((if_neg peer).trans ((if_neg (by rw [ready]; decide)).trans ?_))))
    rw [own]
    exact if_pos room
  · exact if_pos error
  · exact (if_neg sound).trans (if_pos failed)
  · exact (if_neg sound).trans ((if_neg (by rw [goes]; decide)).trans (if_pos ends))

/-- Settles O40: messages are executed in order and send queues take their work requests as R282–R301, R320 and R409 say. -/
theorem messageOrder : Obligations.MessageOrder := ⟨messageOrder_rows, messageCompletion, workRequestPost, sendQueueTurns⟩

end Sys2Proof.Machine
end

section
/-!
What each message does (R277, R285–R289, R299, R302, R304, R310–R313): a row at the head of its connection runs its message's own part.
-/
namespace Sys2Proof.Machine

/-! ## Writes, imports and reads (R28, R57, R68, R71, R277, R285, R287, R293) -/

/-- The claim of R285, R287 and R293. -/
theorem writeExecute : Claims.WriteExecute := by
  intro c seq s k r ready
  rw [show exec (.writeExecute c seq) s = execWriteExecute c seq s from rfl, execWriteExecute, msg_row ready]
  exact ⟨fun plain => by rw [plain]; rfl, fun import' => by rw [import']; rfl⟩

/-- The claim of R28, R57, R68, R71 and R287. -/
theorem importWrite : Claims.ImportWrite := by
  intro c seq key fmt s k r g sk ready names whole grant skein checks image no
  rw [show exec (.importWrite c seq) s = execImportWrite c seq s from rfl, execImportWrite, msg_row ready]
  dsimp only
  rw [names, whole, grant]
  simp only [need_true, BEq.rfl, skein, checks, bind, Except.bind, pure, Except.pure, Bool.not_true, Bool.false_eq_true, if_false]
  cases imageCheck (Mem.writeN [] 0 r.payload) sk 0 key fmt with
  | error st => rfl
  | ok u => dsimp only; cases s.enterImage (skIndex g.skein) sk key fmt r.payload <;> rfl

/-- The claim of R277, R285 and R287 for READ. -/
theorem readExecute : Claims.ReadExecute := by
  intro c seq s t k r x bytes ready grant eight n zeros some' most
  have read : s.readFor k.tenant r.key r.roff r.payload = s.readRegion x r.roff.toNat n := by
    simp only [State.readFor, grant]
    refine (if_neg (not_not_intro eight)).trans ((if_neg (by rw [zeros]; decide)).trans (if_neg ?_))
    rintro (h | h)
    · exact absurd h (by show ¬ n = 0; omega)
    · exact absurd h (by show ¬ n > 2 ^ 24; omega)
  rw [show exec (.readExecute c seq) s = execReadExecute c seq s from rfl, execReadExecute, msg_row ready, read]
  refine ⟨fun good => by rw [good]; rfl, fun st bad refused => ?_⟩
  rw [refused]
  cases st with
  | zero => exact absurd rfl bad
  | succ i => rfl

/-- The claim of R277 and R302 for responses. -/
theorem responses : Claims.Responses := by
  intro c seq s k r m there got asked whole awake t row mem op
  have taken (code : Nat) (is : r.opcode = code) : s.takeResponse c seq code =
      if r.payload.length ≠ m.bytes then (t.endMsg c m St.lengthRange 0).settle c
      else match t.placeLocal k.tenant m.lkey m.loff r.payload with
        | .ok s => (s.endMsg c m St.ok 0).settle c
        | .error st => (t.endMsg c m st 0).settle c := take_response there got asked whole awake is
  have same : exec row.1 s = .next (s.takeResponse c seq row.2) := by
    simp only [List.mem_cons, List.not_mem_nil, or_false] at mem
    rcases mem with rfl | rfl <;> rfl
  rw [same, taken row.2 op]
  refine ⟨fun fits u placed => ?_, fun fits st refused => ?_, fun misfits => ?_⟩
  · rw [if_neg (not_not_intro fits), placed]
  · rw [if_neg (not_not_intro fits), refused]
  · rw [if_pos misfits]

/-! ## Atomics (R277, R299) -/

/-- The claim of R277 and R299. -/
theorem atomics : Claims.Atomics := by
  intro c seq s k r g grant buffer sixteen aligned inside off a b old fin'
  have swapped := atomic_on_buffer (p := r.payload) true grant buffer sixteen aligned inside (.inl rfl)
  simp only [State.atomicBuffer, if_true] at swapped
  have swaps (ready : s.ready? c seq Op.compareSwap = some (k, r)) (v : W64) (is : (if old = b then a else old) = v) :
      exec (.compareSwapExecute c seq) s = .next (fin' v) := by
    have got : s.atomicFor k.tenant r.key r.roff r.payload true = .ok (old, s.bufWrite g off (toLe 8 v.toNat)) := by
      rw [swapped, is]
    rw [show exec (.compareSwapExecute c seq) s = execCompareSwapExecute c seq s from rfl, execCompareSwapExecute, msg_row ready]
    exact congrArg Host.Outcome.next (run_atomic got)
  refine ⟨fun ready zero => ?_, fun ready meets => swaps ready a (if_pos meets), fun ready differs => swaps ready old (if_neg differs)⟩
  rw [show exec (.fetchAddExecute c seq) s = execFetchAddExecute c seq s from rfl, execFetchAddExecute, msg_row ready]
  exact congrArg Host.Outcome.next (run_atomic (atomic_on_buffer false grant buffer sixteen aligned inside (.inr zero)))

/-! ## Sends and queries (R289, R302, R304, R310–R313) -/

/-- The claim of R302 and R304. -/
theorem sendExecute : Claims.SendExecute := by
  intro c seq s k r ready blocked
  rw [show exec (.sendExecute c seq) s = execSendExecute c seq s from rfl, execSendExecute, msg_row ready]
  dsimp only
  refine ⟨fun slot t taken free => ?_, fun slot t taken full => ?_, fun st refused => ?_, fun none' => ?_⟩
  · rw [taken]
    exact congrArg Host.Outcome.next (if_neg (ne_true_of_eq_false free))
  · rw [taken]
    exact congrArg Host.Outcome.next (if_pos full)
  · rw [refused]
  · have refused : s.takeReceive k r.payload = .error St.noReceive := by simp only [State.takeReceive, none']
    rw [refused]

/-- The claim of R289 and R310. -/
theorem queryExecute : Claims.QueryExecute := by
  intro c seq s k r ready
  rw [show exec (.queryExecute c seq) s = execQueryExecute c seq s from rfl, execQueryExecute, msg_row ready]
  dsimp only
  refine ⟨fun st fails => by rw [fails], fun q good none' => ?_, fun q x e st taken t good hits fires => ?_⟩
  · have offered : s.offer k.tenant q ((r.payload.length + 63) / 64 * 64) = (St.noMatch, false, s.setFlag Flag.trigNoMatch) := by
      simp only [State.offer, State.earliest, none']; rfl
    rw [good]
    dsimp only
    rw [offered]
  · have offered : s.offer k.tenant q ((r.payload.length + 63) / 64 * 64) = (st, taken, t) := by
      simp only [State.offer, hits]
      exact fires
    rw [good]
    dsimp only
    rw [offered]

/-- The claim of R311–R313. -/
theorem firing : Claims.Firing := by
  intro s tag x space e q l a list alive actions kind plain launch target room n
  have none' : launchCount e.header q.step s.time.now = none := by simp [launchCount, launch]
  have acts : e.actions.zip ((List.range 4).map (hdrTarget e.header)) = [(a, hdrTarget e.header 0)] := by rw [actions]; rfl
  have uses : e.actions.any needsQuery = false := by rw [actions, List.any_cons, plain]; rfl
  have noUse : ¬ (4096 < s.work.hold.length) := by omega
  refine ⟨fun full => ?_, fun free endless => ?_⟩
  · unfold State.fire
    simp [list, alive, acts, target, none', full, uses, noUse, holdSlots]
  · intro act same
    unfold State.fire
    simp [list, alive, acts, target, none', uses, noUse, holdSlots, endless, plain]
    refine (if_neg free.ne').trans ?_
    rw [State.deliver, if_neg (by rw [same]; exact kind)]
    rfl

/-- Settles O41: each message does what R277, R285–R289, R299, R302, R304 and R310–R313 say. -/
theorem messageEffects : Obligations.MessageEffects :=
  ⟨writeExecute, importWrite, readExecute, responses, atomics, sendExecute, queryExecute, firing⟩

end Sys2Proof.Machine
end


section
/-!
Acknowledgements, refusals, the timers of connections and the timed hold (R282, R294, R297, R298, R300, R301, R315).
-/
namespace Sys2Proof.Machine

/-- The claim of R297 and R298. -/
theorem ackReceive : Claims.AckReceive := by
  intro c s k x rest there head ack awake t
  rw [show exec (.ackReceive c) s = execAckReceive c s from rfl, execAckReceive, take_ctl there head ack awake]

/-- The claim of R282, R300 and R301 for a message still unacknowledged. -/
theorem nakReceive : Claims.NakReceive := by
  intro c s k x rest m there head nak awake open' t fin
  have row : exec (.nakReceive c) s = .next (fin ((s.modConn c fun k => { k with ctl := rest, credit := some x.credit }).handleNak c k x)) := by
    rw [show exec (.nakReceive c) s = execNakReceive c s from rfl, execNakReceive, take_ctl there head nak awake]
  rw [row]
  simp only [State.handleNak, open']
  refine ⟨fun late => ?_, fun dead => ?_, fun notLate notStale notError => ?_⟩
  · rw [if_pos late]
  · have notLate : x.status ≠ St.reassemblyTimeout := by rcases dead with h | h <;> rw [h] <;> decide
    rw [if_neg notLate, if_pos dead]
  · rw [if_neg notLate, if_neg (not_or.2 ⟨notStale, notError⟩)]

/-- The claim of R294, R298 and R300. -/
theorem connectionTimers : Claims.ConnectionTimers := by
  intro c seq s k there awake
  have coalesce {t} (h : k.oldestUnacked = some t) : exec (.ackCoalesceExpiry c) s =
      .next (if t + 1000 ≤ s.time.localNow ∧ s.awake = true then s.sendAck c else s) := by
    show execAckCoalesceExpiry c s = _
    simp only [execAckCoalesceExpiry, there, h]
  have resend {m} (h : k.unacked.find? (fun m => m.seq == seq) = some m) : exec (.ackTimeoutExpiry c seq) s =
      .next (if m.sentAt + k.ackTimeout * 1000 ≤ s.time.localNow ∧ (!s.stillQueued c seq) = true ∧ s.awake = true then
        ((s.retransmit c m).settle c).pumpNotices else s) := by
    show execAckTimeoutExpiry c seq s = _
    simp only [execAckTimeoutExpiry, there, h]
  have unfinished {r : Reasm} (h : r.total ≠ some r.got) : r.received = false := by simp [Reasm.received, h]
  refine ⟨fun t old due => ?_, fun t old early => ?_, fun m sent due clear => ?_, fun m sent early => ?_,
    fun r part more due => ?_, fun r none' part more due => ?_, fun r part early => ?_⟩
  · rw [coalesce old, if_pos ⟨due, awake⟩]
  · rw [coalesce old, if_neg fun h => absurd h.1 (by omega)]
  · rw [resend sent, if_pos ⟨due, by rw [clear]; rfl, awake⟩]
  · rw [resend sent, if_neg fun h => absurd h.1 (by omega)]
  · show execReassemblyTimeoutExpiry c seq s = _
    simp [execReassemblyTimeoutExpiry, part, unfinished more, due, awake]
  · show execReassemblyTimeoutExpiry c seq s = _
    simp [execReassemblyTimeoutExpiry, none', part, unfinished more, due, awake]
  · show execReassemblyTimeoutExpiry c seq s = _
    simp [execReassemblyTimeoutExpiry, part, early]

/-- The claim of R315 for a firing with one action. -/
theorem timedHold : Claims.TimedHold := by
  intro n s a here awake alive only once gone
  have mem : a ∈ s.work.hold := List.mem_of_getElem? here
  have found : s.work.hold.find? (fun b => b.firing == a.firing) = some a := by
    cases found : s.work.hold.find? (fun b => b.firing == a.firing) with
    | none => exact absurd (List.find?_eq_none.1 found a mem) (by simp)
    | some b => rw [only b (List.mem_of_find?_eq_some found) (eq_of_beq (List.find?_some found :))]
  have empty (b t q r) : (gone.deliver b t q r).work.hold.find? (fun b => b.firing == a.firing) = none := by
    rw [deliver_hold]
    refine List.find?_eq_none.2 fun b mem same => ?_
    have isA := only b (List.mem_of_mem_erase mem) (eq_of_beq same)
    subst isA
    have left : (s.work.hold.erase b).count b = 0 := by rw [List.count_erase_self, once]
    exact List.count_eq_zero.1 left mem
  have timed : exec (.timedHoldDelivery n) s = .next (s.drainHold 4 a.firing) := by
    show execTimedHoldDelivery n s = _
    simp only [execTimedHoldDelivery, here]
    rw [if_pos awake]
  have freed : exec (.heldActionSlotFree n) s = .next (if 0 < s.targetRoom a.bytes a.target then s.drainHold 4 a.firing else s) := by
    show execHeldActionSlotFree n s = _
    simp [execHeldActionSlotFree, here, awake]
  refine ⟨fun due target room => ?_, fun due target full => ?_, fun early => ?_⟩
  · have out : s.drainHold 4 a.firing = gone.deliver a.bytes a.target a.query a.trig := by
      rw [drain_one found, if_pos due, hold_out alive target, if_neg room.ne']
      exact drain_none (empty ..) 3
    rw [timed, freed, if_pos room, out]
    exact ⟨rfl, rfl⟩
  · have stays : s.drainHold 4 a.firing = s := by
      rw [drain_one found, if_pos due, hold_out alive target, if_pos full]
    rw [timed, freed, stays]
    exact ⟨rfl, congrArg Host.Outcome.next (ite_self s)⟩
  · rw [timed, drain_one found, if_neg (BitVec.not_le.2 early)]

/-- Settles O43: acknowledgements, refusals and timers of connections, and the timed hold. -/
theorem acknowledgements : Obligations.Acknowledgements :=
  ⟨ackReceive, nakReceive, connectionTimers, timedHold⟩

end Sys2Proof.Machine
end


section
/-!
Link acknowledgements, replay, retraining and the pause of the replay timer (R266, R267, R273, R274).
-/
namespace Sys2Proof.Machine

/-! ## Acknowledgements and replay -/

/-- An acknowledgement drops the frames up to the first of the named number. -/
theorem ackedFrames_split {lseq : Byte} {fr : List Byte} (after : List (Byte × List Byte)) : ∀ before : List (Byte × List Byte),
    (∀ b ∈ before, b.1 ≠ lseq) → ackedFrames (before ++ (lseq, fr) :: after) lseq = after := by
  intro before others
  unfold ackedFrames
  rw [dropWhile_pick _ before _ after (fun b mem => by simpa using others b mem) (by simp)]
  exact if_pos (by simp)

/-- The claim of R273 for LINK_ACK blocks. -/
theorem linkAckReceive : Claims.LinkAckReceive := by
  intro p lseq s port x
  have row : exec (.linkAckReceive p lseq) s = .next (if (x.replay.any fun f => f.1 == lseq) = true then
      (s.setPort p { x with replay := ackedFrames x.replay lseq, replays := 0, oldestAt := s.time.localNow }).kick p else s) := prow port
  rw [row]
  refine ⟨fun before fr after split others => ?_, fun absent => ?_⟩
  · rw [if_pos (by rw [split]; simp), split, ackedFrames_split after before others]
  · rw [if_neg]
    simp only [List.any_eq_true, beq_iff_eq, not_exists, not_and]
    exact absent

/-- The replay of frames that a port in service holds, before the sixteenth in a row. -/
theorem replayFrom_again {s : State} {p : Nat} {fs : List (Byte × List Byte)} (up : (s.portAt p).state = .up ∨ (s.portAt p).state = .lowRate)
    (steady : (s.portAt p).failover = false) (light : (s.portAt p).light = true) (few : (s.portAt p).replays < 16) (some' : fs ≠ []) :
    s.replayFrom p fs = (fs.foldl (fun t f => t.emit (.frame p (s.portAt p).mapNow f.2)) s).setPort p
      { s.portAt p with replays := (s.portAt p).replays + 1, oldestAt := s.time.localNow } := by
  rw [replay_from up steady light some', if_neg (by omega), emit_time]

/-- The claim of R273 for replays. -/
theorem replay : Claims.Replay := by
  intro p lseq s port x again up steady light few
  have asked : exec (.replayReqReceive p lseq) s = .next (s.replayFrom p (x.replay.dropWhile fun f => f.1 != lseq)) := prow port
  have timed : exec (.linkReplayTimeout p) s = .next (if (!x.replay.isEmpty && decide (x.oldestAt + 500 ≤ s.time.localNow)) = true then
      s.replayFrom p x.replay else s) := prow port
  refine ⟨fun before fr after split others => ?_, fun held due => ?_, fun early => ?_⟩
  · rw [asked, split, dropWhile_pick _ before _ after (fun b mem => by simpa using others b mem) (by simp),
      replayFrom_again up steady light few (by simp)]
  · rw [timed, if_pos (by simp [held, due]), replayFrom_again up steady light few held]
  · rw [timed, if_neg (by simp [early])]

/-- The claim of R266 and R273 for the limit of replays. -/
theorem replayLimit : Claims.ReplayLimit := by
  intro p s port x held due
  have timed : exec (.linkReplayTimeout p) s = .next (s.replayFrom p x.replay) := by
    refine (prow port).trans (congrArg Host.Outcome.next (if_pos ?_))
    show (!x.replay.isEmpty && decide (x.oldestAt + 500 ≤ s.time.localNow)) = true
    simp [held, due]
  refine ⟨fun up steady light many => ?_, fun dark => ?_⟩
  · rw [timed, replay_from up steady light held, if_pos many]
  · rw [timed]
    refine congrArg Host.Outcome.next (if_pos ?_)
    show (x.replay.isEmpty || !(x.state == .up || x.state == .lowRate) || x.failover || !x.light) = true
    rcases dark with h | h <;> simp [h]

/-- The claim of R266, R273 and R274 for the timer of acknowledgements. -/
theorem linkAckTimer : Claims.LinkAckTimer := by
  intro p t s port owed x
  have row : exec (.linkAckTimer p) s = .next (if t ≤ s.time.localNow then s.linkAck p else s) := by
    refine (prow port).trans ?_
    rw [owed]
  have silent (dark : x.failover = true ∨ x.light = false) : s.linkAck p = s := by
    refine if_pos ?_
    show (x.failover || !x.light) = true
    rcases dark with h | h <;> simp [h]
  refine ⟨fun due steady light => ?_, fun dark => ?_, fun early => ?_⟩
  · have lit : ¬ ((x.failover || !x.light) = true) := by simp [steady, light]
    have acked : s.linkAck p = (s.setPort p { x with sinceAck := 0, ackBy := none }).control p ctlAck (x.expSeq - 1).toNat := if_neg lit
    have there : (s.setPort p { x with sinceAck := 0, ackBy := none }).portAt p = { x with sinceAck := 0, ackBy := none } := by
      rw [portAt_setPort, if_pos rfl]
    rw [row, if_pos due, acked, State.control, there]
    exact congrArg Host.Outcome.next (if_neg lit)
  · rw [row, silent dark, ite_self]
  · rw [row, if_neg (by omega)]

/-! ## Retraining and pauses -/

/-- The claim of R267, R273 and R503. -/
theorem retraining : Claims.Retraining := by
  intro p s port trains x
  have limit : exec (.retrainLimitExpiry p) s =
      .next (if x.state = .retraining ∧ x.retrainStart + 1000000 ≤ s.time.localNow then s.portToDown p else s) := prow port
  refine ⟨fun due => ?_, fun early => ?_, ?_⟩
  · rw [limit, if_pos ⟨trains, due⟩]
  · rw [limit, if_neg fun h => absurd h.2 (by omega)]
  · refine (prow port).trans (congrArg Host.Outcome.next ((if_pos trains).trans ?_))
    simp only [Bool.not_eq_true']
    rfl

/-- The claim of R266 for the replay timer. -/
theorem timerPause : Claims.TimerPause := by
  intro x now t
  refine ⟨fun steady light paused => ?_, fun still => ?_⟩
  · rw [Port.goOn, if_neg (by simp [steady, light]), paused]
  · rw [Port.goOn]
    split
    · rfl
    · next runs =>
      obtain ⟨steady, light⟩ : x.failover = false ∧ x.light = true := by simpa using runs
      obtain h | h | h := still
      · rw [steady] at h; cases h
      · rw [light] at h; cases h
      · rw [h]

/-- Settles O45: the link layer's acknowledgements, replays and retraining. -/
theorem linkReplay : Obligations.LinkReplay :=
  ⟨linkAckReceive, replay, replayLimit, linkAckTimer, retraining, timerPause⟩

end Sys2Proof.Machine
end


section
/-!
Wavelengths, lasers, light and wake blocks (R264–R266, R269, R273, R274, R500, R503), and what a port sends next
(R266, R270, R273, R278, R328, R330, R332).
-/
namespace Sys2Proof.Machine

/-! ## Maps and wavelengths -/

/-- A control block from a port in the light goes out at once. -/
theorem control_lit {s : State} {p ty content : Nat} (steady : (s.portAt p).failover = false) (light : (s.portAt p).light = true) :
    s.control p ty content = s.emit (.control p (controlBlock ty content)) := by
  refine if_neg ?_
  rw [steady, light]; decide

/-- Units received before the last of an announced map. -/
theorem passUnits_before {s : State} {p n left : Nat} {map : BitVec 9} (open' : (s.portAt p).switching = some (map, left)) (more : n < left) :
    s.passUnits p n = s.setPort p { s.portAt p with switching := some (map, left - n) } := by
  unfold State.passUnits
  simp only [open', if_pos more]

/-- The port with the map that its partner announced; wavelengths that it leaves out are no spares any more. -/
def Port.switched (x : Port) (map : BitVec 9) : Port :=
  let out := (List.range 9).filter fun i => x.map.getLsbD i && !map.getLsbD i && !x.failedWl.contains i
  { x with switching := none, failedWl := out ++ x.failedWl, map, spareUsed := map.getLsbD 8 }

/-- The last of the units puts the announced map into force. -/
theorem passUnits_last {s : State} {p n left : Nat} {map : BitVec 9} (open' : (s.portAt p).switching = some (map, left)) (all : left ≤ n) :
    s.passUnits p n = State.kick (let t := if map = (s.portAt p).map then s.setPort p ((s.portAt p).switched map)
        else (s.setPort p ((s.portAt p).switched map)).setFlag (Flag.wavelengthSwitch p)
      if map = 0 then t.portToDown p else t.refreshLevel) p := by
  unfold State.passUnits
  simp only [open', if_neg (Nat.not_lt.2 all)]
  rfl

/-- The claim of R264, R265 and R274 for SWITCH blocks. -/
theorem switchReceive : Claims.SwitchReceive := by
  intro p map units s port x up noted
  have row : exec (.switchReceive p map units) s = .next (noted.passUnits p 0) :=
    (prow port).trans (congrArg Host.Outcome.next (if_pos up))
  refine ⟨fun some' => ⟨_, row, ?_⟩, fun _ => row⟩
  have there : noted.portAt p = { x with switching := some (map, units.toNat) } := by rw [portAt_setPort, if_pos rfl]
  have more : 0 < units.toNat := Nat.pos_of_ne_zero fun h => some' (BitVec.eq_of_toNat_eq h)
  rw [passUnits_before (congrArg Port.switching there) more, portAt_setPort, if_pos rfl, there]
  rfl

/-- The claim of R264, R265 and R269 for received units. -/
theorem mapChange : Claims.MapChange := by
  intro s p n left map x open' out t
  refine ⟨fun more => passUnits_before open' more, fun all same some' => ?_, fun all new some' => ?_, fun all new none' => ?_⟩
  · rw [passUnits_last open' all]
    dsimp only
    rw [if_pos same, if_neg some']
    rfl
  · rw [passUnits_last open' all]
    dsimp only
    rw [if_neg new, if_neg some']
    rfl
  · rw [passUnits_last open' all]
    dsimp only
    rw [if_neg new, if_pos none']
    rfl

/-- The claim of R265 for a failed wavelength. -/
theorem wavelengthFailure : Claims.WavelengthFailure := by
  intro p wl s port lane x
  have row : exec (.wavelengthFailure p wl) s = .next (if x.map.getLsbD wl = true then (s.dropWavelength p wl).kick p
      else if x.failedWl.contains wl = true then s else s.setPort p { x with failedWl := wl :: x.failedWl }) :=
    (if_neg (Nat.not_le.2 lane)).trans (prow port)
  rw [row]
  refine ⟨fun used => ?_, fun unused new => ?_, fun unused known => ?_⟩
  · rw [if_pos used]
  · rw [if_neg (ne_true_of_eq_false unused), if_neg (by simpa using new)]
  · rw [if_neg (ne_true_of_eq_false unused), if_pos (by simpa using known)]

/-! ## Lasers and light -/

/-- The claim of R266 and R269 for laser banks. -/
theorem laserBanks : Claims.LaserBanks := by
  intro p s port x
  have fails : exec (.laserBankFailure p) s = .next (if (x.standbyOk && !x.failover) = true then
      if x.state = .down then s.setPort p { x with standbyOk := false, bankB := !x.bankB }
      else s.setPort p (Port.pause { x with failover := true, standbyOk := false, sending := none } s.time.localNow)
    else (s.setPort p { x with standbyOk := false, noBank := true }).portToDown p) := prow port
  have ends : exec (.laserFailoverComplete p) s = .next (if x.failover = true then
      ((s.setPort p (Port.goOn { x with failover := false, bankB := !x.bankB } s.time.localNow)).setFlag (Flag.laserFailover p)).kick p
    else s) := prow port
  rw [fails, ends]
  refine ⟨fun serves standby steady => ?_, fun down standby steady => ?_, fun unusable => ?_, fun over' => ?_, fun steady => ?_⟩
  · rw [if_pos (by rw [standby, steady]; rfl), if_neg serves]
    rfl
  · rw [if_pos (by rw [standby, steady]; rfl), if_pos down]
  · rw [if_neg]
    rcases unusable with h | h <;> simp [h]
  · rw [if_pos over']
  · rw [if_neg (ne_true_of_eq_false steady)]

/-- The claim of R266 and R273 for lost light. -/
theorem lossOfLight : Claims.LossOfLight := by
  intro p s port x
  have lost : exec (.lossOfLight p) s = .next (if x.light = true then
      s.setPort p (Port.pause { x with light := false, lightLostAt := s.time.localNow, sending := none } s.time.localNow) else s) := prow port
  have returns : exec (.lightReturn p) s = .next (if (!x.light) = true ∧ x.state ≠ .retraining then
      (s.setPort p (Port.goOn { x with light := true } s.time.localNow)).kick p else s) := prow port
  have expires : exec (.lossOfLightExpiry p) s = .next (if (!x.light) = true ∧ x.lightLostAt + 25000 < s.time.localNow then
      s.startRetrain p else s) := prow port
  rw [lost, returns, expires]
  refine ⟨fun light => ?_, fun dark => ?_, fun dark rests => ?_, fun dark late => ?_, fun early => ?_⟩
  · rw [if_pos light]
    rfl
  · rw [if_neg (ne_true_of_eq_false dark)]
  · rw [if_pos ⟨by rw [dark]; rfl, rests⟩]
  · rw [if_pos ⟨by rw [dark]; rfl, late⟩]
  · rw [if_neg fun h => absurd h.2 (by omega)]

/-- The claim of R500 and R503 for WAKE blocks. -/
theorem wakeBlocks : Claims.WakeBlocks := by
  intro p node s port
  have asked : exec (.wakeRequestReceive p node) s = .next (if s.power.state = .doze then s.modPower fun w => { w with portWake := true }
      else if s.awake = true then (if s.enteringDoze = true then s.metWake 1 else s).control p ctlWake (wakeBlock 2 s.nodeNo) else s) := by
    refine (prow port).trans ?_
    split
    · rfl
    · split
      · have kept : (if s.enteringDoze = true then s.metWake 1 else s).nodeNo = s.nodeNo := by
          unfold State.metWake
          split_ifs <;> rfl
        dsimp only
        rw [kept]
      · rfl
  refine ⟨fun dozes => ?_, fun runs awake stays steady light => ?_, prow port, prow port⟩
  · rw [asked, if_pos dozes]
  · rw [asked, if_neg (by rw [runs]; decide), if_pos awake, if_neg (ne_true_of_eq_false stays), control_lit steady light]
    rfl

/-- Settles O46: wavelengths, lasers, light and wake blocks. -/
theorem wavelengths : Obligations.Wavelengths :=
  ⟨switchReceive, wavelengthFailure, laserBanks, lossOfLight, wakeBlocks, mapChange⟩

/-! ## What a port sends next -/

/-- The claim of R328 and R330 for the end of a frame and new tokens. -/
theorem transmitEnd : Claims.TransmitEnd := fun _ _ _ _ port => ⟨prow port, prow port⟩

/-- The claim of R266, R273 and R503 for a port that starts nothing. -/
theorem noStart : Claims.NoStart := by
  intro p s x fits idle
  have calm : ¬ ((x.stalls && !(s.flagWord (Flag.gateStall p).1).getLsbD (Flag.gateStall p).2) = true) := by simp [fits]
  have stops : (!x.canStart || x.queue.isEmpty) = true := by rcases idle with h | h <;> simp [h]
  unfold State.kick
  exact (if_pos stops).trans (if_neg calm)

/-- The claim of R330 for class 7. -/
theorem classSevenFirst : Claims.ClassSevenFirst := by
  intro s x f x' first
  rw [State.choose, first]

/-- The claim of R328 and R332 for eligible frames. -/
theorem eligible : Claims.Eligible := by
  intro s x f ok
  obtain ⟨fits, covered⟩ := Bool.and_eq_true_iff.1 ok
  refine ⟨fun left window => ?_, fun shaped on => ?_⟩
  · rw [window] at fits
    exact of_decide_eq_true fits
  · simpa [shaped, on] using covered

/-- The parts of the state that the start of a sealed frame changes (R273, R278). -/
theorem startFrame_sealed {s : State} {p : Nat} {f : TxFrame} {x : Port} {ses : Session} (there : tget s.flyer.sessions f.sess = some ses) :
    ∃ (y : Port) (shapers : List (Nat × Shaper)) (conns : List (Nat × Conn)), y.sending = some f ∧ y.queue = x.queue.erase f ∧
      y.replay = x.replay ++ [(x.sendSeq, closeFrame (s.sealFrame f ses).1 x.sendSeq)] ∧ y.sendSeq = x.sendSeq + 1 ∧
      s.startFrame p f x = State.emit (s.modFlyer fun z => { z with
        ports := tset z.ports p y, shapers := shapers, conns := conns, sessions := tset z.sessions f.sess (s.sealFrame f ses).2 }) (.frame p x.mapNow (closeFrame (s.sealFrame f ses).1 x.sendSeq)) := by
  unfold State.startFrame
  rw [there]
  exact ⟨_, _, _, rfl, rfl, rfl, rfl, rfl⟩

/-- The claim of R270, R273 and R278 for a frame that starts. -/
theorem frameStarts : Claims.FrameStarts := by
  intro s p f x ses there frame t
  obtain ⟨y, shapers, conns, sending, queue, replay, sendSeq, starts⟩ := startFrame_sealed (p := p) (x := x) there
  have port : t.portAt p = y := by
    rw [show t = _ from starts]
    exact congrArg (Option.getD · {}) (tget_tset_same s.flyer.ports p y)
  rw [port]
  refine ⟨by rw [show t = _ from starts]; rfl, sending, queue, replay, sendSeq, ?_⟩
  rw [show t = _ from starts]
  exact tget_tset_same s.flyer.sessions f.sess _

/-- Settles O47: what a port sends next. -/
theorem scheduling : Obligations.Scheduling :=
  ⟨transmitEnd, noStart, classSevenFirst, eligible, frameStarts⟩

end Sys2Proof.Machine
end


section
/-!
Patrol scrub, line errors and calibration (R20, R42, R204, R443–R448, R496); channels, columns and their spares (R176, R444,
R450–R453, R462, R496); health scores, expulsion and shadow audits (R272, R445, R454–R459).
-/
namespace Sys2Proof.Machine

/-! ## Patrol scrub and line errors -/

/-- The claim of R20, R446, R447 and R496 for a period of the patrol scrub. -/
theorem patrolPeriod : Claims.PatrolPeriod := by
  intro bytes errs s at' n
  have row (awake : s.awake = true) (m : Nat) (is : (if (s.power.state == .run) = true then min bytes s.patrolPace else 0) = m) :
      exec (.patrolBudgetPeriod bytes errs) s = .next (State.patrolEnd (if (s.power.state == .run) = true then
        State.patrolChecks (errs.foldl State.lineError (at' m)) s.rel.patrolDone (s.rel.patrolDone + m) else at' m)) := by
    subst is
    exact if_neg (by simp [awake])
  refine ⟨fun awake runs => ?_, fun awake holds => ?_, fun asleep => ?_⟩
  · have on : (s.power.state == PState.run) = true := by simp [runs]
    rw [row awake n (if_pos on), if_pos on]
  · have off : ¬ ((s.power.state == PState.run) = true) := by simpa using holds
    rw [row awake 0 (if_neg off), if_neg off]
  · exact if_pos (by simp [asleep])

/-- The claim of R446 and R447 for a pass. -/
theorem patrolPass : Claims.PatrolPass := by
  intro s
  unfold State.patrolEnd dayNs
  refine ⟨fun done => if_pos done, fun more late new => ?_, fun more stays => ?_⟩
  · exact (if_neg (Nat.not_le.2 more)).trans (if_pos ⟨late, by rw [new]; rfl⟩)
  · refine (if_neg (Nat.not_le.2 more)).trans (if_neg ?_)
    rintro ⟨late, new⟩
    rcases stays with early | told
    · omega
    · rw [told] at new; cases new

/-- The claim of R443, R444 and R454. -/
theorem lineErrors_counts : Claims.LineErrors := by
  intro s e low high p noted
  have here (some' : e.symbols ≠ 0) : s.lineError e = if e.symbols = 1 then noted.countRel 1 p else (noted.countRel 2 p).lineLost e.addr := by
    refine if_neg ?_
    rintro (h | h | h)
    · exact absurd low (Nat.not_le.2 h)
    · exact absurd high (Nat.not_lt.2 h)
    · exact some' h
  refine ⟨fun one => ?_, fun more => ?_, fun none' => if_pos (.inr (.inr none'))⟩
  · rw [here (by omega), if_pos one]
  · rw [here (by omega), if_neg (by omega)]

/-- The claim of R42, R204 and R444 for a bobbin's line. -/
theorem bobbinLineLost : Claims.BobbinLineLost := by
  intro s a line pbn pool bobbins held new
  unfold State.lineLost
  have fresh : ¬ (s.cxl.badLines.contains line = true) := ne_true_of_eq_false new
  have mine : (!(s.leavesAt pbn).isEmpty) = true := by simpa using held
  refine (if_neg (Nat.not_lt.2 pool)).trans ((if_neg (Nat.not_le.2 bobbins)).trans ((if_pos (.inl mine)).trans ?_))
  exact congrArg (fun u : State => State.damageRuns ((s.leavesAt pbn).foldl (fun s e => s.damage e.1 e.2) u) 1 pbn) (if_neg fresh)

/-! ## Calibration -/

/-- A step of a channel whose step is due. -/
theorem exec_calibrationStep_due {ch margin : Nat} {s : State} (restart : Bool) (unit : ch < 1088) (awake : s.awake = true)
    (due : s.calibrationDue ch = true) {n low : Nat} (step : (if restart = true then 0 else tnum s.rel.calStep ch) = n)
    (least : (if n = 0 then margin else min margin ((tget s.rel.calMin ch).getD margin)) = low) :
    exec (.calibrationStep ch margin restart) s = .next (s.modRel fun r =>
      { r with calStep := tset r.calStep ch ((n + 1) % 64), calAt := tset r.calAt ch s.time.localNow, calMin := tset r.calMin ch low,
               margins := if n + 1 = 64 then tset r.margins ch low else r.margins }) := by
  subst step least
  exact (if_neg (Nat.not_le.2 unit)).trans ((if_neg (by simp [awake])).trans (if_neg (by simp [due])))

/-- The claim of R20 and R448. -/
theorem calibrationStep : Claims.CalibrationStep := by
  intro ch margin s
  refine ⟨fun above _ => if_pos above, fun unit awake early _ => ?_, fun unit awake due => ?_⟩
  · exact (if_neg (Nat.not_le.2 unit)).trans ((if_neg (by simp [awake])).trans (if_pos (by simp [early])))
  · intro n now
    refine ⟨fun zero => ?_, fun low some' few narrow => ?_, fun low last narrow => ?_, ?_⟩
    · exact exec_calibrationStep_due false unit awake due zero (if_pos rfl)
    · rw [exec_calibrationStep_due false unit awake due (n := n) (low := min margin low) rfl (by rw [if_neg (by omega), narrow]; rfl),
        Nat.mod_eq_of_lt (by omega)]
      simp only [if_neg (show ¬ (n + 1 = 64) by omega)]
      rfl
    · rw [exec_calibrationStep_due false unit awake due (n := 63) (low := min margin low) last (by rw [if_neg (by omega), narrow]; rfl)]
      rfl
    · exact exec_calibrationStep_due true unit awake due rfl (if_pos rfl)

/-- Settles O48: patrol scrub, line errors and calibration. -/
theorem lineErrors : Obligations.LineErrors :=
  ⟨patrolPeriod, patrolPass, lineErrors_counts, bobbinLineLost, calibrationStep⟩

/-! ## Channels and their spares -/

/-- The claim of R451, R462 and R496. -/
theorem spareCopyComplete : Claims.SpareCopyComplete := by
  intro stack ch spare w s isStack isChan copy c t
  have row : exec (.channelSpareCopyComplete stack ch) s = if ¬ (s.awake = true) ∨ s.power.state ≠ .run then .next s
      else .next (w.elim t fun w => (t.answer w St.ok []).fetchAll) := by
    refine (if_neg (by omega)).trans ?_
    rw [copy]
    cases w <;> simp only [Bool.not_eq_true', Bool.not_eq_true] <;> rfl
  rw [row]
  refine ⟨fun awake runs none' => ?_, fun r awake runs asked => ?_, fun rests => if_pos (.inr rests)⟩
  · rw [if_neg (by simp [awake, runs]), none']
    rfl
  · rw [if_neg (by simp [awake, runs]), asked]
    rfl

/-- The claim of R176, R444 and R452 for a channel that fails. -/
theorem channelFailure : Claims.ChannelFailure := by
  intro stack ch s k isStack isChan unit on working up powered nocopy c
  have row : exec (.channelFailure stack ch) s = .next (((match s.spareFor c with
      | some p => (s.useSpare p).remap c p
      | none => (s.expel kChannel (s.physOf c)).vacate c).loseChannel c).refreshLevel) := by
    refine (if_neg (by omega)).trans ?_
    rw [unit]
    refine (if_neg (by simp [on, working, up, powered])).trans ?_
    rw [nocopy] <;> rfl
  rw [row]
  exact ⟨fun p spare => by rw [spare], fun none' => by rw [none']⟩

/-- The claim of R450 and R451. -/
theorem ownSpareFirst : Claims.OwnSpareFirst := by
  intro s c chan own
  refine ⟨fun unused kept => ?_, fun used => ?_⟩
  · have mem : own ∈ s.freeSpares (c / 128) := by
      refine List.mem_filter.2 ⟨List.mem_map.2 ⟨c % 128 / 16, List.mem_range.2 (by omega), rfl⟩, ?_⟩
      simp [unused, kept]
    exact if_pos (List.contains_iff_mem.2 mem)
  · have empty : s.freeSpares (c / 128) = [] := by
      refine List.filter_eq_nil_iff.2 fun p mem => ?_
      obtain ⟨r, low, rfl⟩ := List.mem_map.1 mem
      simp [used r (List.mem_range.1 low)]
    unfold State.spareFor
    rw [empty]
    rfl

/-- The claim of R176 and R452 for a stack with vacant channels. -/
theorem stackAfterVacancy : Claims.StackAfterVacancy := by
  intro s stack k unit
  have there : (s.restack stack).rel.stackUnits[stack]? = some (if 128 - k.vacant.length < 64 then { k with state := 2, whorls := 0 }
      else { k with state := if k.vacant.isEmpty then k.state else 1, whorls := 128 - k.vacant.length }) := by
    refine (List.getElem?_modify_eq _ _ _).trans ?_
    rw [unit]
    rfl
  rw [there]
  refine ⟨fun few some' => ?_, fun many => ?_⟩
  · rw [if_neg (by omega), if_neg (by simpa using some')]
  · rw [if_pos (by omega)]

/-- The claim of R453. -/
theorem columnSelfTest : Claims.ColumnSelfTest := by
  intro sp failed s p low unit offline testing bad
  have row : exec (.columnSelfTestComplete sp failed) s = if bad.isEmpty = true then
      .next (State.refreshLevel (s.modSpindle sp fun p => { p with state := 0, selfTest := false }))
    else .next (State.refreshLevel (State.expel ((s.modSpindle sp fun p => { p with selfTest := false }).modRel fun r =>
      { r with failedTest := r.failedTest ++ bad.map (sp * 516 + ·) }) kSpindle sp)) := by
    refine (if_neg (Nat.not_le.2 low)).trans ?_
    rw [unit]
    exact if_neg (by simp [offline, testing])
  rw [row]
  exact ⟨fun none' => if_pos (by rw [none']; rfl), fun some' => if_neg (by simpa using some')⟩

/-- Settles O49: channels, columns and their spares. -/
theorem sparing : Obligations.Sparing :=
  ⟨spareCopyComplete, channelFailure, ownSpareFirst, stackAfterVacancy, columnSelfTest⟩

/-! ## Health and audits -/

/-- The claim of R272 and R454–R456. -/
theorem healthRecompute : Claims.HealthRecompute := by
  intro ms s u scores
  refine ⟨fun early => if_pos ?_, fun awake due high well => ?_, fun w => rfl⟩
  · simpa using early
  · have healthy : (s.waveNews ms).rel.suspect.filter (fun c => decide ((tget ((s.waveNews ms).scoresNow ms) (healthKey c.1 c.2)).getD 255 < 160)) = [] :=
      List.filter_eq_nil_iff.2 fun c mem => by simpa using well c mem
    have low : ((s.waveNews ms).scoresNow ms).filter (fun e => decide (e.2 < 96)) = [] :=
      List.filter_eq_nil_iff.2 fun e mem => by simpa using high e mem
    refine (if_neg (by simp [awake, due])).trans ?_
    dsimp only [State.modRel]
    rw [healthy, low]
    rfl

/-- The claim of R455–R457. -/
theorem judgement : Claims.Judgement := by
  intro s kind i
  have serves (h : s.serving kind i = true) : s.judge kind i = match s.expulsion kind i with
      | some t => if s.keeps t = true then t else s.makeSuspect kind i
      | none => s.makeSuspect kind i := if_neg (by simp [h])
  refine ⟨fun out => if_pos (by rw [out]; rfl), fun t h gone keeps => ?_, fun t h gone loses had => ?_, fun h stays => ?_⟩
  · rw [serves h, gone]
    exact if_pos (by rcases keeps with k | k <;> simp [State.keeps, k])
  · rw [serves h, gone]
    exact if_neg (by simp [State.keeps, loses, had])
  · rw [serves h, stays]

/-- The record of an audit that found a difference, before it is settled (R459). -/
def State.auditRecord (s : State) (j : Job) (i : Item) (id auditor u : Nat) (rows : List (Nat × Nat)) : AuditRec :=
  { original := u / 64, auditor, index := s.rel.auditCount + 1, rows, fold := j.fold.1 * 4 + j.fold.2,
    busy := (s.flying.filter fun f => f / 64 == u / 64).length, job := id, key := j.key, jobTag := entryTag j.bytes,
    step := jdStep j.bytes, skein := (j.entries[i.entry]?.map (·.skein)).getD 0, layer := jdLayer j.bytes }

/-- The state with one more record in the audit log. -/
def State.logAudit (s : State) (a : AuditRec) : State :=
  s.modRel fun r => { r with auditCount := r.auditCount + 1, audits := (r.audits ++ [a]).drop (r.audits.length + 1 - auditLog) }

/-- The log keeps the last 256 records. -/
theorem logAudit_audits (s : State) (a : AuditRec) :
    (s.logAudit a).rel.audits = (s.rel.audits ++ [a]).drop (s.rel.audits.length + 1 - 256) := by
  simp only [State.logAudit, State.modRel, auditLog]

/-- A shadow audit of a lea that another spindle has streamed, within the auditor's share or beyond it. -/
theorem exec_shadowAudit {id item lea auditor u : Nat} {s : State} {j : Job} {i : Item} (low : auditor < 8) (job : s.job? id = some j)
    (at' : j.items[item]? = some i) (sub : i.sub = some u) (spindle : j.whorls = false) (streams : j.phase = .streaming) (leas : lea < i.leas)
    (kept : lea ∉ i.lost) (other : u / 64 ≠ auditor) (serves : s.spindleServes auditor = true) (awake : s.awake = true) (rows : List (Nat × Nat)) :
    exec (.shadowAudit id item lea auditor rows) s = .next ((s.auditShare auditor).elim ((s.countRel 5 auditor).deferDuty 3) fun t =>
      let t := t.countRel 4 auditor
      if rows.isEmpty = true then t
      else
        let a := t.auditRecord j i id auditor u rows
        if (t.logAudit a).thirdSpindle [u / 64, auditor] = true then t.logAudit a
        else (t.logAudit a).settleAudit { a with charged := [u / 64, auditor] }) := by
  show execShadowAudit id item lea auditor rows s = _
  unfold execShadowAudit
  rw [if_neg (Nat.not_le.2 low), job]
  simp only []
  rw [at']
  simp only []
  rw [sub]
  simp only []
  rw [if_neg (by simp [spindle, streams, leas, kept, other, serves, awake])]
  cases s.auditShare auditor with
  | none => rfl
  | some t =>
    simp only [Option.elim]
    split
    · rfl
    · refine Eq.trans ?_ (apply_ite Host.Outcome.next _ _ _).symm
      rfl

/-- The claim of R445, R458 and R459 for shadow audits. -/
theorem shadowAudit : Claims.ShadowAudit := by
  intro id item lea auditor u rows s j i low job at' sub spindle streams leas kept other serves awake
  have row := exec_shadowAudit low job at' sub spindle streams leas kept other serves awake
  refine ⟨fun above => ?_, fun t within => ?_, fun t within some' => ?_⟩
  · rw [row, above]
    rfl
  · rw [row, within]
    rfl
  · refine ⟨(t.countRel 4 auditor).auditRecord j i id auditor u rows,
      (t.countRel 4 auditor).logAudit ((t.countRel 4 auditor).auditRecord j i id auditor u rows),
      rfl, rfl, rfl, rfl, rfl, rfl, ?_, fun third => ?_, fun none' => ?_⟩
    · exact logAudit_audits (t.countRel 4 auditor) _
    · rw [row, within]
      exact congrArg Host.Outcome.next ((if_neg (by simpa using some')).trans (if_pos third))
    · rw [row, within]
      exact congrArg Host.Outcome.next ((if_neg (by simpa using some')).trans (if_neg (ne_true_of_eq_false none')))

/-- The claim of R459. -/
theorem auditArbiter : Claims.AuditArbiter := by
  intro log k s a open' unit notOriginal notAuditor serves
  have arbiter (x y : Bool) : exec (.auditArbiterComplete log (some k) x y) s = if (x && y) = true then .next s
      else .next (s.settleAudit { a with
        arbiter := some k, charged := if x = true then [a.auditor] else if y = true then [a.original] else [a.original, a.auditor] }) := by
    show execAuditArbiterComplete log (some k) x y s = _
    simp only [execAuditArbiterComplete, open']
    refine (if_neg (Nat.not_le.2 unit)).trans ?_
    simp [notOriginal, notAuditor, serves]
  refine ⟨arbiter true false, arbiter false true, arbiter false false, arbiter true true, fun none' => ?_⟩
  show execAuditArbiterComplete log none false false s = _
  simp only [execAuditArbiterComplete, open']
  exact if_neg (ne_true_of_eq_false none')

/-- Settles O50: health scores, expulsion and shadow audits. -/
theorem healthAndAudits : Obligations.HealthAndAudits :=
  ⟨healthRecompute, judgement, shadowAudit, auditArbiter⟩

end Sys2Proof.Machine
end


section
/-!
The creel's events (R241–R262, R446, R496): programmed pages, merges, failed programs and erases, the scan and the patrol.
-/
namespace Sys2Proof.Machine

/-! ## Programmed pages -/

/-- Programming appends one page to its block. -/
theorem pagesIn_program (c : Creel) (b x : Nat) (kind : PageKind) (index lb : Nat) (flags : BitVec 2) :
    (c.program b kind index lb flags).pagesIn x = if x = b then c.pagesIn b ++ [{ record := {
      kind := kind, flags := flags, pageIndex := BitVec.ofNat 16 index, logicalBlock := BitVec.ofNat 20 lb, sequence := c.sequence } }]
      else c.pagesIn x := by
  unfold Creel.program Creel.pagesIn
  split
  · next same => rw [same, tget_tset_same]; rfl
  · next other => rw [tget_tset_other _ _ _ _ other]

/-- The claim of R245, R246 and R251. -/
theorem pageRecords : Claims.PageRecords := by
  intro c b index lb kind flags d
  have appended : d.pagesIn b = _ := (pagesIn_program c b b kind index lb flags).trans (if_pos rfl)
  refine ⟨⟨_, appended, by rw [Creel.fill, appended, List.length_append]; rfl, ?_⟩, rfl, rfl, fun x other => ?_, rfl⟩
  · intro head
    have same : PageRecord.head ⟨kind, flags, BitVec.ofNat 16 index, BitVec.ofNat 20 lb, c.sequence⟩ = head := by
      simp only [PageRecord.head, BitVec.toNat_ofNat, head]
    rw [spareArea, PageRecord.check, same]
    refine ⟨rfl, ?_⟩
    simp [head, toLe_length, zeros]
  · exact (pagesIn_program c b x kind index lb flags).trans (if_neg other)

/-- The claim of R242 and R245. -/
theorem pagesLand : Claims.PagesLand := by
  intro s u page b opened
  refine ⟨u.modCreel fun c => { c.program b .lea (page % tlcPages) (page / tlcPages) 0 with pages := tset c.pages page (b, c.fill b) },
    ?_, tget_tset_same _ _ _, fun x other => tget_tset_other _ _ _ _ other, ?_, rfl⟩
  · unfold State.programPage
    rw [opened]
    rfl
  · exact (pagesIn_program u.creel b b .lea (page % tlcPages) (page / tlcPages) 0).trans (if_pos rfl)

/-! ## Merges -/

/-- The claim of R243, R244 and R257. -/
theorem mergeStart : Claims.MergeStart := by
  intro lb s
  refine ⟨fun b t awake online mapped idle due took => ?_, fun stays => if_pos ?_⟩
  · refine (if_neg (by simp [awake, online, mapped, idle, due])).trans ?_
    rw [took]
  · rcases stays with h | h | ⟨b, h⟩ | h <;> simp [h]

/-- A creel that serves in a module that is awake acts on its events. -/
theorem creelAwake_of {s : State} (awake : s.awake = true) (serves : s.creelServes = true) : s.creelAwake = true := by
  simp [State.creelAwake, awake, serves]

/-- The claim of R241, R243, R245 and R246 for a merge that completes. -/
theorem mergeComplete : Claims.MergeComplete := by
  intro lb b s dest awake serves
  show execMergeComplete lb s = _
  unfold execMergeComplete
  rw [dest]
  exact if_neg (by simp [creelAwake_of awake serves])

/-- The claim of R255, R257 and R262. -/
theorem mergeDestFail : Claims.MergeDestFail := by
  intro lb b s dest awake serves t
  have row : exec (.mergeDestFail lb) s = .next (if (t.creel.state == .online) = true then
      ((t.takeBlock (.mergeDest lb)).elim t fun x => x.2) else t) := by
    show execMergeDestFail lb s = _
    unfold execMergeDestFail
    rw [dest]
    refine (if_neg (by simp [creelAwake_of awake serves])).trans ?_
    dsimp only
    split
    · cases State.takeBlock _ (.mergeDest lb) <;> rfl
    · rfl
  rw [row]
  refine ⟨fun x u online took => ?_, fun other => ?_⟩
  · rw [if_pos (by rw [online]; rfl), took]
    rfl
  · rw [if_neg (by simpa using other)]

/-! ## Failed programs and erases -/

/-- The claim of R253, R256 and R262. -/
theorem creelProgramFail : Claims.CreelProgramFail := by
  intro blk s awake serves
  have ready := creelAwake_of awake serves
  show _ ∧ _
  refine ⟨fun system => if_pos system, fun t other used moved => ?_, fun other unused => ?_⟩
  · refine (if_neg (ne_true_of_eq_false other)).trans ((if_neg ?_).trans ?_)
    · rcases used with h | h <;> rw [h] <;> simp [ready]
    · rw [moved]
  · refine (if_neg (ne_true_of_eq_false other)).trans (if_pos ?_)
    rw [unused]
    simp

/-- An erase that completes on a block that has not worn out. -/
theorem exec_creelEraseComplete {blk : Nat} {s : State} {slc : Bool} (awake : s.awake = true) (serves : s.creelServes = true)
    (erasing : tget s.creel.blocks blk = some (.erasing slc)) : exec (.creelEraseComplete blk) s =
      if 30000 ≤ s.creel.wear blk then .next (s.retireBlock blk 4)
      else .next (State.runTier (State.levelWear (State.leaveReadOnly (s.modCreel fun c => c.erased blk slc)))) := by
  show execCreelEraseComplete blk s = _
  unfold execCreelEraseComplete
  rw [erasing]
  exact if_neg (by simp [creelAwake_of awake serves])

/-- The claim of R241, R250, R254, R256 and R258. -/
theorem creelErase : Claims.CreelErase := by
  intro blk s awake serves freed
  have done := fun slc => exec_creelEraseComplete (blk := blk) (slc := slc) awake serves
  refine ⟨fun system => if_pos system, fun slc other erasing => ?_, fun erasing fresh => ?_, fun erasing fresh => ?_, fun slc erasing worn => ?_⟩
  · refine (if_neg (ne_true_of_eq_false other)).trans ?_
    rw [erasing]
    exact if_pos (creelAwake_of awake serves)
  · rw [done false erasing, if_neg (Nat.not_le.2 fresh)]
    rfl
  · rw [done true erasing, if_neg (Nat.not_le.2 fresh)]
    rfl
  · rw [done slc erasing, if_pos worn]

/-! ## Scan and patrol -/

/-- The claim of R251, R252 and R262. -/
theorem creelScan : Claims.CreelScan := by
  intro bad s awake
  exact ⟨fun rebuilds => if_neg (by simp [rebuilds, awake]), fun other => if_pos (.inl other)⟩

/-- A period that reads nothing gives nothing up. -/
theorem creelChecks_nil (s : State) : s.creelChecks [] = s := by
  have reads (page : Nat) : ((tget s.creel.pages page).map ([] : List PageAt).contains).getD false = false := by
    cases tget s.creel.pages page <;> rfl
  have empty {α β : Type} (l : List α) : l.flatMap (fun _ => ([] : List β)) = [] := List.flatMap_eq_nil_iff.2 fun _ _ => rfl
  have none' {α : Type} (l : List α) : l.any (fun _ => false) = false := List.any_eq_false.2 fun _ _ h => by cases h
  unfold State.creelChecks
  simp only [reads, none', Bool.false_and, Bool.and_false, List.filter_false, List.map_nil, empty, List.foldl_nil]

/-- The claim of R259, R446 and R496. -/
theorem creelPatrol : Claims.CreelPatrol := by
  intro pages bits bad s awake serves lo used at' n read mine
  have row (bits : List PageBits) (bad : List PageAt) (m : Nat) (is : (if (s.power.state == .run) = true then n else 0) = m) :
      let read := (s.creel.programmed.drop lo).take m
      let mine := bits.filter fun x => read.contains (x.blk, x.page)
      exec (.creelPatrolPeriod pages bits bad) s = .next (State.creelPassEnd ((bad.filter read.contains).foldl State.losePage
        (((at' m).modCreel fun c => mine.foldl Creel.refresh (mine.foldl Creel.noteBits c)).creelChecks read))) := by
    subst is
    exact if_neg (by simp [creelAwake_of awake serves])
  refine ⟨fun runs => row bits bad n (if_pos (by simp [runs])), fun holds => ?_⟩
  refine (row [] [] 0 (if_neg (by simpa using holds))).trans ?_
  exact congrArg (fun u : State => Host.Outcome.next u.creelPassEnd) (creelChecks_nil (at' 0))

/-- Settles O51: the creel's pages, merges, failures, scan and patrol. -/
theorem creelEvents : Obligations.CreelEvents :=
  ⟨pageRecords, pagesLand, mergeStart, mergeComplete, mergeDestFail, creelProgramFail, creelErase, creelScan, creelPatrol⟩

end Sys2Proof.Machine
end


section
/-!
The CXL link and its logical devices (R337, R339, R351, R370, R519, R521, R535), management messages (R337, R340, R341, R370,
R371, R419, R431, R538, R539), cold start, command bounds and control cores (R390, R391, R398, R418, R513, R517, R520, R525).
-/
namespace Sys2Proof.Machine

/-! ## Link and LD resets -/

/-- Training gives the width and its link state. -/
theorem train_link (c : Cxl) (w r : Nat) (f : Bool) : (c.train w r f).width = w ∧ (c.train w r f).linkState = (if w = 0 then 0 else 2) ∧
    (c.train w r f).lds = c.lds := ⟨rfl, rfl, rfl⟩

/-- The claim of R339, R519, R521 and R535. -/
theorem linkResets : Claims.LinkResets := by
  intro s out
  refine ⟨fun up => ?_, fun w r f down => ?_, fun up => ?_, fun d unit => if_neg (Nat.not_le.2 unit), fun d above => if_pos above, fun l => rfl⟩
  · refine ⟨_, congrArg Host.Outcome.next ((if_pos (by rw [out, up]; rfl)).trans (congrArg State.refreshLevel
      (congrArg (State.modCxl _) (funext fun c => if_pos rfl)))), rfl, rfl, rfl, rfl, rfl, rfl, rfl, rfl⟩
  · refine ⟨_, congrArg Host.Outcome.next (if_pos (by rw [out, down]; rfl)), rfl, ?_⟩
    exact ⟨(train_link s.cxl (trainWidth w) (trainRate r f) f).1, (train_link s.cxl (trainWidth w) (trainRate r f) f).2.1, rfl, rfl⟩
  · refine ⟨_, congrArg Host.Outcome.next ((if_pos out).trans (congrArg State.refreshLevel
      (congrArg (State.modCxl _) (funext fun c => if_neg (ne_true_of_eq_false up))))), rfl, rfl, rfl, rfl, rfl⟩

/-- The claim of R535 for a controller in reset. -/
theorem linkResetsIgnored : Claims.LinkResetsIgnored := by
  intro s held
  refine ⟨congrArg Host.Outcome.next (if_neg (ne_true_of_eq_false held)), congrArg Host.Outcome.next (if_neg ?_),
    fun w r f => congrArg Host.Outcome.next (if_neg ?_)⟩ <;> rw [held] <;> exact Bool.false_ne_true

/-- The claim of R339 and R337 for failed lanes. -/
theorem laneFailure : Claims.LaneFailure := by
  intro width rate s up c w r t
  have row : exec (.cxlLaneFailure width rate) s = .next (if (decide (w < c.trainedWidth) || decide (r < c.trainedRate)) = true then
      ((t.setFlag Flag.linkDegraded).raise Ev.cxlLinkDegraded .module [w, r]).refreshLevel else t) := if_neg (by simp [up])
  rw [row]
  refine ⟨fun lost => congrArg Host.Outcome.next (if_pos (by simpa using lost)), fun sameWidth sameRate => ?_⟩
  rw [if_neg (by simp [sameWidth, sameRate])]

/-- The claim of R351, R370 and R521. -/
theorem ideAndMsix : Claims.IdeAndMsix := by
  intro s
  refine ⟨fun on => congrArg Host.Outcome.next (if_pos on), fun off => congrArg Host.Outcome.next (if_neg (ne_true_of_eq_false off)),
    fun d unit on => (if_neg (Nat.not_le.2 unit)).trans (congrArg Host.Outcome.next (if_pos on)),
    fun d unit off => (if_neg (Nat.not_le.2 unit)).trans (congrArg Host.Outcome.next (if_neg (ne_true_of_eq_false off))),
    fun d v unit waits mine => (if_neg (Nat.not_le.2 unit)).trans ?_, fun d v unit waits other => (if_neg (Nat.not_le.2 unit)).trans ?_,
    fun d above => ⟨if_pos above, if_pos above⟩⟩
  · dsimp only
    rw [waits]
    simp [mine]
  · dsimp only
    rw [waits]
    simp [other]

/-- Settles O55: resets, lanes, IDE and MSI-X of the CXL link. -/
theorem cxlLink : Obligations.CxlLink := ⟨linkResets, linkResetsIgnored, laneFailure, ideAndMsix⟩

/-! ## Management messages -/

/-- The claim of R337, R341, R370, R419 and R431 for DOE messages. -/
theorem doeMessages : Claims.DoeMessages := by
  intro ld s unit reply
  have here : ¬ (ld ≥ ldCount) := Nat.not_le.2 unit
  refine ⟨fun silent m => (if_neg here).trans (if_pos (by rw [silent]; rfl)), fun reaches => ?_⟩
  have on : ¬ ((!s.doeReaches) = true) := by simp [reaches]
  have row (m : DoeMessage) : exec (.spdmDoeMessage ld m) s = _ := (if_neg here).trans (if_neg on)
  refine ⟨fun b => row _, fun h well good => (row _).trans ?_, fun h well bad => (row _).trans ?_, fun h ill => (row _).trans (if_pos ill),
    fun skid session => (row _).trans ?_, fun skid session => (row _).trans ?_, fun none' mem skid => (row _).trans (if_pos (by rw [none']; rfl)),
    fun bs => row _, fun e => row _⟩
  · exact (if_neg (ne_true_of_eq_false well)).trans (congrArg (fun u => Host.Outcome.next (reply u [])) (if_pos good))
  · exact (if_neg (ne_true_of_eq_false well)).trans (congrArg (fun u => Host.Outcome.next (reply u [])) (if_neg (ne_true_of_eq_false bad)))
  · exact if_neg (by rw [session]; decide)
  · exact if_neg (by rw [session]; decide)

/-- Whether a host-table entry is that of an LD (R371). -/
def State.ownsEntry (s : State) (ld e : Nat) : Bool :=
  match tget s.cxl.hostTable e with
  | some x => x.ld == ld
  | none => false

theorem ownsEntry_iff {s : State} {ld e : Nat} : s.ownsEntry ld e = true ↔ ∃ x, tget s.cxl.hostTable e = some x ∧ x.ld = ld := by
  unfold State.ownsEntry
  cases tget s.cxl.hostTable e <;> simp

/-- The claim of R371. -/
theorem tspRequests : Claims.TspRequests := by
  intro ld s unit reaches reply
  have here : ¬ (ld ≥ ldCount) := Nat.not_le.2 unit
  refine ⟨fun none' r => (if_neg here).trans (if_pos (by rw [none']; simp)), fun session => ?_⟩
  have on : ¬ ((!s.doeReaches || !(s.ld ld).doeSession) = true) := by simp [reaches, session]
  have row (r : TspRequest) : exec (.tspRequest ld r) s = _ := (if_neg here).trans (if_neg on)
  have asked (e : Nat) : exec (.tspRequest ld (.getTargetTeState e)) s =
      .next (reply s (if (s.ownsEntry ld e && (s.ld ld).teState.contains e) = true then 1 else 0)) := row _
  have sets (e : Nat) (te : Bool) : exec (.tspRequest ld (.setTargetTeState e te)) s = if s.ownsEntry ld e = true then
      .next (reply (s.modLd ld fun l => { l with teState := (l.teState.filter (· != e)) ++ if te then [e] else [] }) 3) else .next (reply s 0) := row _
  refine ⟨fun locked => (row _).trans (if_pos locked), fun free => (row _).trans (if_neg (ne_true_of_eq_false free)), fun e => ?_,
    row _, fun e x te there mine => (sets e te).trans (if_pos (ownsEntry_iff.2 ⟨x, there, mine⟩)), fun e te other => (sets e te).trans (if_neg ?_)⟩
  · rw [asked e]
    refine congrArg (fun n => Host.Outcome.next (reply s n)) (if_congr ?_ rfl rfl)
    rw [Bool.and_eq_true, ownsEntry_iff, List.contains_iff_mem]
  · rw [ownsEntry_iff]
    rintro ⟨x, there, mine⟩
    exact other x there mine

/-- The claim of R340 for the FM API. -/
theorem fmApi : Claims.FmApi := by
  intro s reaches reply
  have on : ¬ ((!s.doeReaches) = true) := by simp [reaches]
  exact ⟨if_neg on, if_neg on, fun ld b a unit => (if_neg on).trans (if_neg (Nat.not_le.2 unit)), fun ld b a above => (if_neg on).trans (if_pos above),
    fun v => if_neg on, if_neg on⟩

/-- The claim of R538 and R539. -/
theorem sideband : Claims.Sideband := by
  intro s
  refine ⟨fun off => ?_, fun present => ?_⟩
  · have silent (bs : List Byte) : s.sideReply bs = s := if_pos off
    exact ⟨congrArg Host.Outcome.next (silent _), fun _ _ _ => congrArg Host.Outcome.next (silent _), fun _ _ => if_pos off,
      fun _ => congrArg Host.Outcome.next (if_pos off)⟩
  · have on := ne_true_of_eq_false present
    have answers (t : State) (same : t.power.off = s.power.off) (bs : List Byte) : t.sideReply bs = t.emit (.reply 20 bs) :=
      if_neg (by rw [same]; exact on)
    refine ⟨congrArg Host.Outcome.next (answers s rfl _), fun i r known => ?_, fun i r => congrArg Host.Outcome.next (answers s rfl _),
      fun m e some' notAll => ?_, fun m => (if_neg on).trans (congrArg Host.Outcome.next (answers s rfl _)),
      fun a => congrArg Host.Outcome.next (if_neg on)⟩
    · refine congrArg Host.Outcome.next ((answers s rfl _).trans ?_)
      rw [if_pos rfl, if_pos (List.contains_iff_mem.2 known)]
    · refine (if_neg on).trans ?_
      dsimp only
      rw [if_neg (not_or.2 ⟨some', notAll⟩)]
      exact congrArg Host.Outcome.next (answers { s with side := { s.side with eid := e } } rfl _)

/-- Settles O56: DOE, TSP, FM API and sideband messages. -/
theorem managementMessages : Obligations.ManagementMessages := ⟨doeMessages, tspRequests, fmApi, sideband⟩

/-! ## Command bounds, control cores and starts -/

/-- The claim of R390 and R398. -/
theorem boundExpiry : Claims.BoundExpiry := by
  intro m slot s c sp inflight known
  have row : exec (.commandBoundExpiry m slot) s = if sp.bound ≠ 0 ∧ c.fetchedAt + sp.bound * 1000000 ≤ s.time.localNow then
      .next ((s.withdraw c).completeCmd 8 c St.commandTimeout 0 0 []).fetchAll else .next s := by
    show execCommandBoundExpiry m slot s = _
    simp only [execCommandBoundExpiry, inflight, known]
  rw [row]
  refine ⟨fun bounded late => if_pos ⟨bounded, late⟩, fun stays => if_neg ?_⟩
  rintro ⟨bounded, late⟩
  rcases stays with h | h
  · exact bounded h
  · omega

/-- The claim of R391 and R520. -/
theorem controlCores : Claims.ControlCores := by
  intro core s
  refine ⟨fun above => ⟨if_pos above, if_pos above⟩, fun low idle up => (if_neg (Nat.not_le.2 low)).trans ?_, fun low => if_neg (Nat.not_le.2 low)⟩
  have noted : (if s.boot.coresDown.contains core = true then s.boot.coresDown else s.boot.coresDown ++ [core]) = s.boot.coresDown ++ [core] :=
    if_neg (by simpa using up)
  have none' : s.box.inflight.filter (fun c => !c.committed && s.power.waiter == some c.ref) = [] :=
    List.filter_eq_nil_iff.2 fun c _ => by rw [idle]; simp
  dsimp only [State.modBoot]
  rw [noted, none']
  rfl

/-- Recovery keeps the skeins and the memory (R525). -/
theorem enterRecovery_kept (s : State) (why : Nat) (rep : StartReport) : (s.enterRecovery why rep).boot.state = .recovery ∧
    (s.enterRecovery why rep).boot.bootError = why ∧ (s.enterRecovery why rep).store = s.store ∧ (s.enterRecovery why rep).mem = s.mem := by
  unfold State.enterRecovery
  dsimp only
  split <;> exact ⟨rfl, rfl, rfl, rfl⟩

/-- The claim of R418, R513 and R525. -/
theorem coldStart : Claims.ColdStart := by
  intro rep s
  refine ⟨fun held => if_pos held, fun booting powered released runs => ?_⟩
  intro u
  have starts : ¬ (s.boot.state ≠ .booting ∨ s.power.off = true ∨ s.power.resetHeld = true ∨ s.power.stopped = true) := by
    simp [booting, powered, released, runs]
  refine ⟨fun bad => (if_neg starts).trans (if_pos (by rw [bad]; rfl)), fun good => ?_⟩
  have row : exec (.coldStart rep) s = if u.bootError rep ≠ 0 then .next (u.enterRecovery (u.bootError rep) rep) else .next (u.startUp rep).fetchAll :=
    (if_neg starts).trans (if_neg (by rw [good]; decide))
  rw [row]
  split
  · next fine => exact if_neg (not_not_intro fine)
  · next fails =>
    exact ⟨_, rfl, enterRecovery_kept u (u.bootError rep) rep⟩

/-- The claim of R517 and R518 for the restoration's start. -/
theorem skeinRestoration : Claims.SkeinRestoration := by
  intro s
  refine ⟨fun pending serves ready awake => if_pos ⟨pending, serves, ready, awake⟩, fun idle => if_neg ?_⟩
  rintro ⟨pending, _⟩
  rw [idle] at pending
  cases pending

/-- Settles O57: cold start, restoration, command bounds and control cores. -/
theorem startAndCores : Obligations.StartAndCores := ⟨boundExpiry, controlCores, coldStart, skeinRestoration⟩

end Sys2Proof.Machine
end


section
/-!
Breus constants, vectors, reductions and predicates (R183, R184); branches, bodies, ends, traps and fresh invocations
(R180, R181, R184–R188, R191, R192).
-/
namespace Sys2Proof.Machine

/-! ## Constants -/

theorem getD_of_getElem? {α : Type} {l : List α} {k : Nat} {c : α} (h : l[k]? = some c) (x : α) : l.getD k x = c := by
  rw [List.getD_eq_getElem?_getD, h]
  rfl

/-- A row of one vector result writes what it reads off the registers. -/
theorem breusRow_bV {s : State} {i : Inv} {code : Nat} (h : InMidst s i code) {lawful : Inv → Bool} (hl : lawful i = true)
    (d : Nat) (f : Inv → List W32) {w : List W32} (hw : f { i with executed := i.executed + 1 } = w) :
    breusRow code lawful (bV d f) s = .next (s.onward (i.setV d w)) :=
  row_midV h hl (by rw [← hw]; rfl)

/-- A row of one predicate result writes what it reads off the registers. -/
theorem breusRow_bP {s : State} {i : Inv} {code : Nat} (h : InMidst s i code) {lawful : Inv → Bool} (hl : lawful i = true)
    (d : Nat) (f : Inv → W64) {w : W64} (hw : f { i with executed := i.executed + 1 } = w) :
    breusRow code lawful (bP d f) s = .next (s.onward (i.setP d w)) :=
  row_midP h hl (by rw [← hw]; rfl)

/-- The claim of R184 for the constants. -/
theorem breusConstants : Claims.BreusConstants := by
  intro s i d a v k c
  refine ⟨fun h => ?nop, fun h there => ?ldk, fun h there => ?ldkx, fun h there finite => ?vldk⟩
  case nop => exact row_mid h rfl rfl h.runs h.noBody h.noTrap rfl rfl rfl
  case ldk =>
    obtain ⟨low, -⟩ := List.getElem?_eq_some_iff.1 there
    exact breusRow_bS (lawful := fun i => decide (k.toNat < i.consts.length)) h (decide_eq_true low) d (fun j => j.consts.getD k.toNat 0) (getD_of_getElem? there 0)
  case ldkx =>
    obtain ⟨low, -⟩ := List.getElem?_eq_some_iff.1 there
    refine row_midS h rfl ((if_neg (Nat.not_le.2 low)).trans ?_)
    exact congrArg (fun w => (Inv.setS { i with executed := i.executed + 1 } d w).ok) (getD_of_getElem? there 0)
  case vldk =>
    obtain ⟨low, -⟩ := List.getElem?_eq_some_iff.1 there
    have is := getD_of_getElem? there 0
    refine breusRow_bV (lawful := fun i => decide (k.toNat < i.consts.length) && !nonfinite32 (i.consts.getD k.toNat 0)) h ?_ v
      (fun j => List.replicate 64 (j.consts.getD k.toNat 0)) (congrArg (List.replicate 64) is)
    rw [is, finite]
    simpa using low

/-! ## Vectors -/

/-- A vector of 64 lanes, lane by lane. -/
theorem lanes_map {l : List W32} (full : l.length = 64) (f : W32 → W32) : l.map f = (List.range 64).map fun k => f (l.getD k 0) := by
  refine List.ext_getElem (by simp [full]) fun k low _ => ?_
  rw [List.length_map] at low
  simp [List.getElem?_eq_getElem low]

/-- Two vectors of 64 lanes, lane by lane. -/
theorem lanes_zipWith {l m : List W32} (hl : l.length = 64) (hm : m.length = 64) (f : W32 → W32 → W32) :
    l.zipWith f m = (List.range 64).map fun k => f (l.getD k 0) (m.getD k 0) := by
  refine List.ext_getElem (by simp [hl, hm]) fun k low _ => ?_
  rw [List.length_zipWith, hl, hm] at low
  simp [List.getElem?_eq_getElem (show k < l.length by omega), List.getElem?_eq_getElem (show k < m.length by omega)]

/-- The same value in every lane. -/
theorem lanes_replicate (w : W32) : List.replicate 64 w = (List.range 64).map fun _ => w := by
  rw [List.map_const', List.length_range]

/-- The selection between two vectors, lane by lane. -/
theorem lanes_select {l m : List W32} (hl : l.length = 64) (hm : m.length = 64) (p : W64) :
    ((l.zip m).zip (List.range 64)).map (fun x => if p.getLsbD x.2 then x.1.1 else x.1.2) =
      (List.range 64).map fun k => if p.getLsbD k then l.getD k 0 else m.getD k 0 := by
  refine List.ext_getElem (by simp [hl, hm]) fun k low _ => ?_
  rw [List.length_map, List.length_zip, List.length_zip, hl, hm, List.length_range] at low
  simp [List.getElem?_eq_getElem (show k < l.length by omega), List.getElem?_eq_getElem (show k < m.length by omega)]

/-- A lane-wise row of two vectors. -/
theorem breusRow_bVV {s : State} {i : Inv} {code : Nat} (h : InMidst s i code) (d a b : Nat) (f : W32 → W32 → W32)
    (ha : (i.vAt a).length = 64) (hb : (i.vAt b).length = 64) : breusRow code anywhere (bVV d a b f) s =
      .next (s.onward (i.setV d ((List.range 64).map fun k => f ((i.vAt a).getD k 0) ((i.vAt b).getD k 0)))) :=
  breusRow_bV h rfl d _ (lanes_zipWith ha hb f)

/-- A lane-wise row of one vector. -/
theorem breusRow_bV1 {s : State} {i : Inv} {code : Nat} (h : InMidst s i code) (d a : Nat) (f : W32 → W32) (ha : (i.vAt a).length = 64) :
    breusRow code anywhere (bV1 d a f) s = .next (s.onward (i.setV d ((List.range 64).map fun k => f ((i.vAt a).getD k 0)))) :=
  breusRow_bV h rfl d _ (lanes_map ha f)

/-- The claim of R183 and R184 for vectors. -/
theorem breusVectors : Claims.BreusVectors := by
  intro s i d a b p x put u w ha hb
  refine ⟨?vadd, ?vsub, ?vmul, ?vdiv, ?vmax, ?vmin, ?vabs, ?vneg, ?vexp, ?vtanh, ?vsel, ?vbcst, ?vbcsti, ?vlane⟩
  case vadd => exact fun h => breusRow_bVV h d a b fadd ha hb
  case vsub => exact fun h => breusRow_bVV h d a b fsub ha hb
  case vmul => exact fun h => breusRow_bVV h d a b fmul ha hb
  case vdiv => exact fun h => breusRow_bVV h d a b fdiv ha hb
  case vmax => exact fun h => breusRow_bVV h d a b fmax ha hb
  case vmin => exact fun h => breusRow_bVV h d a b fmin ha hb
  case vabs => exact fun h => breusRow_bV1 h d a fabs ha
  case vneg => exact fun h => breusRow_bV1 h d a fneg ha
  case vexp => exact fun h => breusRow_bV1 h d a fexp ha
  case vtanh => exact fun h => breusRow_bV1 h d a ftanh ha
  case vsel => exact fun h => breusRow_bV h rfl d _ (lanes_select ha hb (i.pAt p))
  case vbcst =>
    intro h finite
    refine row_midV h rfl ((if_neg (ne_true_of_eq_false finite)).trans ?_)
    rw [← lanes_replicate]
    rfl
  case vbcsti => exact fun h => breusRow_bV h rfl d _ (lanes_replicate (fOfInt (i.sAt x).toInt))
  case vlane => exact fun h => breusRow_bV h rfl d _ rfl

/-- The claim of R183 and R184 for reductions. -/
theorem breusReductions : Claims.BreusReductions := by
  intro s i d a p lane put vs full
  have lanes : selected (i.vAt a) (i.pAt p) = vs := selected_eq (i.vAt a) (i.pAt p) full
  refine ⟨fun h => breusRow_bS h rfl d _ rfl, fun h => breusRow_bS h rfl d _ (congrArg (List.foldl fadd 0) lanes),
    fun h empty => breusRow_bS h rfl d _ ?_, fun x xs h some' => breusRow_bS h rfl d _ ?_⟩
  · show (match selected (i.vAt a) (i.pAt p) with
      | [] => 0xFF7FFFFF
      | x :: xs => xs.foldl fmax x) = _
    rw [lanes, empty]
  · show (match selected (i.vAt a) (i.pAt p) with
      | [] => 0xFF7FFFFF
      | x :: xs => xs.foldl fmax x) = _
    rw [lanes, some']

/-! ## Predicates -/

/-- The number of set bits fits a scalar. -/
theorem popcount_toNat (m : W64) : (BitVec.ofNat 32 (popcount m)).toNat = popcount m := by
  have low : popcount m ≤ 64 := (List.length_filter_le _ _).trans_eq List.length_range
  rw [BitVec.toNat_ofNat, Nat.mod_eq_of_lt (by omega)]

/-- The claim of R183 and R184 for predicates. -/
theorem breusPredicates : Claims.BreusPredicates := by
  intro s i d a b v w x y z k low wrote key
  have compares (h : InMidst s i 0x34) (cond : Fin 4) (fine : (cond.val != 3) = true) :
      wrote (exec (.pcmp d v w cond) s) (fcond cond ((i.vAt v).getD k 0) ((i.vAt w).getD k 0)) :=
    ⟨_, breusRow_bP (lawful := fun _ => cond.val != 3) h fine d _ rfl, laneMask_bit _ k low⟩
  have combines (h : InMidst s i 0x35) (op : Fin 4) {f : Bool} (is : (plogic op (i.pAt a) (i.pAt b)).getLsbD k = f) :
      wrote (exec (.plog d a b op) s) f := ⟨_, breusRow_bP h rfl d _ rfl, is⟩
  refine ⟨fun h => ⟨compares h 0 rfl, compares h 1 rfl, compares h 2 rfl⟩, fun h => ⟨combines h 0 ?_, combines h 1 ?_, combines h 2 ?_, combines h 3 ?_⟩,
    fun h => ⟨_, breusRow_bP h rfl d _ rfl, ?_⟩, fun h => ⟨_, breusRow_bP h rfl d _ rfl, laneMask_bit _ k low⟩,
    fun h => ⟨_, breusRow_bS h rfl z _ rfl, popcount_toNat (i.pAt a)⟩⟩
  · exact BitVec.getLsbD_and
  · exact BitVec.getLsbD_or
  · exact BitVec.getLsbD_xor
  · show (i.pAt a &&& ~~~(i.pAt b)).getLsbD k = _
    rw [BitVec.getLsbD_and, BitVec.getLsbD_not, decide_eq_true low, Bool.true_and]
  · show (~~~(i.pAt a)).getLsbD k = _
    rw [BitVec.getLsbD_not, decide_eq_true low, Bool.true_and]

/-- Settles O59: constants, vectors, reductions and predicates of Breus. -/
theorem breusRegisters : Obligations.BreusRegisters := ⟨breusConstants, breusVectors, breusReductions, breusPredicates⟩

end Sys2Proof.Machine
end


section
/-!
Breus branches, bodies, ends, traps, refusals and fresh invocations (R180, R181, R184–R188, R191, R192).
-/
namespace Sys2Proof.Machine

/-! ## Branches and bodies -/

/-- A branch goes where its condition says. -/
theorem breusRow_bBranch {s : State} {i : Inv} {code : Nat} (h : InMidst s i code) {off : BitVec 14} (ok : i.branchOk off = true)
    (inside : i.pc + 1 + off.toNat < i.codeWords) (cond : Inv → Bool) {c : Bool} (is : cond { i with executed := i.executed + 1 } = c) :
    breusRow code (fun i => i.branchOk off) (bBranch cond off) s =
      if c = true then .next { s with inv := { i with pc := i.pc + 1 + off.toNat, executed := i.executed + 1 } } else .next (s.onward i) := by
  have goes (pc : Nat) (to' : (if cond { i with executed := i.executed + 1 } = true then i.pc + 1 + off.toNat else i.pc + 1) = pc) :
      bBranch cond off { i with executed := i.executed + 1 } = .ok ({ i with executed := i.executed + 1 }, pc) := by
    rw [← to']
    rfl
  split
  · next taken => exact row_to (lawful := fun i => i.branchOk off) h ok (goes _ (if_pos (is.trans taken))) inside
  · next not' => exact row_to (lawful := fun i => i.branchOk off) h ok (goes _ (if_neg fun taken => not' (is.symm.trans taken))) (by omega)

/-- The claim of R185. -/
theorem breusBranches : Claims.BreusBranches := by
  intro s i a p off ok inside far near
  refine ⟨fun h => (breusRow_bBranch h ok inside (fun i => i.sAt a == 0) (c := i.sAt a == 0) rfl).trans ?_,
    fun h => (breusRow_bBranch h ok inside (fun i => i.sAt a != 0) (c := i.sAt a != 0) rfl).trans ?_,
    fun h => (breusRow_bBranch h ok inside (fun i => i.pAt p != 0) (c := i.pAt p != 0) rfl).trans ?_,
    fun h => (breusRow_bBranch h ok inside (fun i => i.pAt p == 0) (c := i.pAt p == 0) rfl).trans ?_⟩
  · exact if_congr beq_iff_eq rfl rfl
  · rw [← ite_not]
    exact if_congr (by simp) rfl rfl
  · rw [← ite_not]
    exact if_congr (by simp) rfl rfl
  · exact if_congr beq_iff_eq rfl rfl

/-- The claim of R186 for the starts of bodies. -/
theorem breusBodies : Claims.BreusBodies := by
  intro s i a len count ok started
  have some' := bodyOk_len ok
  have begins {n : Nat} (pos : 1 ≤ n) : bBody len.toNat n { i with executed := i.executed + 1 } =
      .ok ({ i with executed := i.executed + 1, body := some (i.pc + 1, i.pc + 1 + len.toNat, n - 1) }, i.pc + 1) := if_neg (by omega)
  refine ⟨fun h low high => ?_, fun h low high => ?_, fun h zero inside => ?_, fun h many => ?_⟩
  · exact row_body (lawful := fun i => i.bodyOk len && decide (1 ≤ count.toNat ∧ count.toNat ≤ 4096)) h (by simp [ok, low, high]) (begins low) (by omega)
  · exact row_body (lawful := fun i => i.bodyOk len) h ok ((if_neg (Nat.not_lt.2 high)).trans (begins low)) (by omega)
  · refine row_to (lawful := fun i => i.bodyOk len) h ok ((if_neg ?_).trans (if_pos zero)) inside
    exact fun big => absurd (show 4096 < (i.sAt a).toNat from big) (by omega)
  · show breusRow 0x08 (fun i => i.bodyOk len) (bReps a len) s = _
    rw [row_issue h.here h.runs h.accepted ok, issue_err h.budget (if_pos many)]
    rfl

/-! ## Iterations and ends -/

/-- A row of the invocation that the state names issues its instruction. -/
theorem breusRow_accepted {s : State} {i : Inv} {code : Nat} {op : BOp} (here : s.invocation = i) (accepted : i.place.accepts code = true) :
    breusRow code anywhere op s = .next (s.settleInv (i.issue op)) := by
  subst here
  exact if_pos (by rw [accepted]; rfl)

/-- A running invocation is the state's own. -/
theorem invocation_running {s : State} {i : Inv} (here : s.inv = i) (runs : i.running = true) : s.invocation = i := by
  subst here
  exact if_pos runs

/-- A NOP goes on to the next word. -/
theorem exec_nop {s : State} {i : Inv} (here : s.invocation = i) (runs : i.running = true) (budget : i.executed < i.place.budget) :
    exec .nop s = .next (s.settleInv (({ i with executed := i.executed + 1 } : Inv).goTo (i.pc + 1))) :=
  (breusRow_accepted here (accepts_nop i.place)).trans
    (congrArg (fun j => Host.Outcome.next (s.settleInv j)) (issue_ok (j := { i with executed := i.executed + 1 }) budget rfl runs))

/-- An instruction that ends the invocation leaves it as it ends. -/
theorem issue_stops {i j : Inv} {op : BOp} {pc : Nat} (budget : i.executed < i.place.budget)
    (is : op { i with executed := i.executed + 1 } = .ok (j, pc)) (stops : j.running = false) : i.issue op = j := by
  unfold Inv.issue
  refine (if_neg (by omega)).trans ?_
  dsimp only
  rw [is]
  exact if_neg (ne_true_of_eq_false stops)

/-- The claim of R186 for the ends of iterations. -/
theorem breusIterations : Claims.BreusIterations := by
  intro s i first left here runs noTrap budget body
  rw [exec_nop (invocation_running here runs) runs budget]
  refine ⟨fun more => ?_, fun none' inside => ?_⟩
  · have next : ({ i with executed := i.executed + 1 } : Inv).goTo (i.pc + 1) =
        { i with pc := first, executed := i.executed + 1, body := some (first, i.pc + 1, left - 1) } := by
      unfold Inv.goTo
      dsimp only
      rw [body]
      exact (if_neg (not_not_intro rfl)).trans (if_pos more)
    rw [next, settle_none (j := { i with pc := first, executed := i.executed + 1, body := some (first, i.pc + 1, left - 1) }) noTrap]
  · have next : ({ i with executed := i.executed + 1 } : Inv).goTo (i.pc + 1) = { i with pc := i.pc + 1, executed := i.executed + 1, body := none } := by
      unfold Inv.goTo
      dsimp only
      rw [body]
      exact (if_neg (not_not_intro rfl)).trans ((if_neg (by omega)).trans (if_neg (Nat.not_le.2 inside)))
    rw [next, settle_none (j := { i with pc := i.pc + 1, executed := i.executed + 1, body := none }) noTrap]

/-- The claim of R184, R185 and R191. -/
theorem breusEnds : Claims.BreusEnds := by
  intro s i here runs noTrap budget body one
  have ends {j : Inv} (is : one.finish = j) (stops : j.running = false) : exec .endProg s = .next (s.settleInv j) :=
    (breusRow_accepted (invocation_running here runs) (accepts_end i.place)).trans
      (congrArg (fun j => Host.Outcome.next (s.settleInv j)) (issue_stops (pc := i.pc) budget (congrArg (fun j => Except.ok (j, i.pc)) is) stops))
  refine ⟨fun fine => ?_, fun whorl bad => ends (if_pos ⟨whorl, bad⟩) rfl, fun fine last => ?_⟩
  · rw [ends (finish_ok (j := one) fine) rfl, settle_none]
    · simp only [one, body]
    · exact noTrap
  · have past : one.goTo (i.pc + 1) = Inv.finish { one with pc := i.pc + 1 } := by
      unfold Inv.goTo
      rw [show one.body = none from body]
      exact if_pos last
    rw [exec_nop (invocation_running here runs) runs budget, past, finish_ok (j := { one with pc := i.pc + 1 }) fine, settle_none]
    · simp only [one, body]
    · exact noTrap

/-! ## Traps -/

/-- The claim of R187 and R188. -/
theorem breusTraps : Claims.BreusTraps := by
  intro s i imm d a v one
  refine ⟨fun h => ?_, fun h beyond => ?_, fun h bad => ?_, fun here runs spent => ?_⟩
  · show breusRow 0x02 anywhere (bTrap imm) s = _
    rw [row_issue h.here h.runs h.accepted rfl, issue_err h.budget rfl]
    rfl
  · show breusRow 0x0A anywhere (bLdkx d a) s = _
    rw [row_issue h.here h.runs h.accepted rfl, issue_err h.budget (if_pos beyond)]
    rfl
  · show breusRow 0x2C anywhere (bVbcst v a) s = _
    rw [row_issue h.here h.runs h.accepted rfl, issue_err h.budget (if_pos bad)]
    rfl
  · show breusRow 0x00 anywhere bNop s = _
    rw [row_issue here runs (accepts_nop i.place) rfl]
    exact congrArg (fun j => Host.Outcome.next (s.settleInv j)) (if_pos (by omega))

/-- The claim of R188 and R192. -/
theorem breusTrapRecord : Claims.BreusTrapRecord := by
  intro s i code imm jobless
  refine ⟨rfl, rfl, fun tier => if_pos tier, fun score => ?_⟩
  unfold State.settleInv Inv.trapped
  simp [score, jobless]

/-! ## Refusals and fresh invocations -/

/-- A row that its place does not accept is refused. -/
theorem breusRow_refused {s : State} {code : Nat} {lawful : Inv → Bool} {op : BOp}
    (not' : s.invocation.place.accepts code = false ∨ lawful s.invocation = false) : breusRow code lawful op s = .refused .notInThisPlace := by
  refine if_neg ?_
  rcases not' with h | h <;> simp [h]

/-- The claim of R180 and R184. -/
theorem breusRefusals : Claims.BreusRefusals := by
  intro s d a b v w p n
  refine ⟨fun tier => ⟨?_, ?_, ?_⟩, fun whorl => ?_, breusRow_refused (lawful := fun _ => (3 : Fin 4).val != 3) (.inr rfl),
    breusRow_refused (lawful := fun _ => (3 : Fin 4).val != 3) (.inr rfl), breusRow_refused (lawful := fun _ => (3 : Fin 4).val != 3) (.inr rfl)⟩
  · exact breusRow_refused (code := 0x20) (.inl (by rw [tier]; decide))
  · exact breusRow_refused (code := 0x05) (lawful := fun i => i.branchOk 1) (op := bBranch (fun i => i.pAt p != 0) 1) (.inl (by rw [tier]; decide))
  · exact breusRow_refused (code := 0x36) (.inl (by rw [tier]; decide))
  · exact breusRow_refused (code := 0x29) (.inl (by rw [whorl]; decide))

/-- A program has a word. -/
theorem codeWords_pos (i : Inv) : 1 ≤ i.codeWords := by
  unfold Inv.codeWords
  split
  · cases i.place <;> decide
  · next some' => exact List.length_pos_iff.2 (by simpa using some')

/-- The claim of R181. -/
theorem breusFresh : Claims.BreusFresh := by
  intro s idle i
  obtain ⟨code, consts, fresh⟩ := invocation_fresh s idle
  have is : i = Inv.fresh s.inv.place s.inv.slot code consts s.inv.jobTag := fresh
  have runs : i.running = true := by rw [is]; rfl
  have starts : i.executed = 0 ∧ i.pc = 0 ∧ i.body = none ∧ i.trap = none := by rw [is]; exact ⟨rfl, rfl, rfl, rfl⟩
  obtain ⟨executed, pc, body, trap⟩ := starts
  refine ⟨runs, executed, pc, body, trap, by rw [is]; rfl, by rw [is]; rfl, fun k => ?_, fun k => ?_, fun k low => ?_, fun words => ?_⟩
  · rw [is, Inv.sAt, Inv.fresh, List.getD_eq_getElem?_getD, List.getElem?_replicate]
    split <;> rfl
  · rw [is, Inv.pAt, Inv.fresh, List.getD_eq_getElem?_getD, List.getElem?_replicate]
    split <;> rfl
  · rw [is, Inv.vAt, Inv.fresh, List.getD_eq_getElem?_getD, List.getElem?_replicate, if_pos low]
    rfl
  · have more : 1 < i.codeWords := by have := codeWords_pos i; omega
    have budget : i.executed < i.place.budget := by
      rw [executed]
      cases i.place <;> decide
    rw [exec_nop rfl runs budget, goTo_plain (j := { i with executed := i.executed + 1 }) body (by rw [pc]; exact more), settle_none]
    · simp only [executed, show s.invocation.pc = 0 from pc]
    · exact trap

/-- Settles O60: control in Breus. -/
theorem breusControl : Obligations.BreusControl :=
  ⟨breusBranches, breusBodies, breusIterations, breusEnds, breusTraps, breusTrapRecord, breusRefusals, breusFresh⟩

end Sys2Proof.Machine
end

section
/-!
The invariant of every step, with the queue that a step leaves (R216, R181; DESIGN CHOICE, log 7 and 11). `Safe s₀ s`: `s` has the
queue of `s₀`, and holds the invariant where `s₀` does. `Kept` asks for the same Breus invocation besides, which an operation that
loses the module's volatile state does not keep (R514). One lemma per operation says that the operation keeps it; these are the
shapes that operations take.
-/
namespace Sys2Proof.Machine

/-- The queue is that of `s₀`, and the invariant holds where it does in `s₀`. -/
structure Safe (s₀ s : State) : Prop where
  queue : s.pending = s₀.pending
  holds : s₀.Holds → s.Holds

variable {s₀ : State}

theorem Safe.refl (s : State) : Safe s s := ⟨rfl, id⟩

/-- An update of other fields. -/
theorem Safe.of {s t : State} (h : Safe s₀ s) (pending : t.pending = s.pending) (inv : t.inv = s.inv)
    (mem : s.mem.wf = true → t.mem.wf = true) : Safe s₀ t :=
  ⟨pending.trans h.queue, fun k => ⟨mem (h.holds k).1, by rw [inv]; exact (h.holds k).2⟩⟩

/-- An update of other fields, as a record. -/
theorem Safe.lit {s : State} (h : Safe s₀ s) {f_freeCount f_out f_time f_power f_boot f_cfg f_flags f_counts f_cxl f_box f_tenants
    f_store f_images f_work f_flyer f_pfx f_creel f_rel f_sec f_side} : Safe s₀ (State.mk s.pending f_freeCount f_out s.mem f_time f_power
      f_boot f_cfg f_flags f_counts f_cxl f_box f_tenants f_store f_images s.inv f_work f_flyer f_pfx f_creel f_rel f_sec f_side) :=
  h.of rfl rfl id

/-- An update of memory and other fields, as a record. -/
theorem Safe.litMem {s : State} (h : Safe s₀ s) {m : Mem} {f_freeCount f_out f_time f_power f_boot f_cfg f_flags f_counts f_cxl f_box
    f_tenants f_store f_images f_work f_flyer f_pfx f_creel f_rel f_sec f_side} (mem : s.mem.wf = true → m.wf = true) :
    Safe s₀ (State.mk s.pending f_freeCount f_out m f_time f_power f_boot f_cfg f_flags f_counts f_cxl f_box f_tenants f_store f_images
      s.inv f_work f_flyer f_pfx f_creel f_rel f_sec f_side) :=
  h.of rfl rfl mem

theorem Safe.inFst {β : Type} {s : State} {b : β} (h : Safe s₀ s) : Safe s₀ (s, b).1 := h
theorem Safe.inSnd {β : Type} {s : State} {b : β} (h : Safe s₀ s) : Safe s₀ (b, s).2 := h
theorem Safe.inSnd3 {β γ : Type} {s : State} {b : β} {c : γ} (h : Safe s₀ s) : Safe s₀ (b, c, s).2.2 := h

theorem Safe.outDone {s : State} {r : List Byte} (h : Safe s₀ s) : OfOut (Safe s₀) (.done s r) := h
theorem Safe.outEnded {s : State} {st : Nat} {d : List Byte} (h : Safe s₀ s) : OfOut (Safe s₀) (.ended s st d) := h
theorem Safe.outWait {s : State} (h : Safe s₀ s) : OfOut (Safe s₀) (.wait s) := h
theorem Safe.outPend {s : State} (h : Safe s₀ s) : OfOut (Safe s₀) (.pend s) := h

/-! ## What may fail -/

theorem OfSome.none {α : Type} {p : α → Prop} : OfSome p none := trivial
theorem OfOk.error {ε α : Type} {p : α → Prop} {e : ε} : OfOk p (.error e : Except ε α) := trivial
theorem OfOk.refuse {α : Type} {p : α → Prop} {st : Nat} : OfOk p (refuse st : Except CmdErr α) := trivial
theorem OfNext.fault {p : State → Prop} {f : Fault} : OfNext p (.fault f) := trivial

/-- After a step of which only its value counts. -/
theorem OfSome.after {α β : Type} {r : β → Prop} {m : Option α} {f : α → Option β} (hf : ∀ a, OfSome r (f a)) : OfSome r (m >>= f) :=
  OfSome.bind fun a _ => hf a
theorem OfOk.after {ε α β : Type} {r : β → Prop} {m : Except ε α} {f : α → Except ε β} (hf : ∀ a, OfOk r (f a)) : OfOk r (m >>= f) :=
  OfOk.bind fun a _ => hf a
/-- After a step that keeps what is asked. -/
theorem OfSome.bindOf {α β : Type} {p : α → Prop} {r : β → Prop} {m : Option α} {f : α → Option β} (hm : OfSome p m)
    (hf : ∀ a, p a → OfSome r (f a)) : OfSome r (m >>= f) := OfSome.bind fun a e => hf a (hm.elim e)
theorem OfSome.mapOf {α β : Type} {p : α → Prop} {r : β → Prop} {m : Option α} {f : α → β} (hm : OfSome p m)
    (hf : ∀ a, p a → r (f a)) : OfSome r (m.map f) := OfSome.map fun a e => hf a (hm.elim e)
theorem OfOk.bindOf {ε α β : Type} {p : α → Prop} {r : β → Prop} {m : Except ε α} {f : α → Except ε β} (hm : OfOk p m)
    (hf : ∀ a, p a → OfOk r (f a)) : OfOk r (m >>= f) := OfOk.bind fun a e => hf a (hm.elim e)

theorem OfSome.found {α : Type} {p : α → Prop} {st : Nat} {m : Option α} (hm : OfSome p m) : OfOk p (found st m) := by
  cases m with
  | none => trivial
  | some a => exact hm
theorem OfOk.within {α : Type} {p : α → Prop} {n : Nat} {m : Res α} (hm : OfOk p m) : OfOk p (within n m) := by
  cases m with
  | error st => trivial
  | ok a => exact hm

/-! ## Choices -/

theorem safe_ite {c : Prop} [Decidable c] {a b : State} (ha : Safe s₀ a) (hb : Safe s₀ b) : Safe s₀ (if c then a else b) := by
  split
  · exact ha
  · exact hb
theorem safe_ite_fst {β : Type} {c : Prop} [Decidable c] {a b : State × β} (ha : Safe s₀ a.1) (hb : Safe s₀ b.1) :
    Safe s₀ (if c then a else b).1 := by
  split
  · exact ha
  · exact hb
theorem safe_ite_snd {β : Type} {c : Prop} [Decidable c] {a b : β × State} (ha : Safe s₀ a.2) (hb : Safe s₀ b.2) :
    Safe s₀ (if c then a else b).2 := by
  split
  · exact ha
  · exact hb
theorem safe_ite_snd3 {β γ : Type} {c : Prop} [Decidable c] {a b : β × γ × State} (ha : Safe s₀ a.2.2) (hb : Safe s₀ b.2.2) :
    Safe s₀ (if c then a else b).2.2 := by
  split
  · exact ha
  · exact hb
theorem OfSome.ite {α : Type} {p : α → Prop} {c : Prop} [Decidable c] {a b : Option α} (ha : OfSome p a) (hb : OfSome p b) :
    OfSome p (if c then a else b) := by
  split
  · exact ha
  · exact hb
theorem OfOk.ite {ε α : Type} {p : α → Prop} {c : Prop} [Decidable c] {a b : Except ε α} (ha : OfOk p a) (hb : OfOk p b) :
    OfOk p (if c then a else b) := by
  split
  · exact ha
  · exact hb
theorem OfNext.ite {p : State → Prop} {c : Prop} [Decidable c] {a b : Host.Outcome State Fault Refusal} (ha : OfNext p a) (hb : OfNext p b) :
    OfNext p (if c then a else b) := by
  split
  · exact ha
  · exact hb

/-- The value of an option of states, or a state. -/
theorem OfSome.getD {o : Option State} {s : State} (ho : OfSome (Safe s₀) o) (hs : Safe s₀ s) : Safe s₀ (o.getD s) := by
  cases o with
  | none => exact hs
  | some t => exact ho

/-! ## Folds and pairs -/

theorem safe_foldl {α : Type} {f : State → α → State} (hf : ∀ s x, Safe s₀ s → Safe s₀ (f s x)) (xs : List α) :
    ∀ {s : State}, Safe s₀ s → Safe s₀ (xs.foldl f s) := by
  induction xs with
  | nil => exact fun h => h
  | cons x xs ih => exact fun h => ih (hf _ x h)
theorem safe_foldl_fst {α β : Type} {f : State × β → α → State × β} (hf : ∀ a x, Safe s₀ a.1 → Safe s₀ (f a x).1) (xs : List α) :
    ∀ {a : State × β}, Safe s₀ a.1 → Safe s₀ (xs.foldl f a).1 := by
  induction xs with
  | nil => exact fun h => h
  | cons x xs ih => exact fun h => ih (hf _ x h)
theorem safe_foldl_snd {α β : Type} {f : β × State → α → β × State} (hf : ∀ a x, Safe s₀ a.2 → Safe s₀ (f a x).2) (xs : List α) :
    ∀ {a : β × State}, Safe s₀ a.2 → Safe s₀ (xs.foldl f a).2 := by
  induction xs with
  | nil => exact fun h => h
  | cons x xs ih => exact fun h => ih (hf _ x h)
theorem safe_foldl_snd3 {α β γ : Type} {f : β × γ × State → α → β × γ × State} (hf : ∀ a x, Safe s₀ a.2.2 → Safe s₀ (f a x).2.2) (xs : List α) :
    ∀ {a : β × γ × State}, Safe s₀ a.2.2 → Safe s₀ (xs.foldl f a).2.2 := by
  induction xs with
  | nil => exact fun h => h
  | cons x xs ih => exact fun h => ih (hf _ x h)
theorem ofSome_foldlM {α : Type} {f : State → α → Option State} (hf : ∀ s x, Safe s₀ s → OfSome (Safe s₀) (f s x)) (xs : List α) :
    ∀ {s : State}, Safe s₀ s → OfSome (Safe s₀) (xs.foldlM f s) := by
  induction xs with
  | nil => exact fun h => h
  | cons x xs ih =>
    intro s h
    rw [List.foldlM_cons]
    exact OfSome.bind fun t e => ih ((hf s x h).elim e)

theorem ofSome_findSome {α β : Type} {p : β → Prop} {f : α → Option β} (hf : ∀ a, OfSome p (f a)) (xs : List α) :
    OfSome p (xs.findSome? f) := by
  induction xs with
  | nil => trivial
  | cons x xs ih =>
    rw [List.findSome?_cons]
    split
    · next e => exact OfSome.leaf ((hf x).elim e)
    · exact ih

/-- The state of a pair that an equation names. -/
theorem Safe.ofSnd {β : Type} {r : β × State} {b : β} {t : State} (h : Safe s₀ r.2) (e : r = (b, t)) : Safe s₀ t := by subst e; exact h
theorem Safe.ofSnd3 {β γ : Type} {r : β × γ × State} {b : β} {c : γ} {t : State} (h : Safe s₀ r.2.2) (e : r = (b, c, t)) : Safe s₀ t := by
  subst e; exact h

end Sys2Proof.Machine
end

section
/-!
Breus operations keep the shape of an invocation (R181, R187): sixteen scalars, eight vectors of 64 lanes, four predicates, a count
within the budget, and no trap while it runs.
-/
namespace Sys2Proof.Machine

theorem shaped_iff {i : Inv} : i.shaped = true ↔ i.s.length = 16 ∧ i.v.length = 8 ∧ (∀ v ∈ i.v, v.length = 64) ∧ i.p.length = 4 ∧
    i.executed ≤ i.place.budget ∧ (i.running = true → i.trap = none) := by
  simp only [Inv.shaped, Bool.and_eq_true, beq_iff_eq, List.all_eq_true, decide_eq_true_eq, Bool.or_eq_true, Bool.not_eq_true',
    Option.isNone_iff_eq_none, and_assoc]
  cases i.running <;> simp

/-- An operation that leaves the registers shaped where it found them so. -/
def KeepsShape (op : BOp) : Prop := ∀ i : Inv, i.shaped = true → OfOk (fun r : Inv × Nat => r.1.shaped = true) (op i)

/-! ## Registers -/

theorem shaped_setS {i : Inv} (h : i.shaped = true) (k : Nat) (x : W32) : (i.setS k x).shaped = true := by
  obtain ⟨hs, hrest⟩ := shaped_iff.1 h
  exact shaped_iff.2 ⟨(List.length_set).trans hs, hrest⟩
theorem shaped_setP {i : Inv} (h : i.shaped = true) (k : Nat) (x : W64) : (i.setP k x).shaped = true := by
  obtain ⟨hs, hv, hl, hp, hrest⟩ := shaped_iff.1 h
  exact shaped_iff.2 ⟨hs, hv, hl, (List.length_set).trans hp, hrest⟩
theorem shaped_setV {i : Inv} (h : i.shaped = true) (k : Nat) {x : List W32} (hx : x.length = 64) : (i.setV k x).shaped = true := by
  obtain ⟨hs, hv, hl, hrest⟩ := shaped_iff.1 h
  refine shaped_iff.2 ⟨hs, (List.length_set).trans hv, fun v hv => ?_, hrest⟩
  rcases List.mem_or_eq_of_mem_set hv with hmem | rfl
  · exact hl v hmem
  · exact hx
/-- A vector register has 64 lanes (R181). -/
theorem length_vAt {i : Inv} (h : i.shaped = true) (k : Fin 8) : (i.vAt k).length = 64 := by
  obtain ⟨-, hv, hl, -⟩ := shaped_iff.1 h
  have hk : k.val < i.v.length := by rw [hv]; exact k.isLt
  rw [Inv.vAt, List.getD_eq_getElem _ _ hk]
  exact hl _ (List.getElem_mem hk)

/-! ## Operations -/

theorem keepsShape_bS {d : Nat} {f : Inv → W32} : KeepsShape (bS d f) := fun _ h => OfOk.leaf (shaped_setS h _ _)
theorem keepsShape_bSS {d a b : Nat} {f : W32 → W32 → W32} : KeepsShape (bSS d a b f) := keepsShape_bS
theorem keepsShape_bLdk {d : Nat} {k : BitVec 14} : KeepsShape (bLdk d k) := keepsShape_bS
theorem keepsShape_bVredadd {d a p : Nat} : KeepsShape (bVredadd d a p) := keepsShape_bS
theorem keepsShape_bVredmax {d a p : Nat} : KeepsShape (bVredmax d a p) := keepsShape_bS
theorem keepsShape_bP {d : Nat} {f : Inv → W64} : KeepsShape (bP d f) := fun _ h => OfOk.leaf (shaped_setP h _ _)
theorem keepsShape_bPcmp {d a b cond : Nat} : KeepsShape (bPcmp d a b cond) := keepsShape_bP
theorem keepsShape_bPrange {d a b : Nat} : KeepsShape (bPrange d a b) := keepsShape_bP
theorem keepsShape_bV {d : Nat} {f : Inv → List W32} (hf : ∀ i : Inv, i.shaped = true → (f i).length = 64) : KeepsShape (bV d f) :=
  fun i h => OfOk.leaf (shaped_setV h _ (hf i h))
theorem keepsShape_bVV {d : Nat} {a b : Fin 8} {f : W32 → W32 → W32} : KeepsShape (bVV d a b f) :=
  keepsShape_bV fun i h => by rw [List.length_zipWith, length_vAt h, length_vAt h, Nat.min_self]
theorem keepsShape_bV1 {d : Nat} {a : Fin 8} {f : W32 → W32} : KeepsShape (bV1 d a f) :=
  keepsShape_bV fun i h => by rw [List.length_map, length_vAt h]
theorem keepsShape_bVsel {d : Nat} {a b : Fin 8} {p : Nat} : KeepsShape (bVsel d a b p) :=
  keepsShape_bV fun i h => by simp only [List.length_map, List.length_zip, length_vAt h, List.length_range, Nat.min_self]
theorem keepsShape_bVbcst {d a : Nat} : KeepsShape (bVbcst d a) := by
  intro i h
  unfold bVbcst
  exact OfOk.ite trivial (OfOk.leaf (shaped_setV h _ List.length_replicate))
theorem keepsShape_bLdkx {d a : Nat} : KeepsShape (bLdkx d a) := by
  intro i h
  unfold bLdkx
  exact OfOk.ite trivial (OfOk.leaf (shaped_setS h _ _))
theorem keepsShape_bNop : KeepsShape bNop := fun _ h => OfOk.leaf h
theorem keepsShape_bTrap {imm : BitVec 14} : KeepsShape (bTrap imm) := fun _ _ => trivial
theorem keepsShape_bBranch {c : Inv → Bool} {offset : BitVec 14} : KeepsShape (bBranch c offset) := fun _ h => OfOk.leaf h
theorem keepsShape_bBody {length count : Nat} : KeepsShape (bBody length count) := by
  intro i h
  unfold bBody
  exact OfOk.ite (OfOk.leaf h) (OfOk.leaf (shaped_iff.2 (shaped_iff.1 h)))
theorem keepsShape_bRep {length : BitVec 8} {count : BitVec 14} : KeepsShape (bRep length count) := keepsShape_bBody
theorem keepsShape_bReps {a : Nat} {length : BitVec 8} : KeepsShape (bReps a length) := by
  intro i h
  unfold bReps
  exact OfOk.ite trivial (keepsShape_bBody i h)

/-! ## Ends and traps -/

/-- An invocation that has stopped may have trapped. -/
theorem shaped_trapped {i : Inv} (h : i.shaped = true) (code imm : Nat) : (i.trapped code imm).shaped = true := by
  obtain ⟨hs, hv, hl, hp, he, -⟩ := shaped_iff.1 h
  exact shaped_iff.2 ⟨hs, hv, hl, hp, he, fun k => absurd k Bool.false_ne_true⟩
theorem shaped_finish {i : Inv} (h : i.shaped = true) : i.finish.shaped = true := by
  unfold Inv.finish
  split
  · exact shaped_trapped h _ _
  · obtain ⟨hs, hv, hl, hp, he, -⟩ := shaped_iff.1 h
    exact shaped_iff.2 ⟨hs, hv, hl, hp, he, fun k => absurd k Bool.false_ne_true⟩
theorem keepsShape_bEnd : KeepsShape bEnd := fun _ h => OfOk.leaf (shaped_finish h)
/-- Where control goes is no matter of the registers. -/
theorem shaped_moved {i : Inv} (h : i.shaped = true) (pc : Nat) (body : Option (Nat × Nat × Nat)) :
    ({ i with pc := pc, body := body } : Inv).shaped = true := shaped_iff.2 (shaped_iff.1 h)
theorem shaped_goTo {i : Inv} (h : i.shaped = true) (pc : Nat) : (i.goTo pc).shaped = true := by
  unfold Inv.goTo
  split
  · split
    · exact shaped_moved h _ _
    · split
      · exact shaped_moved h _ _
      · split
        · exact shaped_finish (shaped_moved h _ _)
        · exact shaped_moved h _ _
  · split
    · exact shaped_finish (shaped_moved h _ _)
    · exact shaped_moved h _ _

/-- One instruction counts against the budget, or traps with it (R187). -/
theorem shaped_issue {i : Inv} {op : BOp} (hop : KeepsShape op) (h : i.shaped = true) : (i.issue op).shaped = true := by
  unfold Inv.issue
  split
  · exact shaped_trapped h _ _
  · next within =>
    obtain ⟨hs, hv, hl, hp, -, hr⟩ := shaped_iff.1 h
    have counted : ({ i with executed := i.executed + 1 } : Inv).shaped = true :=
      shaped_iff.2 ⟨hs, hv, hl, hp, Nat.le_of_not_lt within, hr⟩
    dsimp only
    split
    · exact shaped_trapped counted _ _
    · next j pc e =>
      have hj : j.shaped = true := (hop _ counted).elim e
      split
      · exact shaped_goTo hj pc
      · exact hj

/-- A fresh invocation has every register, all zero (R181). -/
theorem shaped_fresh (p : Place) (slot : Nat) (code consts : List W32) (tag : W64) : (Inv.fresh p slot code consts tag).shaped = true :=
  shaped_iff.2 ⟨rfl, rfl, fun _ hv => by rw [List.eq_of_mem_replicate hv]; rfl, rfl, Nat.zero_le _, fun _ => rfl⟩
theorem shaped_invocation {s : State} (h : s.inv.shaped = true) : s.invocation.shaped = true := by
  unfold State.invocation
  dsimp only
  split
  · exact h
  · split
    · exact shaped_fresh _ _ _ _ _
    · exact shaped_fresh _ _ _ _ _

/-- A change of the invocation that keeps its shape. -/
theorem Safe.setInv {s₀ s : State} {i : Inv} (h : Safe s₀ s) (hi : s.inv.shaped = true → i.shaped = true) : Safe s₀ { s with inv := i } :=
  ⟨h.queue, fun k => ⟨(h.holds k).1, hi (h.holds k).2⟩⟩

end Sys2Proof.Machine
end

section
/-!
Each operation of Machine/Flags.lean keeps the queue and the invariant: W1C flags and their counters.
-/
namespace Sys2Proof.Machine

variable {s₀ : State}

theorem Safe.setFlag {s f} (h : Safe s₀ s) : Safe s₀ (s.setFlag f) := h.lit
theorem Safe.setFlags {s row w} (h : Safe s₀ s) : Safe s₀ (s.setFlags row w) := safe_foldl (fun _ _ h1 => h1.setFlag) _ h
theorem Safe.clearFlags {s row v} (h : Safe s₀ s) : Safe s₀ (s.clearFlags row v) := h.lit
theorem Safe.clearCounts {s row first n} (h : Safe s₀ s) : Safe s₀ (s.clearCounts row first n) := h.lit

end Sys2Proof.Machine
end

section
/-!
Each operation of Machine/Ops.lean keeps the queue and the invariant: operations that every family shares.
-/
namespace Sys2Proof.Machine

variable {s₀ : State}

theorem Safe.free {s} (h : Safe s₀ s) : Safe s₀ { s with freeCount := s.freeCount + 1 } := h.lit
theorem Safe.pick {α : Type} {s n} {t : Table α} (h : Safe s₀ s) : OfSome (fun r => Safe s₀ r.2) (s.pick t n) := by
  unfold State.pick
  split
  rename_i e
  split
  · exact OfSome.leaf (h.free.ofSnd e)
  · exact trivial
theorem Safe.emit {s o} (h : Safe s₀ s) : Safe s₀ (s.emit o) := h.lit
theorem Safe.setLd {s d x} (h : Safe s₀ s) : Safe s₀ (s.setLd d x) := h.lit
theorem Safe.modLd {s d f} (h : Safe s₀ s) : Safe s₀ (s.modLd d f) := h.setLd
theorem Safe.raiseVector {s ld v} (h : Safe s₀ s) : Safe s₀ (s.raiseVector ld v) := safe_ite h.emit h.modLd
theorem Safe.setMbox {s m b} (h : Safe s₀ s) : Safe s₀ (s.setMbox m b) := h.lit
theorem Safe.modMbox {s m f} (h : Safe s₀ s) : Safe s₀ (s.modMbox m f) := h.setMbox
theorem Safe.raiseMboxVector {s m v} (h : Safe s₀ s) : Safe s₀ (s.raiseMboxVector m v) := by
  unfold State.raiseMboxVector
  split
  · exact h.raiseVector
  · exact h
theorem Safe.writeEvent {s m e} (h : Safe s₀ s) : Safe s₀ (s.writeEvent m e) := h.setMbox.raiseMboxVector
theorem Safe.pushEvent {s m e} (h : Safe s₀ s) : Safe s₀ (s.pushEvent m e) :=
  safe_ite h.writeEvent (safe_ite h.lit (safe_ite h.lit (safe_ite h.lit h.lit)))
theorem Safe.drainEvents {s fuel box} (h : Safe s₀ s) : Safe s₀ (State.drainEvents fuel box s) := by
  induction fuel generalizing s box with
  | zero => exact h
  | succ n ih =>
    unfold State.drainEvents
    split
    · exact h
    · split
      · exact ih h.lit.writeEvent
      · split
        · exact ih h.lit.writeEvent
        · exact h
theorem Safe.inBand {s sev} (h : Safe s₀ s) : Safe s₀ (s.inBand sev) := safe_ite h.lit.emit h
theorem Safe.raise {s c towards detail} (h : Safe s₀ s) : Safe s₀ (s.raise c towards detail) :=
  (safe_foldl (fun _ _ h1 => h1.pushEvent) _ h.lit).inBand
theorem Safe.modTenant {s tag f} (h : Safe s₀ s) : Safe s₀ (s.modTenant tag f) := h.lit
theorem Safe.charge {s tag k n} (h : Safe s₀ s) : Safe s₀ (s.charge tag k n) := h.modTenant
theorem Safe.credit {s tag k n} (h : Safe s₀ s) : Safe s₀ (s.credit tag k n) := h.modTenant
theorem Safe.noteLow {s was} (h : Safe s₀ s) : Safe s₀ (s.noteLow was) := safe_ite h.setFlag h
theorem Safe.heal {s p} (h : Safe s₀ s) : Safe s₀ (s.heal p) := h.lit
theorem Safe.zeroSlot {s tier pbn} (h : Safe s₀ s) : Safe s₀ (s.zeroSlot tier pbn) := (h.litMem Mem.wf_clear).heal
theorem Safe.takeSlot {s} (h : Safe s₀ s) : OfSome (fun r => Safe s₀ r.2) s.takeSlot := by
  unfold State.takeSlot
  split
  · rename_i e
    split
    · exact OfSome.none
    · exact OfSome.leaf (h.free.ofSnd e).lit.zeroSlot.noteLow.inSnd
theorem Safe.takeSlots {s count} (h : Safe s₀ s) : OfSome (fun r => Safe s₀ r.2) (State.takeSlots count s) := by
  induction count generalizing s with
  | zero => exact h
  | succ n ih =>
    unfold State.takeSlots
    exact h.takeSlot.bindOf fun _ h1 => (ih h1).bindOf fun _ h2 => OfSome.pure h2.inSnd
theorem Safe.giveSlots {s a} (h : Safe s₀ s) : Safe s₀ (s.giveSlots a) := h.lit
theorem Safe.mapArea {s m tenant a} (h : Safe s₀ s) : OfSome (fun r => Safe s₀ r.2) (s.mapArea m tenant a) := by
  unfold State.mapArea
  split
  · rename_i e
    split
    · exact OfSome.none
    · exact OfSome.leaf (h.free.ofSnd e).lit.inSnd
theorem Safe.dropArea {s a} (h : Safe s₀ s) : Safe s₀ (s.dropArea a) := safe_ite h h.lit.giveSlots
theorem Safe.newRing {s m tag bytes} (h : Safe s₀ s) : OfOk (fun r => Safe s₀ r.2.2) (s.newRing m tag bytes) := by
  unfold State.newRing
  extract_lets n
  refine OfOk.after fun _ => ?_
  split
  · exact OfOk.error
  · rename_i e
    split
    · exact OfOk.error
    · rename_i e1
      exact OfOk.leaf ((h.takeSlots.elim e).mapArea.elim e1).charge.inSnd3
theorem Safe.windowWrite {s ld off bytes} (h : Safe s₀ s) : Safe s₀ (s.windowWrite ld off bytes) := by
  induction bytes generalizing s ld off with
  | nil => exact h
  | cons x xs ih =>
    unfold State.windowWrite
    extract_lets s1
    have hs1 : Safe s₀ s1 := by
      unfold s1
      split
      · exact h.litMem Mem.wf_write
      · exact h
    exact ih hs1
theorem Safe.modCq {s q f} (h : Safe s₀ s) : Safe s₀ (s.modCq q f) := h.lit
theorem Safe.writeCqe {s q c e} (h : Safe s₀ s) : Safe s₀ (s.writeCqe q c e) := (h.litMem Mem.wf_areaWrite).modCq
theorem Safe.postCqe {s q e} (h : Safe s₀ s) : Safe s₀ (s.postCqe q e) := by
  unfold State.postCqe
  split
  · exact h
  · exact safe_ite h.modCq.raise h.writeCqe
theorem Safe.drainCq {s fuel cq} (h : Safe s₀ s) : Safe s₀ (State.drainCq fuel cq s) := by
  induction fuel generalizing s cq with
  | zero => exact h
  | succ n ih =>
    unfold State.drainCq
    split
    · exact h
    · split
      · exact h
      · exact safe_ite h (ih (safe_ite h.writeCqe.modCq.raise h.writeCqe.modCq))
theorem Safe.haltEntry {s entry} (h : Safe s₀ s) : Safe s₀ (s.haltEntry entry) := by
  unfold State.haltEntry
  split
  · exact safe_ite h h.lit.setFlag
  · exact h
theorem Safe.pumpNotices {s} (h : Safe s₀ s) : Safe s₀ s.pumpNotices := by
  unfold State.pumpNotices
  extract_lets step
  have hstep : ∀ a n, Safe s₀ a.1 → Safe s₀ (step a n).1 := by
    intro a n ha
    unfold step
    extract_lets c
    split
    · exact safe_ite_fst ha.lit ha
    · exact ha
  exact (safe_foldl_fst hstep s.work.notices h).lit
theorem Safe.actionFailed {s t e} (h : Safe s₀ s) : Safe s₀ (s.actionFailed t e) := by
  unfold State.actionFailed
  extract_lets base s1 i
  have hs1 : Safe s₀ s1 := by
    unfold s1
    split
    · exact h.lit.pumpNotices
    · exact h
  split
  · split
    · exact safe_ite hs1.haltEntry hs1
    · exact hs1
  · exact hs1
theorem Safe.countJq {s q status} (h : Safe s₀ s) : Safe s₀ (s.countJq q status) := h.lit
theorem Safe.countSq {s c status} (h : Safe s₀ s) : Safe s₀ (s.countSq c status) := h.lit
theorem Safe.doneJq {s q trig e} (h : Safe s₀ s) : Safe s₀ (s.doneJq q trig e) := by
  unfold State.doneJq
  extract_lets cq s1
  split
  · exact safe_ite h.countJq.postCqe h.countJq.postCqe.actionFailed
  · exact h.countJq.postCqe
theorem Safe.doneSq {s c trig shown e} (h : Safe s₀ s) : Safe s₀ (s.doneSq c trig shown e) := by
  unfold State.doneSq
  split
  · exact h
  · extract_lets e1 s1 s2
    have hs2 : Safe s₀ s2 := safe_ite h.countSq.postCqe h.countSq
    split
    · exact safe_ite hs2 hs2.actionFailed
    · exact hs2

end Sys2Proof.Machine
end

section
/-!
Each operation of Machine/CreelOps.lean keeps the queue and the invariant: the creel below the tier engine.
-/
namespace Sys2Proof.Machine

variable {s₀ : State}

theorem Safe.modCreel {s f} (h : Safe s₀ s) : Safe s₀ (s.modCreel f) := h.lit
theorem Safe.resize {s} (h : Safe s₀ s) : Safe s₀ s.resize := safe_ite h.modCreel h
theorem Safe.takeCreel {s} (h : Safe s₀ s) : OfSome (fun r => Safe s₀ r.2) s.takeCreel := by
  unfold State.takeCreel
  extract_lets base base1 use inFilling
  clear_value inFilling
  split
  · exact OfSome.leaf h.lit.resize.inSnd
  · split
    · exact OfSome.leaf h.lit.resize.inSnd
    · exact OfSome.after fun _ => OfSome.after fun _ => OfSome.pure h.lit.resize.inSnd
theorem Safe.reclaim {s} (h : Safe s₀ s) : Safe s₀ s.reclaim := by
  unfold State.reclaim
  exact h.modCreel
theorem Safe.giveCreel {s pbn} (h : Safe s₀ s) : Safe s₀ (s.giveCreel pbn) := h.lit.modCreel.reclaim.resize
theorem Safe.checkReadOnly {s} (h : Safe s₀ s) : Safe s₀ s.checkReadOnly := safe_ite h.modCreel.raise h
theorem Safe.leaveReadOnly {s} (h : Safe s₀ s) : Safe s₀ s.leaveReadOnly := safe_ite h.modCreel h
theorem Safe.useBlock {s b u} (h : Safe s₀ s) : Safe s₀ (s.useBlock b u) := h.modCreel.checkReadOnly
theorem Safe.takeBlock {s u} (h : Safe s₀ s) : OfSome (fun r => Safe s₀ r.2) (s.takeBlock u) :=
  OfSome.ite OfSome.none (OfSome.map fun _ _ => h.free.useBlock.inSnd)
theorem Safe.openUnit {s} (h : Safe s₀ s) : OfSome (fun r => Safe s₀ r.2) s.openUnit := by
  unfold State.openUnit
  extract_lets c
  split
  · split
    · exact OfSome.leaf h.inSnd
    · exact h.takeBlock.bindOf fun _ h1 => OfSome.pure h1.modCreel.inSnd
  · split
    · exact OfSome.leaf h.inSnd
    · exact OfSome.ite OfSome.none (h.takeBlock.bindOf fun _ h1 => OfSome.pure h1.modCreel.inSnd)
theorem Safe.programPage {s page} (h : Safe s₀ s) : OfSome (Safe s₀) (s.programPage page) :=
  h.openUnit.bindOf fun _ h1 => OfSome.pure h1.modCreel
theorem Safe.programBobbin {s pbn} (h : Safe s₀ s) : OfSome (Safe s₀) (s.programBobbin pbn) :=
  OfSome.ite OfSome.none ((ofSome_foldlM (fun _ _ h1 => h1.programPage) _ h).bindOf fun _ h2 => OfSome.pure h2.modCreel)
theorem Safe.openRecord {s least} (h : Safe s₀ s) : OfSome (fun r => Safe s₀ r.2) (s.openRecord least) := by
  unfold State.openRecord
  split
  · exact OfSome.leaf h.inSnd
  · exact OfSome.ite OfSome.none (h.takeBlock.bindOf fun _ h1 => OfSome.pure h1.modCreel.inSnd)
theorem Safe.programRecord {s kind n least} (h : Safe s₀ s) : Safe s₀ (s.programRecord kind n least).2 := by
  unfold State.programRecord
  refine safe_foldl_snd (fun _ _ h1 => ?_) _ h.inSnd
  split
  · rename_i e
    exact (h1.openRecord.elim e).modCreel.inSnd
  · exact h1
theorem Safe.retireBlock {s b cause} (h : Safe s₀ s) : Safe s₀ (s.retireBlock b cause) := h.modCreel.raise.checkReadOnly
theorem Safe.writeSystem {s a bytes} (h : Safe s₀ s) : Safe s₀ (s.writeSystem a bytes) := h.modCreel
theorem Safe.writeTenants {s} (h : Safe s₀ s) : Safe s₀ s.writeTenants := h.writeSystem
theorem Safe.writeRepair {s} (h : Safe s₀ s) : Safe s₀ s.writeRepair := h.writeSystem
theorem Safe.writeKeyStore {s} (h : Safe s₀ s) : Safe s₀ s.writeKeyStore := h.writeSystem.lit
theorem Safe.writeLmsIndex {s next} (h : Safe s₀ s) : Safe s₀ (s.writeLmsIndex next) := h.writeSystem
theorem Safe.replaceSystem {s b cause} (h : Safe s₀ s) : Safe s₀ (s.replaceSystem b cause) := by
  unfold State.replaceSystem
  extract_lets c taken
  split
  · exact h.modCreel.raise
  · exact h
theorem Safe.tombstone {s idx tag} (h : Safe s₀ s) : Safe s₀ (s.tombstone idx tag) := by
  unfold State.tombstone
  extract_lets n
  split
  · split
    · rename_i e
      exact (h.programRecord.ofSnd e).modCreel.reclaim.credit
  · exact h
theorem Safe.writeRecord {s idx k} (h : Safe s₀ s) : Safe s₀ (s.writeRecord idx k) := by
  have written : Safe s₀ (s.programRecord .skein (flashPages (recordBytes k.leaves.length)) 0).2 := h.programRecord
  rw [State.writeRecord]
  generalize s.programRecord .skein (flashPages (recordBytes k.leaves.length)) 0 = r at written ⊢
  generalize recordBobbinsFor k.leaves.length = n
  obtain ⟨places, s1⟩ := r
  exact written.modCreel.credit.charge
theorem Safe.programReel {s idx first last} (h : Safe s₀ s) : Safe s₀ (s.programReel idx first last) := by
  unfold State.programReel
  exact h.programRecord.modCreel
theorem Safe.persistReel {s idx k} (h : Safe s₀ s) : Safe s₀ (s.persistReel idx k).1 :=
  safe_ite_fst h.inFst (safe_ite h.charge h.credit).programReel.modCreel.inFst

end Sys2Proof.Machine
end

section
/-!
Each operation of Machine/Triggers.lean keeps the queue and the invariant: objects that a tenant names.
-/
namespace Sys2Proof.Machine

variable {s₀ : State}

theorem Safe.modWork {s f} (h : Safe s₀ s) : Safe s₀ (s.modWork f) := h.lit
theorem Safe.modFlyer {s f} (h : Safe s₀ s) : Safe s₀ (s.modFlyer f) := h.lit
theorem Safe.checkTag {s tag unit addr} (h : Safe s₀ s) : Safe s₀ (s.checkTag tag unit addr) := safe_ite h h.raise
theorem Safe.bufWrite {s r off bs} (h : Safe s₀ s) : Safe s₀ (s.bufWrite r off bs) :=
  safe_ite h.checkTag (h.litMem Mem.wf_areaWrite).heal
theorem Safe.postEntry {s i l b len} (h : Safe s₀ s) : OfOk (fun r => Safe s₀ r.2) (s.postEntry i l b len) := by
  unfold State.postEntry
  refine OfOk.after fun _ => OfOk.after fun _ => OfOk.after fun _ => OfOk.after fun _ => ?_
  split
  · exact OfOk.error
  · exact OfOk.pure h.modWork.inSnd
theorem Safe.postRing {fuel i s} (h : Safe s₀ s) : Safe s₀ (State.postRing fuel i s) := by
  induction fuel generalizing s with
  | zero => exact h
  | succ n ih =>
    unfold State.postRing
    split
    · exact h
    · extract_lets k phase
      split
      next entry st s1 e =>
      have hs1 : Safe s₀ s1 := by
        refine Safe.ofSnd3 ?_ e
        split
        · next posted =>
          split at posted
          · cases posted
          · exact h.postEntry.elim posted
        · exact h
      exact ih (safe_ite (hs1.litMem Mem.wf_areaWrite).modWork (hs1.litMem Mem.wf_areaWrite).modWork.raise)
theorem Safe.endList {s i} (h : Safe s₀ s) : Safe s₀ (s.endList i) := by
  unfold State.endList
  split
  · exact safe_ite h.giveSlots.credit.modWork h
  · exact h
theorem Safe.releaseStaging {s list space firing} (h : Safe s₀ s) : Safe s₀ (s.releaseStaging list space firing) :=
  safe_ite h h.modWork.endList
theorem Safe.releaseQuery {s q} (h : Safe s₀ s) : Safe s₀ (s.releaseQuery q) := by
  unfold State.releaseQuery
  split
  · exact h.releaseStaging
  · exact h
theorem Safe.refuseAction {s action target trig st} (h : Safe s₀ s) : Safe s₀ (s.refuseAction action target trig st) := by
  unfold State.refuseAction
  extract_lets ty e
  split
  · split
    · exact safe_ite h.doneSq h
    · exact h
  · exact safe_ite h.doneJq h
theorem Safe.freeEntry {s x e} (h : Safe s₀ s) : Safe s₀ (s.freeEntry x e) := h.modWork
theorem Safe.forgetJq {s q} (h : Safe s₀ s) : Safe s₀ (s.forgetJq q) := by
  unfold State.forgetJq
  exact h.modWork
theorem Safe.dropCq {s i} (h : Safe s₀ s) : Safe s₀ (s.dropCq i) := h.modWork
theorem Safe.removeEntry {s x st} (h : Safe s₀ s) : Safe s₀ (s.removeEntry x st) := by
  unfold State.removeEntry
  split
  · exact h
  · exact safe_foldl (fun _ _ h2 => (safe_ite h2 h2.refuseAction).releaseQuery) _ (safe_foldl (fun _ _ h1 =>
        safe_ite h1 h1.refuseAction) _ h.freeEntry).modWork
theorem Safe.removeSkeinEntries {s h' st} (h : Safe s₀ s) : Safe s₀ (s.removeSkeinEntries h' st) :=
  safe_foldl (fun _ _ h1 => h1.removeEntry) _ h
theorem Safe.destroyList {s i} (h : Safe s₀ s) : Safe s₀ (s.destroyList i) := by
  unfold State.destroyList
  extract_lets s1
  have hs1 : Safe s₀ s1 := safe_foldl (fun _ _ h1 => h1.removeEntry) _ h
  split
  · exact hs1
  · exact hs1.dropArea.giveSlots.credit.modWork.endList
theorem Safe.deliver {s action target q t} (h : Safe s₀ s) : Safe s₀ (s.deliver action target q t) := safe_ite h.modFlyer h.modWork
theorem Safe.fire {s tag x e q space} (h : Safe s₀ s) : Safe s₀ (s.fire tag x e q space).2.2 := by
  unfold State.fire
  extract_lets h1 acts lc future holds uses full noHold firing ctx t firings
  split
  · exact h.haltEntry.inSnd3
  · split
    · exact h.haltEntry.inSnd3
    · extract_lets noStaging s1 s2 s3 s4 s5
      have hs1 : Safe s₀ s1 := safe_ite h.setFlag h
      have hs3 : Safe s₀ s3 := by
        unfold s3
        refine safe_foldl (fun _ _ h1 => ?_) _ h.modWork
        extract_lets b ctx1
        clear_value lc
        split
        · exact safe_ite h1.modWork h1.deliver
        · exact h1.deliver
      have hs5 : Safe s₀ s5 := safe_ite (safe_ite hs3.freeEntry.raise hs3.freeEntry) hs3
      exact safe_ite_snd3 (safe_ite hs1.setFlag hs1).inSnd3 hs5.inSnd3
theorem Safe.offer {s tag q space} (h : Safe s₀ s) : Safe s₀ (s.offer tag q space).2.2 := by
  unfold State.offer
  split
  · exact h.fire
  · split
    · exact h.inSnd3
    · exact h.setFlag.inSnd3

end Sys2Proof.Machine
end

section
/-!
Each operation of Machine/Skeins.lean keeps the queue and the invariant: skeins.
-/
namespace Sys2Proof.Machine

variable {s₀ : State}

theorem Safe.modStore {s f} (h : Safe s₀ s) : Safe s₀ (s.modStore f) := h.lit
theorem Safe.setSkein {s idx k} (h : Safe s₀ s) : Safe s₀ (s.setSkein idx k) := h.lit
theorem Safe.modSkein {s idx f} (h : Safe s₀ s) : Safe s₀ (s.modSkein idx f) := h.lit
theorem Safe.leaveSlot {s tier pbn owner} (h : Safe s₀ s) : Safe s₀ (s.leaveSlot tier pbn owner) :=
  safe_ite h (safe_ite h.giveCreel.modStore h.modStore)
theorem Safe.freePending {s tier pbn} (h : Safe s₀ s) : Safe s₀ (s.freePending tier pbn) := by
  unfold State.freePending
  split
  · exact h
  · exact safe_ite (safe_ite h.modStore.giveSlots h.modStore) h
theorem Safe.chargeTier {s tag tier} (h : Safe s₀ s) : Safe s₀ (s.chargeTier tag tier) := h.charge
theorem Safe.creditTier {s tag tier} (h : Safe s₀ s) : Safe s₀ (s.creditTier tag tier) := safe_ite h h.credit
theorem Safe.raiseDamaged {s k key l} (h : Safe s₀ s) : Safe s₀ (s.raiseDamaged k key l) := by
  unfold State.raiseDamaged
  exact h.raise
theorem Safe.damageRuns {s tier pbn} (h : Safe s₀ s) : Safe s₀ (s.damageRuns tier pbn) :=
  safe_foldl (fun _ _ h1 => safe_ite h1 h1.lit.lit.credit.raise) _ h
theorem Safe.damage {s idx key} (h : Safe s₀ s) : Safe s₀ (s.damage idx key) := by
  unfold State.damage
  split
  · exact h
  · split
    · exact h
    · exact safe_ite h (safe_ite h.setSkein.raiseDamaged.damageRuns h.setSkein.raiseDamaged).modStore
theorem Safe.raiseLost {s k keys} (h : Safe s₀ s) : Safe s₀ (s.raiseLost k keys) := by
  unfold State.raiseLost
  split
  · exact h
  · exact h.raise
theorem Safe.takeSram {s} (h : Safe s₀ s) : OfSome (fun r => Safe s₀ r.2) s.takeSram := by
  unfold State.takeSram
  extract_lets base base
  split
  · exact OfSome.leaf (h.litMem Mem.wf_clear).inSnd
  · exact OfSome.none
theorem Safe.takeSlotNear {s group} (h : Safe s₀ s) : OfSome (fun r => Safe s₀ r.2) (s.takeSlotNear group) := by
  unfold State.takeSlotNear
  extract_lets each
  split
  · rename_i e
    extract_lets tries base
    split
    · exact OfSome.leaf (h.free.ofSnd e).lit.zeroSlot.noteLow.inSnd
    · exact h.takeSlot
theorem Safe.takeTier {s tier l} (h : Safe s₀ s) : OfSome (fun r => Safe s₀ r.2) (s.takeTier tier l) :=
  OfSome.ite h.takeSram (OfSome.ite (OfSome.ite h.takeSlotNear h.takeSlot) h.takeCreel)
theorem Safe.startMove {s idx key dstTier newFormat why} (h : Safe s₀ s) : OfSome (Safe s₀) (s.startMove idx key dstTier newFormat why) :=
  OfSome.after fun _ => OfSome.after fun _ => h.takeTier.bindOf fun _ h1 => OfSome.pure (safe_ite h1 h1.chargeTier).setSkein.modStore
theorem Safe.commitEntry {s id mv} (h : Safe s₀ s) : Safe s₀ (s.commitEntry id mv) := by
  unfold State.commitEntry
  split
  · exact h
  · split
    · exact h
    · exact safe_ite (h.litMem wf_copyBobbin).setSkein.modStore.leaveSlot (h.litMem wf_copyBobbin).setSkein.modStore.leaveSlot.creditTier
theorem Safe.abandonEntry {s id mv} (h : Safe s₀ s) : Safe s₀ (s.abandonEntry id mv) := by
  unfold State.abandonEntry
  extract_lets s1 tag s2 s3
  have hs3 : Safe s₀ s3 := safe_ite h.modStore.modSkein.giveSlots (safe_ite h.modStore.modSkein.giveCreel h.modStore.modSkein.modStore)
  exact safe_ite hs3 hs3.creditTier
theorem Safe.demote {s idx key} (h : Safe s₀ s) : Safe s₀ (s.demote idx key) := by
  unfold State.demote
  split
  · exact h
  · split
    · exact h
    · split
      · exact h
      · extract_lets s1 k1 s2 s3
        have hs1 : Safe s₀ s1 := safe_foldl (fun _ _ h1 => h1.abandonEntry) _ h
        exact safe_ite hs1.setSkein.modStore hs1.setSkein.modStore.leaveSlot.creditTier
theorem Safe.losePages {s idx k keys} (h : Safe s₀ s) : Safe s₀ (s.losePages idx k keys) := by
  unfold State.losePages
  extract_lets lost s1
  have hs1 : Safe s₀ s1 := by
    unfold s1
    refine safe_foldl (fun _ _ h1 => ?_) _ h
    extract_lets s2
    split
    · exact safe_ite h1.modSkein.damageRuns h1.modSkein
    · exact h1.modSkein
  exact safe_foldl (fun _ _ h1 => h1.demote) _ hs1.raiseLost
theorem Safe.trimReel {s k} (h : Safe s₀ s) : Safe s₀ (s.trimReel k).1 := by
  unfold State.trimReel
  split
  · exact h.inFst
  · exact h.giveSlots.credit.inFst
theorem Safe.persistTail {s idx} (h : Safe s₀ s) : Safe s₀ (s.persistTail idx) := by
  unfold State.persistTail
  split
  · exact h
  · exact h.persistReel.trimReel.setSkein
theorem Safe.shedTails {s fuel} (h : Safe s₀ s) : Safe s₀ (State.shedTails fuel s) := by
  induction fuel generalizing s with
  | zero => exact h
  | succ n ih =>
    unfold State.shedTails
    split
    · exact h
    · extract_lets big
      clear_value big
      split
      · exact safe_ite h (ih h.persistTail)
      · exact h
theorem Safe.checkTails {s} (h : Safe s₀ s) : Safe s₀ s.checkTails := safe_ite h.shedTails h
theorem Safe.shedFor {s k grown} (h : Safe s₀ s) : Safe s₀ (s.shedFor k grown) := safe_ite h.shedTails h
theorem Safe.dropCache {s h'} (h : Safe s₀ s) : Safe s₀ (s.dropCache h') := h.lit
theorem Safe.releaseBobbins {s idx k} (h : Safe s₀ s) : Safe s₀ (s.releaseBobbins idx k) :=
  safe_foldl (fun _ _ h1 => safe_ite h1 h1.leaveSlot.creditTier) _ h
theorem Safe.destroySkein {s idx} (h : Safe s₀ s) : Safe s₀ (s.destroySkein idx) := by
  unfold State.destroySkein
  split
  · exact h
  · exact (safe_foldl (fun _ _ h1 => h1.abandonEntry) _ h).tombstone.releaseBobbins.dropCache.removeSkeinEntries.modStore.setSkein
theorem Safe.endRetirement {s idx} (h : Safe s₀ s) : Safe s₀ (s.endRetirement idx) := by
  unfold State.endRetirement
  split
  · exact h
  · exact h.giveSlots.credit.credit.credit.modCreel.reclaim.modStore
theorem Safe.expireLease {s idx} (h : Safe s₀ s) : Safe s₀ (s.expireLease idx) := by
  unfold State.expireLease
  split
  · exact h
  · exact safe_ite h.setSkein.raise h
theorem Safe.swapLease {s idx cmp swp} (h : Safe s₀ s) : OfSome (fun r => Safe s₀ r.2.2) (s.swapLease idx cmp swp) := by
  unfold State.swapLease
  split
  · exact OfSome.none
  · extract_lets s1
    split
    · exact OfSome.none
    · exact OfSome.ite (OfSome.leaf h.expireLease.inSnd3) (OfSome.ite (OfSome.leaf h.expireLease.setSkein.inSnd3)
          (OfSome.leaf h.expireLease.setSkein.inSnd3))

end Sys2Proof.Machine
end

section
/-!
Each operation of Machine/Mailbox.lean keeps the queue and the invariant: the mailbox protocol.
-/
namespace Sys2Proof.Machine

variable {s₀ : State}

theorem Safe.output {s x bs} (h : Safe s₀ s) : Safe s₀ (Ctx.output x s bs) := h.windowWrite
theorem Safe.writeResponse {s c st detail retry result} (h : Safe s₀ s) : Safe s₀ (s.writeResponse c st detail retry result) :=
  safe_ite (h.litMem Mem.wf_areaWrite).setMbox (h.litMem Mem.wf_areaWrite).setMbox.raiseMboxVector
theorem Safe.disableBox {s m} (h : Safe s₀ s) : Safe s₀ (s.disableBox m) := h.dropArea.dropArea.credit.setMbox
theorem Safe.completeCmd {s fuel cmd status detail retry result} (h : Safe s₀ s) : Safe s₀ (State.completeCmd fuel s cmd status detail retry result) := by
  induction fuel generalizing s cmd status detail retry result with
  | zero => exact h
  | succ n ih =>
    unfold State.completeCmd
    extract_lets s1 base s2 b s3
    split
    · split
      · exact h.writeResponse.lit.disableBox
      · split
        · exact ih h.writeResponse.lit.disableBox
        · exact h.writeResponse.lit.disableBox
    · exact h.writeResponse.lit
theorem Safe.answer {s w st result slots} (h : Safe s₀ s) : Safe s₀ (s.answer w st result slots) := by
  unfold State.answer
  split
  · exact h.completeCmd
  · exact h
theorem Safe.answerAll {s ws st result slots} (h : Safe s₀ s) : Safe s₀ (s.answerAll ws st result slots) :=
  safe_foldl (fun _ _ h1 => h1.answer) _ h
theorem Safe.fetch {s fuel} (h : Safe s₀ s) : Safe s₀ (State.fetch fuel s) := by
  induction fuel generalizing s with
  | zero => exact h
  | succ n ih =>
    unfold State.fetch
    split
    · exact h
    · split
      · exact h
      · extract_lets b c s1 base s2 c1
        split
        · exact ih h.setMbox.lit.lit.completeCmd
        · split
          · exact ih h.setMbox.lit.completeCmd
          · exact ih h.setMbox.lit
theorem Safe.fetchAll {s} (h : Safe s₀ s) : Safe s₀ s.fetchAll := h.fetch
theorem Safe.commitCmd {s c} (h : Safe s₀ s) : Safe s₀ (s.commitCmd c) := h.lit
theorem OfOk.gateByState {s op r} (hr : OfOk (OfOut (Safe s₀)) r) : OfOk (OfOut (Safe s₀)) (State.gateByState s op r) := by
  unfold State.gateByState
  split
  · exact hr
  · split
    · exact OfOk.ite trivial trivial
    · exact trivial

theorem Safe.runCmd {s c body} (h : Safe s₀ s) (hb : ∀ x s, Safe s₀ s → OfOk (OfOut (Safe s₀)) (body x s)) :
    Safe s₀ (s.runCmd c body) := by
  unfold State.runCmd
  extract_lets r
  have hr : OfOk (OfOut (Safe s₀)) r := OfOk.after fun _ => OfOk.after fun _ => OfOk.after fun _ => (hb _ s h).gateByState
  clear_value r
  split
  · exact h.completeCmd
  · exact Safe.completeCmd (show Safe s₀ _ from hr)
  · exact Safe.completeCmd (show Safe s₀ _ from hr)
  · exact Safe.commitCmd (show Safe s₀ _ from hr)
  · exact hr
theorem Safe.cmdRow {s op body m slot} (h : Safe s₀ s) (hb : ∀ x s, Safe s₀ s → OfOk (OfOut (Safe s₀)) (body x s)) :
    OfNext (Safe s₀) (cmdRow op body m slot s) := by
  unfold Machine.cmdRow
  split
  · exact trivial
  · split
    · exact OfNext.leaf h
    · exact OfNext.ite (OfNext.leaf (h.runCmd hb).fetchAll) (OfNext.leaf h)

end Sys2Proof.Machine
end

section
/-!
Each operation of Machine/JobQueues.lean keeps the queue and the invariant: job queues.
-/
namespace Sys2Proof.Machine

variable {s₀ : State}

theorem Safe.modJq {s q f} (h : Safe s₀ s) : Safe s₀ (s.modJq q f) := h.modWork
theorem Safe.completeEntry {s q e b st retry} (h : Safe s₀ s) : Safe s₀ (s.completeEntry q e b st retry) := h.doneJq.releaseQuery
theorem Safe.dropHolder {s j} (h : Safe s₀ s) : Safe s₀ (s.dropHolder j) := h.lit
theorem Safe.endQueue {s q} (h : Safe s₀ s) : Safe s₀ (s.endQueue q).2 := by
  unfold State.endQueue
  split
  · exact safe_ite_snd (safe_ite h.modJq h.modWork).inSnd h.inSnd
  · exact h.inSnd
theorem Safe.answerQueue {s q} (h : Safe s₀ s) : Safe s₀ (s.answerQueue q) := by
  unfold State.answerQueue
  split
  · rename_i e
    exact (h.endQueue.ofSnd e).answer
  · rename_i e
    exact h.endQueue.ofSnd e
theorem Safe.restSpindles {s} (h : Safe s₀ s) : Safe s₀ s.restSpindles := h.lit
theorem Safe.storePly {s j} (h : Safe s₀ s) : Safe s₀ (s.storePly j) := by
  unfold State.storePly
  exact h.modWork
theorem Safe.dropJob {s id j} (h : Safe s₀ s) : Safe s₀ (s.dropJob id j) := by
  unfold State.dropJob
  extract_lets s1 s2
  split
  · exact h.modWork.restSpindles.dropHolder.releaseStaging
  · exact h.modWork.restSpindles.dropHolder
theorem Safe.endJob {s id j st retry bytes} (h : Safe s₀ s) : Safe s₀ (s.endJob id j st retry bytes) :=
  (safe_ite h.storePly h).dropJob.doneJq.answerQueue
theorem Safe.endWaitJq {s q w st cancel} (h : Safe s₀ s) : Safe s₀ (s.endWaitJq q w st cancel) := h.modJq.doneJq
theorem Safe.purgeQueue {s q p st} (h : Safe s₀ s) : Safe s₀ (s.purgeQueue q p st).2 := by
  unfold State.purgeQueue
  split
  · exact h.inSnd
  · exact (safe_foldl (fun _ _ h1 => h1.completeEntry) _ h.modJq).inSnd
theorem Safe.dropPly {s id} (h : Safe s₀ s) : Safe s₀ (s.dropPly id) := h.lit
theorem Safe.cancelIn {s q p waitTag admitted st} (h : Safe s₀ s) : Safe s₀ (s.cancelIn q p waitTag admitted st).2 := by
  unfold State.cancelIn
  split
  · rename_i e
    extract_lets js s2
    have hs2 : Safe s₀ s2 := safe_foldl (fun _ _ h1 => (safe_ite h1.dropPly h1).endJob) _ (h.purgeQueue.ofSnd e)
    split
    · split
      · exact safe_ite_snd hs2.endWaitJq.inSnd hs2.inSnd
      · exact hs2.inSnd
    · exact hs2.inSnd
theorem Safe.cancelSkeinJobs {s h' st} (h : Safe s₀ s) : Safe s₀ (s.cancelSkeinJobs h' st) :=
  safe_foldl (fun _ _ h2 => h2.endJob) _ (safe_foldl (fun _ _ h1 => h1.cancelIn) _ h)
theorem Safe.releaseCombine {s id st} (h : Safe s₀ s) : Safe s₀ (s.releaseCombine id st) := by
  unfold State.releaseCombine
  split
  · exact h
  · exact h.giveSlots.credit.modWork.doneJq
theorem Safe.unreadEntry {s q} (h : Safe s₀ s) : Safe s₀ (s.unreadEntry q) := by
  unfold State.unreadEntry
  exact h.free.free.doneJq
theorem Safe.headRow {s mine n f} (h : Safe s₀ s) (hf : ∀ j e b s, Safe s₀ s → Safe s₀ (f j e b s)) :
    OfNext (Safe s₀) (headRow mine n s f) := by
  unfold Machine.headRow
  split
  · exact OfNext.leaf h
  · split
    · exact OfNext.leaf h
    · split
      · exact OfNext.leaf h
      · extract_lets b s1
        have taken : Safe s₀ s1 := h.modWork.modJq
        exact OfNext.ite (OfNext.leaf taken.unreadEntry)
          (OfNext.ite (OfNext.leaf h) (OfNext.ite (OfNext.leaf taken.completeEntry) (OfNext.leaf (hf _ _ _ _ taken))))

end Sys2Proof.Machine
end

section
/-!
Each operation of Machine/Scheduler.lean keeps the queue and the invariant: the transmit scheduler of a port.
-/
namespace Sys2Proof.Machine

variable {s₀ : State}

theorem Safe.setPort {s p x} (h : Safe s₀ s) : Safe s₀ (s.setPort p x) := h.modFlyer
theorem Safe.modPort {s p f} (h : Safe s₀ s) : Safe s₀ (s.modPort p f) := h.setPort
theorem Safe.startFrame {s p f x} (h : Safe s₀ s) : Safe s₀ (s.startFrame p f x) := by
  unfold State.startFrame
  split
  · exact h.setPort
  · exact h.setPort.modFlyer.emit
theorem Safe.kick {s p} (h : Safe s₀ s) : Safe s₀ (s.kick p) := by
  unfold State.kick
  extract_lets x s1 x1
  have hs1 : Safe s₀ s1 := safe_ite h.setFlag h
  split
  · exact hs1
  · split
    · exact hs1.setPort
    · exact hs1.startFrame
theorem Safe.kickAll {s} (h : Safe s₀ s) : Safe s₀ s.kickAll := safe_foldl (fun _ _ h1 => h1.kick) _ h

end Sys2Proof.Machine
end

section
/-!
Each operation of Machine/Sketch.lean keeps the queue and the invariant: sketch records.
-/
namespace Sys2Proof.Machine

variable {s₀ : State}

theorem Safe.moveSketch {s idx key srcTier recoded} (h : Safe s₀ s) : Safe s₀ (s.moveSketch idx key srcTier recoded) := by
  unfold State.moveSketch
  split
  · exact h
  · split
    · exact h
    · exact safe_ite h (safe_ite h.setSkein (safe_ite h h.setSkein))
theorem Safe.queueSketch {s idx key slot} (h : Safe s₀ s) : Safe s₀ (s.queueSketch idx key slot) := by
  unfold State.queueSketch
  split
  · exact h
  · split
    · exact h
    · extract_lets addr
      split
      · exact h
      · split
        · exact h.modStore
        · exact h
theorem Safe.queueSketches {s a} (h : Safe s₀ s) : Safe s₀ (s.queueSketches a) := by
  unfold State.queueSketches
  split
  · exact h
  · exact safe_ite h (safe_foldl (fun _ _ h1 => h1.queueSketch) _ h)
theorem Safe.dropAppends {s c} (h : Safe s₀ s) : Safe s₀ (s.dropAppends c) := by
  unfold State.dropAppends
  exact (safe_foldl (fun _ _ h1 => h1.queueSketches) _ h).modStore

end Sys2Proof.Machine
end

section
/-!
Each operation of Machine/Transport.lean keeps the queue and the invariant: transport shared by every message.
-/
namespace Sys2Proof.Machine

variable {s₀ : State}

theorem Safe.modConn {s c f} (h : Safe s₀ s) : Safe s₀ (s.modConn c f) := h.modFlyer
theorem Safe.queueFrame {s port f} (h : Safe s₀ s) : Safe s₀ (s.queueFrame port f) := h.modPort
theorem Safe.queuePackets {s c k order cls unshaped h' payload} (h : Safe s₀ s) :
    Safe s₀ (s.queuePackets c k order cls unshaped h' payload) := by
  unfold State.queuePackets
  split
  · exact h
  · exact safe_foldl (fun _ _ h1 => h1.queueFrame) _ h
theorem Safe.sendPackets {s c h' payload} (h : Safe s₀ s) : Safe s₀ (s.sendPackets c h' payload).2 := by
  unfold State.sendPackets
  split
  · exact h.inSnd
  · exact h.queuePackets.modConn.kickAll.inSnd
theorem Safe.sendCtl {s c h' payload} (h : Safe s₀ s) : Safe s₀ (s.sendCtl c h' payload) := by
  unfold State.sendCtl
  split
  · exact h
  · exact h.queuePackets.kickAll
theorem Safe.sendAck {s c} (h : Safe s₀ s) : Safe s₀ (s.sendAck c) := by
  unfold State.sendAck
  split
  · exact h
  · exact h.modConn.sendCtl
theorem Safe.sendNak {s c seq st retry} (h : Safe s₀ s) : Safe s₀ (s.sendNak c seq st retry) := h.sendCtl
theorem Safe.endSend {s c src trig onDone shown e} (h : Safe s₀ s) : Safe s₀ (s.endSend c src trig onDone shown e) := by
  unfold State.endSend
  split
  · exact h.doneSq
  · extract_lets s1
    split
    · exact h.countSq.endJob
    · exact h.countSq
  · extract_lets s1
    split
    · exact h.countSq.doneJq.answerQueue
    · exact h.countSq
  · exact h.countSq
theorem Safe.endMsg {s c m st retry} (h : Safe s₀ s) : Safe s₀ (s.endMsg c m st retry) := h.endSend
theorem Safe.unreadWr {s c e} (h : Safe s₀ s) : Safe s₀ (s.unreadWr c e) := h.free.endSend
theorem Safe.endUnsent {s c k e st} (h : Safe s₀ s) : Safe s₀ (s.endUnsent c k e st) := h.endSend
theorem Safe.endWaitSq {s c w st cancel} (h : Safe s₀ s) : Safe s₀ (s.endWaitSq c w st cancel) := h.modConn.doneSq
theorem Safe.sourceGone {s kind source} (h : Safe s₀ s) : Safe s₀ (s.sourceGone kind source) := by
  unfold State.sourceGone
  extract_lets on s1
  have hs1 : Safe s₀ s1 := by
    unfold s1
    refine safe_foldl (fun _ _ h1 => ?_) _ h
    split
    · exact h1.endWaitJq
    · exact h1
  refine safe_foldl (fun _ _ h1 => ?_) _ hs1
  split
  · exact h1.endWaitSq
  · exact h1
theorem Safe.dropFrames {s c} (h : Safe s₀ s) : Safe s₀ (s.dropFrames c) := safe_foldl (fun _ _ h1 => h1.modPort) _ h
theorem Safe.dropReasm {s c} (h : Safe s₀ s) : Safe s₀ (s.dropReasm c) := h.dropAppends.modFlyer
theorem Safe.freeConn {s c} (h : Safe s₀ s) : Safe s₀ (s.freeConn c) := by
  unfold State.freeConn
  split
  · exact h
  · exact h.dropFrames.dropReasm.dropArea.giveSlots.credit.credit.modFlyer.sourceGone
theorem Safe.settle {s c} (h : Safe s₀ s) : Safe s₀ (s.settle c) := by
  unfold State.settle
  split
  · exact h
  · split
    · exact h
    · split
      · exact h.freeConn.answer
      · exact safe_ite h.modConn.answerAll h
theorem Safe.connError {s c st cause} (h : Safe s₀ s) : Safe s₀ (s.connError c st cause) := by
  unfold State.connError
  split
  · exact h
  · split
    · exact h
    · extract_lets s1 s2 s3 s4 s5
      have hs3 : Safe s₀ s3 := safe_foldl (fun _ _ h1 => h1.endMsg) _ h.modConn.dropFrames.dropReasm
      have hs4 : Safe s₀ s4 := by
        unfold s4
        split
        · exact hs3.endWaitSq
        · exact hs3
      have hs5 : Safe s₀ s5 := safe_foldl (fun _ _ h1 => h1.endUnsent) _ hs4
      exact hs5.answerAll.settle
theorem Safe.retransmit {s c m} (h : Safe s₀ s) : Safe s₀ (s.retransmit c m) := by
  unfold State.retransmit
  split
  · exact h
  · exact safe_ite h.connError h.modConn.queuePackets.kickAll
theorem Safe.readBobbin {s idx k key lo hi} (h : Safe s₀ s) : Safe s₀ (s.readBobbin idx k key lo hi).2.2 := by
  unfold State.readBobbin
  split
  · exact h.inSnd3
  · exact h.inSnd3
  · exact h.inSnd3
  · exact safe_ite_snd3 h.checkTag.damage.inSnd3 h.checkTag.inSnd3
theorem Safe.readPieces {s idx k row pieces} (h : Safe s₀ s) : Safe s₀ (s.readPieces idx k row pieces).2.2 := by
  induction pieces generalizing s idx k row with
  | nil => exact h
  | cons x xs ih =>
    unfold State.readPieces
    split
    · rename_i e
      split
      · rename_i e1
        exact ((ih (h.readBobbin.ofSnd3 e)).ofSnd3 e1).inSnd3
      · exact ih (h.readBobbin.ofSnd3 e)
    · exact h.readBobbin
theorem Safe.readRegion {s r off n} (h : Safe s₀ s) : Safe s₀ (s.readRegion r off n).2.2 := by
  unfold State.readRegion
  split
  · exact safe_ite_snd3 h.inSnd3 (safe_ite_snd3 h.inSnd3 h.checkTag.inSnd3)
  · split
    · exact h.inSnd3
    · split
      · split
        · exact h.inSnd3
        · extract_lets s1
          split
          · exact h.expireLease.inSnd3
          · exact h.expireLease.inSnd3
      · exact safe_ite_snd3 h.inSnd3 (safe_ite_snd3 h.inSnd3 h.readPieces)
theorem Safe.placeLocal {s tag key off bs} (h : Safe s₀ s) : OfOk (Safe s₀) (s.placeLocal tag key off bs) := by
  unfold State.placeLocal
  split
  · exact OfOk.error
  · exact OfOk.after fun _ => OfOk.after fun _ => OfOk.pure h.bufWrite
theorem Safe.endReasm {s c seq response} (h : Safe s₀ s) : Safe s₀ (s.endReasm c seq response) := by
  unfold State.endReasm
  split
  · exact h
  · exact safe_ite h.modFlyer.modConn h.modFlyer
theorem Safe.completeRx {s c seq ackReq st retry} (h : Safe s₀ s) : Safe s₀ (s.completeRx c seq ackReq st retry) := by
  unfold State.completeRx
  extract_lets s1 s2
  split
  · exact h.endReasm.modConn
  · exact safe_ite (safe_ite h.endReasm.modConn.sendAck h.endReasm.modConn)
        (safe_ite h.endReasm.modConn.sendNak.connError h.endReasm.modConn.sendNak)
theorem Safe.respond {s c op seq bytes} (h : Safe s₀ s) : Safe s₀ (s.respond c op seq bytes) := h.sendPackets
theorem Safe.msgRow {s c seq op f} (h : Safe s₀ s) (hf : ∀ k r b s, Safe s₀ s → Safe s₀ (f k r b s)) :
    OfNext (Safe s₀) (msgRow c seq op s f) := by
  unfold Machine.msgRow
  split
  · exact OfNext.leaf h
  · exact OfNext.leaf (hf _ _ _ _ h)

end Sys2Proof.Machine
end

section
/-!
Each operation of Machine/Combines.lean keeps the queue and the invariant: ply rows.
-/
namespace Sys2Proof.Machine

variable {s₀ : State}

theorem Safe.postCombine {s q tag e b} (h : Safe s₀ s) : OfOk (Safe s₀) (s.postCombine q tag e b) := by
  unfold State.postCombine
  refine OfOk.after fun _ => OfOk.after fun _ => OfOk.after fun _ => OfOk.after fun _ => ?_
  split
  · exact OfOk.error
  · rename_i e1
    exact OfOk.pure (h.takeSlots.elim e1).charge.modWork
theorem Safe.execCombineDescriptorPost {s q} (h : Safe s₀ s) : OfNext (Safe s₀) (execCombineDescriptorPost q s) := by
  unfold Machine.execCombineDescriptorPost
  refine h.headRow (fun _ _ _ _ h1 => ?_)
  split
  · rename_i e
    exact h1.postCombine.elim e
  · exact h1.completeEntry
theorem Safe.takeRow {s id step i} (h : Safe s₀ s) : Safe s₀ (s.takeRow id step i) := by
  unfold State.takeRow
  split
  · exact h
  · extract_lets put dup again
    split
    · split
      · exact safe_ite h h.raise
      · exact h.modWork
    · split
      · exact safe_ite h h.raise
      · exact h.modWork
    · exact h.modWork
theorem Safe.normalise {s st} (h : Safe s₀ s) : Safe s₀ (s.normalise st).2 := safe_ite_snd h.inSnd (safe_ite_snd h.lit.inSnd h.inSnd)
theorem Safe.combinedRow {s c qi} (h : Safe s₀ s) : Safe s₀ (s.combinedRow c qi).2 := by
  unfold State.combinedRow
  extract_lets b mine low any short det flags st
  split
  next layer hg s1 e =>
  have hs1 : Safe s₀ s1 := by
    refine Safe.ofSnd3 ?_ e
    clear_value low
    cases low with
    | none => exact h.free
    | some i => exact h
  split
  next e2 => exact (safe_ite_snd hs1.normalise hs1).ofSnd e2
theorem Safe.combinedRows {s c} (h : Safe s₀ s) : Safe s₀ (s.combinedRows c).2 :=
  safe_foldl_snd (fun _ _ h1 => h1.combinedRow.inSnd) _ h.inSnd
theorem Safe.timeoutEvent {s id c} (h : Safe s₀ s) : Safe s₀ (s.timeoutEvent id c) := by
  unfold State.timeoutEvent
  exact h.raise
theorem Safe.afterEmission {s id c} (h : Safe s₀ s) : Safe s₀ (s.afterEmission id c) := safe_ite h.modWork h.giveSlots.credit.modWork
theorem Safe.postPly {s conn e} (h : Safe s₀ s) : Safe s₀ (s.postPly conn e) := h.modFlyer
theorem Safe.writeRows {s tag key off rows} (h : Safe s₀ s) : OfOk (Safe s₀) (s.writeRows tag key off rows) :=
  OfOk.after fun _ => OfOk.after fun _ => OfOk.after fun _ => OfOk.pure h.bufWrite
theorem Safe.takeRows {s tag n slub bf16 rows} (h : Safe s₀ s) : OfOk (fun r => Safe s₀ r.2) (s.takeRows tag n slub bf16 rows) :=
  OfOk.after fun _ => OfOk.pure (safe_foldl (fun _ _ h1 => h1.takeRow) _ h).inSnd
theorem Safe.emitCombine {s fuel out status} (h : Safe s₀ s) : Safe s₀ (State.emitCombine fuel out status s) := by
  induction fuel generalizing s out status with
  | zero => exact h
  | succ n ih =>
    unfold State.emitCombine
    split
    · exact h
    · extract_lets b s1
      have hs1 : Safe s₀ s1 := safe_ite h.timeoutEvent h
      split
      · rename_i e
        extract_lets s3 done s4
        have hs3 : Safe s₀ s3 := (hs1.combinedRows.ofSnd e).afterEmission
        have hs4 : Safe s₀ s4 := by
          unfold s4
          split
          · exact hs3.heal.doneJq.answerQueue
          · split
            · split
              · exact hs3.doneJq.answerQueue
              · exact hs3.postPly
            · split
              · split
                · rename_i e1
                  exact (hs3.writeRows.elim e1).doneJq.answerQueue
                · exact hs3.doneJq.answerQueue
              · split
                · exact hs3.doneJq.answerQueue
                · rename_i e1
                  extract_lets s6
                  have hs6 : Safe s₀ s6 := (hs3.takeRows.elim e1).doneJq.answerQueue
                  split
                  · exact safe_ite (ih hs6) hs6
                  · exact hs6
        split
        · exact safe_ite (ih hs4) hs4
        · exact hs4
theorem Safe.deliverPly {s tag n slub bf16 rows} (h : Safe s₀ s) : Safe s₀ (s.deliverPly tag n slub bf16 rows).2 := by
  unfold State.deliverPly
  split
  · exact h.inSnd
  · rename_i e
    refine Safe.inSnd ?_
    split
    · exact safe_ite (h.takeRows.elim e).emitCombine (h.takeRows.elim e)
    · exact h.takeRows.elim e
theorem Safe.execPlyExecute {s c seq} (h : Safe s₀ s) : OfNext (Safe s₀) (execPlyExecute c seq s) := by
  unfold Machine.execPlyExecute
  refine h.msgRow (fun _ _ _ _ h1 => ?_)
  split
  · exact h1.completeRx
  · exact h1.deliverPly.completeRx
theorem Safe.execCombineTimeoutExpiry {s id} (h : Safe s₀ s) : OfNext (Safe s₀) (execCombineTimeoutExpiry id s) := by
  unfold Machine.execCombineTimeoutExpiry
  split
  · exact OfNext.leaf h
  · split
    · exact OfNext.leaf h
    · exact OfNext.ite (OfNext.leaf h.emitCombine) (OfNext.leaf h)

end Sys2Proof.Machine
end

section
/-!
Each operation of Machine/RelOps.lean keeps the queue and the invariant: units in service, the service level.
-/
namespace Sys2Proof.Machine

variable {s₀ : State}

theorem Safe.modRel {s f} (h : Safe s₀ s) : Safe s₀ (s.modRel f) := h.lit
theorem Safe.countRel {s code inst} (h : Safe s₀ s) : Safe s₀ (s.countRel code inst) := h.modRel
theorem Safe.deferDuty {s d} (h : Safe s₀ s) : Safe s₀ (s.deferDuty d) := safe_ite h h.countRel.modRel
theorem Safe.refreshLevel {s} (h : Safe s₀ s) : Safe s₀ s.refreshLevel := safe_ite h h.lit.raise
theorem Safe.expel {s kind idx} (h : Safe s₀ s) : Safe s₀ (s.expel kind idx) := h.modRel.raise
theorem Safe.makeSuspect {s kind idx} (h : Safe s₀ s) : Safe s₀ (s.makeSuspect kind idx) := safe_ite h h.modRel.raise
theorem Safe.portToDown {s p} (h : Safe s₀ s) : Safe s₀ (s.portToDown p) := safe_ite h h.modPort.setFlag.refreshLevel
theorem Safe.startRetrain {s p} (h : Safe s₀ s) : Safe s₀ (s.startRetrain p) := safe_ite h.modPort.setFlag h
theorem Safe.control {s p ty content} (h : Safe s₀ s) : Safe s₀ (s.control p ty content) := safe_ite h h.emit
theorem Safe.dropWavelength {s p wl} (h : Safe s₀ s) : Safe s₀ (s.dropWavelength p wl) := by
  unfold State.dropWavelength
  extract_lets x off sp map
  split
  · rename_i e
    extract_lets s2 s3 s4
    have hs2 : Safe s₀ s2 := (h.free.ofSnd e).control.setPort
    have hs4 : Safe s₀ s4 := safe_ite hs2.setFlag.expel.raise hs2.setFlag.expel
    exact (safe_ite hs4.portToDown hs4).refreshLevel

end Sys2Proof.Machine
end

section
/-!
Each operation of Machine/Rows.lean keeps the queue and the invariant: what a row's growth needs.
-/
namespace Sys2Proof.Machine

variable {s₀ : State}

theorem Safe.grow {s idx g} (h : Safe s₀ s) : OfSome (Safe s₀) (s.grow idx g) := by
  unfold State.grow
  split
  · exact OfSome.none
  · extract_lets nt
    split
    · exact OfSome.none
    · rename_i e
      exact OfSome.leaf (h.takeSlots.elim e).setSkein.charge

end Sys2Proof.Machine
end

section
/-!
Each operation of Machine/TierOps.lean keeps the queue and the invariant: the tier engine.
-/
namespace Sys2Proof.Machine

variable {s₀ : State}

theorem Safe.modPfx {s f} (h : Safe s₀ s) : Safe s₀ (s.modPfx f) := h.lit
theorem Safe.settleRun {s i} (h : Safe s₀ s) : Safe s₀ (s.settleRun i) := by
  unfold State.settleRun
  split
  · exact h
  · exact safe_ite h (safe_foldl (fun _ _ h1 => h1.leaveSlot.creditTier) _ h).modPfx
theorem Safe.leaveRuns {s idx} (h : Safe s₀ s) : Safe s₀ (s.leaveRuns idx) := safe_foldl (fun _ _ h1 => h1.settleRun) _ h.modPfx
theorem Safe.removeEntries {s i p} (h : Safe s₀ s) : Safe s₀ (s.removeEntries i p).2 := by
  unfold State.removeEntries
  split
  · exact h.inSnd
  · exact h.modPfx.credit.settleRun.inSnd
theorem Safe.makeRun {s i idx b} (h : Safe s₀ s) : Safe s₀ (s.makeRun i idx b) := by
  unfold State.makeRun
  extract_lets s1 mine
  have hs1 : Safe s₀ s1 := safe_foldl (fun _ _ h1 => h1.abandonEntry) _ h
  split
  · exact hs1
  · exact hs1.setSkein.modPfx
theorem Safe.killSkein {s idx} (h : Safe s₀ s) : Safe s₀ (s.killSkein idx) := by
  unfold State.killSkein
  extract_lets d r ps s1 tag s2 s3 s4
  have hs3 : Safe s₀ s3 := by
    unfold s3
    clear_value d
    split
    · exact h.modStore.destroySkein.leaveRuns.answerAll
    · exact h.modStore.destroySkein.leaveRuns
  have hs4 : Safe s₀ s4 := by
    unfold s4
    clear_value r
    split
    · exact hs3.answerAll
    · exact hs3
  refine safe_foldl (fun _ _ h1 => ?_) _ hs4
  extract_lets s5
  have hs5 : Safe s₀ s5 := safe_ite h1.credit.modPfx h1
  split
  · exact hs5.answer
  · exact hs5
theorem Safe.setDoff {s idx d} (h : Safe s₀ s) : Safe s₀ (s.setDoff idx d) := h.modStore
theorem Safe.setReload {s idx r} (h : Safe s₀ s) : Safe s₀ (s.setReload idx r) := h.modStore
theorem Safe.doffNext {s idx d} (h : Safe s₀ s) : OfSome (Safe s₀) (s.doffNext idx d) :=
  OfSome.after fun _ => OfSome.ite (OfSome.after fun _ =>
    OfSome.ite (OfSome.pure h.setDoff) (OfSome.ite (OfSome.pure h.setDoff) (OfSome.ite (OfSome.pure h.setDoff) (OfSome.ite OfSome.none
      (OfSome.pure (OfSome.getD h.startMove h.setDoff)))))) (OfSome.after fun _ =>
        OfSome.ite (OfSome.pure h.setDoff) (OfSome.ite (OfSome.pure h.setDoff) (OfSome.ite (OfSome.pure h.setDoff) (OfSome.ite OfSome.none
          (OfSome.pure (OfSome.getD h.startMove h.setDoff))))))
theorem Safe.reloadNext {s idx r} (h : Safe s₀ s) : OfSome (Safe s₀) (s.reloadNext idx r) := by
  unfold State.reloadNext
  refine OfSome.after fun _ => OfSome.ite (OfSome.after fun _ =>
      OfSome.ite (OfSome.pure h.setReload) (OfSome.ite (OfSome.pure h.setReload) (OfSome.ite OfSome.none h.startMove))) ?_
  split
  · exact OfSome.after fun _ =>
        OfSome.ite (OfSome.pure h.setReload) (OfSome.ite (OfSome.pure h.setReload) (OfSome.ite OfSome.none h.startMove))
  · split
    · exact OfSome.after fun _ =>
          OfSome.ite (OfSome.pure h.setReload) (OfSome.ite (OfSome.pure h.setReload) (OfSome.ite OfSome.none h.startMove))
    · exact OfSome.after fun _ =>
          OfSome.ite (OfSome.pure h.setReload) (OfSome.ite (OfSome.pure h.setReload) (OfSome.ite OfSome.none h.startMove))
theorem Safe.pinNext {s p} (h : Safe s₀ s) : OfSome (Safe s₀) (s.pinNext p) :=
  OfSome.after fun _ => OfSome.after fun _ => OfSome.after fun _ => OfSome.ite OfSome.none h.startMove
theorem Safe.bandNext {s} (h : Safe s₀ s) : OfSome (Safe s₀) s.bandNext :=
  OfSome.after fun _ => OfSome.after fun _ => OfSome.after fun _ => h.startMove
theorem Safe.compactNext {s} (h : Safe s₀ s) : OfSome (Safe s₀) s.compactNext :=
  ofSome_findSome (fun _ => OfSome.after fun _ => OfSome.after fun _ => OfSome.after fun _ => h.startMove) _
theorem Safe.endCompacts {s} (h : Safe s₀ s) : Safe s₀ s.endCompacts := safe_foldl (fun _ _ h1 => h1.endJob) _ h
theorem mem_of_mem_insertBy {α : Type} {before : α → α → Bool} {a x : α} {xs : List α} (h : x ∈ insertBy before a xs) : x = a ∨ x ∈ xs := by
  induction xs with
  | nil => exact Or.inl (List.mem_singleton.1 h)
  | cons y ys ih =>
    unfold insertBy at h
    split at h
    · rcases List.mem_cons.1 h with rfl | hmem
      · exact Or.inr List.mem_cons_self
      · exact (ih hmem).imp id (List.mem_cons_of_mem _)
    · exact List.mem_cons.1 h

theorem mem_of_mem_sortBy {α : Type} {before : α → α → Bool} {x : α} {xs : List α} (h : x ∈ sortBy before xs) : x ∈ xs := by
  induction xs with
  | nil => exact h
  | cons y ys ih =>
    rcases mem_of_mem_insertBy h with rfl | hmem
    · exact List.mem_cons_self
    · exact List.mem_cons_of_mem _ (ih hmem)

/-- The first of the starts in their order is one of them. -/
theorem Safe.firstStart {xs : List (Nat × Option State)} (hx : ∀ x ∈ xs, OfSome (Safe s₀) x.2) : OfSome (Safe s₀) (firstStart xs) := by
  unfold Machine.firstStart
  cases e : (sortBy (fun a b => decide (a.1 < b.1)) xs).findSome? (·.2) with
  | none => exact trivial
  | some t =>
    obtain ⟨x, hmem, hx'⟩ := List.exists_of_findSome?_eq_some e
    exact (hx x (mem_of_mem_sortBy hmem)).elim hx'
theorem Safe.tierStart {s} (h : Safe s₀ s) : OfSome (Safe s₀) s.tierStart := by
  have rel : ∀ (p : Nat × Reload → Bool), ∀ x ∈ (s.store.reloads.filter p).map fun r => (r.2.order, s.reloadNext r.1 r.2),
      OfSome (Safe s₀) x.2 := by
    intro p x hx
    obtain ⟨r, -, rfl⟩ := List.mem_map.1 hx
    exact h.reloadNext
  have dof : ∀ (p : Nat × Doff → Bool), ∀ x ∈ (s.store.doffs.filter p).map fun d => (d.2.order, s.doffNext d.1 d.2),
      OfSome (Safe s₀) x.2 := by
    intro p x hx
    obtain ⟨d, -, rfl⟩ := List.mem_map.1 hx
    exact h.doffNext
  have pin : ∀ x ∈ s.store.pins.map fun p => (p.order, s.pinNext p), OfSome (Safe s₀) x.2 := by
    intro x hx
    obtain ⟨p, -, rfl⟩ := List.mem_map.1 hx
    exact h.pinNext
  have choices : ∀ o ∈ [Machine.firstStart ((s.store.reloads.filter fun r => r.2.forJob == true).map fun r =>
      (r.2.order, s.reloadNext r.1 r.2)),
      Machine.firstStart (((s.store.reloads.filter fun r => r.2.forJob == false).map fun r => (r.2.order, s.reloadNext r.1 r.2)) ++
        s.store.pins.map fun p => (p.order, s.pinNext p)),
      Machine.firstStart ((s.store.doffs.filter fun d => d.2.bySweep == true).map fun d => (d.2.order, s.doffNext d.1 d.2)),
      Machine.firstStart ((s.store.doffs.filter fun d => d.2.bySweep == false).map fun d => (d.2.order, s.doffNext d.1 d.2)),
      s.bandNext, s.compactNext], OfSome (Safe s₀) o := by
    intro o ho
    simp only [List.mem_cons, List.not_mem_nil, or_false] at ho
    rcases ho with rfl | rfl | rfl | rfl | rfl | rfl
    · exact Safe.firstStart (rel _)
    · exact Safe.firstStart fun x hx => (List.mem_append.1 hx).elim (rel _ x) (pin x)
    · exact Safe.firstStart (dof _)
    · exact Safe.firstStart (dof _)
    · exact h.bandNext
    · exact h.compactNext
  unfold State.tierStart
  extract_lets a b
  cases e : List.findSome? id _ with
  | none => exact trivial
  | some t =>
    obtain ⟨o, hmem, ho⟩ := List.exists_of_findSome?_eq_some e
    exact (choices o hmem).elim ho
theorem Safe.tierPump {s fuel} (h : Safe s₀ s) : Safe s₀ (State.tierPump fuel s) := by
  induction fuel generalizing s with
  | zero => exact h
  | succ n ih =>
    unfold State.tierPump
    split
    · exact h
    · split
      · rename_i e
        exact ih (h.tierStart.elim e)
      · exact h
theorem Safe.runTier {s} (h : Safe s₀ s) : Safe s₀ s.runTier := h.tierPump.endCompacts
theorem Safe.askDoff {s idx w sweep} (h : Safe s₀ s) : Safe s₀ (s.askDoff idx w sweep) := by
  unfold State.askDoff
  split
  · exact h.setDoff
  · exact h.setDoff.modStore
theorem Safe.askReload {s idx w first whole forJob} (h : Safe s₀ s) : Safe s₀ (s.askReload idx w first whole forJob) := by
  unfold State.askReload
  extract_lets s1
  have hs1 : Safe s₀ s1 := by
    unfold s1
    split
    · exact safe_ite h.setDoff h
    · exact h
  split
  · exact hs1.setReload
  · exact hs1.setReload.modStore
theorem Safe.answerPin {s p st r} (h : Safe s₀ s) : Safe s₀ (s.answerPin p st r) := by
  unfold State.answerPin
  split
  · exact h.answer
  · exact h
theorem Safe.backToDram {s p} (h : Safe s₀ s) : Safe s₀ (s.backToDram p) := safe_ite h h.modStore
theorem Safe.endPin {s p} (h : Safe s₀ s) : Safe s₀ (s.endPin p) := by
  unfold State.endPin
  split
  · exact h
  · exact (safe_ite h.modStore.credit.modPfx h.modStore).backToDram.answerPin
  · extract_lets s1 s2 set s3
    have hs3 : Safe s₀ s3 := safe_ite h.modStore.modSkein h.modStore
    split
    · split
      · exact h.modStore.makeRun.answerPin
      · exact h.modStore.makeRun
    · exact hs3.answerPin
theorem Safe.endPins {s} (h : Safe s₀ s) : Safe s₀ s.endPins := safe_foldl (fun _ _ h1 => h1.endPin) _ h
theorem Safe.compacted {s idx key} (h : Safe s₀ s) : Safe s₀ (s.compacted idx key) := h.modWork
theorem Safe.programFor {s mv} (h : Safe s₀ s) : OfSome (Safe s₀) (s.programFor mv) := OfSome.ite h.programBobbin (OfSome.leaf h)
theorem Safe.countMove {s mv} (h : Safe s₀ s) : Safe s₀ (s.countMove mv) := by
  unfold State.countMove
  split
  · exact h.modStore
  · exact h.modStore
  · exact h.modStore
  · exact h.compacted
  · exact h
theorem Safe.beforeCreelFree {s mv} (h : Safe s₀ s) : Safe s₀ (s.beforeCreelFree mv) := by
  unfold State.beforeCreelFree
  split
  · exact h
  · split
    · exact h.tombstone
    · exact h
theorem Safe.failMove {s id mv checkFailed} (h : Safe s₀ s) : Safe s₀ (s.failMove id mv checkFailed) := by
  unfold State.failMove
  extract_lets s1 s2 s3
  have hs2 : Safe s₀ s2 := safe_ite h.abandonEntry.damage h.abandonEntry
  have hs3 : Safe s₀ s3 := safe_ite (safe_ite hs2.compacted hs2) hs2
  exact safe_ite hs3.modStore hs3
theorem Safe.refuseDoff {s id mv} (h : Safe s₀ s) : Safe s₀ (s.refuseDoff id mv) := h.abandonEntry.modStore
theorem Safe.commitMove {s id mv} (h : Safe s₀ s) : OfSome (Safe s₀) (s.commitMove id mv) := by
  unfold State.commitMove
  split
  · exact OfSome.leaf h.failMove
  · exact OfSome.ite (OfSome.leaf h.refuseDoff) (h.programFor.bindOf fun _ h1 =>
        OfSome.pure h1.beforeCreelFree.commitEntry.moveSketch.countMove)
theorem Safe.lentBegin {s w v} (h : Safe s₀ s) : Safe s₀ (s.lentBegin w v) := h.modStore.runTier
theorem Safe.demoteRest {s fuel skein done} (h : Safe s₀ s) : Safe s₀ (State.demoteRest fuel skein s done).2 := by
  induction fuel generalizing s skein done with
  | zero => exact h
  | succ n ih =>
    unfold State.demoteRest
    split
    · exact h.inSnd
    · split
      · exact h.inSnd
      · split
        · exact h.inSnd
        · exact ih h.demote
theorem Safe.overflowDemote {s idx} (h : Safe s₀ s) : Safe s₀ (s.overflowDemote idx) := by
  unfold State.overflowDemote
  split
  · exact h
  · exact h.demoteRest.raiseLost
theorem Safe.sweepNext {s} (h : Safe s₀ s) : Safe s₀ s.sweepNext := by
  unfold State.sweepNext
  split
  · exact h
  · extract_lets pool fit
    split
    · exact h.modStore
    · exact safe_ite h.modStore.askDoff h.modStore
theorem Safe.endDoff {s idx d} (h : Safe s₀ s) : Safe s₀ (s.endDoff idx d) := by
  unfold State.endDoff
  extract_lets s1 s2 s3 s4
  have hs2 : Safe s₀ s2 := safe_ite h.modStore.overflowDemote h.modStore
  have hs3 : Safe s₀ s3 := safe_ite hs2.persistTail hs2
  have hs4 : Safe s₀ s4 := by
    unfold s4
    split
    · split
      · split
        · exact hs3.writeRecord
        · exact hs3
      · exact hs2
    · exact hs2
  exact hs4.answerAll.sweepNext
theorem Safe.endReload {s idx r} (h : Safe s₀ s) : Safe s₀ (s.endReload idx r) :=
  safe_ite h.modStore.answerAll (safe_foldl (fun _ _ h1 => h1.endJob) _ h.modStore.answerAll)

end Sys2Proof.Machine
end

section
/-!
Each operation of Machine/Admission.lean keeps the queue and the invariant: job admission.
-/
namespace Sys2Proof.Machine

variable {s₀ : State}

theorem Safe.setJob {s id j} (h : Safe s₀ s) : Safe s₀ (s.setJob id j) := h.modWork
theorem Safe.jobList {s tag b} (h : Safe s₀ s) : Safe s₀ (s.jobList tag b).2 := by
  unfold State.jobList
  split
  · split
    · exact h.inSnd
    · split
      · rename_i e
        exact (h.readRegion.ofSnd3 e).inSnd
      · rename_i e
        exact (h.readRegion.ofSnd3 e).inSnd
  · exact safe_ite_snd h.inSnd h.inSnd
theorem Safe.jobQuery {s tag e b elements} (h : Safe s₀ s) : Safe s₀ (s.jobQuery tag e b elements).2 := by
  unfold State.jobQuery
  extract_lets n bf rows check
  split
  · split
    · exact h.inSnd
    · split
      · rename_i e1
        exact (h.readRegion.ofSnd3 e1).inSnd
      · rename_i e1
        exact (h.readRegion.ofSnd3 e1).inSnd
  · split
    · exact h.inSnd
    · exact h.inSnd
theorem Safe.queryRead {s id} (h : Safe s₀ s) : Safe s₀ (s.queryRead id) := by
  unfold State.queryRead
  split
  · exact h
  · split
    · exact h.setJob.releaseStaging
    · exact h
theorem Safe.deliverJob {s id j rows replayed} (h : Safe s₀ s) : Safe s₀ (s.deliverJob id j rows replayed) := by
  unfold State.deliverJob
  extract_lets b j1 s1 j2 count
  split
  · split
    · exact h.setJob.queryRead.endJob
    · exact h.setJob.queryRead.postPly
  · split
    · split
      · rename_i e
        exact (h.setJob.queryRead.writeRows.elim e).endJob
      · exact h.setJob.queryRead.endJob
    · exact h.setJob.queryRead.deliverPly.endJob
theorem Safe.raiseTrap {s j place slot t} (h : Safe s₀ s) : Safe s₀ (s.raiseTrap j place slot t) := h.raise
theorem Safe.trapJob {s id j place slot t} (h : Safe s₀ s) : Safe s₀ (s.trapJob id j place slot t) := h.raiseTrap.endJob
theorem Safe.admitJob {s id j} (h : Safe s₀ s) : Safe s₀ (s.admitJob id j) := (safe_foldl (fun _ _ h1 => h1.modSkein) _ h.setJob).lit
theorem Safe.admitLate {s id j} (h : Safe s₀ s) : Safe s₀ (s.admitLate id j) := by
  unfold State.admitLate
  extract_lets ks again
  clear_value again
  split
  · exact h.admitJob
  · exact h.endJob
theorem Safe.askReloads {s j forJob} (h : Safe s₀ s) : Safe s₀ (s.askReloads j forJob) :=
  safe_foldl (fun _ _ h1 => safe_ite h1 h1.askReload) _ h
theorem Safe.translateJob {s id j} (h : Safe s₀ s) : Safe s₀ (s.translateJob id j) := by
  unfold State.translateJob
  split
  · exact h.endJob
  · split
    · exact h.admitLate
    · split
      · exact h.endJob
      · extract_lets n room s1 wait until' s2
        split
        · exact safe_ite h.admitLate.askReloads.runTier h.admitLate
        · clear_value room
          split
          · exact h.endJob
          · exact h.setJob.askReloads.runTier
theorem Safe.selectJob {s id j} (h : Safe s₀ s) : Safe s₀ (s.selectJob id j) := by
  unfold State.selectJob
  split
  · exact h.trapJob
  · exact h.setJob.translateJob
theorem Safe.step11 {s id j} (h : Safe s₀ s) : Safe s₀ (s.step11 id j) := safe_ite h.setJob h.selectJob
theorem Safe.step10 {s id j} (h : Safe s₀ s) : Safe s₀ (s.step10 id j) := by
  unfold State.step10
  split
  · exact h.step11
  · split
    · exact (safe_foldl (fun _ _ h1 => h1.modSkein) _ h).deliverJob
    · exact safe_ite h.setJob h.step11
theorem Safe.checkJob {s q tag e b} (h : Safe s₀ s) : Safe s₀ (s.checkJob q tag e b).2 := by
  unfold State.checkJob
  split
  · exact h.inSnd
  · split
    · rename_i e1
      exact (h.jobList.ofSnd e1).inSnd
    · rename_i e1
      split
      · exact (h.jobList.ofSnd e1).inSnd
      · split
        · rename_i e2
          exact ((h.jobList.ofSnd e1).jobQuery.ofSnd e2).inSnd
        · rename_i e2
          split
          · exact ((h.jobList.ofSnd e1).jobQuery.ofSnd e2).inSnd
          · exact ((h.jobList.ofSnd e1).jobQuery.ofSnd e2).inSnd
theorem Safe.execJobAdmission {s q} (h : Safe s₀ s) : OfNext (Safe s₀) (execJobAdmission q s) := by
  unfold Machine.execJobAdmission
  refine h.headRow (fun _ _ _ _ h1 => ?_)
  split
  · rename_i e
    exact (h1.checkJob.ofSnd e).completeEntry
  · rename_i e
    exact (h1.checkJob.ofSnd e).modWork.step10
theorem Safe.execJobAdmissionResume {s id} (h : Safe s₀ s) : OfNext (Safe s₀) (execJobAdmissionResume id s) := by
  unfold Machine.execJobAdmissionResume
  split
  · exact OfNext.leaf h
  · split
    · exact OfNext.leaf h
    · split
      · exact OfNext.leaf (safe_ite h.translateJob h)
      · exact OfNext.leaf (safe_ite h h.step10)
      · exact OfNext.leaf h
theorem Safe.execAdmitWaitExpiry {s id} (h : Safe s₀ s) : OfNext (Safe s₀) (execAdmitWaitExpiry id s) := by
  unfold Machine.execAdmitWaitExpiry
  split
  · exact OfNext.leaf h
  · split
    · exact OfNext.ite (OfNext.leaf h) (OfNext.leaf h.endJob.modStore)
    · exact OfNext.leaf h
theorem Safe.execSketchWaitDone {s id} (h : Safe s₀ s) : OfNext (Safe s₀) (execSketchWaitDone id s) := by
  unfold Machine.execSketchWaitDone
  split
  · exact OfNext.leaf h
  · exact OfNext.ite (OfNext.leaf h) (OfNext.leaf h.selectJob)

end Sys2Proof.Machine
end

section
/-!
Each operation of Machine/Messages.lean keeps the queue and the invariant: messages.
-/
namespace Sys2Proof.Machine

variable {s₀ : State}

theorem Safe.workRequest {s tag b} (h : Safe s₀ s) : Safe s₀ (s.workRequest tag b).2.2 := by
  unfold State.workRequest
  extract_lets op len off check
  clear_value check
  split
  · exact h.inSnd3
  · exact safe_ite_snd3 h.inSnd3 h.readRegion
theorem Safe.sendMsg {s c k m} (h : Safe s₀ s) : Safe s₀ (s.sendMsg c k m) := h.modConn.sendPackets.modConn
theorem Safe.takeWr {s c k e rest} (h : Safe s₀ s) : Safe s₀ (s.takeWr c k e rest) := by
  unfold State.takeWr
  extract_lets b pop refused
  split
  · exact h.modConn.endUnsent.pumpNotices
  · split
    · exact h.modConn.endUnsent.pumpNotices
    · split
      · exact h.modConn.endUnsent.pumpNotices
      · split
        · exact h.modConn.endUnsent.pumpNotices
        · split
          · exact h
          · split
            · exact safe_ite h.modConn.sendMsg.pumpNotices h
            · split
              · exact h.modConn.unreadWr.pumpNotices
              · split
                · exact h
                · split
                  · rename_i e1
                    exact (h.workRequest.ofSnd3 e1).modConn.sendMsg.pumpNotices
                  · rename_i e1
                    exact (h.workRequest.ofSnd3 e1).modConn.endUnsent.pumpNotices
theorem Safe.execWorkRequestPost {s c} (h : Safe s₀ s) : OfNext (Safe s₀) (execWorkRequestPost c s) := by
  unfold Machine.execWorkRequestPost
  split
  · exact OfNext.leaf h
  · split
    · exact OfNext.leaf h
    · split
      · exact OfNext.leaf h
      · exact OfNext.ite (OfNext.leaf h) (OfNext.leaf h.takeWr)
theorem Safe.execWriteExecute {s c seq} (h : Safe s₀ s) : OfNext (Safe s₀) (execWriteExecute c seq s) :=
  h.msgRow (fun _ _ _ _ h1 => safe_ite h1 h1.completeRx)
theorem Safe.readFor {s tag key roff p} (h : Safe s₀ s) : Safe s₀ (s.readFor tag key roff p).2.2 := by
  unfold State.readFor
  split
  · exact h.inSnd3
  · exact safe_ite_snd3 h.inSnd3 (safe_ite_snd3 h.inSnd3 (safe_ite_snd3 h.inSnd3 h.readRegion))
theorem Safe.execReadExecute {s c seq} (h : Safe s₀ s) : OfNext (Safe s₀) (execReadExecute c seq s) := by
  unfold Machine.execReadExecute
  refine h.msgRow (fun _ _ _ _ h1 => ?_)
  split
  · rename_i e
    exact (h1.readFor.ofSnd3 e).respond.completeRx
  · rename_i e
    exact (h1.readFor.ofSnd3 e).completeRx
theorem Safe.atomicBuffer {s r off f} (h : Safe s₀ s) : Safe s₀ (s.atomicBuffer r off f).2 := h.bufWrite.inSnd
theorem Safe.atomicFor {s tag key roff p swap} (h : Safe s₀ s) : OfOk (fun r => Safe s₀ r.2) (s.atomicFor tag key roff p swap) := by
  unfold State.atomicFor
  refine OfOk.after fun _ => OfOk.after fun _ => OfOk.after fun _ => OfOk.after fun _ => OfOk.after fun _ => OfOk.ite (OfOk.after fun _ =>
      ?_) (OfOk.pure h.atomicBuffer)
  split
  · exact OfOk.error
  · split
    · exact OfOk.error
    · rename_i e
      exact OfOk.pure (h.swapLease.elim e).inSnd
theorem Safe.runAtomic {s c seq k r p swap} (h : Safe s₀ s) : Safe s₀ (s.runAtomic c seq k r p swap) := by
  unfold State.runAtomic
  split
  · exact h.completeRx
  · rename_i e
    exact (h.atomicFor.elim e).modConn.respond.completeRx
theorem Safe.execFetchAddExecute {s c seq} (h : Safe s₀ s) : OfNext (Safe s₀) (execFetchAddExecute c seq s) :=
  h.msgRow fun _ _ _ _ h1 => h1.runAtomic
theorem Safe.execCompareSwapExecute {s c seq} (h : Safe s₀ s) : OfNext (Safe s₀) (execCompareSwapExecute c seq s) :=
  h.msgRow fun _ _ _ _ h1 => h1.runAtomic
theorem Safe.takeReceive {s k p} (h : Safe s₀ s) : OfOk (fun r => Safe s₀ r.2) (s.takeReceive k p) := by
  unfold State.takeReceive
  split
  · exact OfOk.error
  · split
    · exact OfOk.error
    · split
      · exact OfOk.error
      · exact OfOk.after fun _ => OfOk.after fun _ => h.placeLocal.bindOf fun _ h1 => OfOk.pure h1.modFlyer.inSnd
theorem Safe.execSendExecute {s c seq} (h : Safe s₀ s) : OfNext (Safe s₀) (execSendExecute c seq s) := by
  unfold Machine.execSendExecute
  refine h.msgRow (fun _ _ _ _ h1 => ?_)
  extract_lets blocked s1
  split
  · exact h1.completeRx
  · rename_i e
    exact safe_ite (safe_ite h1.modConn h1.modConn.raise) (h1.takeReceive.elim e).postCqe.completeRx
theorem Safe.execQueryExecute {s c seq} (h : Safe s₀ s) : OfNext (Safe s₀) (execQueryExecute c seq s) := by
  unfold Machine.execQueryExecute
  refine h.msgRow (fun _ _ _ _ h1 => ?_)
  split
  · exact h1.completeRx
  · exact h1.offer.completeRx
theorem Safe.takeResponse {s c seq op} (h : Safe s₀ s) : Safe s₀ (s.takeResponse c seq op) := by
  unfold State.takeResponse
  split
  · split
    · exact h
    · split
      · exact h
      · extract_lets s1 p
        split
        · exact h.endReasm.modConn.endMsg.settle
        · split
          · rename_i e
            exact (h.endReasm.modConn.placeLocal.elim e).endMsg.settle
          · exact h.endReasm.modConn.endMsg.settle
  · exact h
theorem Safe.execReadResponseReceive {s c seq} (h : Safe s₀ s) : OfNext (Safe s₀) (execReadResponseReceive c seq s) :=
  OfNext.leaf h.takeResponse
theorem Safe.execAtomicResponseReceive {s c seq} (h : Safe s₀ s) : OfNext (Safe s₀) (execAtomicResponseReceive c seq s) :=
  OfNext.leaf h.takeResponse
theorem Safe.coverTo {s c ackSeq apart} (h : Safe s₀ s) : Safe s₀ (s.coverTo c ackSeq apart) := by
  unfold State.coverTo
  split
  · exact h
  · exact safe_foldl (fun _ _ h1 => h1.endMsg) _ h.modConn
theorem Safe.takeCtl {s c nak} (h : Safe s₀ s) : OfSome (fun r => Safe s₀ r.2.2) (s.takeCtl c nak) := by
  unfold State.takeCtl
  split
  · exact OfSome.none
  · split
    · exact OfSome.none
    · exact OfSome.ite (OfSome.leaf h.modConn.inSnd3) OfSome.none
theorem Safe.execAckReceive {s c} (h : Safe s₀ s) : OfNext (Safe s₀) (execAckReceive c s) := by
  unfold Machine.execAckReceive
  split
  · exact OfNext.leaf h
  · rename_i e
    exact OfNext.leaf (h.takeCtl.elim e).coverTo.settle.pumpNotices
theorem Safe.handleNak {s c k x} (h : Safe s₀ s) : Safe s₀ (s.handleNak c k x) := by
  unfold State.handleNak
  extract_lets s1
  split
  · exact safe_ite h.coverTo.connError h.coverTo
  · exact safe_ite h.coverTo.retransmit (safe_ite h.coverTo.connError
        (safe_ite h.coverTo.modConn.endMsg.connError h.coverTo.modConn.endMsg))
theorem Safe.execNakReceive {s c} (h : Safe s₀ s) : OfNext (Safe s₀) (execNakReceive c s) := by
  unfold Machine.execNakReceive
  split
  · exact OfNext.leaf h
  · rename_i e
    exact OfNext.leaf (h.takeCtl.elim e).handleNak.settle.pumpNotices
theorem Safe.execAckCoalesceExpiry {s c} (h : Safe s₀ s) : OfNext (Safe s₀) (execAckCoalesceExpiry c s) := by
  unfold Machine.execAckCoalesceExpiry
  split
  · exact OfNext.leaf h
  · split
    · exact OfNext.leaf (safe_ite h.sendAck h)
    · exact OfNext.leaf h
theorem Safe.execAckTimeoutExpiry {s c seq} (h : Safe s₀ s) : OfNext (Safe s₀) (execAckTimeoutExpiry c seq s) := by
  unfold Machine.execAckTimeoutExpiry
  split
  · exact OfNext.leaf h
  · split
    · exact OfNext.leaf h
    · exact OfNext.leaf (safe_ite h.retransmit.settle.pumpNotices h)
theorem Safe.execReassemblyTimeoutExpiry {s c seq} (h : Safe s₀ s) : OfNext (Safe s₀) (execReassemblyTimeoutExpiry c seq s) := by
  unfold Machine.execReassemblyTimeoutExpiry
  extract_lets late
  split
  · exact OfNext.leaf (safe_ite h.endReasm.sendNak h)
  · split
    · exact OfNext.leaf (safe_ite h.endReasm h)
    · exact OfNext.leaf h
theorem Safe.holdOut {s a} (h : Safe s₀ s) : Safe s₀ (s.holdOut a).2 := by
  unfold State.holdOut
  extract_lets drop i halt ty e s1
  have hs1 : Safe s₀ s1 := safe_ite h.modWork.postCqe.actionFailed h.modWork.setFlag.raise
  split
  · refine Safe.inSnd (Safe.releaseQuery ?_)
    unfold halt
    split
    · exact safe_ite hs1.haltEntry hs1
    · exact hs1
  · exact safe_ite_snd h.inSnd h.modWork.deliver.inSnd
theorem Safe.drainHold {s fuel firing} (h : Safe s₀ s) : Safe s₀ (State.drainHold fuel firing s) := by
  induction fuel generalizing s firing with
  | zero => exact h
  | succ n ih =>
    unfold State.drainHold
    split
    · exact h
    · split
      · split
        · rename_i e
          exact ih (h.holdOut.ofSnd e)
        · rename_i e
          exact h.holdOut.ofSnd e
      · exact h
theorem Safe.execTimedHoldDelivery {s k} (h : Safe s₀ s) : OfNext (Safe s₀) (execTimedHoldDelivery k s) := by
  unfold Machine.execTimedHoldDelivery
  split
  · exact OfNext.leaf h
  · exact OfNext.leaf (safe_ite h.drainHold h)
theorem Safe.execHeldActionSlotFree {s k} (h : Safe s₀ s) : OfNext (Safe s₀) (execHeldActionSlotFree k s) := by
  unfold Machine.execHeldActionSlotFree
  split
  · exact OfNext.leaf h
  · exact OfNext.leaf (safe_ite h.drainHold h)

end Sys2Proof.Machine
end

section
/-!
Each operation of Machine/Appends.lean keeps the queue and the invariant: appends.
-/
namespace Sys2Proof.Machine

variable {s₀ : State}

theorem Safe.freeSlubs {s k} (h : Safe s₀ s) : Safe s₀ (s.freeSlubs k).2 := h.free.inSnd
theorem Safe.slubsFor {s k key first tokens} (h : Safe s₀ s) : Safe s₀ (s.slubsFor k key first tokens).2 := by
  unfold State.slubsFor
  extract_lets choose
  split
  · exact h.inSnd
  · split
    · exact safe_ite_snd h.freeSlubs h.inSnd
    · exact h.inSnd
theorem Safe.appendBobbin {s k key first tokens} (h : Safe s₀ s) : OfSome (fun r => Safe s₀ r.2.2) (s.appendBobbin k key first tokens) := by
  unfold State.appendBobbin
  split
  · exact OfSome.leaf h
  · split
    next e =>
    exact (h.slubsFor.ofSnd e).takeSlot.bindOf fun _ h1 =>
      OfSome.pure (h1.litMem (Mem.wf_foldl fun _ _ m => wf_payloadWrite m)).charge.inSnd3
theorem Safe.cardBobbin {s idx a first b lo hi} (h : Safe s₀ s) : OfSome (Safe s₀) (s.cardBobbin idx a first b lo hi) := by
  unfold State.cardBobbin
  refine OfSome.after fun _ => ?_
  exact h.appendBobbin.bindOf fun _ h1 => OfSome.pure
    (h1.litMem fun m => Mem.wf_foldl (fun _ _ m => wf_sealLea m) (Mem.wf_foldl (fun _ _ m => wf_writeToken m) m)).setSkein
theorem Safe.writeAppend {s idx k a g} (h : Safe s₀ s) : OfSome (Safe s₀) (s.writeAppend idx k a g) := by
  unfold State.writeAppend
  extract_lets n s1
  exact h.shedFor.grow.bindOf fun _ h1 => (ofSome_foldlM (fun _ _ h2 => h2.cardBobbin) _ h1).bindOf fun _ h3 => OfSome.after fun _ =>
      OfSome.pure h3.trimReel.setSkein.checkTails
/-- The state in what an append comes to. -/
def OfAppend (p : State → Prop) : AppendOut → Prop
  | .ends _ s => p s
  | .wrote _ s => p s
  | .holds _ _ => True
  | .waits => True

theorem Safe.tryAppend {s tag a} (h : Safe s₀ s) : OfAppend (Safe s₀) (s.tryAppend tag a) := by
  unfold State.tryAppend
  extract_lets idx s1
  have hs1 : Safe s₀ s1 := h.expireLease
  split
  · exact hs1
  · extract_lets held
    clear_value held
    split
    · split
      · exact hs1
      · exact trivial
    · split
      · exact hs1
      · exact hs1
      · split
        · next e =>
          split
          · exact trivial
          · exact hs1.writeAppend.elim e
        · exact hs1
theorem Safe.dropAppend {s a} (h : Safe s₀ s) : Safe s₀ (s.dropAppend a) := h.modStore
theorem Safe.reloadTail {s idx key} (h : Safe s₀ s) : Safe s₀ (s.reloadTail idx key) := safe_ite h h.askReload.runTier
theorem Safe.goAppend {s k r a} (h : Safe s₀ s) : Safe s₀ (s.goAppend k r a) := by
  have tried : OfAppend (Safe s₀) (s.tryAppend k.tenant a) := h.tryAppend
  unfold State.goAppend
  split
  · next e =>
    rw [e] at tried
    exact Safe.completeRx (Safe.dropAppend tried)
  · next e =>
    rw [e] at tried
    exact (Safe.dropAppend tried).modConn.modStore
  · have held : Safe s₀ (if a.held then s else (s.modConn a.conn fun k => { k with creditZero := false }).modStore fun t =>
        { t with appends := t.appends ++ [{ a with held := true }], writeHold := t.writeHold ++ [(a.conn, a.seq)] }) :=
      safe_ite h h.modConn.modStore
    exact safe_ite h.modConn (safe_ite held.reloadTail held)
  · exact h
theorem Safe.execAppendExecute {s c seq} (h : Safe s₀ s) : OfNext (Safe s₀) (execAppendExecute c seq s) := by
  unfold Machine.execAppendExecute
  refine h.msgRow (fun _ _ _ _ h1 => ?_)
  split
  · exact safe_ite h1 h1.goAppend
  · split
    · exact h1.completeRx
    · exact h1.goAppend
theorem Safe.releaseHeld {s} (h : Safe s₀ s) : Safe s₀ s.releaseHeld := by
  unfold State.releaseHeld
  refine safe_foldl (fun _ _ h1 => ?_) _ h
  split
  · exact h1.goAppend
  · exact h1
theorem Safe.execAppendComplete {s c seq} (h : Safe s₀ s) : OfNext (Safe s₀) (execAppendComplete c seq s) := by
  unfold Machine.execAppendComplete
  refine h.msgRow (fun _ _ _ _ h1 => ?_)
  split
  · exact safe_ite h1.queueSketches.dropAppend.completeRx h1
  · exact h1
theorem Safe.enterImage {s idx k key fmt p} (h : Safe s₀ s) : OfOk (Safe s₀) (s.enterImage idx k key fmt p) := by
  unfold State.enterImage
  extract_lets g enter
  have henter : OfSome (Safe s₀) enter := by
    unfold enter
    exact h.grow.bindOf fun _ h1 => h1.takeSlot.bindOf fun _ h2 => OfSome.after fun _ =>
        OfSome.pure (safe_ite (h2.litMem Mem.wf_writeN).charge.setSkein (h2.litMem Mem.wf_writeN).charge.setSkein.raise)
  refine OfOk.after fun _ => ?_
  clear_value enter
  split
  · exact OfOk.pure henter
  · exact OfOk.error
theorem Safe.execImportWrite {s c seq} (h : Safe s₀ s) : OfNext (Safe s₀) (execImportWrite c seq s) := by
  unfold Machine.execImportWrite
  refine h.msgRow (fun _ _ _ _ h1 => safe_ite h1 ?_)
  extract_lets checks
  clear_value checks
  split
  · exact h1.completeRx
  · split
    · rename_i e
      exact (h1.enterImage.elim e).completeRx
    · exact h1.completeRx
theorem Safe.sketchShare {s group} (h : Safe s₀ s) : OfSome (Safe s₀) (s.sketchShare group) := OfSome.ite (OfSome.leaf h.modRel) OfSome.none
theorem Safe.applySketch {s q group} (h : Safe s₀ s) : OfNext (Safe s₀) (s.applySketch q group) := by
  unfold State.applySketch
  extract_lets done
  split
  · exact OfNext.leaf h.modStore.releaseHeld
  · split
    · exact OfNext.leaf h.deferDuty
    · rename_i e
      exact OfNext.leaf (h.sketchShare.elim e).modStore.modSkein.releaseHeld
theorem Safe.execSketchUpdate {s stack} (h : Safe s₀ s) : OfNext (Safe s₀) (execSketchUpdate stack s) := by
  unfold Machine.execSketchUpdate
  split
  · exact OfNext.leaf h
  · exact OfNext.ite (OfNext.leaf h) (OfNext.ite (OfNext.leaf h.deferDuty) h.applySketch)
theorem Safe.execBlockHashCompute {s idx block} (h : Safe s₀ s) : OfNext (Safe s₀) (execBlockHashCompute idx block s) :=
  OfNext.leaf (safe_ite h.modSkein h)

end Sys2Proof.Machine
end

section
/-!
Each operation of Machine/CmdSkein.lean keeps the queue and the invariant: skein and lease commands.
-/
namespace Sys2Proof.Machine

variable {s₀ : State}

theorem Safe.takeSkeinIndex {s} (h : Safe s₀ s) : OfSome (fun r => Safe s₀ r.2) s.takeSkeinIndex := OfSome.map fun _ _ => h.modStore.inSnd
theorem Safe.cmdSkeinCreate {s x} (h : Safe s₀ s) : OfOk (OfOut (Safe s₀)) (cmdSkeinCreate x s) := by
  unfold Machine.cmdSkeinCreate
  extract_lets fmt el slubMax slubShift opt slot sketch sketchProg lease goOn
  exact OfOk.after fun _ => OfOk.after fun _ => OfOk.after fun _ => OfOk.ite (OfOk.after fun _ => OfOk.after fun _ => OfOk.after fun _ =>
      OfOk.after fun _ => OfOk.after fun _ => OfOk.after fun _ => OfOk.after fun _ => h.takeSkeinIndex.found.bindOf fun _ h1 =>
        h1.takeSlots.found.bindOf fun _ h2 => OfOk.pure h2.setSkein.charge.charge.outDone) (OfOk.after fun _ => OfOk.after fun _ =>
          OfOk.after fun _ => OfOk.after fun _ => OfOk.after fun _ => OfOk.after fun _ => h.takeSkeinIndex.found.bindOf fun _ h3 =>
            h3.takeSlots.found.bindOf fun _ h4 => OfOk.pure h4.setSkein.charge.charge.outDone)
theorem Safe.cmdSkeinDestroy {s x} (h : Safe s₀ s) : OfOk (OfOut (Safe s₀)) (cmdSkeinDestroy x s) :=
  OfOk.after fun _ => OfOk.pure h.killSkein.releaseHeld.runTier.outDone
theorem Safe.cmdSkeinInfo {s x} (h : Safe s₀ s) : OfOk (OfOut (Safe s₀)) (cmdSkeinInfo x s) :=
  OfOk.after fun _ => OfOk.ite (OfOk.after fun _ => OfOk.pure (safe_ite h h.output).outDone) (OfOk.after fun _ =>
    OfOk.pure (safe_ite h h.output).outDone)
theorem Safe.cmdSkeinSetHint {s x} (h : Safe s₀ s) : OfOk (OfOut (Safe s₀)) (cmdSkeinSetHint x s) :=
  OfOk.after fun _ => OfOk.pure h.modSkein.outDone
theorem Safe.cmdLeaseSwap {s x} (h : Safe s₀ s) : OfOk (OfOut (Safe s₀)) (cmdLeaseSwap x s) := by
  unfold Machine.cmdLeaseSwap
  refine OfOk.after fun _ => ?_
  split
  · split
    · exact OfOk.refuse
    · rename_i e
      exact OfOk.pure (h.swapLease.elim e).outDone
theorem Safe.setStore {s p t} (h : Safe s₀ s) : Safe s₀ (s.setStore p t) := by
  unfold State.setStore
  split
  · exact h.lit
  · exact h.lit
  · exact h
theorem Safe.cmdProgramLoad {s x} (h : Safe s₀ s) : OfOk (OfOut (Safe s₀)) (cmdProgramLoad x s) := by
  unfold Machine.cmdProgramLoad
  extract_lets img n cw kw digest ws code consts prog result used base want
  generalize sha384 (List.take (n - 48) img) = digested
  iterate 3 refine OfOk.after fun _ => ?_
  extract_lets tagOk t enter
  have henter : ∀ r, OfOk (OfOut (Safe s₀)) (enter r) := by
    intro r
    refine OfOk.after fun _ => OfOk.after fun _ => ?_
    split
    · exact OfOk.after fun _ => OfOk.after fun _ => OfOk.pure h.lit.outDone
    · split
      · exact OfOk.pure h.setStore.outDone
      · exact (OfSome.ite h.pick (OfSome.ite (OfSome.leaf h.inSnd) OfSome.none)).found.bindOf fun _ h1 =>
          OfOk.after fun _ => OfOk.pure h1.setStore.outDone
  iterate 3 refine OfOk.after fun _ => ?_
  split
  · exact OfOk.error
  · exact henter ()
theorem Safe.cmdProgramUnload {s x} (h : Safe s₀ s) : OfOk (OfOut (Safe s₀)) (cmdProgramUnload x s) := by
  unfold Machine.cmdProgramUnload
  refine OfOk.after fun _ => OfOk.after fun _ => OfOk.after fun _ => ?_
  extract_lets slot base t
  split
  · exact OfOk.after fun _ => OfOk.pure h.lit.outDone
  · exact OfOk.after fun _ => OfOk.after fun _ => OfOk.after fun _ => OfOk.pure h.setStore.outDone
theorem Safe.cmdTableLoad {s x} (h : Safe s₀ s) : OfOk (OfOut (Safe s₀)) (cmdTableLoad x s) := by
  unfold Machine.cmdTableLoad
  extract_lets kind img leas digest goOn goOn1
  exact OfOk.after fun _ => OfOk.ite (OfOk.after fun _ => OfOk.ite (OfOk.after fun _ => OfOk.after fun _ => h.pick.found.bindOf fun _ h1 =>
      OfOk.after fun _ => OfOk.pure h1.lit.charge.outDone) (OfOk.after fun _ => OfOk.after fun _ => h.pick.found.bindOf fun _ h2 =>
        OfOk.after fun _ => OfOk.pure h2.lit.charge.outDone)) (OfOk.after fun _ => OfOk.ite (OfOk.after fun _ => OfOk.after fun _ =>
          h.pick.found.bindOf fun _ h3 => OfOk.after fun _ => OfOk.pure h3.lit.charge.outDone) (OfOk.after fun _ => OfOk.after fun _ =>
            h.pick.found.bindOf fun _ h4 => OfOk.after fun _ => OfOk.pure h4.lit.charge.outDone))
theorem Safe.cmdTableUnload {s x} (h : Safe s₀ s) : OfOk (OfOut (Safe s₀)) (cmdTableUnload x s) :=
  OfOk.after fun _ => OfOk.pure h.lit.credit.outDone
theorem Safe.execSkeinCreate {s m slot} (h : Safe s₀ s) : OfNext (Safe s₀) (execSkeinCreate m slot s) :=
  h.cmdRow fun _ _ h1 => h1.cmdSkeinCreate
theorem Safe.execSkeinDestroy {s m slot} (h : Safe s₀ s) : OfNext (Safe s₀) (execSkeinDestroy m slot s) :=
  h.cmdRow fun _ _ h1 => h1.cmdSkeinDestroy
theorem Safe.execSkeinInfo {s m slot} (h : Safe s₀ s) : OfNext (Safe s₀) (execSkeinInfo m slot s) :=
  h.cmdRow fun _ _ h1 => h1.cmdSkeinInfo
theorem Safe.execSkeinSetHint {s m slot} (h : Safe s₀ s) : OfNext (Safe s₀) (execSkeinSetHint m slot s) :=
  h.cmdRow fun _ _ h1 => h1.cmdSkeinSetHint
theorem Safe.execLeaseSwap {s m slot} (h : Safe s₀ s) : OfNext (Safe s₀) (execLeaseSwap m slot s) :=
  h.cmdRow fun _ _ h1 => h1.cmdLeaseSwap
theorem Safe.execProgramLoad {s m slot} (h : Safe s₀ s) : OfNext (Safe s₀) (execProgramLoad m slot s) :=
  h.cmdRow fun _ _ h1 => h1.cmdProgramLoad
theorem Safe.execProgramUnload {s m slot} (h : Safe s₀ s) : OfNext (Safe s₀) (execProgramUnload m slot s) :=
  h.cmdRow fun _ _ h1 => h1.cmdProgramUnload
theorem Safe.execTableLoad {s m slot} (h : Safe s₀ s) : OfNext (Safe s₀) (execTableLoad m slot s) :=
  h.cmdRow fun _ _ h1 => h1.cmdTableLoad
theorem Safe.execTableUnload {s m slot} (h : Safe s₀ s) : OfNext (Safe s₀) (execTableUnload m slot s) :=
  h.cmdRow fun _ _ h1 => h1.cmdTableUnload

end Sys2Proof.Machine
end

section
/-!
Each operation of Machine/Breus.lean keeps the queue and the invariant: the fifty Breus rows.
-/
namespace Sys2Proof.Machine

variable {s₀ : State}

theorem Safe.settleInv {s i} (h : Safe s₀ s) (hi : s.inv.shaped = true → i.shaped = true) : Safe s₀ (s.settleInv i) := by
  have hs : Safe s₀ { s with inv := i } := h.setInv hi
  unfold State.settleInv
  dsimp only
  split
  · exact hs
  · split
    · exact hs.raise
    · split
      · exact hs.trapJob
      · exact hs.raise
theorem Safe.breusRow {s code lawful op} (h : Safe s₀ s) (hop : KeepsShape op) : OfNext (Safe s₀) (breusRow code lawful op s) := by
  unfold Machine.breusRow
  exact OfNext.ite (OfNext.leaf (h.settleInv fun hi => shaped_issue hop (shaped_invocation hi))) trivial
theorem Safe.execNop {s} (h : Safe s₀ s) : OfNext (Safe s₀) (execNop s) := h.breusRow keepsShape_bNop
theorem Safe.execEndProg {s} (h : Safe s₀ s) : OfNext (Safe s₀) (execEndProg s) := h.breusRow keepsShape_bEnd
theorem Safe.execTrap {s imm} (h : Safe s₀ s) : OfNext (Safe s₀) (execTrap imm s) := h.breusRow keepsShape_bTrap
theorem Safe.execBrz {s a offset} (h : Safe s₀ s) : OfNext (Safe s₀) (execBrz a offset s) := h.breusRow keepsShape_bBranch
theorem Safe.execBrnz {s a offset} (h : Safe s₀ s) : OfNext (Safe s₀) (execBrnz a offset s) := h.breusRow keepsShape_bBranch
theorem Safe.execBrany {s a offset} (h : Safe s₀ s) : OfNext (Safe s₀) (execBrany a offset s) := h.breusRow keepsShape_bBranch
theorem Safe.execBrnone {s a offset} (h : Safe s₀ s) : OfNext (Safe s₀) (execBrnone a offset s) := h.breusRow keepsShape_bBranch
theorem Safe.execRep {s length count} (h : Safe s₀ s) : OfNext (Safe s₀) (execRep length count s) := h.breusRow keepsShape_bRep
theorem Safe.execReps {s a length} (h : Safe s₀ s) : OfNext (Safe s₀) (execReps a length s) := h.breusRow keepsShape_bReps
theorem Safe.execLdk {s d k} (h : Safe s₀ s) : OfNext (Safe s₀) (execLdk d k s) := h.breusRow keepsShape_bLdk
theorem Safe.execLdkx {s d a} (h : Safe s₀ s) : OfNext (Safe s₀) (execLdkx d a s) := h.breusRow keepsShape_bLdkx
theorem Safe.execSli {s d imm} (h : Safe s₀ s) : OfNext (Safe s₀) (execSli d imm s) := h.breusRow keepsShape_bS
theorem Safe.execSadd {s d a b} (h : Safe s₀ s) : OfNext (Safe s₀) (execSadd d a b s) := h.breusRow keepsShape_bSS
theorem Safe.execSaddi {s d a imm} (h : Safe s₀ s) : OfNext (Safe s₀) (execSaddi d a imm s) := h.breusRow keepsShape_bS
theorem Safe.execSsub {s d a b} (h : Safe s₀ s) : OfNext (Safe s₀) (execSsub d a b s) := h.breusRow keepsShape_bSS
theorem Safe.execSmul {s d a b} (h : Safe s₀ s) : OfNext (Safe s₀) (execSmul d a b s) := h.breusRow keepsShape_bSS
theorem Safe.execSand {s d a b} (h : Safe s₀ s) : OfNext (Safe s₀) (execSand d a b s) := h.breusRow keepsShape_bSS
theorem Safe.execSor {s d a b} (h : Safe s₀ s) : OfNext (Safe s₀) (execSor d a b s) := h.breusRow keepsShape_bSS
theorem Safe.execSxor {s d a b} (h : Safe s₀ s) : OfNext (Safe s₀) (execSxor d a b s) := h.breusRow keepsShape_bSS
theorem Safe.execSsh {s d a b kind} (h : Safe s₀ s) : OfNext (Safe s₀) (execSsh d a b kind s) := h.breusRow keepsShape_bSS
theorem Safe.execSshi {s d a kind amount} (h : Safe s₀ s) : OfNext (Safe s₀) (execSshi d a kind amount s) := h.breusRow keepsShape_bS
theorem Safe.execSmin {s d a b} (h : Safe s₀ s) : OfNext (Safe s₀) (execSmin d a b s) := h.breusRow keepsShape_bSS
theorem Safe.execSmax {s d a b} (h : Safe s₀ s) : OfNext (Safe s₀) (execSmax d a b s) := h.breusRow keepsShape_bSS
theorem Safe.execSminu {s d a b} (h : Safe s₀ s) : OfNext (Safe s₀) (execSminu d a b s) := h.breusRow keepsShape_bSS
theorem Safe.execSmaxu {s d a b} (h : Safe s₀ s) : OfNext (Safe s₀) (execSmaxu d a b s) := h.breusRow keepsShape_bSS
theorem Safe.execSslt {s d a b} (h : Safe s₀ s) : OfNext (Safe s₀) (execSslt d a b s) := h.breusRow keepsShape_bSS
theorem Safe.execSsltu {s d a b} (h : Safe s₀ s) : OfNext (Safe s₀) (execSsltu d a b s) := h.breusRow keepsShape_bSS
theorem Safe.execVadd {s d a b} (h : Safe s₀ s) : OfNext (Safe s₀) (execVadd d a b s) := h.breusRow keepsShape_bVV
theorem Safe.execVsub {s d a b} (h : Safe s₀ s) : OfNext (Safe s₀) (execVsub d a b s) := h.breusRow keepsShape_bVV
theorem Safe.execVmul {s d a b} (h : Safe s₀ s) : OfNext (Safe s₀) (execVmul d a b s) := h.breusRow keepsShape_bVV
theorem Safe.execVdiv {s d a b} (h : Safe s₀ s) : OfNext (Safe s₀) (execVdiv d a b s) := h.breusRow keepsShape_bVV
theorem Safe.execVmax {s d a b} (h : Safe s₀ s) : OfNext (Safe s₀) (execVmax d a b s) := h.breusRow keepsShape_bVV
theorem Safe.execVmin {s d a b} (h : Safe s₀ s) : OfNext (Safe s₀) (execVmin d a b s) := h.breusRow keepsShape_bVV
theorem Safe.execVabs {s d a} (h : Safe s₀ s) : OfNext (Safe s₀) (execVabs d a s) := h.breusRow keepsShape_bV1
theorem Safe.execVneg {s d a} (h : Safe s₀ s) : OfNext (Safe s₀) (execVneg d a s) := h.breusRow keepsShape_bV1
theorem Safe.execVexp {s d a} (h : Safe s₀ s) : OfNext (Safe s₀) (execVexp d a s) := h.breusRow keepsShape_bV1
theorem Safe.execVtanh {s d a} (h : Safe s₀ s) : OfNext (Safe s₀) (execVtanh d a s) := h.breusRow keepsShape_bV1
theorem Safe.execVsel {s d a b p} (h : Safe s₀ s) : OfNext (Safe s₀) (execVsel d a b p s) := h.breusRow keepsShape_bVsel
theorem Safe.execVldk {s d k} (h : Safe s₀ s) : OfNext (Safe s₀) (execVldk d k s) :=
  h.breusRow (keepsShape_bV fun _ _ => List.length_replicate)
theorem Safe.execVbcst {s d a} (h : Safe s₀ s) : OfNext (Safe s₀) (execVbcst d a s) := h.breusRow keepsShape_bVbcst
theorem Safe.execVbcsti {s d a} (h : Safe s₀ s) : OfNext (Safe s₀) (execVbcsti d a s) :=
  h.breusRow (keepsShape_bV fun _ _ => List.length_replicate)
theorem Safe.execVlane {s d} (h : Safe s₀ s) : OfNext (Safe s₀) (execVlane d s) :=
  h.breusRow (keepsShape_bV fun _ _ => by rw [List.length_map, List.length_range])
theorem Safe.execVext {s d a lane} (h : Safe s₀ s) : OfNext (Safe s₀) (execVext d a lane s) := h.breusRow keepsShape_bS
theorem Safe.execVredadd {s d a p} (h : Safe s₀ s) : OfNext (Safe s₀) (execVredadd d a p s) := h.breusRow keepsShape_bVredadd
theorem Safe.execVredmax {s d a p} (h : Safe s₀ s) : OfNext (Safe s₀) (execVredmax d a p s) := h.breusRow keepsShape_bVredmax
theorem Safe.execPcmp {s d a b cond} (h : Safe s₀ s) : OfNext (Safe s₀) (execPcmp d a b cond s) := h.breusRow keepsShape_bPcmp
theorem Safe.execPlog {s d a b op} (h : Safe s₀ s) : OfNext (Safe s₀) (execPlog d a b op s) := h.breusRow keepsShape_bP
theorem Safe.execPnot {s d a} (h : Safe s₀ s) : OfNext (Safe s₀) (execPnot d a s) := h.breusRow keepsShape_bP
theorem Safe.execPrange {s d a b} (h : Safe s₀ s) : OfNext (Safe s₀) (execPrange d a b s) := h.breusRow keepsShape_bPrange
theorem Safe.execPcnt {s d a} (h : Safe s₀ s) : OfNext (Safe s₀) (execPcnt d a s) := h.breusRow keepsShape_bS

end Sys2Proof.Machine
end

section
/-!
Each operation of Machine/CmdModule.lean keeps the queue and the invariant: module commands.
-/
namespace Sys2Proof.Machine

variable {s₀ : State}

theorem Safe.cmdGetInterfaceVersion {s x} (h : Safe s₀ s) : OfOk (OfOut (Safe s₀)) (cmdGetInterfaceVersion x s) := OfOk.leaf h.outDone
theorem Safe.cmdSetInterfaceVersion {s x} (h : Safe s₀ s) : OfOk (OfOut (Safe s₀)) (cmdSetInterfaceVersion x s) :=
  OfOk.after fun _ => OfOk.after fun _ => OfOk.pure h.modMbox.outDone
theorem Safe.cmdModuleInfo {s x} (h : Safe s₀ s) : OfOk (OfOut (Safe s₀)) (cmdModuleInfo x s) := OfOk.leaf h.outDone
theorem Safe.modCfg {s f} (h : Safe s₀ s) : Safe s₀ (s.modCfg f) := h.lit
theorem Safe.lentChange {s x v} (h : Safe s₀ s) : OfOk (OfOut (Safe s₀)) (lentChange x s v) :=
  OfOk.after fun _ => OfOk.ite (OfOk.pure h.modStore.outWait) (OfOk.ite (OfOk.pure h.outDone) (OfOk.after fun _ =>
    OfOk.pure h.lentBegin.outWait))
theorem Safe.cmdModuleConfigure {s x} (h : Safe s₀ s) : OfOk (OfOut (Safe s₀)) (cmdModuleConfigure x s) := by
  unfold Machine.cmdModuleConfigure
  extract_lets v sessions prev prev1 s1 base s11 stop start low res s12
  split
  · exact OfOk.after fun _ => OfOk.pure h.modCfg.outDone
  · exact OfOk.after fun _ => OfOk.pure h.modCfg.outDone
  · exact OfOk.after fun _ => OfOk.pure h.writeResponse.lit.modCfg.modMbox.outWait
  · exact OfOk.after fun _ => OfOk.after fun _ => OfOk.pure h.modCfg.outDone
  · exact OfOk.after fun _ => OfOk.pure h.modCfg.noteLow.outDone
  · exact h.lentChange
  · exact OfOk.after fun _ => OfOk.pure h.modCfg.outDone
  · exact OfOk.after fun _ => OfOk.pure h.modCfg.outDone
  · exact OfOk.refuse
theorem Safe.cmdLdConfigure {s x} (h : Safe s₀ s) : OfOk (OfOut (Safe s₀)) (cmdLdConfigure x s) :=
  OfOk.after fun _ => OfOk.after fun _ => OfOk.after fun _ => OfOk.pure h.setMbox.outDone
theorem Safe.cmdMailboxBind {s x} (h : Safe s₀ s) : OfOk (OfOut (Safe s₀)) (cmdMailboxBind x s) := by
  unfold Machine.cmdMailboxBind
  extract_lets m depth fl tag old b n goOn
  split
  · exact OfOk.after fun _ => OfOk.after fun _ => OfOk.after fun _ => OfOk.ite (OfOk.after fun _ => h.takeSlots.found.bindOf fun _ h1 =>
        h1.takeSlots.found.bindOf fun _ h2 => h2.mapArea.found.bindOf fun _ h3 => h3.mapArea.found.bindOf fun _ h4 =>
          OfOk.pure h4.writeResponse.lit.dropArea.dropArea.modMbox.outWait) (OfOk.after fun _ => OfOk.after fun _ =>
            h.newRing.within.bindOf fun _ h5 => h5.newRing.within.bindOf fun _ h6 => OfOk.pure h6.setMbox.outDone)
  · exact OfOk.after fun _ => OfOk.after fun _ => OfOk.after fun _ => OfOk.ite (OfOk.after fun _ => h.takeSlots.found.bindOf fun _ h1 =>
        h1.takeSlots.found.bindOf fun _ h2 => h2.mapArea.found.bindOf fun _ h3 => h3.mapArea.found.bindOf fun _ h4 =>
          OfOk.pure h4.writeResponse.lit.dropArea.dropArea.modMbox.outWait) (OfOk.after fun _ => OfOk.after fun _ =>
            h.newRing.within.bindOf fun _ h5 => h5.newRing.within.bindOf fun _ h6 => OfOk.pure h6.setMbox.outDone)
theorem Safe.unbind {s m abort w} (h : Safe s₀ s) : Safe s₀ (s.unbind m abort w) := by
  unfold State.unbind
  extract_lets s1 s2 s3
  have hs2 : Safe s₀ s2 := safe_ite (safe_foldl (fun _ _ h1 => h1.completeCmd) _ h.modMbox) h.modMbox
  split
  · split
    · exact hs2.disableBox.answer
    · exact hs2.disableBox
  · exact hs2
theorem Safe.cmdMailboxUnbind {s x} (h : Safe s₀ s) : OfOk (OfOut (Safe s₀)) (cmdMailboxUnbind x s) :=
  OfOk.after fun _ => OfOk.after fun _ => OfOk.pure h.unbind.outWait
theorem Safe.rngRefusal {s} (h : Safe s₀ s) : OfOk (OfOut (Safe s₀)) (rngRefusal s) := OfOk.leaf h.raise.outEnded
theorem Safe.cmdTenantCreate {s x} (h : Safe s₀ s) : OfOk (OfOut (Safe s₀)) (cmdTenantCreate x s) := by
  unfold Machine.cmdTenantCreate
  extract_lets id quota bad t gen t1
  clear_value bad
  split
  · exact OfOk.error
  · exact OfOk.after fun _ => OfOk.ite h.rngRefusal (OfOk.pure h.lit.writeKeyStore.writeTenants.outDone)
theorem Safe.cmdQuotaSet {s x} (h : Safe s₀ s) : OfOk (OfOut (Safe s₀)) (cmdQuotaSet x s) :=
  OfOk.after fun _ => OfOk.after fun _ => OfOk.pure h.modTenant.writeTenants.outDone
theorem Safe.cmdTenantInfo {s x} (h : Safe s₀ s) : OfOk (OfOut (Safe s₀)) (cmdTenantInfo x s) :=
  OfOk.ite (OfOk.after fun _ => OfOk.pure h.output.outDone) (OfOk.after fun _ => OfOk.pure h.output.outDone)
theorem Safe.execGetInterfaceVersion {s m slot} (h : Safe s₀ s) : OfNext (Safe s₀) (execGetInterfaceVersion m slot s) :=
  h.cmdRow fun _ _ h1 => h1.cmdGetInterfaceVersion
theorem Safe.execSetInterfaceVersion {s m slot} (h : Safe s₀ s) : OfNext (Safe s₀) (execSetInterfaceVersion m slot s) :=
  h.cmdRow fun _ _ h1 => h1.cmdSetInterfaceVersion
theorem Safe.execModuleInfo {s m slot} (h : Safe s₀ s) : OfNext (Safe s₀) (execModuleInfo m slot s) :=
  h.cmdRow fun _ _ h1 => h1.cmdModuleInfo
theorem Safe.execModuleConfigure {s m slot} (h : Safe s₀ s) : OfNext (Safe s₀) (execModuleConfigure m slot s) :=
  h.cmdRow fun _ _ h1 => h1.cmdModuleConfigure
theorem Safe.execLdConfigure {s m slot} (h : Safe s₀ s) : OfNext (Safe s₀) (execLdConfigure m slot s) :=
  h.cmdRow fun _ _ h1 => h1.cmdLdConfigure
theorem Safe.execMailboxBind {s m slot} (h : Safe s₀ s) : OfNext (Safe s₀) (execMailboxBind m slot s) :=
  h.cmdRow fun _ _ h1 => h1.cmdMailboxBind
theorem Safe.execMailboxUnbind {s m slot} (h : Safe s₀ s) : OfNext (Safe s₀) (execMailboxUnbind m slot s) :=
  h.cmdRow fun _ _ h1 => h1.cmdMailboxUnbind
theorem Safe.execTenantCreate {s m slot} (h : Safe s₀ s) : OfNext (Safe s₀) (execTenantCreate m slot s) :=
  h.cmdRow fun _ _ h1 => h1.cmdTenantCreate
theorem Safe.execQuotaSet {s m slot} (h : Safe s₀ s) : OfNext (Safe s₀) (execQuotaSet m slot s) := h.cmdRow fun _ _ h1 => h1.cmdQuotaSet
theorem Safe.execTenantInfo {s m slot} (h : Safe s₀ s) : OfNext (Safe s₀) (execTenantInfo m slot s) :=
  h.cmdRow fun _ _ h1 => h1.cmdTenantInfo

end Sys2Proof.Machine
end

section
/-!
Each operation of Machine/CmdQueues.lean keeps the queue and the invariant: queue and trigger commands.
-/
namespace Sys2Proof.Machine

variable {s₀ : State}

theorem Safe.ring {s x bytes} (h : Safe s₀ s) : OfOk (fun r => Safe s₀ r.2.2) (Ctx.ring x s bytes) := h.newRing.within
theorem Safe.takeSlabs {s tag n} (h : Safe s₀ s) : OfOk (fun r => Safe s₀ r.2) (s.takeSlabs tag n) := by
  unfold State.takeSlabs
  refine OfOk.after fun _ => ?_
  split
  · exact OfOk.error
  · rename_i e
    exact OfOk.pure (h.takeSlots.elim e).charge.inSnd
theorem Safe.cmdCqCreate {s x} (h : Safe s₀ s) : OfOk (OfOut (Safe s₀)) (cmdCqCreate x s) :=
  OfOk.after fun _ => h.ring.bindOf fun _ h1 => h1.pick.found.bindOf fun _ h2 => OfOk.pure h2.modWork.outDone
theorem Safe.cmdCqDestroy {s x} (h : Safe s₀ s) : OfOk (OfOut (Safe s₀)) (cmdCqDestroy x s) :=
  OfOk.after fun _ => OfOk.after fun _ => OfOk.pure h.dropArea.credit.dropCq.outDone
theorem Safe.cmdJobQueueCreate {s x} (h : Safe s₀ s) : OfOk (OfOut (Safe s₀)) (cmdJobQueueCreate x s) :=
  OfOk.after fun _ => OfOk.after fun _ => OfOk.after fun _ => h.ring.bindOf fun _ h1 => h1.pick.found.bindOf fun _ h2 =>
    OfOk.pure h2.modWork.outDone
theorem Safe.destroyJq {s i waiter} (h : Safe s₀ s) : Safe s₀ (s.destroyJq i waiter) := by
  unfold State.destroyJq
  split
  · exact h
  · exact h.cancelIn.dropArea.credit.modJq.forgetJq.sourceGone
theorem Safe.cmdJobQueueDestroy {s x} (h : Safe s₀ s) : OfOk (OfOut (Safe s₀)) (cmdJobQueueDestroy x s) := by
  unfold Machine.cmdJobQueueDestroy
  extract_lets i
  refine OfOk.after fun _ => ?_
  split
  · rename_i e
    exact OfOk.pure (h.destroyJq.endQueue.ofSnd e).outDone
  · rename_i e
    exact OfOk.pure (h.destroyJq.endQueue.ofSnd e).outWait
theorem Safe.cmdJobCancel {s x} (h : Safe s₀ s) : OfOk (OfOut (Safe s₀)) (cmdJobCancel x s) := by
  unfold Machine.cmdJobCancel
  extract_lets i tag
  refine OfOk.after fun _ => ?_
  split
  next e => exact OfOk.pure (h.cancelIn.ofSnd e).outDone
theorem Safe.cmdCombineRelease {s x} (h : Safe s₀ s) : OfOk (OfOut (Safe s₀)) (cmdCombineRelease x s) :=
  OfOk.after fun _ => OfOk.after fun _ => OfOk.pure h.releaseCombine.answerQueue.outDone
theorem Safe.cmdQueueStatus {s x} (h : Safe s₀ s) : OfOk (OfOut (Safe s₀)) (cmdQueueStatus x s) :=
  OfOk.after fun _ => OfOk.ite (OfOk.after fun _ => OfOk.after fun _ => OfOk.pure h.outDone) (OfOk.after fun _ => OfOk.pure h.outDone)
theorem Safe.cmdTriggerListCreate {s x} (h : Safe s₀ s) : OfOk (OfOut (Safe s₀)) (cmdTriggerListCreate x s) := by
  unfold Machine.cmdTriggerListCreate
  extract_lets store staging depth n
  exact OfOk.after fun _ => OfOk.after fun _ => OfOk.after fun _ => OfOk.after fun _ => h.ring.bindOf fun _ h1 =>
      h1.takeSlabs.within.bindOf fun _ h2 => h2.takeSlabs.within.bindOf fun _ h3 => h3.pick.found.bindOf fun _ h4 =>
        OfOk.pure h4.modWork.outDone
theorem Safe.cmdTriggerListDestroy {s x} (h : Safe s₀ s) : OfOk (OfOut (Safe s₀)) (cmdTriggerListDestroy x s) :=
  OfOk.after fun _ => OfOk.pure h.destroyList.outDone
theorem Safe.cmdTriggerPost {s x} (h : Safe s₀ s) : OfOk (OfOut (Safe s₀)) (cmdTriggerPost x s) :=
  OfOk.after fun _ => h.postEntry.within.bindOf fun _ h1 => OfOk.pure h1.outDone
theorem Safe.cmdTriggerCancel {s x} (h : Safe s₀ s) : OfOk (OfOut (Safe s₀)) (cmdTriggerCancel x s) :=
  OfOk.after fun _ => OfOk.pure h.removeEntry.outDone
theorem Safe.cmdTriggerResume {s x} (h : Safe s₀ s) : OfOk (OfOut (Safe s₀)) (cmdTriggerResume x s) :=
  OfOk.after fun _ => OfOk.after fun _ => OfOk.pure h.modWork.outDone
theorem Safe.execCqCreate {s m slot} (h : Safe s₀ s) : OfNext (Safe s₀) (execCqCreate m slot s) := h.cmdRow fun _ _ h1 => h1.cmdCqCreate
theorem Safe.execCqDestroy {s m slot} (h : Safe s₀ s) : OfNext (Safe s₀) (execCqDestroy m slot s) :=
  h.cmdRow fun _ _ h1 => h1.cmdCqDestroy
theorem Safe.execJobQueueCreate {s m slot} (h : Safe s₀ s) : OfNext (Safe s₀) (execJobQueueCreate m slot s) :=
  h.cmdRow fun _ _ h1 => h1.cmdJobQueueCreate
theorem Safe.execJobQueueDestroy {s m slot} (h : Safe s₀ s) : OfNext (Safe s₀) (execJobQueueDestroy m slot s) :=
  h.cmdRow fun _ _ h1 => h1.cmdJobQueueDestroy
theorem Safe.execJobCancel {s m slot} (h : Safe s₀ s) : OfNext (Safe s₀) (execJobCancel m slot s) :=
  h.cmdRow fun _ _ h1 => h1.cmdJobCancel
theorem Safe.execCombineRelease {s m slot} (h : Safe s₀ s) : OfNext (Safe s₀) (execCombineRelease m slot s) :=
  h.cmdRow fun _ _ h1 => h1.cmdCombineRelease
theorem Safe.execQueueStatus {s m slot} (h : Safe s₀ s) : OfNext (Safe s₀) (execQueueStatus m slot s) :=
  h.cmdRow fun _ _ h1 => h1.cmdQueueStatus
theorem Safe.execTriggerListCreate {s m slot} (h : Safe s₀ s) : OfNext (Safe s₀) (execTriggerListCreate m slot s) :=
  h.cmdRow fun _ _ h1 => h1.cmdTriggerListCreate
theorem Safe.execTriggerListDestroy {s m slot} (h : Safe s₀ s) : OfNext (Safe s₀) (execTriggerListDestroy m slot s) :=
  h.cmdRow fun _ _ h1 => h1.cmdTriggerListDestroy
theorem Safe.execTriggerPost {s m slot} (h : Safe s₀ s) : OfNext (Safe s₀) (execTriggerPost m slot s) :=
  h.cmdRow fun _ _ h1 => h1.cmdTriggerPost
theorem Safe.execTriggerCancel {s m slot} (h : Safe s₀ s) : OfNext (Safe s₀) (execTriggerCancel m slot s) :=
  h.cmdRow fun _ _ h1 => h1.cmdTriggerCancel
theorem Safe.execTriggerResume {s m slot} (h : Safe s₀ s) : OfNext (Safe s₀) (execTriggerResume m slot s) :=
  h.cmdRow fun _ _ h1 => h1.cmdTriggerResume

end Sys2Proof.Machine
end

section
/-!
Each operation of Machine/PowerOps.lean keeps the queue and the invariant: wake sources.
-/
namespace Sys2Proof.Machine

variable {s₀ : State}

theorem Safe.modPower {s f} (h : Safe s₀ s) : Safe s₀ (s.modPower f) := h.lit
theorem Safe.enter {s towards} (h : Safe s₀ s) : Safe s₀ (s.enter towards) := by
  unfold State.enter
  exact h.modPower.raise
theorem Safe.metWake {s src} (h : Safe s₀ s) : Safe s₀ (s.metWake src) := safe_ite h.modPower (safe_ite h.modPower h)
theorem Safe.holdRequest {s r} (h : Safe s₀ s) : Safe s₀ (s.holdRequest r) := h.lit.metWake

end Sys2Proof.Machine
end

section
/-!
Each operation of Machine/Link.lean keeps the queue and the invariant: the link layer of a port.
-/
namespace Sys2Proof.Machine

variable {s₀ : State}

theorem Safe.discard {s why} (h : Safe s₀ s) : Safe s₀ (s.discard why) := h.modFlyer
theorem Safe.discardAuth {s i x} (h : Safe s₀ s) : Safe s₀ (s.discardAuth i x) := safe_ite h.discard.modFlyer.raise h.discard.modFlyer
theorem Safe.strayNak {s port pathTag sess h'} (h : Safe s₀ s) : Safe s₀ (s.strayNak port pathTag sess h') := h.queueFrame.kickAll
theorem Safe.placeWrite {s tag key at' p} (h : Safe s₀ s) : Safe s₀ (s.placeWrite tag key at' p).2 := by
  unfold State.placeWrite
  split
  · exact h.inSnd
  · exact safe_ite_snd h.inSnd (safe_ite_snd h.inSnd (safe_ite_snd h.bufWrite.inSnd h.inSnd))
theorem Safe.record {s c k h' p response} (h : Safe s₀ s) : Safe s₀ (s.record c k h' p response) := by
  unfold State.record
  extract_lets op seq off old fresh r
  split
  · exact h.discard
  · exact safe_ite h.discard (safe_ite h.discard (safe_ite (safe_ite_snd h.placeWrite h.inSnd).modFlyer.modConn
        (safe_ite_snd h.placeWrite h.inSnd).modFlyer))
theorem Safe.duplicate {s c k h' p} (h : Safe s₀ s) : Safe s₀ (s.duplicate c k h' p) := by
  unfold State.duplicate
  extract_lets op seq
  split
  · split
    · exact h.respond
    · exact h.sendAck
  · split
    · split
      · rename_i e
        exact (h.readFor.ofSnd3 e).respond
      · rename_i e
        exact (h.readFor.ofSnd3 e).sendNak
    · exact h.sendAck
theorem Safe.connPacket {s c k h' p} (h : Safe s₀ s) : Safe s₀ (s.connPacket c k h' p) := by
  unfold State.connPacket
  extract_lets op seq d
  split
  · exact safe_ite h h.modConn
  · split
    · exact h.sendNak
    · split
      · split
        · exact safe_ite h.record h.discard
        · exact h.discard
      · exact safe_ite h.duplicate (safe_ite h.discard h.record)
theorem Safe.acceptPacket {s port f} (h : Safe s₀ s) : Safe s₀ (s.acceptPacket port f) := by
  unfold State.acceptPacket
  extract_lets tci outer h1 n ct tag sess phase count src op
  split
  · exact h.discard
  · split
    · exact h
    · split
      · exact h.discard
      · extract_lets gen x x1 s1
        split
        · exact h.discardAuth
        · split
          · exact h.discardAuth
          · split
            · exact h.discardAuth
            · split
              · exact h.modFlyer.discard
              · split
                · exact h.modFlyer.connPacket
                · exact safe_ite h.modFlyer.discard h.modFlyer.strayNak
theorem Safe.linkAck {s p} (h : Safe s₀ s) : Safe s₀ (s.linkAck p) := safe_ite h h.setPort.control
theorem Safe.passUnits {s p n} (h : Safe s₀ s) : Safe s₀ (s.passUnits p n) := by
  unfold State.passUnits
  extract_lets x
  split
  · exact h
  · exact safe_ite h.setPort (safe_ite (safe_ite h.setPort h.setPort.setFlag).portToDown
        (safe_ite h.setPort h.setPort.setFlag).refreshLevel).kick
theorem Safe.linkFrame {s p f uncorrectable} (h : Safe s₀ s) : Safe s₀ (s.linkFrame p f uncorrectable) :=
  safe_ite (safe_ite h.setFlag h).setPort.control (safe_ite (safe_ite h.setFlag h).setPort.linkAck
    (safe_ite h.setFlag h).setPort).acceptPacket
theorem Safe.portRow {s p} (h : Safe s₀ s) : OfNext (Safe s₀) (portRow p s) := OfNext.ite (OfNext.leaf h) OfNext.fault
theorem Safe.execLinkFrameReceive {s p f uncorrectable} (h : Safe s₀ s) : OfNext (Safe s₀) (execLinkFrameReceive p f uncorrectable s) :=
  (safe_ite h.modPower (safe_ite h.linkFrame.passUnits h)).portRow
theorem Safe.execLinkAckReceive {s p lseq} (h : Safe s₀ s) : OfNext (Safe s₀) (execLinkAckReceive p lseq s) :=
  (safe_ite h.setPort.kick h).portRow
theorem Safe.replayFrom {s p frames} (h : Safe s₀ s) : Safe s₀ (s.replayFrom p frames) :=
  safe_ite h (safe_ite h.startRetrain (safe_foldl (fun _ _ h1 => h1.emit) _ h).setPort)
theorem Safe.execReplayReqReceive {s p lseq} (h : Safe s₀ s) : OfNext (Safe s₀) (execReplayReqReceive p lseq s) := h.replayFrom.portRow
theorem Safe.execLinkAckTimer {s p} (h : Safe s₀ s) : OfNext (Safe s₀) (execLinkAckTimer p s) := by
  unfold Machine.execLinkAckTimer
  refine Safe.portRow ?_
  split
  · exact safe_ite h.linkAck h
  · exact h
theorem Safe.execLinkReplayTimeout {s p} (h : Safe s₀ s) : OfNext (Safe s₀) (execLinkReplayTimeout p s) := (safe_ite h.replayFrom h).portRow
theorem Safe.execRetrainLimitExpiry {s p} (h : Safe s₀ s) : OfNext (Safe s₀) (execRetrainLimitExpiry p s) :=
  (safe_ite h.portToDown h).portRow
theorem Safe.execPortRetrainComplete {s p} (h : Safe s₀ s) : OfNext (Safe s₀) (execPortRetrainComplete p s) :=
  (safe_ite h.setPort.refreshLevel.kick h).portRow
theorem Safe.execSwitchReceive {s p map units} (h : Safe s₀ s) : OfNext (Safe s₀) (execSwitchReceive p map units s) :=
  (safe_ite h.setPort.passUnits h).portRow
theorem Safe.execWavelengthFailure {s p wl} (h : Safe s₀ s) : OfNext (Safe s₀) (execWavelengthFailure p wl s) :=
  OfNext.ite OfNext.fault (safe_ite h.dropWavelength.kick (safe_ite h h.setPort)).portRow
theorem Safe.execLaserBankFailure {s p} (h : Safe s₀ s) : OfNext (Safe s₀) (execLaserBankFailure p s) :=
  (safe_ite (safe_ite h.setPort h.setPort) h.setPort.portToDown).portRow
theorem Safe.execLaserFailoverComplete {s p} (h : Safe s₀ s) : OfNext (Safe s₀) (execLaserFailoverComplete p s) :=
  (safe_ite h.setPort.setFlag.kick h).portRow
theorem Safe.execLossOfLight {s p} (h : Safe s₀ s) : OfNext (Safe s₀) (execLossOfLight p s) := (safe_ite h.setPort h).portRow
theorem Safe.execLightReturn {s p} (h : Safe s₀ s) : OfNext (Safe s₀) (execLightReturn p s) := (safe_ite h.setPort.kick h).portRow
theorem Safe.execLossOfLightExpiry {s p} (h : Safe s₀ s) : OfNext (Safe s₀) (execLossOfLightExpiry p s) :=
  (safe_ite h.startRetrain h).portRow
theorem Safe.execWakeRequestReceive {s p node} (h : Safe s₀ s) : OfNext (Safe s₀) (execWakeRequestReceive p node s) :=
  (safe_ite h.modPower (safe_ite (safe_ite h.metWake h).control h)).portRow
theorem Safe.execResumedReceive {s p node} (h : Safe s₀ s) : OfNext (Safe s₀) (execResumedReceive p node s) := h.modPort.kick.portRow
theorem Safe.execEnteringLowRateReceive {s p node} (h : Safe s₀ s) : OfNext (Safe s₀) (execEnteringLowRateReceive p node s) := h.modPort.portRow
theorem Safe.execFrameTransmitEnd {s p} (h : Safe s₀ s) : OfNext (Safe s₀) (execFrameTransmitEnd p s) := h.modPort.kick.portRow
theorem Safe.execShaperTokenAccrual {s tid cls p} (h : Safe s₀ s) : OfNext (Safe s₀) (execShaperTokenAccrual tid cls p s) := h.kick.portRow
theorem Safe.execGateEntryChange {s p} (h : Safe s₀ s) : OfNext (Safe s₀) (execGateEntryChange p s) := (safe_ite h h.setPort.kick).portRow
theorem Safe.execGateListSwitch {s p} (h : Safe s₀ s) : OfNext (Safe s₀) (execGateListSwitch p s) := by
  unfold Machine.execGateListSwitch
  refine Safe.portRow ?_
  extract_lets x
  split
  · exact h
  · exact safe_ite h.setPort.setFlag.kick h
theorem Safe.writeTele {s port x key t} (h : Safe s₀ s) : Safe s₀ (s.writeTele port x key t) :=
  safe_ite h.modFlyer.setFlag (h.litMem Mem.wf_areaWrite).modFlyer
theorem Safe.execSamplePeriodBoundary {s} (h : Safe s₀ s) : OfNext (Safe s₀) (execSamplePeriodBoundary s) := by
  unfold Machine.execSamplePeriodBoundary
  extract_lets y s1 s2
  have hs1 : Safe s₀ s1 := safe_foldl (fun _ _ h1 => safe_foldl (fun _ _ h2 => h2.writeTele) _ h1) _ h
  have hs2 : Safe s₀ s2 := safe_foldl (fun _ _ h1 => h1.modPort) _ hs1
  exact OfNext.ite (OfNext.leaf h) (OfNext.leaf hs2.modFlyer)

end Sys2Proof.Machine
end

section
/-!
Each operation of Machine/CmdFlyer.lean keeps the queue and the invariant: flyer commands.
-/
namespace Sys2Proof.Machine

variable {s₀ : State}

theorem Safe.cmdConnCreate {s x} (h : Safe s₀ s) : OfOk (OfOut (Safe s₀)) (cmdConnCreate x s) :=
  OfOk.after fun _ => OfOk.after fun _ => OfOk.after fun _ => OfOk.after fun _ => OfOk.after fun _ => OfOk.after fun _ =>
    OfOk.after fun _ => OfOk.after fun _ => OfOk.after fun _ => OfOk.after fun _ => OfOk.after fun _ => OfOk.after fun _ =>
      OfOk.after fun _ => OfOk.after fun _ => OfOk.after fun _ => h.ring.bindOf fun _ h1 => h1.takeSlabs.within.bindOf fun _ h2 =>
        OfOk.pure h2.charge.modFlyer.outDone
theorem Safe.cmdConnModify {s x} (h : Safe s₀ s) : OfOk (OfOut (Safe s₀)) (cmdConnModify x s) := by
  unfold Machine.cmdConnModify
  extract_lets what paths
  exact OfOk.after fun _ => OfOk.after fun _ => OfOk.after fun _ => OfOk.after fun _ =>
      OfOk.pure (safe_ite (safe_ite h.modConn h).modConn (safe_ite h.modConn h)).outDone
theorem Safe.cmdConnDrain {s x} (h : Safe s₀ s) : OfOk (OfOut (Safe s₀)) (cmdConnDrain x s) :=
  OfOk.after fun _ => OfOk.after fun _ => OfOk.pure h.modConn.settle.outWait
theorem Safe.cmdConnDestroy {s x} (h : Safe s₀ s) : OfOk (OfOut (Safe s₀)) (cmdConnDestroy x s) := by
  unfold Machine.cmdConnDestroy
  refine OfOk.after fun _ => OfOk.after fun _ => OfOk.pure (Safe.outWait (Safe.settle (safe_foldl (fun _ _ h1 => h1.endUnsent) _ ?_)))
  split
  · exact h.modConn.endWaitSq
  · exact h.modConn
theorem Safe.cmdSrqCreate {s x} (h : Safe s₀ s) : OfOk (OfOut (Safe s₀)) (cmdSrqCreate x s) :=
  OfOk.after fun _ => h.ring.bindOf fun _ h1 => h1.pick.found.bindOf fun _ h2 => OfOk.pure h2.modFlyer.outDone
theorem Safe.cmdSrqDestroy {s x} (h : Safe s₀ s) : OfOk (OfOut (Safe s₀)) (cmdSrqDestroy x s) :=
  OfOk.after fun _ => OfOk.after fun _ => OfOk.pure h.dropArea.credit.modFlyer.outDone
theorem Safe.cmdRegionRegister {s x} (h : Safe s₀ s) : OfOk (OfOut (Safe s₀)) (cmdRegionRegister x s) := by
  unfold Machine.cmdRegionRegister
  extract_lets kind rights len enter
  have hen : ∀ r, Safe s₀ r.2.2 → OfOk (OfOut (Safe s₀)) (enter r) := fun r hr =>
    OfOk.after fun _ => OfOk.pure hr.charge.modFlyer.outDone
  iterate 4 refine OfOk.after fun _ => ?_
  exact OfOk.ite (h.ring.bindOf hen) (hen ([], 0, s) h)
theorem Safe.endRegion {s i r} (h : Safe s₀ s) : Safe s₀ (s.endRegion i r) := by
  unfold State.endRegion
  exact (safe_foldl (fun _ _ h1 => h1.leaveSlot) _ h.lit).credit.credit.modFlyer
theorem Safe.cmdRegionDeregister {s x} (h : Safe s₀ s) : OfOk (OfOut (Safe s₀)) (cmdRegionDeregister x s) :=
  OfOk.after fun _ => OfOk.pure h.endRegion.outDone
theorem Safe.cmdLinkSpare {s x} (h : Safe s₀ s) : OfOk (OfOut (Safe s₀)) (cmdLinkSpare x s) :=
  OfOk.after fun _ => OfOk.after fun _ => OfOk.after fun _ => OfOk.after fun _ => OfOk.pure h.dropWavelength.outDone
theorem Safe.cmdPortConfigure {s x} (h : Safe s₀ s) : OfOk (OfOut (Safe s₀)) (cmdPortConfigure x s) :=
  OfOk.after fun _ => OfOk.after fun _ => OfOk.pure h.modPort.outDone
theorem Safe.cmdShaperSet {s x} (h : Safe s₀ s) : OfOk (OfOut (Safe s₀)) (cmdShaperSet x s) :=
  OfOk.after fun _ => OfOk.after fun _ => OfOk.after fun _ => OfOk.after fun _ => OfOk.pure h.modFlyer.kickAll.outDone
theorem Safe.cmdGateSet {s x} (h : Safe s₀ s) : OfOk (OfOut (Safe s₀)) (cmdGateSet x s) := by
  unfold Machine.cmdGateSet
  extract_lets p ws g goOn
  split
  · exact OfOk.after fun _ => OfOk.after fun _ => OfOk.after fun _ => OfOk.after fun _ => OfOk.after fun _ => OfOk.after fun _ =>
        OfOk.pure h.modPort.outDone
  · exact OfOk.after fun _ => OfOk.after fun _ => OfOk.after fun _ => OfOk.after fun _ => OfOk.after fun _ => OfOk.pure h.modPort.outDone
theorem Safe.execConnCreate {s m slot} (h : Safe s₀ s) : OfNext (Safe s₀) (execConnCreate m slot s) :=
  h.cmdRow fun _ _ h1 => h1.cmdConnCreate
theorem Safe.execConnModify {s m slot} (h : Safe s₀ s) : OfNext (Safe s₀) (execConnModify m slot s) :=
  h.cmdRow fun _ _ h1 => h1.cmdConnModify
theorem Safe.execConnDrain {s m slot} (h : Safe s₀ s) : OfNext (Safe s₀) (execConnDrain m slot s) :=
  h.cmdRow fun _ _ h1 => h1.cmdConnDrain
theorem Safe.execConnDestroy {s m slot} (h : Safe s₀ s) : OfNext (Safe s₀) (execConnDestroy m slot s) :=
  h.cmdRow fun _ _ h1 => h1.cmdConnDestroy
theorem Safe.execSrqCreate {s m slot} (h : Safe s₀ s) : OfNext (Safe s₀) (execSrqCreate m slot s) :=
  h.cmdRow fun _ _ h1 => h1.cmdSrqCreate
theorem Safe.execSrqDestroy {s m slot} (h : Safe s₀ s) : OfNext (Safe s₀) (execSrqDestroy m slot s) :=
  h.cmdRow fun _ _ h1 => h1.cmdSrqDestroy
theorem Safe.execRegionRegister {s m slot} (h : Safe s₀ s) : OfNext (Safe s₀) (execRegionRegister m slot s) :=
  h.cmdRow fun _ _ h1 => h1.cmdRegionRegister
theorem Safe.execRegionDeregister {s m slot} (h : Safe s₀ s) : OfNext (Safe s₀) (execRegionDeregister m slot s) :=
  h.cmdRow fun _ _ h1 => h1.cmdRegionDeregister
theorem Safe.execLinkSpare {s m slot} (h : Safe s₀ s) : OfNext (Safe s₀) (execLinkSpare m slot s) :=
  h.cmdRow fun _ _ h1 => h1.cmdLinkSpare
theorem Safe.execPortConfigure {s m slot} (h : Safe s₀ s) : OfNext (Safe s₀) (execPortConfigure m slot s) :=
  h.cmdRow fun _ _ h1 => h1.cmdPortConfigure
theorem Safe.execShaperSet {s m slot} (h : Safe s₀ s) : OfNext (Safe s₀) (execShaperSet m slot s) :=
  h.cmdRow fun _ _ h1 => h1.cmdShaperSet
theorem Safe.execGateSet {s m slot} (h : Safe s₀ s) : OfNext (Safe s₀) (execGateSet m slot s) := h.cmdRow fun _ _ h1 => h1.cmdGateSet

end Sys2Proof.Machine
end

section
/-!
Each operation of Machine/FirmwareOps.lean keeps the queue and the invariant: marorvo images.
-/
namespace Sys2Proof.Machine

variable {s₀ : State}

theorem Safe.runImage {s i} (h : Safe s₀ s) : Safe s₀ (s.runImage i) := h.lit
theorem Safe.openBox0 {s} (h : Safe s₀ s) : Safe s₀ s.openBox0 := by
  unfold State.openBox0
  split
  · exact h
  · rename_i e
    exact (h.takeSlots.elim e).lit.setMbox

end Sys2Proof.Machine
end

section
/-!
Each operation of Machine/Shutdown.lean keeps the queue and the invariant: what outlives a loss of DRAM.
-/
namespace Sys2Proof.Machine

variable {s₀ : State}

theorem Safe.checkpoint {s} (h : Safe s₀ s) : Safe s₀ s.checkpoint := by
  unfold State.checkpoint
  exact h.modCreel
theorem Safe.flush {s} (h : Safe s₀ s) : Safe s₀ s.flush := by
  unfold State.flush
  exact h.free.modCreel
/-- What a loss of the volatile state leaves: the creel's memory and an idle invocation (R514). -/
theorem Safe.lose {s} (h : Safe s₀ s) : Safe s₀ s.lose :=
  ⟨h.queue, fun k => ⟨Mem.wf_filter (h.holds k).1, rfl⟩⟩
theorem Safe.stop {s} (h : Safe s₀ s) : Safe s₀ s.stop := by
  unfold State.stop
  exact (safe_ite h.flush h).lit.lose.modPower
theorem Safe.cutPower {s cause} (h : Safe s₀ s) : Safe s₀ (s.cutPower cause) := safe_ite h h.stop.lit.modPower
theorem Safe.cancelAll {s} (h : Safe s₀ s) : Safe s₀ s.cancelAll :=
  safe_foldl (fun _ _ h2 => h2.releaseCombine) _ (safe_foldl (fun _ _ h1 => h1.endJob) _ h)
theorem Safe.standbySkein {s idx} (h : Safe s₀ s) : Safe s₀ (s.standbySkein idx) := by
  unfold State.standbySkein
  split
  · exact h
  · split
    · exact h
    · extract_lets keys s1
      have hs1 : Safe s₀ s1 := safe_foldl (fun _ _ h1 => h1.demote) _ h
      split
      · exact hs1
      · exact hs1.persistReel.setSkein.writeRecord
theorem Safe.toCreel {s} (h : Safe s₀ s) : Safe s₀ s.toCreel := (safe_foldl (fun _ _ h1 => h1.standbySkein) _ h.cancelAll).checkpoint
theorem Safe.standby {s} (h : Safe s₀ s) : Safe s₀ s.standby :=
  ⟨h.queue, fun k => ⟨Mem.wf_filter (h.holds k).1, rfl⟩⟩

end Sys2Proof.Machine
end

section
/-!
Each operation of Machine/CmdFw.lean keeps the queue and the invariant: firmware.
-/
namespace Sys2Proof.Machine

variable {s₀ : State}

theorem Safe.modBoot {s f} (h : Safe s₀ s) : Safe s₀ (s.modBoot f) := h.lit
theorem Safe.modSec {s f} (h : Safe s₀ s) : Safe s₀ (s.modSec f) := h.lit
theorem Safe.cmdFirmwareStage {s x} (h : Safe s₀ s) : OfOk (OfOut (Safe s₀)) (cmdFirmwareStage x s) := by
  unfold Machine.cmdFirmwareStage
  extract_lets off total n bytes s1 st s2 goOn
  split
  · exact OfOk.after fun _ => OfOk.after fun _ => OfOk.after fun _ =>
        OfOk.ite (OfOk.pure h.modBoot.outDone) (OfOk.ite (OfOk.pure h.modBoot.modBoot.modBoot.outDone)
          (OfOk.pure h.modBoot.modBoot.outEnded))
  · exact OfOk.after fun _ => OfOk.after fun _ => OfOk.after fun _ =>
        OfOk.ite (OfOk.pure h.modBoot.outDone) (OfOk.ite (OfOk.pure h.modBoot.modBoot.modBoot.outDone)
          (OfOk.pure h.modBoot.modBoot.outEnded))
theorem Safe.cmdFirmwareActivate {s readBackOk x} (h : Safe s₀ s) : OfOk (OfOut (Safe s₀)) (cmdFirmwareActivate readBackOk x s) := by
  unfold Machine.cmdFirmwareActivate
  extract_lets m s1 l
  exact OfOk.after fun _ => OfOk.after fun _ =>
      OfOk.ite (OfOk.pure h.modBoot.writeSystem.outDone) (OfOk.ite (OfOk.pure h.modBoot.writeSystem.raise.outEnded)
        (OfOk.pure h.modBoot.writeSystem.checkpoint.modBoot.outWait))
theorem Safe.endLive {s l ok} (h : Safe s₀ s) : Safe s₀ (s.endLive l ok) := h.modBoot.answer.raise.fetchAll
theorem Safe.execLiveActivationHandoff {s} (h : Safe s₀ s) : OfNext (Safe s₀) (execLiveActivationHandoff s) := by
  unfold Machine.execLiveActivationHandoff
  split
  · exact OfNext.ite (OfNext.leaf h.runImage.modBoot.endLive) (OfNext.leaf h)
  · exact OfNext.leaf h
theorem Safe.execLiveActivationBudgetExpiry {s} (h : Safe s₀ s) : OfNext (Safe s₀) (execLiveActivationBudgetExpiry s) := by
  unfold Machine.execLiveActivationBudgetExpiry
  split
  · exact OfNext.ite (OfNext.leaf h.endLive) (OfNext.leaf h)
  · exact OfNext.leaf h
theorem Safe.cmdFirmwareInfo {s x} (h : Safe s₀ s) : OfOk (OfOut (Safe s₀)) (cmdFirmwareInfo x s) := OfOk.leaf h.outDone
theorem Safe.cmdSvnCommit {s x} (h : Safe s₀ s) : OfOk (OfOut (Safe s₀)) (cmdSvnCommit x s) :=
  OfOk.after fun _ => OfOk.after fun _ => OfOk.pure h.modSec.outDone
theorem Safe.closeBatch {s} (h : Safe s₀ s) : Safe s₀ s.closeBatch := by
  unfold State.closeBatch
  split
  · exact h
  · extract_lets q n depth leaves now root msg sig left s1 s2 s3
    have hs2 : Safe s₀ s2 := safe_foldl (fun _ _ h1 => safe_ite h1.answer h1.windowWrite.answer) _ h.writeLmsIndex.modSec
    have hs3 : Safe s₀ s3 := safe_ite hs2.raise hs2
    exact safe_ite h (safe_ite hs3.raise hs3)
theorem Safe.openBatch {s} (h : Safe s₀ s) : Safe s₀ s.openBatch := safe_ite (safe_ite h.modSec.closeBatch h.modSec) h
theorem Safe.cmdAttestReport {s x} (h : Safe s₀ s) : OfOk (OfOut (Safe s₀)) (cmdAttestReport x s) := by
  unfold Machine.cmdAttestReport
  refine OfOk.after fun _ => OfOk.ite (OfOk.after fun _ => OfOk.after fun _ => ?_) (OfOk.after fun _ => OfOk.after fun _ => ?_)
  · extract_lets r
    split
    · exact OfOk.ite (OfOk.pure (safe_ite h.modSec.closeBatch h.modSec).outWait) (OfOk.pure h.modSec.outWait)
    · exact OfOk.pure h.modSec.openBatch.outWait
  · extract_lets r
    split
    · exact OfOk.ite (OfOk.pure (safe_ite h.modSec.closeBatch h.modSec).outWait) (OfOk.pure h.modSec.outWait)
    · exact OfOk.pure h.modSec.openBatch.outWait
theorem Safe.execBatchWindowOpen {s} (h : Safe s₀ s) : OfNext (Safe s₀) (execBatchWindowOpen s) := OfNext.leaf h.openBatch
theorem Safe.execBatchWindowClose {s} (h : Safe s₀ s) : OfNext (Safe s₀) (execBatchWindowClose s) := by
  unfold Machine.execBatchWindowClose
  split
  · exact OfNext.leaf (safe_ite h.closeBatch h)
  · exact OfNext.leaf h
theorem Safe.execBottomTreeBuilt {s} (h : Safe s₀ s) : OfNext (Safe s₀) (execBottomTreeBuilt s) := OfNext.leaf h.modSec
theorem Safe.execRngHealthFailure {s test} (h : Safe s₀ s) : OfNext (Safe s₀) (execRngHealthFailure test s) := OfNext.leaf h.modSec.raise
theorem Safe.withdraw {s c} (h : Safe s₀ s) : Safe s₀ (s.withdraw c) := safe_ite h.modPower h
theorem Safe.execCommandBoundExpiry {s m slot} (h : Safe s₀ s) : OfNext (Safe s₀) (execCommandBoundExpiry m slot s) := by
  unfold Machine.execCommandBoundExpiry
  split
  · exact OfNext.leaf h
  · split
    · exact OfNext.leaf h
    · exact OfNext.ite (OfNext.leaf h.withdraw.completeCmd.fetchAll) (OfNext.leaf h)
theorem Safe.execControlCoreWatchdog {s core} (h : Safe s₀ s) : OfNext (Safe s₀) (execControlCoreWatchdog core s) :=
  OfNext.ite OfNext.fault (OfNext.leaf (safe_foldl (fun _ _ h1 => safe_ite h1.free.withdraw.completeCmd h1.free) _ h.modBoot))
theorem Safe.execControlCoreRestart {s core} (h : Safe s₀ s) : OfNext (Safe s₀) (execControlCoreRestart core s) :=
  OfNext.ite OfNext.fault (OfNext.leaf h.modBoot.fetchAll)
theorem Safe.execFirmwareStage {s m slot} (h : Safe s₀ s) : OfNext (Safe s₀) (execFirmwareStage m slot s) :=
  h.cmdRow fun _ _ h1 => h1.cmdFirmwareStage
theorem Safe.execFirmwareActivate {s m slot readBackOk} (h : Safe s₀ s) : OfNext (Safe s₀) (execFirmwareActivate m slot readBackOk s) :=
  h.cmdRow fun _ _ h1 => h1.cmdFirmwareActivate
theorem Safe.execFirmwareInfo {s m slot} (h : Safe s₀ s) : OfNext (Safe s₀) (execFirmwareInfo m slot s) :=
  h.cmdRow fun _ _ h1 => h1.cmdFirmwareInfo
theorem Safe.execSvnCommit {s m slot} (h : Safe s₀ s) : OfNext (Safe s₀) (execSvnCommit m slot s) :=
  h.cmdRow fun _ _ h1 => h1.cmdSvnCommit
theorem Safe.execAttestReport {s m slot} (h : Safe s₀ s) : OfNext (Safe s₀) (execAttestReport m slot s) :=
  h.cmdRow fun _ _ h1 => h1.cmdAttestReport

end Sys2Proof.Machine
end

section
/-!
Each operation of Machine/Host.lean keeps the queue and the invariant: host accesses.
-/
namespace Sys2Proof.Machine

variable {s₀ : State}

theorem Safe.fromLd {ld r} (hr : OfNext (Safe s₀) r) : OfNext (Safe s₀) (fromLd ld r) := OfNext.ite hr trivial
theorem Safe.onPage {s ld m f} (h : Safe s₀ s) (hf : ∀ s, Safe s₀ s → Safe s₀ (f s)) : OfNext (Safe s₀) (onPage ld m s f) :=
  OfNext.ite (OfNext.leaf (safe_ite (hf s h) h)) trivial
theorem Safe.rejectDoorbell {s} (h : Safe s₀ s) : Safe s₀ s.rejectDoorbell := h.setFlag
theorem Safe.writeSqTail {s m v} (h : Safe s₀ s) : Safe s₀ (State.writeSqTail m v s) := safe_ite h.setMbox.fetchAll h.rejectDoorbell
theorem Safe.writeCqHead {s m v} (h : Safe s₀ s) : Safe s₀ (State.writeCqHead m v s) := safe_ite h.setMbox.fetchAll h.rejectDoorbell
theorem Safe.writeEventHead {s m v} (h : Safe s₀ s) : Safe s₀ (State.writeEventHead m v s) :=
  safe_ite h.setMbox.drainEvents h.rejectDoorbell
theorem Safe.execSqTailWrite {s ld m v} (h : Safe s₀ s) : OfNext (Safe s₀) (execSqTailWrite ld m v s) :=
  h.onPage fun _ h1 => h1.writeSqTail
theorem Safe.execCqHeadWrite {s ld m v} (h : Safe s₀ s) : OfNext (Safe s₀) (execCqHeadWrite ld m v s) :=
  h.onPage fun _ h1 => h1.writeCqHead
theorem Safe.execEventHeadWrite {s ld m v} (h : Safe s₀ s) : OfNext (Safe s₀) (execEventHeadWrite ld m v s) :=
  h.onPage fun _ h1 => h1.writeEventHead
theorem Safe.ringJq {s tag target value} (h : Safe s₀ s) : OfSome (Safe s₀) (ringJq s tag target value) := by
  unfold Machine.ringJq
  split
  · exact OfSome.ite (OfSome.leaf h.modWork) OfSome.none
  · exact OfSome.none
theorem Safe.ringSq {s tag target value} (h : Safe s₀ s) : OfSome (Safe s₀) (ringSq s tag target value) := by
  unfold Machine.ringSq
  split
  · exact OfSome.ite (OfSome.leaf h.modFlyer) OfSome.none
  · exact OfSome.none
theorem Safe.ringList {s tag target value} (h : Safe s₀ s) : OfSome (Safe s₀) (ringList s tag target value) := by
  unfold Machine.ringList
  split
  · exact OfSome.ite (OfSome.leaf h.postRing) OfSome.none
  · exact OfSome.none
theorem Safe.ringSrq {s tag target value} (h : Safe s₀ s) : OfSome (Safe s₀) (ringSrq s tag target value) := by
  unfold Machine.ringSrq
  split
  · exact OfSome.ite (OfSome.leaf h.modFlyer) OfSome.none
  · exact OfSome.none
theorem Safe.ringCq {s tag target value} (h : Safe s₀ s) : OfSome (Safe s₀) (ringCq s tag target value) := by
  unfold Machine.ringCq
  split
  · exact OfSome.ite (OfSome.leaf h.modCq.drainCq) OfSome.none
  · exact OfSome.none
theorem Safe.ringDoorbell {s m v} (h : Safe s₀ s) : Safe s₀ (s.ringDoorbell m v) := by
  unfold State.ringDoorbell
  extract_lets tag target value r
  have hr : OfSome (Safe s₀) r := by
    unfold r
    refine OfSome.ite trivial ?_
    split
    · exact h.ringJq
    · exact h.ringSq
    · exact h.ringList
    · exact h.ringSrq
    · exact h.ringCq
    · exact trivial
  clear_value r
  split
  · exact hr
  · exact h.rejectDoorbell
theorem Safe.latchDoorbell {s ld m v} (h : Safe s₀ s) : Safe s₀ (s.latchDoorbell ld m v) := safe_ite h.lit (safe_ite h.lit h.rejectDoorbell)
theorem Safe.writeDoorbell {s ld m v} (h : Safe s₀ s) : Safe s₀ (State.writeDoorbell ld m v s) :=
  safe_ite h.rejectDoorbell (safe_ite h.latchDoorbell h.ringDoorbell)
theorem Safe.applyLatch {s} (h : Safe s₀ s) : Safe s₀ s.applyLatch := safe_foldl (fun _ _ h1 => h1.ringDoorbell) _ h.lit
theorem Safe.execJobQueueDoorbell {s ld m v} (h : Safe s₀ s) : OfNext (Safe s₀) (execJobQueueDoorbell ld m v s) :=
  h.onPage fun _ h1 => h1.writeDoorbell
theorem Safe.execSendQueueDoorbell {s ld m v} (h : Safe s₀ s) : OfNext (Safe s₀) (execSendQueueDoorbell ld m v s) :=
  h.onPage fun _ h1 => h1.writeDoorbell
theorem Safe.execTriggerRingDoorbell {s ld m v} (h : Safe s₀ s) : OfNext (Safe s₀) (execTriggerRingDoorbell ld m v s) :=
  h.onPage fun _ h1 => h1.writeDoorbell
theorem Safe.execSrqDoorbell {s ld m v} (h : Safe s₀ s) : OfNext (Safe s₀) (execSrqDoorbell ld m v s) :=
  h.onPage fun _ h1 => h1.writeDoorbell
theorem Safe.execCqHeadUpdate {s ld m v} (h : Safe s₀ s) : OfNext (Safe s₀) (execCqHeadUpdate ld m v s) :=
  h.onPage fun _ h1 => h1.writeDoorbell
theorem Safe.execW1cFlagWrite {s ld row v hwSet} (h : Safe s₀ s) : OfNext (Safe s₀) (execW1cFlagWrite ld row v hwSet s) :=
  OfNext.ite (OfNext.leaf (safe_ite h.clearFlags h).setFlags) OfNext.fault
theorem Safe.execRcCounterRead {s ld row first width hwInc} (h : Safe s₀ s) :
    OfNext (Safe s₀) (execRcCounterRead ld row first width hwInc s) :=
  OfNext.ite (OfNext.ite (OfNext.leaf h.setFlags.emit) (OfNext.leaf h.clearCounts.setFlags.emit)) OfNext.fault
theorem Safe.execTimeNowLowRead {s ld} (h : Safe s₀ s) : OfNext (Safe s₀) (execTimeNowLowRead ld s) := Safe.fromLd (OfNext.leaf h.lit.emit)
theorem Safe.execTimeNowHighRead {s ld} (h : Safe s₀ s) : OfNext (Safe s₀) (execTimeNowHighRead ld s) :=
  Safe.fromLd (OfNext.leaf h.lit.emit)
theorem Safe.recoveryGo {s} (h : Safe s₀ s) : Safe s₀ s.recoveryGo :=
  safe_ite h (safe_ite h.lit (safe_ite h.lit (safe_ite h.lit h.lit.runImage.lit.openBox0)))
theorem Safe.execRecoveryGo {s ld length} (h : Safe s₀ s) : OfNext (Safe s₀) (execRecoveryGo ld length s) :=
  Safe.fromLd (OfNext.leaf (safe_ite h.lit.recoveryGo h))
theorem Safe.writePage {s ld m off data} (h : Safe s₀ s) : Safe s₀ (s.writePage ld m off data) :=
  safe_ite h (safe_ite h.writeSqTail (safe_ite h.writeCqHead (safe_ite h.writeEventHead (safe_ite h.writeDoorbell h))))
theorem Safe.writeRecoveryCtrl {s off data} (h : Safe s₀ s) : Safe s₀ (s.writeRecoveryCtrl off data) :=
  safe_ite (safe_ite h.lit.recoveryGo h.lit) (safe_ite h.lit (safe_ite (safe_ite h.recoveryGo h) h))
theorem Safe.execRegisterWrite {s ld off data} (h : Safe s₀ s) : OfNext (Safe s₀) (execRegisterWrite ld off data s) := by
  unfold Machine.execRegisterWrite
  split
  · exact OfNext.fault
  · split
    · exact OfNext.fault
    · split
      · exact OfNext.leaf h.writePage
      · exact OfNext.ite (OfNext.leaf (safe_ite h.clearFlags h)) (OfNext.ite (OfNext.leaf h.writeRecoveryCtrl) (OfNext.ite
            (OfNext.leaf h.lit) (OfNext.leaf h)))
theorem Safe.execProbeRead {s ld idx} (h : Safe s₀ s) : OfNext (Safe s₀) (execProbeRead ld idx s) :=
  OfNext.ite OfNext.fault (OfNext.ite OfNext.fault (OfNext.ite (OfNext.leaf h.emit) (OfNext.leaf h.expireLease.emit)))
theorem Safe.execProbeWrite {s ld idx} (h : Safe s₀ s) : OfNext (Safe s₀) (execProbeWrite ld idx s) :=
  OfNext.ite OfNext.fault (OfNext.ite OfNext.fault (OfNext.ite (OfNext.leaf h) (OfNext.leaf h.setFlag)))
theorem Safe.denyLent {s ld off step} (h : Safe s₀ s) : Safe s₀ (s.denyLent ld off step) :=
  safe_ite h.modLd.setFlag.setLd.raise h.modLd.setFlag
theorem Safe.badLine {s ld dpa addr} (h : Safe s₀ s) : Safe s₀ (s.badLine ld dpa addr) := h.lit.emit.raise
theorem Safe.freeBytes {s n} (h : Safe s₀ s) : Safe s₀ (s.freeBytes n).2 := h.lit.inSnd
theorem Safe.lentRead {s ld off} (h : Safe s₀ s) : Safe s₀ (s.lentRead ld off) :=
  safe_ite h.denyLent.emit (safe_ite h.setFlag.badLine.raise.emit (safe_ite h.freeBytes.emit h.emit))
theorem Safe.lentWrite {s ld off line} (h : Safe s₀ s) : Safe s₀ (s.lentWrite ld off line) := safe_ite h.denyLent (h.litMem Mem.wf_writeN)
theorem Safe.execLentRead {s ld off} (h : Safe s₀ s) : OfNext (Safe s₀) (execLentRead ld off s) :=
  OfNext.ite OfNext.fault (OfNext.ite OfNext.fault (OfNext.ite (OfNext.leaf h.emit) (OfNext.ite (OfNext.leaf h.holdRequest)
    (OfNext.leaf h.lentRead))))
theorem Safe.execLentWrite {s ld off line} (h : Safe s₀ s) : OfNext (Safe s₀) (execLentWrite ld off line s) :=
  OfNext.ite OfNext.fault (OfNext.ite OfNext.fault (OfNext.ite (OfNext.leaf h) (OfNext.ite (OfNext.leaf h.holdRequest)
    (OfNext.leaf h.lentWrite))))
theorem Safe.windowAccess {s ld off len data} (h : Safe s₀ s) : Safe s₀ (s.windowAccess ld off len data) := by
  unfold State.windowAccess
  extract_lets n s1 full bad bytes s2
  have hs1 : Safe s₀ s1 := safe_ite h h.setFlag
  have hs2 : Safe s₀ s2 := by
    unfold s2
    refine safe_foldl (fun _ _ h1 => ?_) _ hs1
    extract_lets s3
    split
    · exact h1.badLine.pushEvent
    · exact h1.badLine
  split
  · exact hs1.windowWrite.lit
  · exact hs2.emit
theorem Safe.execQueueWindowAccess {s ld off len data} (h : Safe s₀ s) : OfNext (Safe s₀) (execQueueWindowAccess ld off len data s) :=
  OfNext.ite OfNext.fault (OfNext.ite OfNext.fault (OfNext.ite (OfNext.leaf h.holdRequest) (OfNext.leaf h.windowAccess)))
theorem Safe.serveHeld {s} (h : Safe s₀ s) : Safe s₀ s.serveHeld := by
  unfold State.serveHeld
  refine safe_foldl (fun _ _ h1 => safe_ite ?_ h1.windowAccess) _ h.lit
  split
  · exact h1.lentWrite
  · exact h1.lentRead
theorem Safe.execHdmDecoderCommit {s ld dec base size} (h : Safe s₀ s) : OfNext (Safe s₀) (execHdmDecoderCommit ld dec base size s) :=
  OfNext.ite (OfNext.leaf h.setLd) OfNext.fault

end Sys2Proof.Machine
end

section
/-!
Each operation of Machine/CmdLent.lean keeps the queue and the invariant: lent memory.
-/
namespace Sys2Proof.Machine

variable {s₀ : State}

theorem Safe.modCxl {s f} (h : Safe s₀ s) : Safe s₀ (s.modCxl f) := h.lit
theorem Safe.cmdLentGrant {s x} (h : Safe s₀ s) : OfOk (OfOut (Safe s₀)) (cmdLentGrant x s) := by
  unfold Machine.cmdLentGrant
  extract_lets ld rights slot base len
  exact OfOk.after fun _ => OfOk.after fun _ => OfOk.after fun _ => OfOk.after fun _ => OfOk.after fun _ => OfOk.after fun _ =>
      h.pick.found.bindOf fun _ h1 => OfOk.pure h1.modCxl.outDone
theorem Safe.cmdLentRevoke {s x} (h : Safe s₀ s) : OfOk (OfOut (Safe s₀)) (cmdLentRevoke x s) :=
  OfOk.after fun _ => OfOk.after fun _ => OfOk.after fun _ => OfOk.pure h.modCxl.outWait
theorem Safe.cmdHostFence {s x} (h : Safe s₀ s) : OfOk (OfOut (Safe s₀)) (cmdHostFence x s) := OfOk.after fun _ => OfOk.pure h.modLd.outWait
theorem Safe.cmdPublicationCreate {s x} (h : Safe s₀ s) : OfOk (OfOut (Safe s₀)) (cmdPublicationCreate x s) :=
  OfOk.after fun _ => OfOk.after fun _ => h.pick.found.bindOf fun _ h1 => OfOk.pure h1.modCxl.outDone
theorem Safe.cmdPublicationDelete {s x} (h : Safe s₀ s) : OfOk (OfOut (Safe s₀)) (cmdPublicationDelete x s) :=
  OfOk.after fun _ => OfOk.pure h.modCxl.outDone
theorem Safe.conflict {s i ld p version digest} (h : Safe s₀ s) : Safe s₀ (s.conflict i ld p version digest) :=
  safe_ite h.raise h.raise.raise
theorem Safe.cmdLentPublish {s x} (h : Safe s₀ s) : OfOk (OfOut (Safe s₀)) (cmdLentPublish x s) := by
  unfold Machine.cmdLentPublish
  extract_lets i v d goOn
  split
  · exact OfOk.after fun _ => OfOk.after fun _ => OfOk.after fun _ =>
        OfOk.ite (OfOk.pure h.modCxl.outDone) (OfOk.ite (OfOk.pure h.outDone) (OfOk.pure h.conflict.outEnded))
  · exact OfOk.after fun _ => OfOk.after fun _ =>
        OfOk.ite (OfOk.pure h.modCxl.outDone) (OfOk.ite (OfOk.pure h.outDone) (OfOk.pure h.conflict.outEnded))
theorem Safe.cmdPublicationGet {s x} (h : Safe s₀ s) : OfOk (OfOut (Safe s₀)) (cmdPublicationGet x s) :=
  OfOk.ite (OfOk.after fun _ => OfOk.after fun _ => OfOk.pure h.output.outDone) (OfOk.after fun _ => OfOk.pure h.output.outDone)
theorem Safe.execLentGrant {s m slot} (h : Safe s₀ s) : OfNext (Safe s₀) (execLentGrant m slot s) :=
  h.cmdRow fun _ _ h1 => h1.cmdLentGrant
theorem Safe.execLentRevoke {s m slot} (h : Safe s₀ s) : OfNext (Safe s₀) (execLentRevoke m slot s) :=
  h.cmdRow fun _ _ h1 => h1.cmdLentRevoke
theorem Safe.execHostFence {s m slot} (h : Safe s₀ s) : OfNext (Safe s₀) (execHostFence m slot s) :=
  h.cmdRow fun _ _ h1 => h1.cmdHostFence
theorem Safe.execPublicationCreate {s m slot} (h : Safe s₀ s) : OfNext (Safe s₀) (execPublicationCreate m slot s) :=
  h.cmdRow fun _ _ h1 => h1.cmdPublicationCreate
theorem Safe.execPublicationDelete {s m slot} (h : Safe s₀ s) : OfNext (Safe s₀) (execPublicationDelete m slot s) :=
  h.cmdRow fun _ _ h1 => h1.cmdPublicationDelete
theorem Safe.execLentPublish {s m slot} (h : Safe s₀ s) : OfNext (Safe s₀) (execLentPublish m slot s) :=
  h.cmdRow fun _ _ h1 => h1.cmdLentPublish
theorem Safe.execPublicationGet {s m slot} (h : Safe s₀ s) : OfNext (Safe s₀) (execPublicationGet m slot s) :=
  h.cmdRow fun _ _ h1 => h1.cmdPublicationGet
theorem Safe.execHostFenceDrain {s ld} (h : Safe s₀ s) : OfNext (Safe s₀) (execHostFenceDrain ld s) :=
  OfNext.ite OfNext.fault (OfNext.leaf (safe_foldl (fun _ _ h1 => h1.answer) _ h.modLd))
theorem Safe.execLentRevokeDrain {s entry} (h : Safe s₀ s) : OfNext (Safe s₀) (execLentRevokeDrain entry s) := by
  unfold Machine.execLentRevokeDrain
  split
  · exact OfNext.leaf h.modCxl.answer
  · exact OfNext.leaf h

end Sys2Proof.Machine
end

section
/-!
Each operation of Machine/CmdPrefix.lean keeps the queue and the invariant: runs and the table of prefixes.
-/
namespace Sys2Proof.Machine

variable {s₀ : State}

theorem Safe.cmdRunCreate {s x} (h : Safe s₀ s) : OfOk (OfOut (Safe s₀)) (cmdRunCreate x s) := by
  unfold Machine.cmdRunCreate
  extract_lets b tier
  exact OfOk.after fun _ => OfOk.after fun _ => OfOk.after fun _ => OfOk.after fun _ => OfOk.after fun _ => OfOk.after fun _ =>
      OfOk.after fun _ => OfOk.after fun _ => OfOk.after fun _ => OfOk.after fun _ => OfOk.after fun _ => OfOk.after fun _ =>
        OfOk.after fun _ => OfOk.ite (OfOk.pure h.charge.modPfx.makeRun.outDone)
          (OfOk.pure h.charge.modPfx.modStore.runTier.endPins.outWait)
theorem Safe.cmdRunAttach {s x} (h : Safe s₀ s) : OfOk (OfOut (Safe s₀)) (cmdRunAttach x s) := by
  unfold Machine.cmdRunAttach
  extract_lets len block hash
  exact OfOk.after fun _ => OfOk.after fun _ => OfOk.after fun _ => OfOk.after fun _ => OfOk.after fun _ => OfOk.after fun _ =>
      OfOk.after fun _ => OfOk.after fun _ => h.shedFor.grow.found.bindOf fun _ h1 => OfOk.pure h1.modSkein.checkTails.modPfx.outDone
theorem Safe.cmdRunRelease {s x} (h : Safe s₀ s) : OfOk (OfOut (Safe s₀)) (cmdRunRelease x s) :=
  OfOk.after fun _ => OfOk.after fun _ => OfOk.pure h.credit.modPfx.settleRun.outDone
theorem Safe.insertOne {s} (h : Safe s₀ s) : Safe s₀ s.insertOne := by
  unfold State.insertOne
  split
  · exact h
  · exact safe_ite h.modPfx.answer h.modPfx
theorem Safe.insertAhead {s fuel} (h : Safe s₀ s) : Safe s₀ (State.insertAhead fuel s) := by
  induction fuel generalizing s with
  | zero => exact h
  | succ n ih =>
    unfold State.insertAhead
    split
    · exact h
    · exact safe_ite (ih h.insertOne) h
theorem Safe.cmdPrefixInsert {s x} (h : Safe s₀ s) : OfOk (OfOut (Safe s₀)) (cmdPrefixInsert x s) := by
  unfold Machine.cmdPrefixInsert
  extract_lets first count priority waits
  exact OfOk.after fun _ => OfOk.after fun _ => OfOk.after fun _ => OfOk.after fun _ => OfOk.after fun _ =>
      OfOk.ite (OfOk.pure h.outDone) (OfOk.pure h.charge.modPfx.insertAhead.outWait)
theorem Safe.cmdPrefixRemove {s x} (h : Safe s₀ s) : OfOk (OfOut (Safe s₀)) (cmdPrefixRemove x s) := by
  unfold Machine.cmdPrefixRemove
  extract_lets first count
  refine OfOk.after fun _ => OfOk.after fun _ => OfOk.after fun _ => ?_
  extract_lets hs
  split
  next e => exact OfOk.pure (h.removeEntries.ofSnd e).outDone
theorem Safe.cmdPrefixProbe {s x} (h : Safe s₀ s) : OfOk (OfOut (Safe s₀)) (cmdPrefixProbe x s) := by
  unfold Machine.cmdPrefixProbe
  extract_lets n hs hits goOn
  refine OfOk.after fun _ => OfOk.ite (OfOk.after fun _ => ?_) ?_
  · unfold goOn
    split
    · exact OfOk.pure h.outDone
    · exact OfOk.pure h.outDone
  · unfold goOn
    split
    · exact OfOk.pure h.outDone
    · exact OfOk.pure h.outDone
theorem Safe.execRunCreate {s m slot} (h : Safe s₀ s) : OfNext (Safe s₀) (execRunCreate m slot s) :=
  h.cmdRow fun _ _ h1 => h1.cmdRunCreate
theorem Safe.execRunAttach {s m slot} (h : Safe s₀ s) : OfNext (Safe s₀) (execRunAttach m slot s) :=
  h.cmdRow fun _ _ h1 => h1.cmdRunAttach
theorem Safe.execRunRelease {s m slot} (h : Safe s₀ s) : OfNext (Safe s₀) (execRunRelease m slot s) :=
  h.cmdRow fun _ _ h1 => h1.cmdRunRelease
theorem Safe.execPrefixInsert {s m slot} (h : Safe s₀ s) : OfNext (Safe s₀) (execPrefixInsert m slot s) :=
  h.cmdRow fun _ _ h1 => h1.cmdPrefixInsert
theorem Safe.execPrefixRemove {s m slot} (h : Safe s₀ s) : OfNext (Safe s₀) (execPrefixRemove m slot s) :=
  h.cmdRow fun _ _ h1 => h1.cmdPrefixRemove
theorem Safe.execPrefixProbe {s m slot} (h : Safe s₀ s) : OfNext (Safe s₀) (execPrefixProbe m slot s) :=
  h.cmdRow fun _ _ h1 => h1.cmdPrefixProbe
theorem Safe.execPrefixShiftComplete {s} (h : Safe s₀ s) : OfNext (Safe s₀) (execPrefixShiftComplete s) :=
  OfNext.leaf h.insertOne.insertAhead
theorem Safe.loseEntry {s pos} (h : Safe s₀ s) : Safe s₀ (s.loseEntry pos) := by
  unfold State.loseEntry
  extract_lets e s1
  clear_value e
  split
  · exact h.modPfx
  · exact h.modPfx.modPfx.credit.settleRun
theorem Safe.healEntry {s f} (h : Safe s₀ s) : Safe s₀ (s.healEntry f) := by
  unfold State.healEntry
  extract_lets count
  split
  · exact safe_ite h h.modPfx.modPfx.raise
  · exact safe_ite h (safe_foldl (fun _ _ h1 => h1.loseEntry) _ h).modPfx.raise
theorem Safe.execPrefixShadowCompare {s faults} (h : Safe s₀ s) : OfNext (Safe s₀) (execPrefixShadowCompare faults s) :=
  OfNext.ite (OfNext.leaf (safe_foldl (fun _ _ h1 => h1.healEntry) _ h.modPfx)) (OfNext.leaf h)

end Sys2Proof.Machine
end

section
/-!
Each operation of Machine/CmdTele.lean keeps the queue and the invariant: telemetry commands.
-/
namespace Sys2Proof.Machine

variable {s₀ : State}

theorem Safe.cmdSampleSet {s x} (h : Safe s₀ s) : OfOk (OfOut (Safe s₀)) (cmdSampleSet x s) := by
  unfold Machine.cmdSampleSet
  extract_lets period n records tags s1 ns goOn
  split
  · exact OfOk.after fun _ => OfOk.after fun _ => OfOk.after fun _ => OfOk.after fun _ => OfOk.after fun _ => OfOk.after fun _ =>
        h.dropArea.takeSlots.found.bindOf fun _ h1 => h1.mapArea.found.bindOf fun _ h2 => OfOk.pure (safe_foldl (fun _ _ h3 =>
          h3.modPort) _ h2).lit.modFlyer.outDone
  · unfold goOn
    exact OfOk.after fun _ => OfOk.after fun _ => OfOk.after fun _ => OfOk.after fun _ => OfOk.after fun _ =>
        h.dropArea.takeSlots.found.bindOf fun _ h1 => h1.mapArea.found.bindOf fun _ h2 => OfOk.pure (safe_foldl (fun _ _ h3 =>
          h3.modPort) _ h2).lit.modFlyer.outDone
theorem Safe.teleFree {s fuel} (h : Safe s₀ s) : Safe s₀ (State.teleFree fuel s) := by
  induction fuel generalizing s with
  | zero => exact h
  | succ n ih =>
    unfold State.teleFree
    exact safe_ite (ih h.modFlyer) h
theorem Safe.cmdTelemetryRead {s x} (h : Safe s₀ s) : OfOk (OfOut (Safe s₀)) (cmdTelemetryRead x s) :=
  OfOk.after fun _ => OfOk.after fun _ => OfOk.pure (safe_ite h.output.modFlyer h.output.modTenant).teleFree.outDone
theorem Safe.sensorStats {s} (h : Safe s₀ s) : Safe s₀ s.sensorStats.2 := safe_foldl_snd (fun _ _ h1 => h1.free.inSnd) _ h.inSnd
theorem Safe.cmdStatsRead {s x} (h : Safe s₀ s) : OfOk (OfOut (Safe s₀)) (cmdStatsRead x s) := by
  unfold Machine.cmdStatsRead
  extract_lets scope
  exact OfOk.after fun _ => OfOk.after fun _ => OfOk.ite (OfOk.after fun _ =>
      OfOk.pure (safe_ite_snd h.inSnd (safe_ite_snd h.sensorStats (safe_ite_snd h.inSnd h.inSnd))).output.outDone) (OfOk.pure
        (safe_ite_snd h.inSnd (safe_ite_snd h.sensorStats (safe_ite_snd h.inSnd h.inSnd))).output.outDone)
theorem Safe.execSampleSet {s m slot} (h : Safe s₀ s) : OfNext (Safe s₀) (execSampleSet m slot s) :=
  h.cmdRow fun _ _ h1 => h1.cmdSampleSet
theorem Safe.execTelemetryRead {s m slot} (h : Safe s₀ s) : OfNext (Safe s₀) (execTelemetryRead m slot s) :=
  h.cmdRow fun _ _ h1 => h1.cmdTelemetryRead
theorem Safe.execStatsRead {s m slot} (h : Safe s₀ s) : OfNext (Safe s₀) (execStatsRead m slot s) :=
  h.cmdRow fun _ _ h1 => h1.cmdStatsRead

end Sys2Proof.Machine
end

section
/-!
Each operation of Machine/Streaming.lean keeps the queue and the invariant: streaming of admitted jobs.
-/
namespace Sys2Proof.Machine

variable {s₀ : State}

theorem Safe.damageFor {s e j bob} (h : Safe s₀ s) : Safe s₀ (s.damageFor e j bob) := by
  unfold State.damageFor
  split
  · exact safe_ite h.damage h
  · exact h
theorem Safe.modSpindle {s sp f} (h : Safe s₀ s) : Safe s₀ (s.modSpindle sp f) := h.modRel
theorem Safe.setFold {s sp j} (h : Safe s₀ s) : Safe s₀ (s.setFold sp j) := h.modSpindle
theorem Safe.streamLea {s id j n i e lea u} (h : Safe s₀ s) : Safe s₀ (s.streamLea id j n i e lea u) := by
  unfold State.streamLea
  extract_lets rows key saved i1 s1 i2
  have hs1 : Safe s₀ s1 := (safe_ite h.setFold h).checkTag
  split
  · exact hs1.setJob.damageFor.restSpindles
  · split
    · exact hs1.trapJob
    · exact hs1.setJob.restSpindles
theorem Safe.execLeaArrival {s id item lea sp sub} (h : Safe s₀ s) : OfNext (Safe s₀) (execLeaArrival id item lea sp sub s) := by
  unfold Machine.execLeaArrival
  split
  · exact OfNext.fault
  · split
    · exact OfNext.leaf h
    · split
      · exact OfNext.leaf h
      · split
        · exact OfNext.leaf h
        · exact OfNext.ite (OfNext.leaf h.streamLea) (OfNext.leaf h)
theorem Safe.execSpindleItemComplete {s id item} (h : Safe s₀ s) : OfNext (Safe s₀) (execSpindleItemComplete id item s) := by
  unfold Machine.execSpindleItemComplete
  split
  · exact OfNext.leaf h
  · split
    · exact OfNext.leaf h
    · split
      · exact OfNext.ite (OfNext.leaf h) (OfNext.leaf h.setJob.restSpindles)
      · exact OfNext.leaf h
theorem Safe.release {s id j} (h : Safe s₀ s) : Safe s₀ (s.release id j) := safe_ite h.setJob (safe_ite h.setJob h.setJob)
theorem Safe.execLaunchCountReached {s id} (h : Safe s₀ s) : OfNext (Safe s₀) (execLaunchCountReached id s) := by
  unfold Machine.execLaunchCountReached
  split
  · exact OfNext.leaf h
  · exact OfNext.ite (OfNext.leaf h) (OfNext.leaf h.release)
theorem Safe.execSpindleBarrierArrive {s id sp} (h : Safe s₀ s) : OfNext (Safe s₀) (execSpindleBarrierArrive id sp s) := by
  unfold Machine.execSpindleBarrierArrive
  split
  · exact OfNext.fault
  · split
    · exact OfNext.leaf h
    · exact OfNext.ite (OfNext.leaf h.setFold.release) (OfNext.leaf h)
theorem Safe.countLate {s j} (h : Safe s₀ s) : Safe s₀ (s.countLate j) := by
  unfold State.countLate
  split
  · exact h
  · refine safe_foldl (fun _ _ h1 => ?_) _ h
    split
    · exact h1
    · exact safe_ite h1 (safe_ite h1.free.setSkein.raise h1.setSkein)
theorem Safe.damageLost {s j} (h : Safe s₀ s) : Safe s₀ (s.damageLost j) := by
  unfold State.damageLost
  refine safe_foldl (fun _ _ h1 => ?_) _ h
  split
  · exact safe_ite h1 h1.damageFor
  · exact h1
theorem Safe.whorlTag {s j} (h : Safe s₀ s) : Safe s₀ (s.whorlTag j) := by
  unfold State.whorlTag
  split
  · exact h.checkTag
  · exact h
theorem Safe.execJobStreamComplete {s id order} (h : Safe s₀ s) : OfNext (Safe s₀) (execJobStreamComplete id order s) := by
  unfold Machine.execJobStreamComplete
  split
  · exact OfNext.leaf h
  · split
    · exact OfNext.leaf h
    · split
      · split
        · exact OfNext.leaf h
        · split
          · exact OfNext.leaf h.endJob
          · split
            · exact OfNext.leaf h.trapJob
            · exact OfNext.leaf h.whorlTag.damageLost.deliverJob
      · exact OfNext.ite (OfNext.leaf h.countLate.deliverJob) (OfNext.leaf h)
theorem Safe.redeal {s sp} (h : Safe s₀ s) : Safe s₀ (s.redeal sp) := safe_foldl (fun _ _ h1 => safe_ite h1.setJob h1.setJob.endJob) _ h
theorem Safe.spindleOut {s sp state} (h : Safe s₀ s) : Safe s₀ (s.spindleOut sp state) := h.modSpindle.redeal.restSpindles.refreshLevel
theorem Safe.execSpindleLeavesService {s sp} (h : Safe s₀ s) : OfNext (Safe s₀) (execSpindleLeavesService sp s) := by
  unfold Machine.execSpindleLeavesService
  split
  · exact OfNext.fault
  · split
    · exact OfNext.ite (OfNext.leaf h.spindleOut) (OfNext.leaf h)
    · exact OfNext.leaf h

end Sys2Proof.Machine
end

section
/-!
Each operation of Machine/WhorlCmds.lean keeps the queue and the invariant: whorl commands.
-/
namespace Sys2Proof.Machine

variable {s₀ : State}

theorem Safe.copyInto {s src dst key k l pbn} (h : Safe s₀ s) : Safe s₀ (s.copyInto src dst key k l pbn) := by
  unfold State.copyInto
  split
  · exact h
  · exact (h.litMem Mem.wf_copy).setSkein.checkTails
theorem Safe.copyOne {s src dst key} (h : Safe s₀ s) : Safe s₀ (s.copyOne src dst key).2 := by
  unfold State.copyOne
  split
  · split
    · exact h.inSnd
    · split
      · exact h.damage.inSnd
      · extract_lets indices grown
        split
        · exact h.inSnd
        · split
          · exact h.inSnd
          · rename_i e
            split
            · exact (h.shedFor.grow.elim e).inSnd
            · rename_i e1
              exact ((OfSome.ite (h.shedFor.grow.elim e).takeSlotNear (h.shedFor.grow.elim e).takeSlot).elim e1).chargeTier.copyInto.inSnd
  · exact h.inSnd
theorem Safe.copyKeys {s src dst keys} (h : Safe s₀ s) : Safe s₀ (s.copyKeys src dst keys).2 := by
  induction keys generalizing s src dst with
  | nil => exact h
  | cons x xs ih =>
    unfold State.copyKeys
    split
    · rename_i e
      exact ih (h.copyOne.ofSnd e)
    · exact h.copyOne
theorem Safe.whorlRow {s ops n f} (h : Safe s₀ s) (hf : ∀ tag e b s, Safe s₀ s → Safe s₀ (f tag e b s).2) :
    OfNext (Safe s₀) (whorlRow ops n s f) :=
  OfNext.ite (OfNext.leaf h) (h.headRow fun _ _ _ _ k => (hf _ _ _ _ k).completeEntry)
theorem Safe.execCopy {s q} (h : Safe s₀ s) : OfNext (Safe s₀) (execCopy q s) := by
  unfold Machine.execCopy
  refine h.whorlRow (fun _ _ _ _ h1 => ?_)
  split
  · exact h1.inSnd
  · split
    · exact h1.inSnd
    · exact h1.copyKeys
  · exact h1.inSnd
theorem Safe.execVerify {s q} (h : Safe s₀ s) : OfNext (Safe s₀) (execVerify q s) := by
  unfold Machine.execVerify
  refine h.whorlRow (fun _ _ _ _ h1 => ?_)
  split
  · exact h1.inSnd
  · exact (safe_foldl (fun _ _ h1 => h1.damage) _ h1).inSnd
theorem Safe.execCompact {s q} (h : Safe s₀ s) : OfNext (Safe s₀) (execCompact q s) := by
  unfold Machine.execCompact
  refine h.headRow (fun _ _ _ _ h1 => ?_)
  split
  · exact h1.completeEntry
  · exact safe_ite h1.completeEntry h1.modWork.runTier
theorem Safe.waitJq {s q tag e b} (h : Safe s₀ s) : Safe s₀ (s.waitJq q tag e b) := by
  unfold State.waitJq
  split
  · exact h.completeEntry
  · extract_lets s1
    split
    · exact h.modJq.endWaitJq
    · exact h.modJq
theorem Safe.waitSq {s c k e rest} (h : Safe s₀ s) : Safe s₀ (s.waitSq c k e rest) := by
  unfold State.waitSq
  extract_lets b pop refused
  split
  · exact h.modConn.endUnsent.pumpNotices
  · split
    · exact h.modConn.endUnsent.pumpNotices
    · split
      · exact h.modConn.endUnsent.pumpNotices
      · split
        · exact h
        · split
          · exact h.modConn.endUnsent.pumpNotices
          · extract_lets s1
            refine Safe.pumpNotices ?_
            split
            · exact h.modConn.modConn.endWaitSq
            · exact h.modConn.modConn
theorem Safe.execWaitDescriptor {s kind q} (h : Safe s₀ s) : OfNext (Safe s₀) (execWaitDescriptor kind q s) := by
  unfold Machine.execWaitDescriptor
  split
  · exact h.headRow fun _ _ _ _ h1 => h1.waitJq
  · split
    · exact OfNext.leaf h
    · split
      · exact OfNext.leaf h
      · exact OfNext.ite (OfNext.leaf h) (OfNext.leaf h.waitSq)
/-- Every end of a standing wait. -/
theorem Safe.standingWait {s kind n} (h : Safe s₀ s) : OfSome (fun r => ∀ st, Safe s₀ (r.2.2 st)) (s.standingWait kind n) := by
  unfold State.standingWait
  split
  · exact OfSome.after fun _ => OfSome.after fun _ => OfSome.pure fun _ => h.endWaitJq
  · exact OfSome.after fun _ => OfSome.after fun _ => OfSome.pure fun _ => h.endWaitSq
theorem Safe.execWaitCounterChange {s kind n} (h : Safe s₀ s) : OfNext (Safe s₀) (execWaitCounterChange kind n s) := by
  unfold Machine.execWaitCounterChange
  split
  · exact OfNext.leaf h
  · next e =>
    refine OfNext.ite (OfNext.leaf h) ?_
    split
    · exact OfNext.leaf (h.standingWait.elim e _)
    · exact OfNext.leaf h
theorem Safe.execWaitTimeoutExpiry {s kind n} (h : Safe s₀ s) : OfNext (Safe s₀) (execWaitTimeoutExpiry kind n s) := by
  unfold Machine.execWaitTimeoutExpiry
  split
  · exact OfNext.leaf h
  · next e =>
    split
    · exact OfNext.leaf h
    · exact OfNext.ite (OfNext.leaf h) (OfNext.leaf (h.standingWait.elim e _))

end Sys2Proof.Machine
end

section
/-!
Each operation of Machine/Reliability.lean keeps the queue and the invariant: line errors and what they cost.
-/
namespace Sys2Proof.Machine

variable {s₀ : State}

theorem Safe.useSpare {s p} (h : Safe s₀ s) : Safe s₀ (s.useSpare p) := safe_ite h.modRel.raise h.modRel
theorem Safe.loseReel {s idx k first last} (h : Safe s₀ s) : Safe s₀ (s.loseReel idx k first last) := by
  unfold State.loseReel
  extract_lets gone
  split
  · exact h.setSkein.raise
  · exact h
theorem Safe.slabLineLost {s idx k pbn off} (h : Safe s₀ s) : Safe s₀ (s.slabLineLost idx k pbn off) := by
  unfold State.slabLineLost
  split
  · split
    · exact h.losePages
    · exact h
  · split
    · exact safe_ite h.loseReel (safe_ite h.setSkein h)
    · split
      · exact h.setSkein
      · exact h
theorem Safe.coreLost {s core} (h : Safe s₀ s) : Safe s₀ (s.coreLost core) := by
  unfold State.coreLost
  split
  · next e => exact h.execControlCoreWatchdog.elim e
  · exact h
theorem Safe.fixedLineLost {s line} (h : Safe s₀ s) : Safe s₀ (s.fixedLineLost line) := by
  unfold State.fixedLineLost
  split
  · split
    · refine safe_foldl (fun _ _ h1 => ?_) _ h
      split
      · exact safe_ite h1 h1.raise.killSkein.releaseHeld.runTier
      · exact h1
    · exact safe_ite h.modWork (safe_ite h.healEntry (safe_ite (safe_ite h.modCreel h) (safe_ite (safe_foldl (fun _ _ h1 =>
          h1.coreLost) _ h) h)))
theorem Safe.lineLost {s a} (h : Safe s₀ s) : Safe s₀ (s.lineLost a) := by
  unfold State.lineLost
  extract_lets a1 pbn off bad told at' owner mine inRun
  split
  · exact h.fixedLineLost.raise
  · split
    · exact (safe_foldl (fun _ _ h1 => h1.modSkein) _ h).raise
    · split
      · exact (safe_foldl (fun _ _ h1 => h1.damage) _ (safe_ite h h.lit)).damageRuns
      · split
        · exact h.slabLineLost.raise
        · exact safe_ite (safe_ite h h.lit).raise h
theorem Safe.lineError {s e} (h : Safe s₀ s) : Safe s₀ (s.lineError e) := safe_ite h (safe_ite h.modRel.countRel h.modRel.countRel.lineLost)
theorem Safe.patrolChecks {s lo hi} (h : Safe s₀ s) : Safe s₀ (s.patrolChecks lo hi) := by
  unfold State.patrolChecks
  extract_lets s1
  have hs1 : Safe s₀ s1 := safe_foldl (fun _ _ h1 => safe_foldl (fun _ _ h2 => safe_ite h2.damage h2) _ h1) _ h
  exact safe_foldl (fun _ _ h1 => safe_foldl (fun _ _ h2 => safe_ite h2.damageRuns h2) _ h1) _ hs1
theorem Safe.patrolEnd {s} (h : Safe s₀ s) : Safe s₀ s.patrolEnd := safe_ite h.modRel (safe_ite h.modRel.raise h)
theorem Safe.execPatrolBudgetPeriod {s bytes errors} (h : Safe s₀ s) : OfNext (Safe s₀) (execPatrolBudgetPeriod bytes errors s) := by
  unfold Machine.execPatrolBudgetPeriod
  split
  · exact OfNext.leaf h
  · extract_lets run n lo t t1 t2
    have ht : Safe s₀ t := safe_ite h.deferDuty h
    have ht2 : Safe s₀ t2 := safe_ite (safe_foldl (fun _ _ h1 => h1.lineError) _ ht.modRel).patrolChecks ht.modRel
    exact OfNext.leaf ht2.patrolEnd
theorem Safe.execCalibrationStep {s chan margin restart} (h : Safe s₀ s) : OfNext (Safe s₀) (execCalibrationStep chan margin restart s) :=
  OfNext.ite OfNext.fault (OfNext.ite (OfNext.leaf h) (OfNext.ite (OfNext.leaf h.deferDuty) (OfNext.leaf h.modRel)))
theorem Safe.startCopy {s c spare w} (h : Safe s₀ s) : Safe s₀ (s.startCopy c spare w) := h.useSpare.modRel
theorem Safe.remap {s c spare} (h : Safe s₀ s) : Safe s₀ (s.remap c spare) := h.writeRepair.modRel.expel.refreshLevel
theorem Safe.execChannelSpareCopyComplete {s stack chan} (h : Safe s₀ s) :
    OfNext (Safe s₀) (execChannelSpareCopyComplete stack chan s) := by
  unfold Machine.execChannelSpareCopyComplete
  split
  · exact OfNext.fault
  · split
    · exact OfNext.leaf h
    · split
      · exact OfNext.leaf h
      · extract_lets s1
        refine OfNext.leaf ?_
        split
        · exact h.remap.answer.fetchAll
        · exact h.remap
theorem Safe.loseChannel {s c} (h : Safe s₀ s) : Safe s₀ (s.loseChannel c) := safe_foldl (fun _ _ h1 => h1.lineLost) _ h
theorem Safe.restack {s stack} (h : Safe s₀ s) : Safe s₀ (s.restack stack) := h.modRel
theorem Safe.withdrawGroup {s g} (h : Safe s₀ s) : Safe s₀ (s.withdrawGroup g) :=
  (safe_foldl (fun _ _ h2 => h2.damageRuns) _ (safe_foldl (fun _ _ h1 => h1.damage) _ h)).modStore.noteLow
theorem Safe.vacate {s c} (h : Safe s₀ s) : Safe s₀ (s.vacate c) := by
  unfold State.vacate
  exact (safe_foldl (fun _ _ h1 => h1.withdrawGroup) _ h.modRel.restack).raise
theorem Safe.execChannelFailure {s stack chan} (h : Safe s₀ s) : OfNext (Safe s₀) (execChannelFailure stack chan s) := by
  unfold Machine.execChannelFailure
  split
  · exact OfNext.fault
  · extract_lets c copy t t1
    have ht : Safe s₀ t := by
      unfold t
      clear_value copy
      split
      · exact h.remap
      · split
        · exact h.useSpare.remap
        · exact h.expel.vacate
    split
    · exact OfNext.leaf h
    · split
      · exact OfNext.leaf h
      · refine OfNext.leaf ?_
        clear_value copy
        split
        · exact ht.loseChannel.refreshLevel.answer.fetchAll
        · exact ht.loseChannel.refreshLevel
theorem Safe.spareColumn {s sp col} (h : Safe s₀ s) : Safe s₀ (s.spareColumn sp col) := h.spindleOut.writeRepair.modSpindle.expel
theorem Safe.execColumnSelfTestComplete {s sp failed} (h : Safe s₀ s) : OfNext (Safe s₀) (execColumnSelfTestComplete sp failed s) := by
  unfold Machine.execColumnSelfTestComplete
  split
  · exact OfNext.fault
  · split
    · exact OfNext.leaf h
    · exact OfNext.ite (OfNext.leaf h) (OfNext.ite (OfNext.leaf h.modSpindle.refreshLevel)
          (OfNext.leaf h.modSpindle.modRel.expel.refreshLevel))
theorem Safe.waveNews {s measured} (h : Safe s₀ s) : Safe s₀ (s.waveNews measured) := by
  unfold State.waveNews
  exact h.modRel
theorem Safe.expulsion {s kind idx} (h : Safe s₀ s) : OfSome (Safe s₀) (s.expulsion kind idx) := by
  unfold State.expulsion
  split
  · exact OfSome.none
  · split
    · exact OfSome.after fun _ => OfSome.after fun _ => OfSome.pure h.startCopy
    · split
      · exact OfSome.ite (OfSome.leaf h.dropWavelength) OfSome.none
      · split
        · exact OfSome.ite (OfSome.leaf h.spareColumn) OfSome.none
        · exact OfSome.none
theorem Safe.judge {s kind idx} (h : Safe s₀ s) : Safe s₀ (s.judge kind idx) := by
  unfold State.judge
  split
  · exact h
  · split
    · rename_i e
      exact safe_ite (h.expulsion.elim e) h.makeSuspect
    · exact h.makeSuspect
theorem Safe.execHealthRecompute {s measured} (h : Safe s₀ s) : OfNext (Safe s₀) (execHealthRecompute measured s) :=
  OfNext.ite (OfNext.leaf h) (OfNext.leaf (safe_foldl (fun _ _ h1 => h1.judge) _ h.waveNews.modRel))
theorem Safe.auditShare {s auditor} (h : Safe s₀ s) : OfSome (Safe s₀) (s.auditShare auditor) :=
  OfSome.ite (OfSome.leaf h.modRel) OfSome.none
theorem Safe.chargeColumn {s i} (h : Safe s₀ s) : Safe s₀ (s.chargeColumn i) := h.modRel.judge
theorem Safe.chargeSpindle {s sp column} (h : Safe s₀ s) : Safe s₀ (s.chargeSpindle sp column) := by
  unfold State.chargeSpindle
  split
  · exact h
  · exact safe_ite h.modSpindle.chargeColumn (safe_ite h.modSpindle.modSpindle.countRel.spindleOut.raise h.modSpindle.modSpindle.countRel)
theorem Safe.settleAudit {s a} (h : Safe s₀ s) : Safe s₀ (s.settleAudit a) :=
  safe_foldl (fun _ _ h1 => h1.chargeSpindle) _ (safe_ite h.modRel.modWork h.modRel).lit.raise
theorem Safe.execShadowAudit {s id item lea auditor differing} (h : Safe s₀ s) :
    OfNext (Safe s₀) (execShadowAudit id item lea auditor differing s) := by
  unfold Machine.execShadowAudit
  split
  · exact OfNext.fault
  · split
    · exact OfNext.leaf h
    · split
      · exact OfNext.leaf h
      · split
        · exact OfNext.leaf h
        · simp only []
          split
          · exact OfNext.leaf h
          · split
            · exact OfNext.leaf h.countRel.deferDuty
            · next e =>
              have shared := h.auditShare.elim e
              split
              · exact OfNext.leaf shared.countRel
              · split
                · exact OfNext.leaf shared.countRel.modRel
                · exact OfNext.leaf shared.countRel.modRel.settleAudit
theorem Safe.execAuditArbiterComplete {s log arbiter withOriginal withAuditor} (h : Safe s₀ s) :
    OfNext (Safe s₀) (execAuditArbiterComplete log arbiter withOriginal withAuditor s) := by
  unfold Machine.execAuditArbiterComplete
  split
  · exact OfNext.leaf h
  · split
    · exact OfNext.ite (OfNext.leaf h) (OfNext.leaf h.settleAudit)
    · exact OfNext.ite OfNext.fault (OfNext.ite (OfNext.leaf h) (OfNext.leaf h.settleAudit))

end Sys2Proof.Machine
end

section
/-!
Each operation of Machine/CmdRel.lean keeps the queue and the invariant: the reliability commands.
-/
namespace Sys2Proof.Machine

variable {s₀ : State}

theorem Safe.serveSpindle {s action sp} (h : Safe s₀ s) : OfOk (Safe s₀) (s.serveSpindle action sp) := by
  unfold State.serveSpindle
  split
  · exact OfOk.refuse
  · exact OfOk.ite (OfOk.ite OfOk.refuse (OfOk.ite OfOk.refuse (OfOk.leaf h.spindleOut))) (OfOk.ite
        (OfOk.leaf h.modSpindle.modRel.refreshLevel) OfOk.refuse)
theorem Safe.serveChannel {s c w} (h : Safe s₀ s) : OfOk (Safe s₀) (s.serveChannel c w) := by
  unfold State.serveChannel
  split
  · exact OfOk.refuse
  · split
    · exact OfOk.refuse
    · split
      · exact OfOk.refuse
      · exact OfOk.ite (OfOk.leaf h.startCopy.modRel) OfOk.refuse
theorem Safe.serveWavelength {s action w} (h : Safe s₀ s) : OfOk (Safe s₀) (s.serveWavelength action w) :=
  OfOk.ite (OfOk.ite OfOk.refuse (OfOk.ite OfOk.refuse (OfOk.leaf h.dropWavelength))) (OfOk.ite
    (OfOk.leaf h.setPort.modRel.refreshLevel) OfOk.refuse)
theorem Safe.cmdUnitService {s x} (h : Safe s₀ s) : OfOk (OfOut (Safe s₀)) (cmdUnitService x s) := by
  unfold Machine.cmdUnitService
  extract_lets kind action u c
  exact OfOk.after fun _ => OfOk.after fun _ => OfOk.ite (OfOk.after fun _ =>
      OfOk.pure h.modRel.outDone) (OfOk.ite (h.serveSpindle.bindOf fun _ h1 =>
        OfOk.pure h1.outDone) (OfOk.ite (h.serveChannel.bindOf fun _ h2 => OfOk.pure h2.outWait) (h.serveWavelength.bindOf fun _ h3 =>
          OfOk.pure h3.outDone)))
theorem Safe.sweepAt {s low high n i} (h : Safe s₀ s) : Safe s₀ (sweepAt s low high n i).2 :=
  safe_ite_snd h.inSnd (safe_ite_snd h.inSnd h.free.inSnd)
theorem Safe.cmdMarginSweep {s points x} (h : Safe s₀ s) : OfOk (OfOut (Safe s₀)) (cmdMarginSweep points x s) := by
  unfold Machine.cmdMarginSweep
  extract_lets kind u n vl vh fl fh pat cap one sweep
  have hone : ∀ a i, Safe s₀ a.2.2 → Safe s₀ (one a i).2.2 := by
    intro a i ha
    unfold one
    split
    next e1 =>
    split
    next e2 =>
    split
    next e3 =>
    have drawn := (ha.sweepAt.ofSnd e1).sweepAt.ofSnd e2
    refine Safe.inSnd3 (Safe.ofSnd3 ?_ e3)
    split
    · exact drawn
    · exact drawn.free.free
  have hsweep : ∀ r, OfOk (OfOut (Safe s₀)) (sweep r) := by
    intro r
    refine OfOk.after fun _ => ?_
    split
    next e => exact OfOk.pure ((safe_foldl_snd3 hone (List.range n) h).ofSnd3 e).output.outDone
  iterate 9 refine OfOk.after fun _ => ?_
  exact OfOk.ite OfOk.error (hsweep ())
theorem Safe.cmdAuditSet {s x} (h : Safe s₀ s) : OfOk (OfOut (Safe s₀)) (cmdAuditSet x s) :=
  OfOk.after fun _ => OfOk.after fun _ => OfOk.pure h.lit.outDone
theorem Safe.cmdBudgetSet {s x} (h : Safe s₀ s) : OfOk (OfOut (Safe s₀)) (cmdBudgetSet x s) :=
  OfOk.after fun _ => OfOk.after fun _ => OfOk.pure h.lit.outDone
/-- What a HEALTH_READ that answers has done. -/
theorem Safe.of_cmdHealthRead {s x out} (h : Safe s₀ s) (e : cmdHealthRead x s = .ok out) : OfOut (Safe s₀) out := by
  unfold cmdHealthRead at e
  extract_lets all jp at e
  clear_value all
  split at e
  · cases e
  · cases e
    exact h.output.outDone
theorem Safe.execUnitService {s m slot} (h : Safe s₀ s) : OfNext (Safe s₀) (execUnitService m slot s) :=
  h.cmdRow fun _ _ h1 => h1.cmdUnitService
theorem Safe.execMarginSweep {s m slot points} (h : Safe s₀ s) : OfNext (Safe s₀) (execMarginSweep m slot points s) :=
  h.cmdRow fun _ _ h1 => h1.cmdMarginSweep
theorem Safe.execAuditSet {s m slot} (h : Safe s₀ s) : OfNext (Safe s₀) (execAuditSet m slot s) := h.cmdRow fun _ _ h1 => h1.cmdAuditSet
theorem Safe.execBudgetSet {s m slot} (h : Safe s₀ s) : OfNext (Safe s₀) (execBudgetSet m slot s) :=
  h.cmdRow fun _ _ h1 => h1.cmdBudgetSet
theorem Safe.execHealthRead {s m slot} (h : Safe s₀ s) : OfNext (Safe s₀) (execHealthRead m slot s) := by
  refine h.cmdRow fun x s hs => ?_
  cases e : Machine.cmdHealthRead x s with
  | error _ => exact OfOk.error
  | ok out => exact hs.of_cmdHealthRead e

end Sys2Proof.Machine
end

section
/-!
Each operation of Machine/CmdTier.lean keeps the queue and the invariant: tier commands.
-/
namespace Sys2Proof.Machine

variable {s₀ : State}

theorem Safe.cmdSkeinDoff {s x} (h : Safe s₀ s) : OfOk (OfOut (Safe s₀)) (cmdSkeinDoff x s) :=
  OfOk.after fun _ => OfOk.after fun _ => OfOk.after fun _ => OfOk.pure h.askDoff.runTier.outWait
theorem Safe.cmdSkeinReload {s x} (h : Safe s₀ s) : OfOk (OfOut (Safe s₀)) (cmdSkeinReload x s) :=
  OfOk.after fun _ => OfOk.after fun _ => OfOk.ite (OfOk.pure h.outDone) (OfOk.after fun _ => OfOk.pure h.askReload.runTier.outWait)
theorem Safe.cmdTierPin {s x} (h : Safe s₀ s) : OfOk (OfOut (Safe s₀)) (cmdTierPin x s) := by
  unfold Machine.cmdTierPin
  extract_lets tier
  exact OfOk.after fun _ => OfOk.after fun _ => OfOk.after fun _ => OfOk.after fun _ => OfOk.after fun _ => OfOk.after fun _ =>
      OfOk.ite (OfOk.after fun _ => OfOk.after fun _ => OfOk.after fun _ =>
        OfOk.pure h.modStore.runTier.endPins.outWait) (OfOk.after fun _ => OfOk.pure h.modStore.runTier.endPins.outWait)
theorem Safe.cmdTierUnpin {s x} (h : Safe s₀ s) : OfOk (OfOut (Safe s₀)) (cmdTierUnpin x s) :=
  OfOk.after fun _ => OfOk.after fun _ => OfOk.after fun _ => OfOk.pure h.setSkein.modStore.runTier.endPins.outWait
theorem Safe.execSkeinDoff {s m slot} (h : Safe s₀ s) : OfNext (Safe s₀) (execSkeinDoff m slot s) :=
  h.cmdRow fun _ _ h1 => h1.cmdSkeinDoff
theorem Safe.execSkeinReload {s m slot} (h : Safe s₀ s) : OfNext (Safe s₀) (execSkeinReload m slot s) :=
  h.cmdRow fun _ _ h1 => h1.cmdSkeinReload
theorem Safe.execTierPin {s m slot} (h : Safe s₀ s) : OfNext (Safe s₀) (execTierPin m slot s) := h.cmdRow fun _ _ h1 => h1.cmdTierPin
theorem Safe.execTierUnpin {s m slot} (h : Safe s₀ s) : OfNext (Safe s₀) (execTierUnpin m slot s) :=
  h.cmdRow fun _ _ h1 => h1.cmdTierUnpin

end Sys2Proof.Machine
end

section
/-!
Each operation of Machine/CreelEvents.lean keeps the queue and the invariant: creel events.
-/
namespace Sys2Proof.Machine

variable {s₀ : State}

theorem Safe.mergeBlock {s lb} (h : Safe s₀ s) : OfSome (fun r => Safe s₀ r.2) (s.mergeBlock lb) := by
  unfold State.mergeBlock
  extract_lets c worn
  clear_value worn
  split
  · exact OfSome.ite (OfSome.leaf h.useBlock.inSnd) h.takeBlock
  · exact h.takeBlock
theorem Safe.execMergeStart {s lb} (h : Safe s₀ s) : OfNext (Safe s₀) (execMergeStart lb s) := by
  unfold Machine.execMergeStart
  split
  · exact OfNext.leaf h
  · split
    · rename_i e
      exact OfNext.leaf (h.mergeBlock.elim e)
    · exact OfNext.leaf h
theorem Safe.levelWear {s} (h : Safe s₀ s) : Safe s₀ s.levelWear := by
  unfold State.levelWear
  extract_lets c kept top holding least
  clear_value least
  split
  · exact safe_ite h.modCreel h
  · exact h
theorem Safe.execMergeComplete {s lb} (h : Safe s₀ s) : OfNext (Safe s₀) (execMergeComplete lb s) := by
  unfold Machine.execMergeComplete
  split
  · exact OfNext.leaf h
  · exact OfNext.ite (OfNext.leaf h) (OfNext.leaf h.modCreel.reclaim.levelWear.runTier)
theorem Safe.execMergeDestFail {s lb} (h : Safe s₀ s) : OfNext (Safe s₀) (execMergeDestFail lb s) := by
  unfold Machine.execMergeDestFail
  split
  · exact OfNext.leaf h
  · split
    · exact OfNext.leaf h
    · extract_lets s1
      refine OfNext.leaf (safe_ite ?_ h.retireBlock.setFlag)
      split
      · rename_i e
        exact h.retireBlock.setFlag.takeBlock.elim e
      · exact h.retireBlock.setFlag
theorem Safe.relocatePage {s blk page f} (h : Safe s₀ s) : OfSome (Safe s₀) (s.relocatePage blk page f) := by
  unfold State.relocatePage
  split
  · exact OfSome.leaf h
  · exact OfSome.ite (h.openUnit.bindOf fun _ h1 => OfSome.pure h1.modCreel) (h.openRecord.bindOf fun _ h2 => OfSome.pure h2.modCreel)
theorem Safe.relocate {s blk} (h : Safe s₀ s) : OfSome (Safe s₀) (s.relocate blk) :=
  ofSome_foldlM (fun _ _ h1 => h1.relocatePage) _ h.modCreel
theorem Safe.execCreelProgramFail {s blk} (h : Safe s₀ s) : OfNext (Safe s₀) (execCreelProgramFail blk s) := by
  unfold Machine.execCreelProgramFail
  extract_lets inUse
  split
  · exact OfNext.leaf h.replaceSystem.setFlag
  · split
    · exact OfNext.leaf h
    · split
      · rename_i e
        exact OfNext.leaf (h.relocate.elim e).retireBlock.setFlag
      · exact OfNext.leaf h
theorem Safe.execCreelEraseFail {s blk} (h : Safe s₀ s) : OfNext (Safe s₀) (execCreelEraseFail blk s) := by
  unfold Machine.execCreelEraseFail
  split
  · exact OfNext.leaf h.replaceSystem.setFlag
  · split
    · exact OfNext.ite (OfNext.leaf h.retireBlock.setFlag) (OfNext.leaf h)
    · exact OfNext.leaf h
theorem Safe.execCreelEraseComplete {s blk} (h : Safe s₀ s) : OfNext (Safe s₀) (execCreelEraseComplete blk s) := by
  unfold Machine.execCreelEraseComplete
  split
  · exact OfNext.ite (OfNext.leaf h) (OfNext.ite (OfNext.leaf h.retireBlock) (OfNext.leaf h.modCreel.leaveReadOnly.levelWear.runTier))
  · exact OfNext.leaf h
theorem Safe.loseCreel {s pbn} (h : Safe s₀ s) : Safe s₀ (s.loseCreel pbn) := by
  unfold State.loseCreel
  exact (safe_foldl (fun _ _ h1 => h1.damage) _ h).modCreel
theorem Safe.loseReelPage {s lost} (h : Safe s₀ s) : Safe s₀ (s.loseReelPage lost) := by
  unfold State.loseReelPage
  extract_lets gone cut tell
  split
  · extract_lets hole
    unfold tell
    split
    · exact h.modCreel.setSkein.modCreel.raise
    · exact h.modCreel.setSkein.modCreel
  · extract_lets base hole
    unfold tell
    split
    · exact h.modCreel.modCreel.raise
    · exact h.modCreel.modCreel
  · exact h.modCreel
theorem Safe.losePage {s p} (h : Safe s₀ s) : Safe s₀ (s.losePage p) := by
  unfold State.losePage
  extract_lets s1 s2
  have hs1 : Safe s₀ s1 := safe_foldl (fun _ _ h1 => h1.loseCreel) _ h
  have hs2 : Safe s₀ s2 := safe_foldl (fun _ _ h1 => h1.loseReelPage) _ hs1
  exact safe_ite hs2.replaceSystem hs2
theorem Safe.scanLeas {s bad} (h : Safe s₀ s) : Safe s₀ (s.scanLeas bad) := by
  unfold State.scanLeas
  exact (safe_foldl (fun _ _ h1 => h1.loseCreel) _ h).modCreel
theorem Safe.scanRecord {s bad idx} (h : Safe s₀ s) : Safe s₀ (s.scanRecord bad idx) := by
  unfold State.scanRecord
  extract_lets old best new s1 s2
  have hs1 : Safe s₀ s1 := by
    unfold s1
    clear_value old
    split
    · exact h.credit
    · exact h
  have hs2 : Safe s₀ s2 := by
    unfold s2
    clear_value new
    split
    · exact hs1.charge
    · exact hs1
  exact hs2.modCreel
theorem Safe.scanRecords {s bad} (h : Safe s₀ s) : Safe s₀ (s.scanRecords bad) :=
  safe_foldl (fun _ _ h2 => h2.loseReelPage) _ (safe_foldl (fun _ _ h1 => h1.scanRecord) _ h)
theorem Safe.rebuildMap {s} (h : Safe s₀ s) : Safe s₀ s.rebuildMap := (safe_foldl (fun _ _ h1 => h1.giveCreel) _ h.modCreel).reclaim
theorem Safe.execCreelScanComplete {s bad} (h : Safe s₀ s) : OfNext (Safe s₀) (execCreelScanComplete bad s) :=
  OfNext.ite (OfNext.leaf h) (OfNext.leaf h.scanLeas.scanRecords.rebuildMap.modCreel.setFlag.checkReadOnly.checkTails.runTier)
theorem Safe.creelChecks {s read} (h : Safe s₀ s) : Safe s₀ (s.creelChecks read) := safe_foldl (fun _ _ h1 => h1.damage) _ h
theorem Safe.creelPassEnd {s} (h : Safe s₀ s) : Safe s₀ s.creelPassEnd := safe_ite h.modCreel (safe_ite h.modCreel.setFlag h)
theorem Safe.execCreelPatrolPeriod {s pages corrected bad} (h : Safe s₀ s) :
    OfNext (Safe s₀) (execCreelPatrolPeriod pages corrected bad s) := by
  unfold Machine.execCreelPatrolPeriod
  split
  · exact OfNext.leaf h
  · exact OfNext.leaf (safe_foldl (fun _ _ h1 => h1.losePage) _ (safe_ite h.deferDuty h).modCreel.modRel.modCreel.creelChecks).creelPassEnd

end Sys2Proof.Machine
end

section
/-!
Each operation of Machine/CxlEvents.lean keeps the queue and the invariant: the CXL port.
-/
namespace Sys2Proof.Machine

variable {s₀ : State}

theorem Safe.linkReset {s} (h : Safe s₀ s) : Safe s₀ s.linkReset := h.modCxl.refreshLevel
theorem Safe.execPerstNAssert {s} (h : Safe s₀ s) : OfNext (Safe s₀) (execPerstNAssert s) := OfNext.leaf (safe_ite h.lit.linkReset h.lit)
theorem Safe.execPerstNRelease {s width rate flit256} (h : Safe s₀ s) : OfNext (Safe s₀) (execPerstNRelease width rate flit256 s) :=
  OfNext.leaf (safe_ite h.lit.modCxl.refreshLevel h.lit)
theorem Safe.execCxlLinkReset {s} (h : Safe s₀ s) : OfNext (Safe s₀) (execCxlLinkReset s) := OfNext.leaf (safe_ite h.linkReset h)
theorem Safe.execLdReset {s ld} (h : Safe s₀ s) : OfNext (Safe s₀) (execLdReset ld s) := OfNext.ite OfNext.fault (OfNext.leaf h.modLd)
theorem Safe.execCxlLaneFailure {s width rate} (h : Safe s₀ s) : OfNext (Safe s₀) (execCxlLaneFailure width rate s) :=
  OfNext.ite (OfNext.leaf h) (OfNext.leaf (safe_ite h.modCxl.setFlag.raise.refreshLevel h.modCxl))
theorem Safe.execMsixEnable {s ld} (h : Safe s₀ s) : OfNext (Safe s₀) (execMsixEnable ld s) :=
  OfNext.ite OfNext.fault (OfNext.leaf (safe_foldl (fun _ _ h1 => h1.emit) _ h.setLd))
theorem Safe.execIdeIntegrityFailure {s ld} (h : Safe s₀ s) : OfNext (Safe s₀) (execIdeIntegrityFailure ld s) := by
  unfold Machine.execIdeIntegrityFailure
  split
  · exact OfNext.leaf (safe_ite h.modCxl.raise h)
  · exact OfNext.ite OfNext.fault (OfNext.leaf (safe_ite h.modLd.raise h))
theorem Safe.execSpdmDoeMessage {s ld msg} (h : Safe s₀ s) : OfNext (Safe s₀) (execSpdmDoeMessage ld msg s) := by
  unfold Machine.execSpdmDoeMessage
  split
  · exact OfNext.fault
  · split
    · exact OfNext.leaf h
    · extract_lets reply
      split
      · exact OfNext.leaf h.emit
      · exact OfNext.leaf h.emit
      · exact OfNext.ite (OfNext.leaf h.raise) (OfNext.leaf (safe_ite h.modLd h).emit)
      · exact OfNext.ite (OfNext.leaf h.emit) (OfNext.leaf (safe_ite h.modCxl h.modLd).emit)
      · exact OfNext.leaf h.emit
theorem Safe.execTspRequest {s ld req} (h : Safe s₀ s) : OfNext (Safe s₀) (execTspRequest ld req s) := by
  unfold Machine.execTspRequest
  split
  · exact OfNext.fault
  · split
    · exact OfNext.leaf h
    · extract_lets mine reply
      split
      · exact OfNext.ite (OfNext.leaf h.emit) (OfNext.leaf h.modLd.emit)
      · exact OfNext.leaf h.modLd.emit
      · exact OfNext.leaf h.emit
      · exact OfNext.ite (OfNext.leaf h.modLd.emit) (OfNext.leaf h.emit)
theorem Safe.execFmApiCommand {s req} (h : Safe s₀ s) : OfNext (Safe s₀) (execFmApiCommand req s) := by
  unfold Machine.execFmApiCommand
  split
  · exact OfNext.leaf h
  · extract_lets reply
    split
    · exact OfNext.leaf h.emit
    · exact OfNext.leaf h.emit
    · exact OfNext.ite (OfNext.leaf h.emit) (OfNext.leaf h.modLd.emit)
    · exact OfNext.leaf h.emit
    · exact OfNext.leaf h.modCxl.emit
theorem Safe.sideReply {s bs} (h : Safe s₀ s) : Safe s₀ (s.sideReply bs) := safe_ite h h.emit
theorem Safe.execStatusRead {s} (h : Safe s₀ s) : OfNext (Safe s₀) (execStatusRead s) := OfNext.leaf h.sideReply
theorem Safe.execPldmRequest {s ptype item reading} (h : Safe s₀ s) : OfNext (Safe s₀) (execPldmRequest ptype item reading s) :=
  OfNext.leaf h.sideReply
theorem Safe.execMctpControlRequest {s assign msg} (h : Safe s₀ s) : OfNext (Safe s₀) (execMctpControlRequest assign msg s) := by
  unfold Machine.execMctpControlRequest
  split
  · exact OfNext.leaf h
  · extract_lets base s1
    have hs1 : Safe s₀ s1 := by
      unfold s1
      split
      · exact safe_ite h h.lit
      · exact h
    exact OfNext.leaf hs1.sideReply
theorem Safe.execI3cAddressAssign {s addr} (h : Safe s₀ s) : OfNext (Safe s₀) (execI3cAddressAssign addr s) :=
  OfNext.leaf (safe_ite h h.lit)

end Sys2Proof.Machine
end

section
/-!
Each operation of Machine/PowerUnit.lean keeps the queue and the invariant: power.
-/
namespace Sys2Proof.Machine

variable {s₀ : State}

theorem Safe.reachRun {s} (h : Safe s₀ s) : Safe s₀ s.reachRun := safe_foldl (fun _ _ h1 => safe_ite h1 h1.control) _ h.enter.modPower
theorem Safe.reachHold {s} (h : Safe s₀ s) : Safe s₀ s.reachHold := by
  unfold State.reachHold
  exact h.enter.modPower
theorem Safe.answerPower {s} (h : Safe s₀ s) : Safe s₀ s.answerPower := by
  unfold State.answerPower
  split
  · exact h.modPower.answer
  · exact h
theorem Safe.cmdPowerStateSet {s x} (h : Safe s₀ s) : OfOk (OfOut (Safe s₀)) (cmdPowerStateSet x s) :=
  OfOk.after fun _ => OfOk.ite (OfOk.pure h.outDone) (OfOk.ite (OfOk.pure h.modPower.modPower.lit.outWait) (OfOk.ite
    (OfOk.pure h.toCreel.standby.enter.modPower.outDone) (OfOk.ite (OfOk.ite (OfOk.pure h.outDone) (OfOk.pure h.metWake.modPower.outWait))
      (OfOk.ite (OfOk.pure h.modPower.modPower.outPend) (OfOk.ite (OfOk.pure h.modPower.modPower.outWait)
        (OfOk.pure h.reachRun.outDone))))))
theorem Safe.execPowerStateSet {s m slot} (h : Safe s₀ s) : OfNext (Safe s₀) (execPowerStateSet m slot s) := by
  unfold Machine.execPowerStateSet
  split
  · exact OfNext.fault
  · split
    · exact OfNext.leaf h
    · exact OfNext.ite (OfNext.leaf h) (h.cmdRow (fun _ _ h1 => h1.cmdPowerStateSet))
theorem Safe.cmdPowerCapSet {s x} (h : Safe s₀ s) : OfOk (OfOut (Safe s₀)) (cmdPowerCapSet x s) :=
  OfOk.after fun _ => OfOk.pure h.modPower.outDone
theorem Safe.cmdDozeConfigure {s x} (h : Safe s₀ s) : OfOk (OfOut (Safe s₀)) (cmdDozeConfigure x s) :=
  OfOk.after fun _ => OfOk.after fun _ => OfOk.pure h.modPower.outDone
theorem Safe.cmdPowerInfo {s x} (h : Safe s₀ s) : OfOk (OfOut (Safe s₀)) (cmdPowerInfo x s) := OfOk.leaf h.outDone
theorem Safe.execPowerCapSet {s m slot} (h : Safe s₀ s) : OfNext (Safe s₀) (execPowerCapSet m slot s) :=
  h.cmdRow fun _ _ h1 => h1.cmdPowerCapSet
theorem Safe.execDozeConfigure {s m slot} (h : Safe s₀ s) : OfNext (Safe s₀) (execDozeConfigure m slot s) :=
  h.cmdRow fun _ _ h1 => h1.cmdDozeConfigure
theorem Safe.execPowerInfo {s m slot} (h : Safe s₀ s) : OfNext (Safe s₀) (execPowerInfo m slot s) :=
  h.cmdRow fun _ _ h1 => h1.cmdPowerInfo
theorem Safe.execHoldEntryComplete {s} (h : Safe s₀ s) : OfNext (Safe s₀) (execHoldEntryComplete s) :=
  OfNext.ite (OfNext.leaf (safe_ite h.reachHold.answerPower h.reachHold)) (OfNext.leaf h)
theorem Safe.requestL0p {s lanes} (h : Safe s₀ s) : Safe s₀ (s.requestL0p lanes) := safe_ite h.lit h
theorem Safe.portLow {s p} (h : Safe s₀ s) : Safe s₀ (s.portLow p) := safe_ite h h.control.modPort
theorem Safe.portFull {s p} (h : Safe s₀ s) : Safe s₀ (s.portFull p) := safe_ite h.modPort h
theorem Safe.cxlFull {s} (h : Safe s₀ s) : Safe s₀ s.cxlFull := safe_ite h.lit h
theorem Safe.execDozeEntryReady {s} (h : Safe s₀ s) : OfNext (Safe s₀) (execDozeEntryReady s) := by
  unfold Machine.execDozeEntryReady
  split
  · split
    · rename_i e
      extract_lets s2 late src s3 s4 s5
      have hs2 : Safe s₀ s2 := ((safe_foldl (fun _ _ h1 => h1.portLow) _ h).free.ofSnd e).requestL0p
      exact OfNext.leaf (safe_ite hs2.enter.modPower.answerPower.modPower hs2.enter.modPower.answerPower)
  · exact OfNext.leaf h
theorem Safe.execDozeSample {s hottest} (h : Safe s₀ s) : OfNext (Safe s₀) (execDozeSample hottest s) :=
  OfNext.ite (OfNext.leaf (safe_ite h.modPower h.modPower.metWake)) (OfNext.leaf h)
theorem Safe.execCxlWakeRequest {s ld lent off len data} (h : Safe s₀ s) : OfNext (Safe s₀) (execCxlWakeRequest ld lent off len data s) :=
  OfNext.ite OfNext.fault (OfNext.ite OfNext.fault (OfNext.ite (OfNext.leaf h.holdRequest) (OfNext.leaf h)))
theorem Safe.endDoze {s hold} (h : Safe s₀ s) : Safe s₀ (s.endDoze hold) :=
  (safe_foldl (fun _ _ h1 => h1.kick) _ (safe_ite h.serveHeld.reachRun.reachHold h.serveHeld.reachRun).answerPower.applyLatch).fetchAll
theorem Safe.execDozeExitComplete {s} (h : Safe s₀ s) : OfNext (Safe s₀) (execDozeExitComplete s) :=
  OfNext.ite (OfNext.leaf (safe_foldl (fun _ _ h1 => h1.portFull) _ h).cxlFull.endDoze) (OfNext.leaf h)
theorem Safe.execInputMeasurement {s mv} (h : Safe s₀ s) : OfNext (Safe s₀) (execInputMeasurement mv s) := by
  unfold Machine.execInputMeasurement
  extract_lets inBand was lowWas fresh s1 s2
  split
  · exact OfNext.leaf h.modPower.modPower
  · split
    · exact OfNext.leaf h.modPower.cutPower
    · exact OfNext.ite (OfNext.leaf h.modPower.cutPower) (OfNext.leaf (safe_ite h.modPower.modPower.setFlag.raise h.modPower.modPower))
theorem Safe.execInputQualified {s} (h : Safe s₀ s) : OfNext (Safe s₀) (execInputQualified s) := by
  unfold Machine.execInputQualified
  split
  · exact OfNext.ite (OfNext.leaf h.modPower) (OfNext.leaf h)
  · exact OfNext.leaf h
theorem Safe.execSenseBreak {s} (h : Safe s₀ s) : OfNext (Safe s₀) (execSenseBreak s) := OfNext.leaf h.cutPower.modPower
theorem Safe.execPowerCapGovernorStep {s watts} (h : Safe s₀ s) : OfNext (Safe s₀) (execPowerCapGovernorStep watts s) :=
  OfNext.ite (OfNext.leaf h) (OfNext.leaf (safe_ite (safe_ite h.modPower.setFlag h.modPower).setFlag.raise
    (safe_ite h.modPower.setFlag h.modPower)))
theorem Safe.execSensorThresholdCrossing {s sensor reading} (h : Safe s₀ s) :
    OfNext (Safe s₀) (execSensorThresholdCrossing sensor reading s) := by
  unfold Machine.execSensorThresholdCrossing
  split
  · exact OfNext.fault
  · split
    · exact OfNext.leaf h
    · extract_lets p now on throttling s1 due s2
      have hs2 : Safe s₀ s2 := safe_ite h.modPower.setFlag h.modPower
      exact OfNext.ite (OfNext.leaf (safe_ite hs2.modPower.raise hs2)) (OfNext.leaf h.modPower)
theorem Safe.execHardTrip {s sensor reading} (h : Safe s₀ s) : OfNext (Safe s₀) (execHardTrip sensor reading s) := by
  unfold Machine.execHardTrip
  split
  · exact OfNext.fault
  · exact OfNext.ite (OfNext.leaf h) (OfNext.leaf h.stop.lit.modPower)
theorem Safe.execHardTripRailsOff {s} (h : Safe s₀ s) : OfNext (Safe s₀) (execHardTripRailsOff s) := OfNext.leaf (safe_ite h.modPower h)
theorem Safe.execHardTripRestart {s readings} (h : Safe s₀ s) : OfNext (Safe s₀) (execHardTripRestart readings s) :=
  OfNext.ite (OfNext.leaf h.modPower) (OfNext.leaf h)
theorem Safe.execModuleResetNAssert {s held} (h : Safe s₀ s) : OfNext (Safe s₀) (execModuleResetNAssert held s) :=
  OfNext.ite (OfNext.leaf h) (OfNext.ite (OfNext.leaf h.modPower) (OfNext.leaf (safe_ite h h.stop).modPower))
theorem Safe.execModuleResetNRelease {s} (h : Safe s₀ s) : OfNext (Safe s₀) (execModuleResetNRelease s) := OfNext.leaf h.modPower
theorem Safe.execCoolantCheck {s inlet outlet dew} (h : Safe s₀ s) : OfNext (Safe s₀) (execCoolantCheck inlet outlet dew s) :=
  OfNext.ite (OfNext.leaf h) (OfNext.ite (OfNext.leaf h.modPower.modPower.raise) (OfNext.leaf h.modPower))

end Sys2Proof.Machine
end

section
/-!
Each operation of Machine/Sessions.lean keeps the queue and the invariant: flyer sessions.
-/
namespace Sys2Proof.Machine

variable {s₀ : State}

theorem Safe.addSession {s node port h'} (h : Safe s₀ s) : OfSome (fun r => Safe s₀ r.2) (s.addSession node port h') := by
  unfold State.addSession
  split
  · exact OfSome.none
  · rename_i e
    exact OfSome.leaf (h.pick.elim e).modFlyer.raise.inSnd
theorem Safe.cmdSessionOpen {s h' x} (h : Safe s₀ s) : OfOk (OfOut (Safe s₀)) (cmdSessionOpen h' x s) := by
  unfold Machine.cmdSessionOpen
  extract_lets node port s1
  exact OfOk.after fun _ => OfOk.after fun _ => OfOk.after fun _ => OfOk.after fun _ =>
      OfOk.ite h.rngRefusal (OfOk.ite (OfOk.pure h.emit.outEnded) (h.emit.addSession.found.bindOf fun _ h1 => OfOk.pure h1.outDone))
theorem Safe.dropSession {s i} (h : Safe s₀ s) : Safe s₀ (s.dropSession i) := safe_foldl (fun _ _ h1 => h1.connError) _ h.modFlyer
theorem Safe.cmdSessionClose {s x} (h : Safe s₀ s) : OfOk (OfOut (Safe s₀)) (cmdSessionClose x s) :=
  OfOk.after fun _ => OfOk.pure h.emit.dropSession.outDone
theorem Safe.execSessionOpen {s m slot h'} (h : Safe s₀ s) : OfNext (Safe s₀) (execSessionOpen m slot h' s) :=
  h.cmdRow fun _ _ h1 => h1.cmdSessionOpen
theorem Safe.execSessionClose {s m slot} (h : Safe s₀ s) : OfNext (Safe s₀) (execSessionClose m slot s) :=
  h.cmdRow fun _ _ h1 => h1.cmdSessionClose
theorem Safe.execHandshakePacketReceive {s port node msg step} (h : Safe s₀ s) :
    OfNext (Safe s₀) (execHandshakePacketReceive port node msg step s) := by
  unfold Machine.execHandshakePacketReceive
  refine Safe.portRow (safe_ite h (safe_ite h.discard.setPort ?_))
  extract_lets s1 s2
  split
  · split
    · exact safe_ite h.setPort.dropSession h.setPort
    · exact h.setPort
  · split
    · exact h.setPort.raise
    · split
      · split
        · split
          · rename_i e
            exact h.setPort.emit.addSession.elim e
          · exact h.setPort.emit
        · exact h.setPort.emit
      · exact h.setPort.emit
theorem Safe.execSessionRekey {s i} (h : Safe s₀ s) : OfNext (Safe s₀) (execSessionRekey i s) := by
  unfold Machine.execSessionRekey
  split
  · exact OfNext.ite (OfNext.leaf h.modFlyer) (OfNext.leaf h)
  · exact OfNext.leaf h
theorem Safe.execKeyPhaseOverlapExpiry {s i} (h : Safe s₀ s) : OfNext (Safe s₀) (execKeyPhaseOverlapExpiry i s) := by
  unfold Machine.execKeyPhaseOverlapExpiry
  split
  · split
    · exact OfNext.leaf (safe_ite h.modFlyer h)
    · exact OfNext.leaf h
  · exact OfNext.leaf h

end Sys2Proof.Machine
end

section
/-!
Each operation of Machine/Teardown.lean keeps the queue and the invariant: the teardown of a tenant.
-/
namespace Sys2Proof.Machine

variable {s₀ : State}

theorem Safe.teardownBoxes {s tag} (h : Safe s₀ s) : Safe s₀ (s.teardownBoxes tag) := safe_foldl (fun _ _ h1 => h1.unbind) _ h
theorem Safe.teardownWork {s tag} (h : Safe s₀ s) : Safe s₀ (s.teardownWork tag) :=
  safe_foldl (fun _ _ h3 => h3.destroyList) _ (safe_foldl (fun _ _ h2 => h2.releaseCombine) _ (safe_foldl (fun _ _ h1 => h1.cancelIn) _ h))
theorem Safe.teardownConn {s i k} (h : Safe s₀ s) : Safe s₀ (s.teardownConn i k) := by
  unfold State.teardownConn
  exact h.connError.freeConn.modWork
theorem Safe.teardownSkeins {s tag} (h : Safe s₀ s) : Safe s₀ (s.teardownSkeins tag) := by
  unfold State.teardownSkeins
  extract_lets s1 ins s2 s3
  have hs1 : Safe s₀ s1 := safe_foldl (fun _ _ h1 => h1.killSkein) _ h
  have hs3 : Safe s₀ s3 := by
    unfold s3
    refine safe_foldl (fun _ _ h1 => safe_ite (Safe.answer ?_) ?_) _ hs1.modPfx
    · split
      · exact h1.credit.modPfx
      · exact h1
    · split
      · exact h1.credit.modPfx
      · exact h1
  exact safe_foldl (fun _ _ h1 => h1.removeEntries.modPfx.settleRun) _ hs3
theorem Safe.teardownQueues {s tag} (h : Safe s₀ s) : Safe s₀ (s.teardownQueues tag) := by
  unfold State.teardownQueues
  extract_lets s1 s2 s3 s4 s5 s6 s7 ts s8 base
  have hs1 : Safe s₀ s1 := safe_foldl (fun _ _ h1 => h1.teardownConn) _ h
  have hs2 : Safe s₀ s2 := safe_foldl (fun _ _ h1 => h1.endRegion) _ hs1
  have hs3 : Safe s₀ s3 := safe_foldl (fun _ _ h1 => h1.dropArea.credit.modFlyer) _ hs2
  have hs4 : Safe s₀ s4 := safe_foldl (fun _ _ h1 => (safe_ite h1 h1.destroyJq).answerQueue.modWork) _ hs3
  have hs5 : Safe s₀ s5 := safe_foldl (fun _ _ h1 => h1.dropArea.credit.dropCq) _ hs4
  have hs6 : Safe s₀ s6 := safe_foldl (fun _ _ h1 => h1.setStore) _ hs5
  have hs7 : Safe s₀ s7 := safe_foldl (fun _ _ h1 => h1.setStore) _ hs6
  have hs8 : Safe s₀ s8 := safe_foldl (fun _ _ h1 => h1.credit) _ hs7
  exact hs8.lit
theorem Safe.teardownLent {s tid} (h : Safe s₀ s) : Safe s₀ (s.teardownLent tid) := h.modCxl.modTenant
theorem Safe.cmdTenantDestroy {s x} (h : Safe s₀ s) : OfOk (OfOut (Safe s₀)) (cmdTenantDestroy x s) := by
  unfold Machine.cmdTenantDestroy
  extract_lets tag tid s1 s2 s3
  have hs2 : Safe s₀ s2 := h.modTenant.teardownBoxes.teardownWork.teardownSkeins
  exact OfOk.after fun _ => OfOk.after fun _ => OfOk.after fun _ =>
      OfOk.pure hs2.teardownQueues.teardownLent.modTenant.modSec.writeKeyStore.outWait
theorem Safe.zeroFree {s} (h : Safe s₀ s) : Safe s₀ s.zeroFree := (h.litMem Mem.wf_filter).heal
theorem Safe.zeroLent {s r} (h : Safe s₀ s) : Safe s₀ (s.zeroLent r) := by
  unfold State.zeroLent
  exact (h.litMem Mem.wf_clear).heal.modCxl
theorem Safe.eraseTenant {s tid t} (h : Safe s₀ s) : Safe s₀ (s.eraseTenant tid t) :=
  (safe_foldl (fun _ _ h1 => h1.zeroLent) _ h.zeroFree).lit.modFlyer.modSec.writeKeyStore.writeTenants
theorem Safe.execTeardownZeroingComplete {s tid} (h : Safe s₀ s) : OfNext (Safe s₀) (execTeardownZeroingComplete tid s) := by
  unfold Machine.execTeardownZeroingComplete
  split
  · exact OfNext.leaf h
  · extract_lets tag s1
    split
    · split
      · exact OfNext.leaf h.eraseTenant.raise.answer.fetchAll
      · exact OfNext.leaf h.eraseTenant.raise.fetchAll
    · exact OfNext.leaf h
theorem Safe.execTenantDestroy {s m slot} (h : Safe s₀ s) : OfNext (Safe s₀) (execTenantDestroy m slot s) :=
  h.cmdRow fun _ _ h1 => h1.cmdTenantDestroy

end Sys2Proof.Machine
end

section
/-!
Each operation of Machine/Startup.lean keeps the queue and the invariant: the cold start.
-/
namespace Sys2Proof.Machine

variable {s₀ : State}

theorem Safe.resumePools {s lost} (h : Safe s₀ s) : Safe s₀ (s.resumePools lost) := h.lit
theorem Safe.restoreUnder {s idx h'} (h : Safe s₀ s) : OfSome (fun r => Safe s₀ r.2.2) (s.restoreUnder idx h') :=
  OfSome.ite (OfSome.leaf h.modStore.inSnd3) (h.takeSkeinIndex.mapOf fun _ h1 => h1.inSnd3)
theorem Safe.reportDamage {s idx k} (h : Safe s₀ s) : Safe s₀ (s.reportDamage idx k) :=
  safe_foldl (fun _ _ h1 => h1.raiseDamaged.modStore) _ h
theorem Safe.renameRecord {s old new k} (h : Safe s₀ s) : Safe s₀ (s.renameRecord old new k) := by
  have written : Safe s₀ (s.programRecord .skein (flashPages (recordBytes k.leaves.length)) 0).2 := h.programRecord
  rw [State.renameRecord]
  generalize s.programRecord .skein (flashPages (recordBytes k.leaves.length)) 0 = r at written ⊢
  obtain ⟨places, s1⟩ := r
  dsimp only
  exact (Safe.modCreel written).programRecord.modCreel.reclaim
theorem Safe.restoreOne {s idx r} (h : Safe s₀ s) : Safe s₀ (s.restoreOne idx r) := by
  unfold State.restoreOne
  extract_lets s1 tag
  split
  · exact h.modCreel
  · split
    · exact h.modCreel
    · rename_i e
      extract_lets k need
      split
      · exact h.modCreel.restoreUnder.elim e
      · rename_i e1
        extract_lets k1 s4 s5 s6 s7 s8
        have hs4 : Safe s₀ s4 := ((h.modCreel.restoreUnder.elim e).takeSlots.elim e1).setSkein.charge
        have hs6 : Safe s₀ s6 := safe_ite hs4.charge.modCreel hs4.charge.modCreel.renameRecord
        have hs8 : Safe s₀ s8 := safe_ite hs6.modBoot hs6.modBoot.raise
        exact hs8.reportDamage
theorem Safe.restoreAll {s} (h : Safe s₀ s) : Safe s₀ s.restoreAll :=
  (safe_foldl (fun _ _ h2 => h2.raise) _ (safe_foldl (fun _ _ h1 => h1.restoreOne) _ h)).modCreel.modBoot.raise.runTier
theorem Safe.execSkeinRestoration {s} (h : Safe s₀ s) : OfNext (Safe s₀) (execSkeinRestoration s) :=
  OfNext.ite (OfNext.leaf h.restoreAll.fetchAll) (OfNext.leaf h)
theorem Safe.trainStacks {s ok} (h : Safe s₀ s) : Safe s₀ (s.trainStacks ok) := by
  unfold State.trainStacks
  exact h.modRel.modStore
theorem Safe.startSpindles {s ok} (h : Safe s₀ s) : Safe s₀ (s.startSpindles ok) :=
  safe_foldl (fun _ _ h1 => safe_ite h1.expel h1) _ h.modRel
theorem Safe.startTenants {s} (h : Safe s₀ s) : Safe s₀ s.startTenants := h.lit
theorem Safe.finishTeardowns {s} (h : Safe s₀ s) : Safe s₀ s.finishTeardowns := by
  unfold State.finishTeardowns
  refine safe_foldl (fun _ _ h1 => ?_) _ h
  split
  · exact h1.eraseTenant.raise
  · exact h1.modSec
theorem Safe.emptyFlush {s} (h : Safe s₀ s) : Safe s₀ s.emptyFlush := by
  unfold State.emptyFlush
  extract_lets s1
  have hs1 : Safe s₀ s1 := by
    unfold s1
    refine safe_foldl (fun _ _ h1 => ?_) _ h
    split
    · exact safe_ite h1.programReel h1
    · exact h1
  exact hs1.modCreel
theorem Safe.startCreel {s clean reelsLost loss} (h : Safe s₀ s) : Safe s₀ (s.startCreel clean reelsLost loss) :=
  safe_ite h.modCreel.emptyFlush.setFlag h.modCreel.emptyFlush
theorem Safe.reportReels {s before reels lost} (h : Safe s₀ s) : Safe s₀ (s.reportReels before reels lost) := by
  unfold State.reportReels
  refine safe_foldl (fun _ _ h1 => ?_) _ h
  split
  · exact safe_ite h1.raise h1
  · exact h1
theorem Safe.startIsland {s clean} (h : Safe s₀ s) : Safe s₀ (s.startIsland clean) := by
  unfold State.startIsland
  exact h.modSec
theorem Safe.startTime {s} (h : Safe s₀ s) : Safe s₀ s.startTime := safe_ite h.lit h.lit
theorem Safe.startBox0 {s} (h : Safe s₀ s) : Safe s₀ s.startBox0 := safe_ite h.modMbox h.dropArea.dropArea.openBox0
theorem Safe.startPower {s} (h : Safe s₀ s) : Safe s₀ s.startPower :=
  safe_ite (safe_ite h.lit.reachRun.answerPower (safe_ite h.lit.modPower.reachHold.answerPower h.lit.modPower.reachHold)) h.modPower
theorem Safe.startEvents {s lost} (h : Safe s₀ s) : Safe s₀ (s.startEvents lost) := by
  unfold State.startEvents
  extract_lets s1 s2 s3 s4
  have hs1 : Safe s₀ s1 := safe_foldl (fun _ _ h1 => h1.raise) _ h
  have hs3 : Safe s₀ s3 := safe_ite hs1.raise.raise hs1.raise
  have hs4 : Safe s₀ s4 := by
    unfold s4
    split
    · exact safe_ite hs3.raise hs3
    · exact hs3
  exact safe_ite hs4.raise hs4
theorem Safe.endStart {s} (h : Safe s₀ s) : Safe s₀ s.endStart := h.modPower.modCreel
theorem Safe.enterRecovery {s why rep} (h : Safe s₀ s) : Safe s₀ (s.enterRecovery why rep) := safe_ite h.lit h.lit.modCxl
theorem Safe.startUp {s rep} (h : Safe s₀ s) : Safe s₀ (s.startUp rep) := by
  unfold State.startUp
  extract_lets clean gensLost reelsLost before reels s1 base s2 s3 s4 s5 s6 s7 s8 s9 s10 s11 s12 s13
  have hs4 : Safe s₀ s4 := h.runImage.startTime.lit.startIsland.trainStacks.modFlyer
  have hs7 : Safe s₀ s7 := safe_ite hs4.startSpindles.modCxl.modCxl hs4.startSpindles.modCxl.modCxl
  have hs9 : Safe s₀ s9 := hs7.resumePools.startCreel.startTenants.startBox0
  have hs13 : Safe s₀ s13 :=
      safe_ite hs9.modBoot.finishTeardowns.reportReels.checkReadOnly.restoreAll hs9.modBoot.finishTeardowns.reportReels
  exact hs13.refreshLevel.startEvents.startPower.endStart
theorem Safe.execColdStart {s rep} (h : Safe s₀ s) : OfNext (Safe s₀) (execColdStart rep s) :=
  OfNext.ite (OfNext.leaf h) (OfNext.ite (OfNext.leaf h.lit) (OfNext.ite (OfNext.leaf h.modSec.enterRecovery)
    (OfNext.leaf h.modSec.startUp.fetchAll)))

end Sys2Proof.Machine
end

section
/-!
Each operation of Machine/TierEvents.lean keeps the queue and the invariant: tier-engine events.
-/
namespace Sys2Proof.Machine

variable {s₀ : State}

theorem Safe.sweepConfig {s} (h : Safe s₀ s) : Safe s₀ s.sweepConfig := by
  unfold State.sweepConfig
  extract_lets base s1
  have hs1 : Safe s₀ s1 := by
    unfold s1
    split
    · exact h.lit
    · exact h
  exact hs1.modStore
theorem Safe.rankAll {s ks} (h : Safe s₀ s) : Safe s₀ (s.rankAll ks).2 := by
  unfold State.rankAll
  refine safe_foldl_snd (fun _ _ h1 => Safe.inSnd ?_) _ h.inSnd
  split
  · exact h1.raise
  · exact h1
theorem Safe.execSweepStart {s} (h : Safe s₀ s) : OfNext (Safe s₀) (execSweepStart s) := by
  unfold Machine.execSweepStart
  extract_lets busy s1 ks
  split
  · exact OfNext.leaf h
  · split
    · exact OfNext.leaf h.sweepNext.runTier
    · split
      · exact OfNext.leaf h
      · split
        · rename_i e
          extract_lets order s3 s4
          have hs3 : Safe s₀ s3 := by
            unfold s3
            split
            · exact (h.sweepConfig.rankAll.ofSnd e).modStore
            · exact h.sweepConfig.rankAll.ofSnd e
          have hs4 : Safe s₀ s4 := safe_ite hs3.raise hs3
          exact OfNext.ite (OfNext.leaf hs4.modStore.sweepNext.runTier) (OfNext.leaf hs4)
theorem Safe.afterMove {s} (h : Safe s₀ s) : Safe s₀ s.afterMove := h.releaseHeld.endPins.runTier
theorem Safe.execBobbinMoveCommit {s mv} (h : Safe s₀ s) : OfNext (Safe s₀) (execBobbinMoveCommit mv s) := by
  unfold Machine.execBobbinMoveCommit
  split
  · exact OfNext.leaf h
  · split
    · exact OfNext.leaf h
    · split
      · rename_i e
        exact OfNext.leaf (h.commitMove.elim e).afterMove
      · exact OfNext.leaf h
theorem Safe.execBobbinMoveAbandon {s mv checkFailed} (h : Safe s₀ s) : OfNext (Safe s₀) (execBobbinMoveAbandon mv checkFailed s) := by
  unfold Machine.execBobbinMoveAbandon
  split
  · exact OfNext.leaf h
  · exact OfNext.ite (OfNext.leaf h.failMove.afterMove) (OfNext.leaf h)
theorem Safe.execDoffEnd {s idx} (h : Safe s₀ s) : OfNext (Safe s₀) (execDoffEnd idx s) := by
  unfold Machine.execDoffEnd
  split
  · exact OfNext.leaf h
  · exact OfNext.ite (OfNext.leaf h.endDoff.afterMove) (OfNext.leaf h)
theorem Safe.execReloadEnd {s idx} (h : Safe s₀ s) : OfNext (Safe s₀) (execReloadEnd idx s) := by
  unfold Machine.execReloadEnd
  split
  · exact OfNext.leaf h
  · exact OfNext.ite (OfNext.leaf h.endReload.afterMove) (OfNext.leaf h)
theorem Safe.execDamagedDemotion {s idx layer hg bob} (h : Safe s₀ s) : OfNext (Safe s₀) (execDamagedDemotion idx layer hg bob s) :=
  OfNext.ite (OfNext.leaf h.demote.afterMove) (OfNext.leaf h)
theorem Safe.execSlotFree {s tier pbn} (h : Safe s₀ s) : OfNext (Safe s₀) (execSlotFree tier pbn s) := OfNext.leaf h.freePending.runTier
theorem Safe.execSkeinRetirementEnd {s idx} (h : Safe s₀ s) : OfNext (Safe s₀) (execSkeinRetirementEnd idx s) := by
  unfold Machine.execSkeinRetirementEnd
  split
  · exact OfNext.leaf h
  · exact OfNext.ite (OfNext.leaf h.endRetirement) (OfNext.leaf h)
theorem Safe.execLeaseExpiry {s idx} (h : Safe s₀ s) : OfNext (Safe s₀) (execLeaseExpiry idx s) := OfNext.leaf h.expireLease
theorem Safe.execOrphanHoldEnd {s idx} (h : Safe s₀ s) : OfNext (Safe s₀) (execOrphanHoldEnd idx s) := by
  unfold Machine.execOrphanHoldEnd
  split
  · exact OfNext.leaf h
  · split
    · exact OfNext.leaf h
    · split
      · exact OfNext.leaf h
      · extract_lets s1 s2
        have hs1 : Safe s₀ s1 := h.cancelSkeinJobs.removeSkeinEntries.dropCache
        exact OfNext.leaf (safe_ite hs1.modSkein.killSkein.releaseHeld hs1.modSkein)
theorem Safe.renameSlots {s r} (h : Safe s₀ s) : Safe s₀ (s.renameSlots r) := h.lit
theorem Safe.moveSlab {s p} (h : Safe s₀ s) : OfSome (Safe s₀) (s.moveSlab p) :=
  h.takeSlotNear.bindOf fun _ h1 => OfSome.pure (h1.litMem Mem.wf_copy).renameSlots.giveSlots
theorem Safe.zeroBand {s a b} (h : Safe s₀ s) : Safe s₀ (s.zeroBand a b) := h.litMem Mem.wf_clear
theorem Safe.setLent {s w gib} (h : Safe s₀ s) : Safe s₀ (s.setLent w gib) := h.zeroBand.lit.modStore.noteLow.answer
theorem Safe.lentFollow {s waiting} (h : Safe s₀ s) : Safe s₀ (State.lentFollow waiting s) := by
  induction waiting generalizing s with
  | nil =>
    unfold State.lentFollow
    exact h.modStore
  | cons x xs ih =>
    unfold State.lentFollow
    split
    · exact ih h.answer
    · split
      · exact ih h.answer
      · exact h.modStore.lentBegin
theorem Safe.lentDone {s w gib} (h : Safe s₀ s) : Safe s₀ (s.lentDone w gib) := h.setLent.lentFollow
theorem Safe.execLentBandChangeComplete {s} (h : Safe s₀ s) : OfNext (Safe s₀) (execLentBandChangeComplete s) := by
  unfold Machine.execLentBandChangeComplete
  split
  · exact OfNext.leaf h
  · split
    · exact OfNext.leaf h
    · split
      · exact OfNext.leaf h.lentDone.runTier
      · extract_lets first
        split
        · exact OfNext.leaf h.runTier
        · split
          · exact OfNext.leaf h
          · rename_i e
            exact OfNext.leaf ((ofSome_foldlM (fun _ _ h1 => h1.moveSlab) _ h).elim e).lentDone.runTier

end Sys2Proof.Machine
end

section
/-!
Each operation of Machine/TimeUnit.lean keeps the queue and the invariant: the time unit.
-/
namespace Sys2Proof.Machine

variable {s₀ : State}

theorem Safe.modTime {s f} (h : Safe s₀ s) : Safe s₀ (s.modTime f) := h.lit
theorem Safe.loadTime {s d} (h : Safe s₀ s) : Safe s₀ (s.loadTime d) := by
  unfold State.loadTime
  exact h.modTime.modStore.modFlyer.raise
theorem Safe.cmdTimeConfigure {s x} (h : Safe s₀ s) : OfOk (OfOut (Safe s₀)) (cmdTimeConfigure x s) :=
  OfOk.after fun _ => OfOk.pure (safe_ite h.modTime.loadTime.modTime h.modTime).outDone
theorem Safe.cmdTimeInfo {s x} (h : Safe s₀ s) : OfOk (OfOut (Safe s₀)) (cmdTimeInfo x s) :=
  OfOk.leaf (safe_ite_snd h.inSnd h.free).outDone
theorem Safe.execTimeConfigure {s m slot} (h : Safe s₀ s) : OfNext (Safe s₀) (execTimeConfigure m slot s) :=
  h.cmdRow fun _ _ h1 => h1.cmdTimeConfigure
theorem Safe.execTimeInfo {s m slot} (h : Safe s₀ s) : OfNext (Safe s₀) (execTimeInfo m slot s) := h.cmdRow fun _ _ h1 => h1.cmdTimeInfo
theorem Safe.sendSync {s p kind hops t} (h : Safe s₀ s) : Safe s₀ (s.sendSync p kind hops t) := h.control
theorem Safe.lockBy {s off src hops} (h : Safe s₀ s) : Safe s₀ (s.lockBy off src hops) :=
  safe_ite h.modTime.modTime.raise (safe_ite h.modTime.modTime.raise h.modTime)
theorem Safe.discipline {s p off} (h : Safe s₀ s) : Safe s₀ (s.discipline p off) := (safe_ite h.loadTime h.modTime).modTime.lockBy
theorem Safe.execSyncReceive {s port hops t} (h : Safe s₀ s) : OfNext (Safe s₀) (execSyncReceive port hops t s) :=
  OfNext.ite OfNext.fault (OfNext.ite (OfNext.leaf h) (OfNext.ite (OfNext.leaf h.modTime) (OfNext.leaf h.modTime.modTime.sendSync)))
theorem Safe.execDelayReqReceive {s port hops} (h : Safe s₀ s) : OfNext (Safe s₀) (execDelayReqReceive port hops s) :=
  OfNext.ite OfNext.fault (OfNext.ite (OfNext.leaf h) (OfNext.leaf h.sendSync))
theorem Safe.execDelayRespReceive {s port hops t} (h : Safe s₀ s) : OfNext (Safe s₀) (execDelayRespReceive port hops t s) := by
  unfold Machine.execDelayRespReceive
  split
  · exact OfNext.fault
  · split
    · exact OfNext.leaf h
    · extract_lets s1 s2 t4
      split
      · exact OfNext.leaf h.modTime
      · exact OfNext.ite (OfNext.leaf h.modTime) (OfNext.leaf (safe_ite h.modTime.modTime.discipline h.modTime.modTime))
theorem Safe.execDelayRespLimitExpiry {s port} (h : Safe s₀ s) : OfNext (Safe s₀) (execDelayRespLimitExpiry port s) := by
  unfold Machine.execDelayRespLimitExpiry
  split
  · exact OfNext.fault
  · split
    · exact OfNext.leaf (safe_ite h.modTime h)
    · exact OfNext.leaf h
theorem Safe.execSyncInterval {s port} (h : Safe s₀ s) : OfNext (Safe s₀) (execSyncInterval port s) :=
  OfNext.ite OfNext.fault (OfNext.ite (OfNext.leaf h) (OfNext.leaf h.modTime.sendSync))
theorem Safe.execSyncLossExpiry {s} (h : Safe s₀ s) : OfNext (Safe s₀) (execSyncLossExpiry s) :=
  OfNext.ite (OfNext.leaf h) (OfNext.leaf (safe_ite h.modTime.modTime.raise h.modTime.modTime))
theorem Safe.execTimeRefEdge {s} (h : Safe s₀ s) : OfNext (Safe s₀) (execTimeRefEdge s) := by
  unfold Machine.execTimeRefEdge
  split
  · exact OfNext.leaf h
  · split
    · exact OfNext.leaf h.loadTime.modTime
    · split
      · exact OfNext.leaf h
      · exact OfNext.ite (OfNext.leaf h.modTime) (OfNext.leaf h.modTime.lockBy)
theorem Safe.execReferenceEdgeLoss {s} (h : Safe s₀ s) : OfNext (Safe s₀) (execReferenceEdgeLoss s) :=
  OfNext.ite (OfNext.leaf h) (OfNext.leaf h.modTime.raise)
theorem Safe.execPpsOutPulse {s} (h : Safe s₀ s) : OfNext (Safe s₀) (execPpsOutPulse s) :=
  OfNext.ite (OfNext.leaf h.modTime) (OfNext.leaf h)

end Sys2Proof.Machine
end

section
/-!
Each operation of Machine/Tick.lean keeps the queue and the invariant: one nanosecond of an idle module.
-/
namespace Sys2Proof.Machine

variable {s₀ : State}

theorem Safe.tick {s} (h : Safe s₀ s) : Safe s₀ s.tick := safe_ite (safe_ite h.lit h.lit) h.lit

end Sys2Proof.Machine
end

section
/-!
Every step keeps canonical memory, the shape of the invocation and the commands that wait (R216, R181; DESIGN CHOICE, log 7 and 11).
-/
namespace Sys2Proof.Machine

/-- Every command keeps the queue that it finds and the invariant. -/
theorem Safe.exec {s₀ s : State} (h : Safe s₀ s) (c : Instr) : OfNext (Safe s₀) (Machine.exec c s) := by
  cases c with
  | sqTailWrite => exact h.execSqTailWrite
  | cqHeadWrite => exact h.execCqHeadWrite
  | eventHeadWrite => exact h.execEventHeadWrite
  | jobQueueDoorbell => exact h.execJobQueueDoorbell
  | sendQueueDoorbell => exact h.execSendQueueDoorbell
  | triggerRingDoorbell => exact h.execTriggerRingDoorbell
  | srqDoorbell => exact h.execSrqDoorbell
  | cqHeadUpdate => exact h.execCqHeadUpdate
  | w1cFlagWrite => exact h.execW1cFlagWrite
  | rcCounterRead => exact h.execRcCounterRead
  | timeNowLowRead => exact h.execTimeNowLowRead
  | timeNowHighRead => exact h.execTimeNowHighRead
  | recoveryGo => exact h.execRecoveryGo
  | registerWrite => exact h.execRegisterWrite
  | probeRead => exact h.execProbeRead
  | probeWrite => exact h.execProbeWrite
  | lentRead => exact h.execLentRead
  | lentWrite => exact h.execLentWrite
  | queueWindowAccess => exact h.execQueueWindowAccess
  | hdmDecoderCommit => exact h.execHdmDecoderCommit
  | getInterfaceVersion => exact h.execGetInterfaceVersion
  | setInterfaceVersion => exact h.execSetInterfaceVersion
  | moduleInfo => exact h.execModuleInfo
  | moduleConfigure => exact h.execModuleConfigure
  | ldConfigure => exact h.execLdConfigure
  | mailboxBind => exact h.execMailboxBind
  | mailboxUnbind => exact h.execMailboxUnbind
  | tenantCreate => exact h.execTenantCreate
  | tenantDestroy => exact h.execTenantDestroy
  | quotaSet => exact h.execQuotaSet
  | tenantInfo => exact h.execTenantInfo
  | skeinCreate => exact h.execSkeinCreate
  | skeinDestroy => exact h.execSkeinDestroy
  | skeinInfo => exact h.execSkeinInfo
  | skeinSetHint => exact h.execSkeinSetHint
  | leaseSwap => exact h.execLeaseSwap
  | programLoad => exact h.execProgramLoad
  | programUnload => exact h.execProgramUnload
  | tableLoad => exact h.execTableLoad
  | tableUnload => exact h.execTableUnload
  | cqCreate => exact h.execCqCreate
  | cqDestroy => exact h.execCqDestroy
  | jobQueueCreate => exact h.execJobQueueCreate
  | jobQueueDestroy => exact h.execJobQueueDestroy
  | jobCancel => exact h.execJobCancel
  | combineRelease => exact h.execCombineRelease
  | queueStatus => exact h.execQueueStatus
  | triggerListCreate => exact h.execTriggerListCreate
  | triggerListDestroy => exact h.execTriggerListDestroy
  | triggerPost => exact h.execTriggerPost
  | triggerCancel => exact h.execTriggerCancel
  | triggerResume => exact h.execTriggerResume
  | connCreate => exact h.execConnCreate
  | connModify => exact h.execConnModify
  | connDrain => exact h.execConnDrain
  | connDestroy => exact h.execConnDestroy
  | srqCreate => exact h.execSrqCreate
  | srqDestroy => exact h.execSrqDestroy
  | regionRegister => exact h.execRegionRegister
  | regionDeregister => exact h.execRegionDeregister
  | linkSpare => exact h.execLinkSpare
  | portConfigure => exact h.execPortConfigure
  | shaperSet => exact h.execShaperSet
  | gateSet => exact h.execGateSet
  | runCreate => exact h.execRunCreate
  | runAttach => exact h.execRunAttach
  | runRelease => exact h.execRunRelease
  | prefixInsert => exact h.execPrefixInsert
  | prefixRemove => exact h.execPrefixRemove
  | prefixProbe => exact h.execPrefixProbe
  | skeinDoff => exact h.execSkeinDoff
  | skeinReload => exact h.execSkeinReload
  | tierPin => exact h.execTierPin
  | tierUnpin => exact h.execTierUnpin
  | lentGrant => exact h.execLentGrant
  | lentRevoke => exact h.execLentRevoke
  | hostFence => exact h.execHostFence
  | publicationCreate => exact h.execPublicationCreate
  | publicationDelete => exact h.execPublicationDelete
  | lentPublish => exact h.execLentPublish
  | publicationGet => exact h.execPublicationGet
  | unitService => exact h.execUnitService
  | marginSweep => exact h.execMarginSweep
  | auditSet => exact h.execAuditSet
  | budgetSet => exact h.execBudgetSet
  | healthRead => exact h.execHealthRead
  | sampleSet => exact h.execSampleSet
  | telemetryRead => exact h.execTelemetryRead
  | statsRead => exact h.execStatsRead
  | timeConfigure => exact h.execTimeConfigure
  | timeInfo => exact h.execTimeInfo
  | powerStateSet => exact h.execPowerStateSet
  | powerCapSet => exact h.execPowerCapSet
  | dozeConfigure => exact h.execDozeConfigure
  | powerInfo => exact h.execPowerInfo
  | firmwareStage => exact h.execFirmwareStage
  | firmwareActivate => exact h.execFirmwareActivate
  | firmwareInfo => exact h.execFirmwareInfo
  | svnCommit => exact h.execSvnCommit
  | attestReport => exact h.execAttestReport
  | sessionOpen => exact h.execSessionOpen
  | sessionClose => exact h.execSessionClose
  | jobAdmission => exact h.execJobAdmission
  | jobAdmissionResume => exact h.execJobAdmissionResume
  | admitWaitExpiry => exact h.execAdmitWaitExpiry
  | sketchWaitDone => exact h.execSketchWaitDone
  | launchCountReached => exact h.execLaunchCountReached
  | leaArrival => exact h.execLeaArrival
  | spindleItemComplete => exact h.execSpindleItemComplete
  | spindleBarrierArrive => exact h.execSpindleBarrierArrive
  | jobStreamComplete => exact h.execJobStreamComplete
  | spindleLeavesService => exact h.execSpindleLeavesService
  | combineDescriptorPost => exact h.execCombineDescriptorPost
  | copy => exact h.execCopy
  | compact => exact h.execCompact
  | verify => exact h.execVerify
  | waitDescriptor => exact h.execWaitDescriptor
  | waitCounterChange => exact h.execWaitCounterChange
  | waitTimeoutExpiry => exact h.execWaitTimeoutExpiry
  | workRequestPost => exact h.execWorkRequestPost
  | linkFrameReceive => exact h.execLinkFrameReceive
  | writeExecute => exact h.execWriteExecute
  | importWrite => exact h.execImportWrite
  | readExecute => exact h.execReadExecute
  | readResponseReceive => exact h.execReadResponseReceive
  | sendExecute => exact h.execSendExecute
  | fetchAddExecute => exact h.execFetchAddExecute
  | compareSwapExecute => exact h.execCompareSwapExecute
  | atomicResponseReceive => exact h.execAtomicResponseReceive
  | queryExecute => exact h.execQueryExecute
  | plyExecute => exact h.execPlyExecute
  | appendExecute => exact h.execAppendExecute
  | appendComplete => exact h.execAppendComplete
  | sketchUpdate => exact h.execSketchUpdate
  | blockHashCompute => exact h.execBlockHashCompute
  | ackReceive => exact h.execAckReceive
  | nakReceive => exact h.execNakReceive
  | ackCoalesceExpiry => exact h.execAckCoalesceExpiry
  | ackTimeoutExpiry => exact h.execAckTimeoutExpiry
  | reassemblyTimeoutExpiry => exact h.execReassemblyTimeoutExpiry
  | timedHoldDelivery => exact h.execTimedHoldDelivery
  | heldActionSlotFree => exact h.execHeldActionSlotFree
  | frameTransmitEnd => exact h.execFrameTransmitEnd
  | gateEntryChange => exact h.execGateEntryChange
  | gateListSwitch => exact h.execGateListSwitch
  | samplePeriodBoundary => exact h.execSamplePeriodBoundary
  | linkAckReceive => exact h.execLinkAckReceive
  | replayReqReceive => exact h.execReplayReqReceive
  | linkAckTimer => exact h.execLinkAckTimer
  | linkReplayTimeout => exact h.execLinkReplayTimeout
  | retrainLimitExpiry => exact h.execRetrainLimitExpiry
  | switchReceive => exact h.execSwitchReceive
  | wavelengthFailure => exact h.execWavelengthFailure
  | laserBankFailure => exact h.execLaserBankFailure
  | lossOfLight => exact h.execLossOfLight
  | lossOfLightExpiry => exact h.execLossOfLightExpiry
  | wakeRequestReceive _ node => exact h.execWakeRequestReceive (node := node)
  | resumedReceive _ node => exact h.execResumedReceive (node := node)
  | enteringLowRateReceive _ node => exact h.execEnteringLowRateReceive (node := node)
  | syncReceive => exact h.execSyncReceive
  | delayReqReceive _ hops => exact h.execDelayReqReceive (hops := hops)
  | delayRespReceive => exact h.execDelayRespReceive
  | delayRespLimitExpiry => exact h.execDelayRespLimitExpiry
  | syncInterval => exact h.execSyncInterval
  | syncLossExpiry => exact h.execSyncLossExpiry
  | timeRefEdge => exact h.execTimeRefEdge
  | referenceEdgeLoss => exact h.execReferenceEdgeLoss
  | handshakePacketReceive => exact h.execHandshakePacketReceive
  | sessionRekey => exact h.execSessionRekey
  | keyPhaseOverlapExpiry => exact h.execKeyPhaseOverlapExpiry
  | leaseExpiry => exact h.execLeaseExpiry
  | orphanHoldEnd => exact h.execOrphanHoldEnd
  | combineTimeoutExpiry => exact h.execCombineTimeoutExpiry
  | sweepStart => exact h.execSweepStart
  | bobbinMoveCommit => exact h.execBobbinMoveCommit
  | bobbinMoveAbandon => exact h.execBobbinMoveAbandon
  | doffEnd => exact h.execDoffEnd
  | reloadEnd => exact h.execReloadEnd
  | damagedDemotion => exact h.execDamagedDemotion
  | slotFree => exact h.execSlotFree
  | skeinRetirementEnd => exact h.execSkeinRetirementEnd
  | prefixShiftComplete => exact h.execPrefixShiftComplete
  | prefixShadowCompare => exact h.execPrefixShadowCompare
  | lentBandChangeComplete => exact h.execLentBandChangeComplete
  | hostFenceDrain => exact h.execHostFenceDrain
  | lentRevokeDrain => exact h.execLentRevokeDrain
  | patrolBudgetPeriod => exact h.execPatrolBudgetPeriod
  | calibrationStep => exact h.execCalibrationStep
  | channelSpareCopyComplete => exact h.execChannelSpareCopyComplete
  | channelFailure => exact h.execChannelFailure
  | columnSelfTestComplete => exact h.execColumnSelfTestComplete
  | healthRecompute => exact h.execHealthRecompute
  | shadowAudit => exact h.execShadowAudit
  | auditArbiterComplete => exact h.execAuditArbiterComplete
  | mergeStart => exact h.execMergeStart
  | mergeComplete => exact h.execMergeComplete
  | mergeDestFail => exact h.execMergeDestFail
  | creelProgramFail => exact h.execCreelProgramFail
  | creelEraseFail => exact h.execCreelEraseFail
  | creelEraseComplete => exact h.execCreelEraseComplete
  | creelScanComplete => exact h.execCreelScanComplete
  | creelPatrolPeriod => exact h.execCreelPatrolPeriod
  | inputMeasurement => exact h.execInputMeasurement
  | inputQualified => exact h.execInputQualified
  | senseBreak => exact h.execSenseBreak
  | powerCapGovernorStep => exact h.execPowerCapGovernorStep
  | sensorThresholdCrossing => exact h.execSensorThresholdCrossing
  | hardTrip => exact h.execHardTrip
  | hardTripRailsOff => exact h.execHardTripRailsOff
  | coolantCheck => exact h.execCoolantCheck
  | holdEntryComplete => exact h.execHoldEntryComplete
  | dozeEntryReady => exact h.execDozeEntryReady
  | dozeSample => exact h.execDozeSample
  | cxlWakeRequest => exact h.execCxlWakeRequest
  | dozeExitComplete => exact h.execDozeExitComplete
  | moduleResetNAssert => exact h.execModuleResetNAssert
  | moduleResetNRelease => exact h.execModuleResetNRelease
  | perstNAssert => exact h.execPerstNAssert
  | cxlLinkReset => exact h.execCxlLinkReset
  | ldReset => exact h.execLdReset
  | cxlLaneFailure => exact h.execCxlLaneFailure
  | ideIntegrityFailure => exact h.execIdeIntegrityFailure
  | spdmDoeMessage => exact h.execSpdmDoeMessage
  | tspRequest => exact h.execTspRequest
  | fmApiCommand => exact h.execFmApiCommand
  | commandBoundExpiry => exact h.execCommandBoundExpiry
  | controlCoreWatchdog => exact h.execControlCoreWatchdog
  | controlCoreRestart => exact h.execControlCoreRestart
  | liveActivationHandoff => exact h.execLiveActivationHandoff
  | liveActivationBudgetExpiry => exact h.execLiveActivationBudgetExpiry
  | coldStart => exact h.execColdStart
  | skeinRestoration => exact h.execSkeinRestoration
  | teardownZeroingComplete => exact h.execTeardownZeroingComplete
  | batchWindowClose => exact h.execBatchWindowClose
  | bottomTreeBuilt => exact h.execBottomTreeBuilt
  | rngHealthFailure => exact h.execRngHealthFailure
  | statusRead => exact h.execStatusRead
  | pldmRequest => exact h.execPldmRequest
  | mctpControlRequest => exact h.execMctpControlRequest
  | i3cAddressAssign => exact h.execI3cAddressAssign
  | nop => exact h.execNop
  | endProg => exact h.execEndProg
  | trap => exact h.execTrap
  | brz => exact h.execBrz
  | brnz => exact h.execBrnz
  | brany => exact h.execBrany
  | brnone => exact h.execBrnone
  | rep => exact h.execRep
  | reps => exact h.execReps
  | ldk => exact h.execLdk
  | ldkx => exact h.execLdkx
  | sli => exact h.execSli
  | sadd => exact h.execSadd
  | saddi => exact h.execSaddi
  | ssub => exact h.execSsub
  | smul => exact h.execSmul
  | sand => exact h.execSand
  | sor => exact h.execSor
  | sxor => exact h.execSxor
  | ssh => exact h.execSsh
  | sshi => exact h.execSshi
  | smin => exact h.execSmin
  | smax => exact h.execSmax
  | sminu => exact h.execSminu
  | smaxu => exact h.execSmaxu
  | sslt => exact h.execSslt
  | ssltu => exact h.execSsltu
  | vadd => exact h.execVadd
  | vsub => exact h.execVsub
  | vmul => exact h.execVmul
  | vdiv => exact h.execVdiv
  | vmax => exact h.execVmax
  | vmin => exact h.execVmin
  | vabs => exact h.execVabs
  | vneg => exact h.execVneg
  | vexp => exact h.execVexp
  | vtanh => exact h.execVtanh
  | vsel => exact h.execVsel
  | vldk => exact h.execVldk
  | vbcst => exact h.execVbcst
  | vbcsti => exact h.execVbcsti
  | vlane => exact h.execVlane
  | vext => exact h.execVext
  | vredadd => exact h.execVredadd
  | vredmax => exact h.execVredmax
  | pcmp => exact h.execPcmp
  | plog => exact h.execPlog
  | pnot => exact h.execPnot
  | prange => exact h.execPrange
  | pcnt => exact h.execPcnt
  | perstNRelease => exact h.execPerstNRelease
  | portRetrainComplete => exact h.execPortRetrainComplete
  | lightReturn => exact h.execLightReturn
  | laserFailoverComplete => exact h.execLaserFailoverComplete
  | shaperTokenAccrual tid cls _ => exact h.execShaperTokenAccrual (tid := tid) (cls := cls)
  | msixEnable => exact h.execMsixEnable
  | hardTripRestart => exact h.execHardTripRestart
  | ppsOutPulse => exact h.execPpsOutPulse
  | batchWindowOpen => exact h.execBatchWindowOpen

/-- A step on a queue leaves the queue's rest, and the invariant where it held. -/
theorem safe_step {s t : State} {c : Instr} {cs : List Instr} (queue : s.pending = c :: cs) (stepped : step s = .next t) :
    Safe { s with pending := cs } t := by
  unfold step at stepped
  rw [queue] at stepped
  exact ((Safe.refl { s with pending := cs }).exec c).elim stepped

theorem stepHolds : Claims.StepHolds := by
  intro s t holds stepped
  cases queue : s.pending with
  | nil =>
    unfold step at stepped
    rw [queue] at stepped
    cases stepped
    exact (Safe.refl s).tick.holds holds
  | cons c cs => exact (safe_step queue stepped).holds holds

theorem queueIsKept : Claims.QueueIsKept := by
  intro s t stepped
  cases queue : s.pending with
  | nil =>
    unfold step at stepped
    rw [queue] at stepped
    cases stepped
    exact (Safe.refl s).tick.queue.trans queue
  | cons c cs => exact (safe_step queue stepped).queue

/-- Settles O8: no operation of the model writes the queue, memory is written only by writes that keep the canonical form, and the
invocation only by the Breus rows, which keep its shape, and by the loss of volatile state, which leaves an idle one. -/
theorem stepsKeepInvariant : Obligations.StepsKeepInvariant := ⟨stepHolds, queueIsKept⟩

end Sys2Proof.Machine
end
